-- ==== Sys2Proof/Word.lean ====
section
/-! DEFINITION. The words the UW96 computes on and the identities of its units. -/

namespace Sys2Proof

/-- One byte of memory. -/
abbrev Byte := BitVec 8

/-- One lane, tile element or scale word: a 32-bit pattern (R28, R78). -/
abbrev Word := BitVec 32

/-- A register, counter or scalar register: 64 bits (R7, R22). -/
abbrev Reg64 := BitVec 64

/-- A tile or dispatch instruction: 128 bits (R102, R338). -/
abbrev Code := BitVec 128

/-- Module-wide square number 16q + s (R115). -/
abbrev SquareId := Fin 128

/-- Submission queue 0 to 255 (R329). -/
abbrev QueueId := Fin 256

/-- Partition, and PCI Express function, 0 to 15 (R369). -/
abbrev PartId := Fin 16

/-- Quarter Q0 to Q7. -/
abbrev QuarterId := Fin 8

/-- Host-class core 6q + h (R375). -/
abbrev CoreId := Fin 48

/-- Port index 8t + p (R395). -/
abbrev PortId := Fin 96

/-- Region of a time-base replica (R490). -/
abbrev RegionId := Fin 22

end Sys2Proof
end

