-- ==== Sys2Proof/Syntax.lean ====
section
/-! DEFINITION. The commands of the block: one constructor for each row of the table of operations and events,
with the operands that come from outside. A tile instruction's command names the square (its word stands in the
square's instruction buffer); a hall instruction's command names the queue. -/

namespace Sys2Proof

/-- Which part of a register an access touches (R7). -/
inductive Half where
  | full
  | lo
  | hi
deriving DecidableEq, Repr

/-- A register write as it reaches the register: the requester's unit (R501), its partition, the half and the value.
A 32-bit write carries its value in the half it addresses. -/
structure RegWrite where
  unit : Nat
  part : PartId
  half : Half
  val : Reg64
deriving DecidableEq, Repr

/-- A load, store or atomic as an agent asks for it (R271, R317). -/
inductive AccessKind where
  | load (size : Nat)
  | store (bytes : List Byte)
  | atom (op : Nat) (size : Nat) (operand : Nat)
  | cas (size : Nat) (new : Nat) (compare : Nat)
deriving DecidableEq, Repr

/-- What a core's load-reserve, store-conditional or AMO does (R311): the bytes, and the value that it stores or operates with. -/
inductive SyncOp where
  | lr (size : Nat)
  | sc (size : Nat) (val : Nat)
  | amo (op : Nat) (size : Nat) (operand : Nat)
deriving DecidableEq, Repr

/-- Where an access to be performed at its home comes from: an AT operation in flight on a square (its row, for
AT.VATOM), or a host-class core (R311), whose load-reserve, store-conditional and AMOs carry the aq and rl bits. A core's FENCE is given
here too: whether its predecessor set holds W, and its successor set R. -/
inductive AccessSource where
  | square (sq : SquareId) (op : Nat) (row : Nat)
  | core (c : CoreId) (addr : Nat) (k : AccessKind)
  | coreSync (c : CoreId) (addr : Nat) (op : SyncOp) (aq : Bool) (rl : Bool)
  | coreFence (c : CoreId) (pred : Bool) (succ : Bool)
deriving DecidableEq, Repr

/-- A work item of a fused attention command: record, KV head, part and row tile (08, "Arithmetic"). -/
structure WorkItem where
  record : Nat
  head : Nat
  part : Nat
  tile : Nat
deriving DecidableEq, Repr

/-- A target of an interrupt (R382): an MSI-X vector, or a host-class core and identity. -/
inductive IntTarget where
  | msix (vec : Nat)
  | aia (hart : Nat) (vec : Nat)
deriving DecidableEq, Repr

/-- What enabling a function's MSI-X or lifting a mask changes (R380). -/
inductive MsixEvent where
  | enable
  | functionUnmask
  | vectorUnmask (vec : Fin 2048)
  | vectorMask (vec : Fin 2048)
deriving DecidableEq, Repr

/-- One sample of the regulators (R446, R452, R458): bus voltage in mV, current in units of 10 mA, and for each die, in
order Q0 to Q7, G0, G1, the junction temperature, the measured speed in M steps/s, the rail voltage in mV and the rail current
in units of 10 mA; bit q of `faults` says that quarter q's phases still report a fault. -/
structure Telemetry where
  vin : Nat
  iin : Nat
  temps : List Nat
  speeds : List Nat
  volts : List Nat
  amps : List Nat
  faults : Nat
deriving DecidableEq, Repr

/-- A flit as it is received (R399): the header fields, the 240 body bytes, the CRC sent, and whether every codeword
of its frame decoded (R402). -/
structure Flit where
  seq : BitVec 16
  ackSeq : BitVec 16
  ch : Fin 4
  ft : Fin 4
  fho : Fin 16
  ackV : Bool
  crReq : BitVec 12
  crRsp : BitVec 12
  crCtl : BitVec 8
  body : List Byte
  crc : BitVec 32
  fecOk : Bool
deriving DecidableEq, Repr

/-- A HELLO message received in training (R431). -/
structure HelloMsg where
  modnum : BitVec 12
  port : BitVec 8
  precid : BitVec 8
  role : BitVec 8
  epoch : BitVec 32
deriving DecidableEq, Repr

/-- The stream counter under which the link tile opens the next transaction of a port (R426): the header does not carry it
(LOG 13). -/
structure Crypt where
  ctr : Nat
deriving DecidableEq, Repr

/-- One stream as its destination names it (R417). -/
structure StreamId where
  srcm : Nat
  spart : Nat
  dpart : Nat
  ch : Nat
deriving DecidableEq, Repr

/-- The BARs of a function (R526). -/
inductive HostBar where
  | bar0
  | bar2
  | bar4
deriving DecidableEq, Repr

/-- A host memory request through a BAR (R526, R527): a read of a length, or a posted write of bytes. -/
structure HostRequest where
  fn : PartId
  bar : HostBar
  off : Nat
  write : Bool
  len : Nat
  bytes : List Byte
  tag : Nat
deriving DecidableEq, Repr

/-- The capabilities that R521 names, present or absent. -/
inductive Capability where
  | ari
  | sriov
  | msix
  | aer
  | resizableBar
  | vfResizableBar
  | atomicRequester
  | powerManagement
  | serialNumber
  | msi
  | intx
  | ats
  | pasid
  | pri
  | tph
  | ltr
  | idOrdering
  | ide
  | doe
  | atomicCompleter
  | l0s
  | l1
  | l0p
deriving DecidableEq, Repr

/-- What a configuration read asks for beside the identities (R521, R523, R526): a capability, a field of SR-IOV, the links'
options, the size of a BAR, or a field that a configuration write sets. -/
inductive ConfigField where
  | capability (c : Capability)
  | totalVfs
  | initialVfs
  | firstVfOffset
  | vfStride
  | vfDeviceId
  | numVfs
  | vfEnable
  | maxPayloadSupported
  | maxPayload
  | maxReadRequest
  | rates
  | widths
  | flitMode
  | tagBits
  | msixTableSize
  | barBits (bar : HostBar)
  | powerStates
  | powerState
  | memorySpace
  | busMaster
  | msixEnable
  | functionMask
  | atomicEnable
  | aerUncorrectable
deriving DecidableEq, Repr

/-- A configuration request (R521 to R526): a read of the identity words, of the Device Serial Number or of another field, or a write of
one of the fields that the module's behaviour depends on. -/
inductive ConfigReq where
  | readId
  | readSerial
  | read (f : ConfigField)
  | maxPayload (log2 : Nat)
  | maxReadRequest (log2 : Nat)
  | aerClear (bits : Nat)
  | powerState (d3 : Bool)
  | memorySpace (on : Bool)
  | busMaster (on : Bool)
  | msixEnable (on : Bool)
  | functionMask (on : Bool)
  | atomicEnable (on : Bool)
  | numVfs (n : PartId) (vfEnable : Bool)
  | bar2Size (log2 : Nat)
deriving DecidableEq, Repr

/-- How the host completes a read or atomic of the host window (R534). -/
inductive HostCompletion where
  | success (bytes : List Byte)
  | unsupportedRequest
  | completerAbort
  | requestRetry
  | poisoned
deriving DecidableEq, Repr

/-- What an SMBus transaction asks for (R537). -/
inductive SmbusKind where
  | blockRead (code : BitVec 8)
  | write (code : BitVec 8)
deriving DecidableEq, Repr

/-- An SMBus transaction (R536, R537): the 7-bit address of the target, what it asks for, and whether the reader takes the Packet Error
Check byte. -/
structure SmbusTransaction where
  addr : BitVec 7
  kind : SmbusKind
  pec : Bool
deriving DecidableEq, Repr

/-- The commands. Each constructor's first words are its row's mnemonic and rule. -/
inductive Instr where
  /-- CT_NOP. R113: Control instruction that has no effect. -/
  | ctNop (sq : SquareId)
  /-- CT_MOVI. R113: Writes the immediate into a scalar register. -/
  | ctMovi (sq : SquareId)
  /-- CT_ADD. R113: Adds two scalar operands modulo 2^64. -/
  | ctAdd (sq : SquareId)
  /-- CT_SUB. R113: Subtracts two scalar operands modulo 2^64. -/
  | ctSub (sq : SquareId)
  /-- CT_MUL. R113: Writes the low 64 bits of a scalar product. -/
  | ctMul (sq : SquareId)
  /-- CT_AND. R113: Bitwise AND of scalar operands. -/
  | ctAnd (sq : SquareId)
  /-- CT_OR. R113: Bitwise OR of scalar operands. -/
  | ctOr (sq : SquareId)
  /-- CT_XOR. R113: Bitwise XOR of scalar operands. -/
  | ctXor (sq : SquareId)
  /-- CT_SHL. R113: Shifts a scalar left by op2 mod 64. -/
  | ctShl (sq : SquareId)
  /-- CT_SRL. R113: Shifts a scalar right logically by op2 mod 64. -/
  | ctSrl (sq : SquareId)
  /-- CT_SRA. R113: Shifts a scalar right arithmetically by op2 mod 64. -/
  | ctSra (sq : SquareId)
  /-- CT_MIN. R113: Signed minimum of scalar operands. -/
  | ctMin (sq : SquareId)
  /-- CT_MAX. R113: Signed maximum of scalar operands. -/
  | ctMax (sq : SquareId)
  /-- CT_MINU. R113: Unsigned minimum of scalar operands. -/
  | ctMinu (sq : SquareId)
  /-- CT_MAXU. R113: Unsigned maximum of scalar operands. -/
  | ctMaxu (sq : SquareId)
  /-- CT_BEQ. R113: Branches when sA equals sB. -/
  | ctBeq (sq : SquareId)
  /-- CT_BNE. R113: Branches when sA differs from sB. -/
  | ctBne (sq : SquareId)
  /-- CT_BLT. R113: Branches when sA is less than sB, signed. -/
  | ctBlt (sq : SquareId)
  /-- CT_BGE. R113: Branches when sA is at least sB, signed. -/
  | ctBge (sq : SquareId)
  /-- CT_BLTU. R113: Branches when sA is less than sB, unsigned. -/
  | ctBltu (sq : SquareId)
  /-- CT_BGEU. R113: Branches when sA is at least sB, unsigned. -/
  | ctBgeu (sq : SquareId)
  /-- CT_JMP. R113: Branches unconditionally to the target. -/
  | ctJmp (sq : SquareId)
  /-- CT_LOOP. R113: Decrements sD and branches while it is nonzero. -/
  | ctLoop (sq : SquareId)
  /-- CT_NEXT. R114: Takes the next grid tile dealt to the square, or branches when none remains. -/
  | ctNext (sq : SquareId)
  /-- CT_RDSR. R115: Reads a special register into a scalar register. -/
  | ctRdsr (sq : SquareId)
  /-- CT_END. R143: Ends the kernel on the square, waiting for every earlier instruction of every unit. -/
  | ctEnd (sq : SquareId)
  /-- SQUARE_END_REPORT. R143: After its CT.END wait completes, the square reports its status. -/
  | squareEndReport (sq : SquareId)
  /-- MX_MMA. R66: Matrix instruction folding the A·B product into an accumulator tile in one of six modes. -/
  | mxMma (sq : SquareId)
  /-- MX_FILL. R54: Writes a scalar value into every unmasked tile element. -/
  | mxFill (sq : SquareId)
  /-- MX_LDT. R62: Loads a tile as 1,024 raw i32 values from the cistern. -/
  | mxLdt (sq : SquareId)
  /-- MX_STT. R62: Stores a tile as 1,024 raw i32 values to the cistern. -/
  | mxStt (sq : SquareId)
  /-- MX_RSC. R47: Rescales a tile to i8, i16 or i32, optionally stochastically, and writes it to the cistern. -/
  | mxRsc (sq : SquareId)
  /-- MX_TOV. R63: Copies a tile into two vector registers. -/
  | mxTov (sq : SquareId)
  /-- MX_FROMV. R63: Copies two vector registers into a tile. -/
  | mxFromv (sq : SquareId)
  /-- MX_LDSF. R119: Loads and normalises scale words into the scale file. -/
  | mxLdsf (sq : SquareId)
  /-- MX_LDCB. R119: Loads 16 or 256 entries of a codebook slot. -/
  | mxLdcb (sq : SquareId)
  /-- VX_ADD. R81: Saturating lane-wise addition. -/
  | vxAdd (sq : SquareId)
  /-- VX_SUB. R81: Saturating lane-wise subtraction. -/
  | vxSub (sq : SquareId)
  /-- VX_MULSH. R81: Lane-wise multiply, rounded shift and saturation. -/
  | vxMulsh (sq : SquareId)
  /-- VX_RSH. R81: Lane-wise rounded right shift. -/
  | vxRsh (sq : SquareId)
  /-- VX_ABS. R81: Saturating lane-wise absolute value. -/
  | vxAbs (sq : SquareId)
  /-- VX_NEG. R81: Saturating lane-wise negation. -/
  | vxNeg (sq : SquareId)
  /-- VX_MIN. R81: Signed lane-wise minimum. -/
  | vxMin (sq : SquareId)
  /-- VX_MAX. R81: Signed lane-wise maximum. -/
  | vxMax (sq : SquareId)
  /-- VX_AND. R81: Lane-wise bitwise AND. -/
  | vxAnd (sq : SquareId)
  /-- VX_OR. R81: Lane-wise bitwise OR. -/
  | vxOr (sq : SquareId)
  /-- VX_XOR. R81: Lane-wise bitwise XOR. -/
  | vxXor (sq : SquareId)
  /-- VX_SHL. R81: Lane-wise left bit shift. -/
  | vxShl (sq : SquareId)
  /-- VX_SRL. R81: Lane-wise logical right bit shift. -/
  | vxSrl (sq : SquareId)
  /-- VX_SRA. R81: Lane-wise arithmetic right bit shift. -/
  | vxSra (sq : SquareId)
  /-- VX_CMPEQ. R81: Lane-wise equality compare giving -1 or 0. -/
  | vxCmpeq (sq : SquareId)
  /-- VX_CMPLT. R81: Lane-wise signed less-than compare. -/
  | vxCmplt (sq : SquareId)
  /-- VX_CMPLE. R81: Lane-wise signed less-or-equal compare. -/
  | vxCmple (sq : SquareId)
  /-- VX_SEL. R81: Lane-wise select by a condition register. -/
  | vxSel (sq : SquareId)
  /-- VX_MOV. R81: Copies a vector register. -/
  | vxMov (sq : SquareId)
  /-- VX_IOTA. R81: Writes each lane's index. -/
  | vxIota (sq : SquareId)
  /-- VX_BCAST. R81: Broadcasts a scalar's low 32 bits to every lane. -/
  | vxBcast (sq : SquareId)
  /-- VX_TOS. R81: Moves one lane, sign-extended, into a scalar register. -/
  | vxTos (sq : SquareId)
  /-- VX_LD. R84: Loads lanes from the cistern with extension. -/
  | vxLd (sq : SquareId)
  /-- VX_ST. R84: Stores lanes to the cistern with saturation. -/
  | vxSt (sq : SquareId)
  /-- VX_RMAX. R85: Row maximum over a row of registers. -/
  | vxRmax (sq : SquareId)
  /-- VX_RMIN. R85: Row minimum over a row of registers. -/
  | vxRmin (sq : SquareId)
  /-- VX_RAMAX. R85: Row absolute maximum as u32. -/
  | vxRamax (sq : SquareId)
  /-- VX_RSUM. R85: Row sum into an i64 register pair, optionally accumulating. -/
  | vxRsum (sq : SquareId)
  /-- VX_RSSQ. R85: Row sum of shifted squares into an i64 pair. -/
  | vxRssq (sq : SquareId)
  /-- VX_DSC. R87: Derives a row scale per lane. -/
  | vxDsc (sq : SquareId)
  /-- VX_QNT. R87: Quantises lanes to a row scale, optionally stochastically. -/
  | vxQnt (sq : SquareId)
  /-- VX_SMUL. R86: Multiplies scale words per lane. -/
  | vxSmul (sq : SquareId)
  /-- VX_SRCP. R86: Reciprocal of a scale word per lane. -/
  | vxSrcp (sq : SquareId)
  /-- VX_SC64. R86: Converts an i64 pair to a scale word per lane. -/
  | vxSc64 (sq : SquareId)
  /-- VX_SRSQ. R86: Reciprocal square root of a scale word per lane. -/
  | vxSrsq (sq : SquareId)
  /-- VX_SFN. R88: Evaluates a special-function table per lane. -/
  | vxSfn (sq : SquareId)
  /-- VX_TLD. R93: Loads a user function table into the idle bank, optionally seam-checked, and switches banks. -/
  | vxTld (sq : SquareId)
  /-- VX_TST. R96: Stores the active bank of a function table to the cistern. -/
  | vxTst (sq : SquareId)
  /-- PM_ENQ. R125: Reads and checks a pump descriptor and appends it to the pump queue with a ticket. -/
  | pmEnq (sq : SquareId)
  /-- PM_WAIT. R126: Stalls until descriptors up to a ticket have completed. -/
  | pmWait (sq : SquareId)
  /-- PM_WAIT_MET. R126: The awaited descriptors have completed; their entries are released and issue resumes. -/
  | pmWaitMet (sq : SquareId)
  /-- FN_SEED. R189: Sets the kernel's fountain seed. -/
  | fnSeed (sq : SquareId)
  /-- FN_UNI. R189: Writes uniform words into a vector register. -/
  | fnUni (sq : SquareId)
  /-- FN_MASK. R189: Writes a keep mask from uniform words. -/
  | fnMask (sq : SquareId)
  /-- FN_INIT. R189: Writes bounded uniform integers. -/
  | fnInit (sq : SquareId)
  /-- FN_DRAW. R191: Draws one index per row from scores with temperature and mask. -/
  | fnDraw (sq : SquareId)
  /-- SY_REL. R309: Scoped release by the square. -/
  | syRel (sq : SquareId)
  /-- SY_ACQ. R310: Scoped acquire by the square. -/
  | syAcq (sq : SquareId)
  /-- SY_FENCE. R131: Stalls until earlier instructions of named units complete. -/
  | syFence (sq : SquareId)
  /-- SY_FENCE_PASS. R131: The named units have completed and the fence lets later instructions issue. -/
  | syFencePass (sq : SquareId)
  /-- SY_WAIT. R131: Stalls until a counter meets its condition. -/
  | syWait (sq : SquareId)
  /-- SY_WAIT_MET. R131: The counter meets the condition; the optional acquire is made and issue resumes. -/
  | syWaitMet (sq : SquareId)
  /-- SY_CSET. R131: Writes a square counter. -/
  | syCset (sq : SquareId)
  /-- SY_CRD. R131: Reads a square counter into a scalar register. -/
  | syCrd (sq : SquareId)
  /-- AT_LD. R136: Loads 1 to 8 bytes from a global address. -/
  | atLd (sq : SquareId)
  /-- AT_ST. R136: Stores 1 to 8 bytes to a global address. -/
  | atSt (sq : SquareId)
  /-- AT_ATOM. R137: Performs a 32- or 64-bit atomic at the home and returns the old value. -/
  | atAtom (sq : SquareId)
  /-- AT_CAS128. R137: Performs a 128-bit compare-swap at the home. -/
  | atCas128 (sq : SquareId)
  /-- AT_VATOM. R138: Performs one atomic per row from vector lanes. -/
  | atVatom (sq : SquareId)
  /-- KERNEL_STOP. R142: After a square's fault record, every other square of the kernel stops at its next instruction boundary. -/
  | kernelStop (sq : SquareId)
  /-- PUMP_DESCRIPTOR_BEGIN. R154: After the previous descriptor completes, the pump looks up regions and checks the next descriptor. -/
  | pumpDescriptorBegin (sq : SquareId)
  /-- PUMP_BLOCK. R149: The pump moves one 256-byte raw block, decoding, encoding or transposing. -/
  | pumpBlock (sq : SquareId)
  /-- PUMP_SIGNAL. R147: After every write of a descriptor is performed, the pump performs its signal atomic. -/
  | pumpSignal (sq : SquareId)
  /-- PUMP_DESCRIPTOR_COMPLETE. R147: The descriptor's writes and signal are performed and it completes. -/
  | pumpDescriptorComplete (sq : SquareId)
  /-- PMP_TBL_LOAD. R173: A GO write chooses and closes a decoding bank for a table load. -/
  | pmpTblLoad (sq : SquareId) (w : RegWrite)
  /-- TABLE_IMAGE_READ. R173: When the target bank's USECNT reaches 0, the pump reads the table image. -/
  | tableImageRead (sq : SquareId)
  /-- TABLE_LOAD_DONE. R173: The image arrives and is checked; the bank becomes valid or stays invalid and DONE sets. -/
  | tableLoadDone (sq : SquareId)
  /-- FTN_RELOAD. R205: Loads the jump parameters into every fountain and checks them. -/
  | ftnReload (w : RegWrite)
  /-- FTN_SELFTEST. R198: Runs the self-test on every fountain. -/
  | ftnSelftest (w : RegWrite)
  /-- FTN_RELOAD_DONE. R205: A reload or self-test ends, setting ERR, JREADY, STFAIL and DONE. -/
  | ftnReloadDone
  /-- LAUNCH_START. R346: A launch at the head of every square list of its set is checked and starts on all its squares. -/
  | launchStart (launch : Nat)
  /-- LAUNCH_END. R355: When every square has reported, the launch ends, its status word is written and ECNT is signalled. -/
  | launchEnd (launch : Nat)
  /-- ATTN_WALK_BLOCK. R213: The walker reads a page-table entry and page header for a block and checks them. -/
  | attnWalkBlock (sq : SquareId) (item : WorkItem)
  /-- ATTN_FOLD. R222: A block in the cistern is folded into the row states. -/
  | attnFold (sq : SquareId) (item : WorkItem)
  /-- ATTN_MERGE. R223: Part states or MERGE state arrays are combined. -/
  | attnMerge (sq : SquareId) (item : WorkItem)
  /-- ATTN_FINISH. R224: A row state is finished into i8 codes with a row scale. -/
  | attnFinish (sq : SquareId) (item : WorkItem)
  /-- BWD_ACCUMULATE. R235: BWD accumulates dV, dK and dQ contributions for a block and row tile. -/
  | bwdAccumulate (sq : SquareId) (item : WorkItem)
  /-- RING_STEP. R231: When DCNT reaches the forward index, the member forwards its slab and folds it. -/
  | ringStep (launch : Nat)
  /-- RING_CREDIT. R231: After the fold's reads and the forward complete, the member adds 1 at PREVC. -/
  | ringCredit (launch : Nat)
  /-- RING_POISON. R233: A faulting or stopped member, or one that sees poison, adds 2^63 at its neighbours' counters. -/
  | ringPoison (launch : Nat)
  /-- LOOKUP_REQUEST. R255: A square hashes a request's blocks and probes the tree. -/
  | lookupRequest (sq : SquareId) (req : Nat)
  /-- LOOKUP_BLOCK_PIN. R255: A returned candidate node is pinned and verified. -/
  | lookupBlockPin (sq : SquareId) (req : Nat)
  /-- LOOKUP_BLOCK_COMMIT. R256: A verified block's entries and block array entry are written. -/
  | lookupBlockCommit (sq : SquareId) (req : Nat)
  /-- LOOKUP_RESULT. R257: After its commits the request's result word is written. -/
  | lookupResult (sq : SquareId) (req : Nat)
  /-- HOME_ACCESS. R301: A home performs a load or store after its checks. -/
  | homeAccess (src : AccessSource)
  /-- HOME_ATOMIC. R317: A home performs an atomic as one access. -/
  | homeAtomic (src : AccessSource)
  /-- PARITY_RETRY. R291: A well or reservoir read that failed parity is read again. -/
  | parityRetry (idx : Nat)
  /-- PTN_XTENT_WRITE. R275: A write changing an extent's VALID or OWNER starts a scrub. -/
  | ptnXtentWrite (n : Fin 1280) (w : RegWrite)
  /-- SCRUB_COMPLETE. R276: An extent scrub finishes and SCRUB clears. -/
  | scrubComplete (extent : Fin 10240)
  /-- FENCE. R295: A fence cause takes a quarter out of service through the steps of its sequence. -/
  | fence (w : RegWrite)
  /-- BRIDGE_TIMEOUT. R294: A quarter's bridge adapters acknowledge nothing for 100 µs, fencing it. -/
  | bridgeTimeout (q : QuarterId)
  /-- PHASE_FAULT. R458: A regulator phase fault sets PHFLT and fences the quarter. -/
  | phaseFault (q : QuarterId)
  /-- RESTORE. R298: A RESTORE write self-tests and restores a fenced quarter or sets RFAIL. -/
  | restore (w : RegWrite)
  /-- QUEUE_BIND. R330: A DSP_QBIND write binds or frees a queue. -/
  | queueBind (q : QueueId) (w : RegWrite)
  /-- DOORBELL. R331: A DSP_QTAIL write advances the queue tail or is refused. -/
  | doorbell (q : QueueId) (w : RegWrite)
  /-- QUEUE_ENABLE. R332: A write of EN starts or stops fetching on a queue. -/
  | queueEnable (q : QueueId) (w : RegWrite)
  /-- DESTROY. R367: A DESTROY write starts the destruction of a running queue. -/
  | destroy (q : QueueId) (w : RegWrite)
  /-- DESTROY_COMPLETE. R367: After outstanding link operations end, status is written, HEAD takes TAIL and destroy-done is raised. -/
  | destroyComplete (q : QueueId)
  /-- ENTRY_FETCH. R334: The hall fetches a submission entry, checks it and sets up its context. -/
  | entryFetch (q : QueueId)
  /-- ENTRY_END. R358: After a fault or failed launch, the hall waits for the entry's launches and completes it. -/
  | entryEnd (q : QueueId)
  /-- DSP_NOP. R339: Dispatch instruction with no effect. -/
  | dspNop (q : QueueId)
  /-- DSP_LAUNCH. R340: Issues a kernel launch on a square set. -/
  | dspLaunch (q : QueueId)
  /-- DSP_ATTN. R559: Issues an attention command launch. -/
  | dspAttn (q : QueueId)
  /-- DSP_PLOOK. R559: Issues a prefix-lookup launch. -/
  | dspPlook (q : QueueId)
  /-- DSP_BUCKET. R350: Selects a descriptor from a bucket table by length. -/
  | dspBucket (q : QueueId)
  /-- DSP_WAIT. R353: Blocks the context until a counter meets its condition. -/
  | dspWait (q : QueueId)
  /-- DSP_WAIT_MET. R353: The counter meets the condition; the hall acquires and the context resumes. -/
  | dspWaitMet (q : QueueId)
  /-- DSP_SIGNAL. R354: Performs a 64-bit atomic add at a counter or address, optionally after the command end. -/
  | dspSignal (q : QueueId)
  /-- DSP_SYNC. R339: Waits until every launch of the entry has ended. -/
  | dspSync (q : QueueId)
  /-- DSP_MOVI. R339: Writes an immediate into a hall register. -/
  | dspMovi (q : QueueId)
  /-- DSP_ADD. R339: Adds into a hall register. -/
  | dspAdd (q : QueueId)
  /-- DSP_LD. R339: Loads 64 bits into a hall register. -/
  | dspLd (q : QueueId)
  /-- DSP_ST. R339: Stores a hall register. -/
  | dspSt (q : QueueId)
  /-- DSP_BR. R339: Branches on a condition of hall registers. -/
  | dspBr (q : QueueId)
  /-- DSP_CALL. R339: Calls a target or a program handle, pinning its sealed range. -/
  | dspCall (q : QueueId)
  /-- DSP_RET. R339: Returns to the popped address. -/
  | dspRet (q : QueueId)
  /-- DSP_DONE. R357: Completes the entry: command end, status area, sequence number, interrupt, pins. -/
  | dspDone (q : QueueId)
  /-- DSP_STAT. R339: Reads the status word of a launch, waiting until it ends. -/
  | dspStat (q : QueueId)
  /-- DSP_IRQ. R339: Raises the queue's interrupt, optionally after the command end. -/
  | dspIrq (q : QueueId)
  /-- DSP_SEAL. R362: Seals a range of pages against writes. -/
  | dspSeal (q : QueueId)
  /-- DSP_PUBLISH. R364: Points a program handle at a sealed program and advances its version. -/
  | dspPublish (q : QueueId)
  /-- DSP_RETIRE. R365: Moves a sealed range to retiring. -/
  | dspRetire (q : QueueId)
  /-- SEAL_RANGE_FREE. R365: A retiring range whose PINS reach 0 becomes free and writable. -/
  | sealRangeFree (range : Fin 1024)
  /-- HANDOVER. R373: A PTN_SQOWN write changing a square's owner starts its handover. -/
  | handover (n : Fin 16) (w : RegWrite)
  /-- HANDOVER_CLEAN. R373: After the running launch ends, the square is saved, cleared, scrubbed and restored, and BUSY clears. -/
  | handoverClean (sq : SquareId)
  /-- PTN_HART_WRITE. R375: A write of a host-class core's RUN, VALID or PART. -/
  | ptnHartWrite (core : CoreId) (w : RegWrite)
  /-- CORE_HALT. R375: A halting core completes its issued accesses and sets HALTED. -/
  | coreHalt (core : CoreId)
  /-- INTERRUPT_MODERATION_EXPIRY. R382: A moderation interval expires and one merged message is sent. -/
  | interruptModerationExpiry (p : PartId) (target : IntTarget)
  /-- MSIX_UNMASK. R380: Enabling MSI-X or unmasking a vector sends pending or held messages. -/
  | msixUnmask (fn : PartId) (ev : MsixEvent)
  /-- PRST. R383: A write of PRST bit p starts a partition reset. -/
  | prst (w : RegWrite)
  /-- FUNCTION_LEVEL_RESET. R383: A function-level reset starts a partition reset. -/
  | functionLevelReset (fn : PartId)
  /-- VF_ENABLE_CLEAR. R383: Clearing VF Enable or lowering NumVFs starts partition resets. -/
  | vfEnableClear (vfEnable : Bool) (numVfs : PartId)
  /-- PARTITION_RESET. R385: A partition reset holds interrupts and destroys the partition's queues. -/
  | partitionReset (p : PartId)
  /-- PARTITION_RESET_COMPLETE. R385: After destruction and clean-up, counters and seals are cleared, RESETTING clears and reset-done is raised. -/
  | partitionResetComplete (p : PartId)
  /-- WARM. R392: A warm reset stops all work and returns tables and registers to reset values. -/
  | warm (w : RegWrite)
  /-- COLD. R391: A cold reset restarts the module through start-up. -/
  | cold (w : RegWrite)
  /-- PERST_N_ASSERT. R391: Assertion of PERST_N starts a PERST_N reset. -/
  | perstNAssert
  /-- PERST_N_RELEASE. R476: Release of PERST_N starts the start-up sequence. -/
  | perstNRelease
  /-- VEN_MATE. R540: VEN mates and the hot-swap controller charges the input. -/
  | venMate
  /-- INPUT_POWER_GOOD. R540: Charging ends with the bus at or above 44 V. -/
  | inputPowerGood
  /-- VEN_BREAK. R541: VEN breaks and input current is cut as at a loss of gate power. -/
  | venBreak
  /-- SAG_DETECT. R442: The bus falls below 44 V and SAG brings input to the activity floor. -/
  | sagDetect (mv : Nat)
  /-- SAG_HOLD_EXPIRY. R442: The bus has stayed at or above 44 V for 1 ms and SAG ends. -/
  | sagHoldExpiry
  /-- BRAKE_ASSERT. R443: PWR_BRAKE_N held low for 1 µs activates BRAKE. -/
  | brakeAssert
  /-- BRAKE_RELEASE. R443: PWR_BRAKE_N released for 1 µs ends BRAKE. -/
  | brakeRelease
  /-- SUPPLY_LOSS_STOP. R445: The bus falls below 40 V and every quarter is fenced at once. -/
  | supplyLossStop (mv : Nat)
  /-- SAG_DURATION_EXPIRY. R445: The bus has stayed below 44 V for 10 ms, causing a supply-loss stop. -/
  | sagDurationExpiry
  /-- OVERVOLTAGE_EXPIRY. R445: The bus has stayed above 60 V for 1 ms, causing a supply-loss stop. -/
  | overvoltageExpiry
  /-- SUPPLY_RECOVERY_EXPIRY. R445: The bus has stayed in range for 100 ms after a stop and a cold reset begins. -/
  | supplyRecoveryExpiry
  /-- GATE_POWER_LOSS. R445: The bus falls below 36 V and the gates lose power. -/
  | gatePowerLoss (mv : Nat)
  /-- TELEMETRY_SAMPLE. R446: Every 50 µs the controller samples power and temperature, updating energy and thermal caps. -/
  | telemetrySample (t : Telemetry)
  /-- THERMAL_RECOVERY. R455: After a thermal stop, TMAX falls below 70 °C and a cold reset follows. -/
  | thermalRecovery
  /-- CONTROLLER_EVALUATION. R457: Every 1 µs the controller recomputes the allowance and reason durations. -/
  | controllerEvaluation
  /-- ENTER. R459: A write of ENTER starts Dormant entry or sets DENY. -/
  | enter (w : RegWrite)
  /-- DORMANT_ENTRY_DONE. R459: Caches are written back, rails retained and STATE becomes DORMANT. -/
  | dormantEntryDone
  /-- WAKE. R461: A wake request starts the wake from Dormant. -/
  | wake (w : RegWrite)
  /-- FULL_SERVICE. R462: 1.2 ms after wake start, STATE becomes SERVICE and held accesses are performed. -/
  | fullService
  /-- REPLICA_LOAD. R491: A starting time-base replica loads the G0 time base. -/
  | replicaLoad (r : RegionId)
  /-- RESYNC_WINDOW_EXPIRY. R491: 2,000 ns after a replica load its stamps stop carrying TU. -/
  | resyncWindowExpiry (r : RegionId)
  /-- FERASE. R484: Mailbox command that erases a flash range. -/
  | ferase (p : PartId)
  /-- FWRITE. R484: Mailbox command that programs and verifies a flash range. -/
  | fwrite (p : PartId)
  /-- FREAD. R484: Mailbox command that copies a flash range to the buffer. -/
  | fread (p : PartId)
  /-- COMMIT. R475: Mailbox command that raises the monotonic counter to the running SVN. -/
  | commit (p : PartId)
  /-- ATTEST. R487: Mailbox command that writes a signed attestation report. -/
  | attest (p : PartId)
  /-- KEYLOAD. R484: Mailbox command that installs a link key and zeroes its source. -/
  | keyload (p : PartId)
  /-- KEYCLEAR. R484: Mailbox command that empties a link key slot. -/
  | keyclear (p : PartId)
  /-- REBOOT. R484: Mailbox command that starts a cold reset. -/
  | reboot (p : PartId)
  /-- MAILBOX_COMMAND_DONE. R486: A mailbox command ends, DONE sets and the next pending GO is chosen. -/
  | mailboxCommandDone
  /-- DATA_FLIT. R402: A DATA flit is received and accepted or discarded. -/
  | dataFlit (port : PortId) (f : Flit)
  /-- IDLE_FLIT. R401: An IDLE flit delivers acknowledgements and credits. -/
  | idleFlit (port : PortId) (f : Flit)
  /-- NAK. R403: A received NAK makes the transmitter replay. -/
  | nak (port : PortId) (f : Flit)
  /-- REPLAY_TIMEOUT. R403: The oldest unacknowledged flit waited 2,500 ns and is replayed. -/
  | replayTimeout (port : PortId)
  /-- PORT_LEAVE_UP. R407: A port leaves UP, discarding its replay buffer and partial transactions. -/
  | portLeaveUp (port : PortId)
  /-- HELLO. R406: A HELLO message received in training brings the port UP or sets LOOP. -/
  | hello (port : PortId) (h : HelloMsg)
  /-- PUT. R427: A PUT request arrives, is checked and performed with an ACK. -/
  | put (port : PortId) (cr : Crypt)
  /-- GET. R427: A GET request arrives, is checked and answered with DATA. -/
  | get (port : PortId) (cr : Crypt)
  /-- ATOM. R427: An ATOM request arrives, is checked and performed. -/
  | atom (port : PortId) (cr : Crypt)
  /-- SIGNAL. R427: A SIGNAL request arrives, is checked and its add performed. -/
  | signal (port : PortId) (cr : Crypt)
  /-- ACK. R415: An ACK response reaches its requester. -/
  | ack (port : PortId) (cr : Crypt)
  /-- DATA. R415: A DATA response reaches its requester. -/
  | data (port : PortId) (cr : Crypt)
  /-- ERR. R415: An ERR response reaches its requester. -/
  | err (port : PortId) (cr : Crypt)
  /-- TRANSIT_FORWARD. R421: A transaction with hops left is forwarded or dropped as unreachable. -/
  | transitForward (port : PortId) (ch : Fin 2)
  /-- LINK_TIMEOUT_EXPIRY. R416: A request unanswered within the link timeout ends with LINK_TIMEOUT. -/
  | linkTimeoutExpiry (tid : BitVec 16)
  /-- GAP_TIMEOUT. R417: A stream gap open too long is closed as lost and held transactions are handed on. -/
  | gapTimeout (stream : StreamId)
  /-- TIME_EXCHANGE. R433: Every 125 µs a module sends TREQ to its parent. -/
  | timeExchange
  /-- TREQ. R433: A parent receives TREQ and answers with TRESP. -/
  | treq (port : PortId) (cr : Crypt)
  /-- TRESP. R434: A module receives TRESP, computes offset and delay and steers its time base. -/
  | tresp (port : PortId) (cr : Crypt)
  /-- TLOCK_TIMEOUT. R434: 5 ms pass without an exchange and TLOCK clears. -/
  | tlockTimeout
  /-- LNK_ID_WRITE. R429: A write changing MODNUM or PRECID retrains every UP port. -/
  | lnkIdWrite (w : RegWrite)
  /-- LNK_TIME_WRITE. R434: A write of PARENT clears or sets TLOCK. -/
  | lnkTimeWrite (w : RegWrite)
  /-- LNK_EPOCH_GO. R438: A GO write on the master starts an epoch and sends EPREP. -/
  | lnkEpochGo (w : RegWrite)
  /-- EPREP. R438: A module receives EPREP, sets INPROG and passes it to its children. -/
  | eprep (port : PortId) (cr : Crypt)
  /-- EACK. R438: A module receives EACK from a child and answers its parent or commits. -/
  | eack (port : PortId) (cr : Crypt)
  /-- ECOMMIT. R438: A module receives ECOMMIT and flips at Tc or at once. -/
  | ecommit (port : PortId) (cr : Crypt)
  /-- EABANDON. R438: A module receives EABANDON and sets ABANDONED. -/
  | eabandon (port : PortId) (cr : Crypt)
  /-- EPOCH_COMMIT_TIME. R438: Tc arrives: a committed module flips ACTIVE, or the master abandons. -/
  | epochCommitTime
  /-- EPOCH_ABANDON_TIMEOUT. R438: Tc + 10 ms passes without commit or abandon and ABANDONED sets. -/
  | epochAbandonTimeout
  /-- STOPREQ. R440: A STOPREQ from a child is passed upward or starts the stop at the owner. -/
  | stopreq (port : PortId) (cr : Crypt)
  /-- MARK. R439: A MARK flit arrives and the module enters the stop, cutting that channel. -/
  | mark (port : PortId) (f : Flit)
  /-- RESUME_MARK. R518: A resume MARK arrives; held transactions are handed on and units resume. -/
  | resumeMark (port : PortId) (f : Flit)
  /-- OBS_STOP_GO. R513: A GO write triggers a global stop. -/
  | obsStopGo (w : RegWrite)
  /-- OBS_STOP_RESUME. R518: A RESUME write on the stop owner ends the stop. -/
  | obsStopResume (w : RegWrite)
  /-- SNAPSHOT_ARM. R496: A GO write arms a snapshot or a window, or sets LATE. -/
  | snapshotArm (w : RegWrite)
  /-- SNAPSHOT_TICK. R495: At the armed tick every unit latches its counters into a shadow bank. -/
  | snapshotTick
  /-- ERROR_RECORD_ARRIVE. R502: An error-log record arrives at the log and is queued or dropped. -/
  | errorRecordArrive (idx : Nat)
  /-- ERROR_RECORD_ACCEPT. R502: A queued record receives its SEQ, is stored and offered to the rings. -/
  | errorRecordAccept
  /-- OBS_ELOG_RING_WRITE. R563: A write of an error ring's LOG2N enables it and restarts the copy, or disables it. -/
  | obsElogRingWrite (p : PartId) (w : RegWrite)
  /-- TRACE_RECORD. R509: A trace record reaches the collector and is written or lost. -/
  | traceRecord (idx : Nat)
  /-- OBS_TRC_RING_WRITE. R564: A write of a trace ring's LOG2N enables or disables it. -/
  | obsTrcRingWrite (p : PartId) (w : RegWrite)
  /-- OBS_TRC_MARK. R512: A write emits a trace mark event. -/
  | obsTrcMark (p : PartId) (w : RegWrite)
  /-- HOST_MEM_REQUEST. R527: A host request through BAR0 or BAR2 is performed as an access of the function's partition. -/
  | hostMemRequest (r : HostRequest)
  /-- HOST_ATOMICOP. R522: A host AtomicOp request is completed with Unsupported Request. -/
  | hostAtomicop (fn : PartId) (tag : Nat)
  /-- CONFIG_REQUEST. R523: A configuration request is served or answered with Request Retry Status by phase. -/
  | configRequest (fn : PartId) (c : ConfigReq)
  /-- HOST_WINDOW_COMPLETION. R534: A host completion for a host-window read or atomic returns data or an error response. -/
  | hostWindowCompletion (tag : Nat) (c : HostCompletion)
  /-- SMBUS_BLOCK_READ. R537: An SMBus Block Read returns a live register value or is NACKed. -/
  | smbusBlockRead (t : SmbusTransaction)
  /-- REGISTER_WRITE. R6: A write to a register without behaviour of its own sets its fields by access code. -/
  | registerWrite (reg : Nat) (w : RegWrite)
  /-- LNK_PORT_WRITE. R408: A write of a port's EN field disables the port or starts its training. -/
  | lnkPortWrite (port : PortId) (w : RegWrite)
  /-- FENCE_COMPLETE. R296: The fence sequence ends: CAUSE is set, BUSY clears, the record is logged and the fence interrupt is raised. -/
  | fenceComplete (q : QuarterId)
  /-- RESTORE_DONE. R298: A quarter restore ends, either with RFAIL set or with the well cleared, links retrained, BUSY clear and CAUSE 0. -/
  | restoreDone (q : QuarterId) (selfTest : Bool)
  /-- START_UP_DONE. R476: Start-up reaches PHASE SERVICE or RECOVERY, presents the functions and runs the boot cores. -/
  | startUpDone
  /-- WARM_RESET_DONE. R392: A warm reset completes and host requests are served again. -/
  | warmResetDone
  /-- HOST_COMPLETION_TIMEOUT. R534: A host-window read or atomic gets no completion in time and ends with LINK_TIMEOUT. -/
  | hostCompletionTimeout (tag : Nat)
  /-- BUS_RECOVERY. R442: The input bus returns into 44 V to 60 V, starting the 1 ms sag hold and the 100 ms recovery wait. -/
  | busRecovery (mv : Nat)
  /-- BUS_OVERVOLTAGE. R445: The input bus rises above 60 V, starting the 1 ms over-voltage timer. -/
  | busOvervoltage (mv : Nat)
deriving DecidableEq, Repr

end Sys2Proof
end

