-- ==== Sys2Proof/Config.lean ====
section
/-! DEFINITION. What the manual fixes for a part but does not print, and what it leaves open: constants without a
body, so that no proof can see what they are. -/

namespace Sys2Proof.Config

/-- Coefficient i (0 to 2) of record k of built-in table slot 0 to 6 (R90): bind bit for bit, published outside the
manual. Free value (LOG 7). -/
opaque builtinCoef : Nat → Nat → Nat → BitVec 32

/-- Low 128 bits of the per-lane polynomial P_l for l from 1 to 511 (R196): published outside the manual.
Free value (LOG 7). -/
opaque lanePoly : Nat → BitVec 128

/-- Which line leaves a full near cache (R279 gives no replacement rule). Free value (LOG 15). -/
opaque nearVictim : Nat → Nat

/-- The speed target the controller sets for an allowance in mW (15, "The controller"). Free value (LOG 14). -/
opaque speedFor : Int → Nat

/-- What the instructions that a quarter issues would draw at a time, in mW, which its activity estimate follows (R454); the manual
gives no formula. Free value (LOG 76). -/
opaque activity : Nat → Nat → Nat

/-- The PUF secret K that the helper data give on this module (R468). Free value (LOG 12). -/
opaque pufSecret : List Byte → BitVec 256

/-- The key derived from K under which the BSC authenticates the monotonic counter, and the key that was installed in the flash at test
(R465). Free values (LOG 12). -/
opaque counterKey : List Byte → BitVec 256
opaque counterKeyInstalled : BitVec 256

/-- A draw of the BSC's true random source: the reservoir's keys (R482) and the randomness that FIPS 204 lets a signature take. Free
value (LOG 12). -/
opaque trueRandom : Nat → BitVec 512

/-- The root public keys in the mask ROM of G0 (16, opening). Free values (LOG 12). -/
opaque rootEd25519 : BitVec 256

/-- The ML-DSA-65 root public key in the mask ROM of G0. Free value (LOG 12). -/
opaque rootMldsa : BitVec 15616

/-- A byte the manual leaves undefined: the counter of the state picks which (LOG 5). -/
opaque freeByte : Nat → BitVec 8

/-- Which of several a choice falls on where the manual names none: the counter of the state picks (LOG 5). -/
opaque freeIndex : Nat → Nat

/-- The maximum and the scale word that a stored-score record has for a row without a visible token (R236), and (R225) a function of
what the row is computed from: what its work item read, and which word of which record. Free value (LOG 82). -/
opaque emptyScore : List (List (BitVec 8)) → Nat → Nat

/-- The scores that BWD uses under SSRC without RING, where no record is stored (R236): a function of what the work item read and of
which row and token (R225). Free value (LOG 82). -/
opaque unstoredScore : List (List (BitVec 8)) → Nat → Nat

/-- The quotient of a number by 0, which R234 leaves without a value (LOG 26). -/
opaque divByZero : Nat → Int

/-- Whether half of an odd number of nanoseconds is rounded up, which R433 does not say. Free value (LOG 27). -/
opaque halfUp : Int → Bool

/-- How far a counter of R494 goes in one nanosecond where the manual does not fix the events that it counts: the clearing of the
counters that it counts from, its unit, its index and the nanosecond pick the value (LOG 19). -/
opaque freeCount : Nat → Nat → Nat → Nat → Nat

/-- When a start-up has taken its voltage tables (0), and when it has checked both slots (1), in ns after its step 1, within the bounds
of R476: the state's counter and the step pick the value (LOG 43). -/
opaque startTime : Nat → Nat → Nat

/-- How many bytes of an erase or of a programming are done when a reset interrupts it (R486). Free value (LOG 88). -/
opaque flashDone : Nat → Nat

end Sys2Proof.Config
end

