-- ==== Sys2Proof/Machine/Table.lean ====
section
/-! DEFINITION. Sparse tables: what a key not listed reads as is the table's default. They are kept in one
canonical form, so that equal tables are equal data: keys strictly rising, and no entry equal to the default. -/

namespace Sys2Proof.Machine

/-- A sparse table: key and value pairs. Every use names its default. -/
abbrev Table (α : Type) := List (Nat × α)

/-- The value under key `k`, or `d` when the table does not list it. -/
def Table.get {α : Type} (d : α) (t : Table α) (k : Nat) : α :=
  match t with
  | [] => d
  | e :: r => if e.1 = k then e.2 else Table.get d r k

/-- The table without any entry of key `k`. -/
def Table.erase {α : Type} (t : Table α) (k : Nat) : Table α :=
  match t with
  | [] => []
  | e :: r => if e.1 = k then Table.erase r k else e :: Table.erase r k

/-- Put an entry before the first larger key. -/
def Table.insert {α : Type} (t : Table α) (k : Nat) (v : α) : Table α :=
  match t with
  | [] => [(k, v)]
  | e :: r => if k < e.1 then (k, v) :: e :: r else e :: Table.insert r k v

/-- Write `v` under key `k`; writing the default removes the entry. -/
def Table.set {α : Type} [DecidableEq α] (d : α) (t : Table α) (k : Nat) (v : α) : Table α :=
  if v = d then Table.erase t k else Table.insert (Table.erase t k) k v

/-- Every key lies above `n` and the keys rise strictly, with no default entry. -/
def Table.wfFrom {α : Type} [DecidableEq α] (d : α) (n : Nat) (t : Table α) : Bool :=
  match t with
  | [] => true
  | e :: r => decide (n ≤ e.1) && decide (e.2 ≠ d) && Table.wfFrom d (e.1 + 1) r

/-- The canonical form. -/
def Table.wf {α : Type} [DecidableEq α] (d : α) (t : Table α) : Bool := Table.wfFrom d 0 t

/-- Write the values of a list under keys `k`, `k + 1`, and so on. -/
def Table.setList {α : Type} [DecidableEq α] (d : α) (t : Table α) (k : Nat) (vs : List α) : Table α :=
  match vs with
  | [] => t
  | v :: r => Table.setList d (Table.set d t k v) (k + 1) r

/-- The values under keys `k` to `k + n - 1`. -/
def Table.getList {α : Type} (d : α) (t : Table α) (k n : Nat) : List α :=
  match n with
  | 0 => []
  | m + 1 => Table.get d t k :: Table.getList d t (k + 1) m

/-- Remove every entry whose key lies in `[lo, hi)`: those keys read as the default again. -/
def Table.clear {α : Type} (t : Table α) (lo hi : Nat) : Table α :=
  t.filter (fun e => !(decide (lo ≤ e.1) && decide (e.1 < hi)))

/-- Write the values of a list under consecutive keys from `lo` on, in one pass. -/
def Table.putRange {α : Type} [DecidableEq α] (d : α) (t : Table α) (lo : Nat) (vs : List α) : Table α :=
  let hi := lo + vs.length
  t.filter (fun e => decide (e.1 < lo)) ++
    (vs.zipIdx.map (fun x => (lo + x.2, x.1))).filter (fun e => decide (e.2 ≠ d)) ++
    t.filter (fun e => decide (hi ≤ e.1))

end Sys2Proof.Machine
end

