-- ==== Sys2Proof/Machine/Arbiter.lean ====
section
/-! DEFINITION. The deficit round robin by which an arbitration point serves partitions (R377, R378). -/

namespace Sys2Proof.Machine

/-- Rounds enough for some partition of nonzero weight to reach a deficit of `need`. -/
def drrFuel (d : Table Int) (need : Nat) : Nat := 16 * (d.foldl (fun n e => n + e.2.natAbs) (need + 2))

/-- The `drr` of R377 for one choice: each partition's oldest request with the deficit that serving it needs, the weights, and the
round's deficits, turn and whether the turn's quantum is still to come. The caller takes the cost off the deficit of the turn. -/
def drrPick (quantum : Nat) (w : Nat → Nat) (oldest : Nat → Option (Nat × Nat)) :
    Nat → Table Int → Nat → Bool → Option Nat × Table Int × Nat × Bool
  | 0, d, turn, fresh => (none, d, turn, fresh)
  | f + 1, d, turn, fresh =>
    match oldest turn with
    | none => drrPick quantum w oldest f d ((turn + 1) % 16) true
    | some (i, need) =>
      if w turn = 0 then drrPick quantum w oldest f d ((turn + 1) % 16) true
      else
        let have_ := Table.get 0 d turn + (if fresh then ((w turn * quantum : Nat) : Int) else 0)
        if (need : Int) ≤ have_ then (some i, Table.set 0 d turn have_, turn, false)
        else drrPick quantum w oldest f (Table.set 0 d turn have_) ((turn + 1) % 16) true

/-- A partition without a request pending keeps no deficit above 0 (R377). -/
def settleDeficits (pending : Nat → Bool) (d : Table Int) : Table Int :=
  (d.map Prod.fst).foldl (fun t p => if pending p then t else Table.set 0 t p (min (Table.get 0 t p) 0)) d

/-- Take a cost off a partition's deficit. -/
def chargeDeficit (d : Table Int) (p cost : Nat) : Table Int := Table.set 0 d p (Table.get 0 d p - cost)

end Sys2Proof.Machine
end

