-- ==== Sys2Proof/Machine/Arith.lean ====
section
/-! DEFINITION. The integer arithmetic of the module: the shared helpers of R13, scales (R30 to R37), rescale (R46 to
R49) and the scale operations of R86. Arithmetic is exact on Int and Nat (R12); a result that may saturate is paired
with whether it did. -/

namespace Sys2Proof.Machine

/-- A word read as i32 (R28). -/
def sint (w : Word) : Int := w.toInt

/-- The 32-bit pattern of an integer, modulo 2^32. -/
def ofI32 (x : Int) : Word := BitVec.ofInt 32 x

/-- Clamp between two bounds. -/
def clampI (lo hi x : Int) : Int := min (max x lo) hi

/-- `sat_i32` (R44). -/
def satI32 (x : Int) : Int := clampI (-2147483648) 2147483647 x

/-- `sat_i16` (R13). -/
def satI16 (x : Int) : Int := clampI (-32768) 32767 x

/-- `sat_i8` (R13). -/
def satI8 (x : Int) : Int := clampI (-128) 127 x

/-- `x >> s`, toward negative infinity (R12). -/
def asr (x : Int) (s : Nat) : Int := x / (2 ^ s : Nat)

/-- `rne_shift` (R13): round to nearest, ties to even. -/
def rneShift (x : Int) (s : Nat) : Int :=
  if s = 0 then x
  else
    let q := asr x s
    let r := x - q * (2 ^ s : Nat)
    let h : Int := (2 ^ (s - 1) : Nat)
    if r > h ∨ (r = h ∧ q % 2 = 1) then q + 1 else q

/-- `sr_shift` (R13): stochastic rounding with the uniform word `u`. -/
def srShift (x : Int) (s : Nat) (u : Nat) : Int := asr (x + ((u % 2 ^ s : Nat) : Int)) s

/-- `shift_any` (R37): any shift, rounding to nearest even. -/
def shiftAny (x : Int) (s : Int) : Int :=
  if s ≤ 0 then clampI (-(2 ^ 62 : Nat)) (2 ^ 62 : Nat) (x * (2 ^ s.natAbs : Nat))
  else if 64 ≤ s then 0
  else rneShift x s.toNat

/-- Bit length of a number. -/
def bitLen (v : Nat) : Nat := if v = 0 then 0 else Nat.log2 v + 1

/-- A scale (m, e) of value m × 2^(e − 15) (R30); the exponent may be carried beyond the field's width (R46). -/
structure Scale where
  m : Nat
  e : Int
deriving DecidableEq, Repr

/-- The zero scale as the module writes it (R31). -/
def Scale.zero : Scale := ⟨0, 0⟩

/-- The scale of a scale word as stored (R30). -/
def Scale.raw (w : Word) : Scale := ⟨(w.extractLsb' 0 16).toNat, (w.extractLsb' 16 8).toInt⟩

/-- Normalisation where a scale word enters arithmetic (R32). -/
def Scale.norm (s : Scale) : Scale :=
  if s.m = 0 then Scale.zero
  else
    let n := 16 - bitLen s.m
    if s.e - n < -128 then Scale.zero else ⟨s.m * 2 ^ n, s.e - n⟩

/-- A scale word as it enters arithmetic (R32). -/
def Scale.ofWord (w : Word) : Scale := Scale.norm (Scale.raw w)

/-- The scale word of a scale the module produces (R30, R31). -/
def Scale.toWord (s : Scale) : Word :=
  if s.m = 0 then 0 else BitVec.ofNat 32 (s.m % 65536) ||| ((BitVec.ofInt 8 s.e).zeroExtend 32 <<< 16)

/-- Smallest integer at or above a / b. -/
def ceilDiv (a b : Nat) : Nat := (a + b - 1) / b

/-- `scaled(num, k) < lim` of R36 as exact rationals. -/
def scaledLt (num : Nat) (k : Int) (lim : Nat) : Bool :=
  if 0 ≤ k then decide (num * 2 ^ k.toNat < lim) else decide (num < lim * 2 ^ k.natAbs)

/-- First loop of R36. -/
def deriveUp (num lim : Nat) : Nat → Int → Int
  | 0, k => k
  | f + 1, k => if scaledLt num k lim then deriveUp num lim f (k + 1) else k

/-- Second loop of R36. -/
def deriveDown (num lim : Nat) : Nat → Int → Int
  | 0, k => k
  | f + 1, k => if scaledLt num k lim then k else deriveDown num lim f (k - 1)

/-- `derive_scale` (R36) with whether it set the output saturation flag. -/
def deriveScale (amax : Nat) (sin : Scale) (qmax : Nat) : Scale × Bool :=
  if amax = 0 ∨ sin.m = 0 then (Scale.zero, false)
  else
    let num := amax * sin.m
    let k := deriveDown num (qmax * 65536) 128 (deriveUp num (qmax * 32768) 128 0)
    let m0 := if 0 ≤ k then ceilDiv (num * 2 ^ k.toNat) qmax else ceilDiv num (qmax * 2 ^ k.natAbs)
    let m := if m0 = 65536 then 32768 else m0
    let k' := if m0 = 65536 then k - 1 else k
    let e := sin.e - k'
    if 127 < e then (⟨65535, 127⟩, true)
    else if e < -128 then (⟨32768, -128⟩, false)
    else (⟨m, e⟩, false)

/-- Clamp a quantised value and say whether the clamp acted (R37). -/
def quantClamp (q : Int) (qmax : Nat) : Int × Bool :=
  (clampI (-(qmax : Int)) qmax q, decide (q > qmax ∨ q < -(qmax : Int)))

/-- `quantize` (R37). -/
def quantize (x : Int) (sin sa : Scale) (qmax : Nat) : Int × Bool :=
  if sa.m = 0 ∨ sin.m = 0 then (0, false)
  else
    let p := x * (sin.m * (2147483648 / sa.m) : Nat)
    quantClamp (shiftAny p (31 + sa.e - sin.e)) qmax

/-- The stochastic shift shared by R48 and R49: a shift above 32 is first brought down to 32 by a floor shift. -/
def stochShift (p : Int) (s : Int) (u : Nat) : Int :=
  if s ≤ 0 then shiftAny p s
  else if 32 < s then srShift (asr p (s - 32).toNat) 32 u
  else srShift p s.toNat u

/-- `quantize_sr` (R49). -/
def quantizeSr (x : Int) (sin sa : Scale) (qmax : Nat) (u : Nat) : Int × Bool :=
  if sa.m = 0 ∨ sin.m = 0 then (0, false)
  else
    let p := x * (sin.m * (2147483648 / sa.m) : Nat)
    quantClamp (stochShift p (31 + sa.e - sin.e) u) qmax

/-- `scale_mul` (R47). -/
def scaleMul (acc : Int) (sw sa : Scale) : Int :=
  shiftAny (acc * (sw.m * sa.m : Nat)) (30 - sw.e - sa.e)

/-- `scale_mul_sr` (R48). -/
def scaleMulSr (acc : Int) (sw sa : Scale) (u : Nat) : Int :=
  stochShift (acc * (sw.m * sa.m : Nat)) (30 - sw.e - sa.e) u

/-- `to_scale` (R86). -/
def toScale (v : Nat) (ein : Int) : Scale × Bool :=
  if v = 0 then (Scale.zero, false)
  else
    let n0 := bitLen v
    let m0 := (shiftAny v ((n0 : Int) - 16)).toNat
    let m := if m0 = 65536 then 32768 else m0
    let n := if m0 = 65536 then n0 + 1 else n0
    let e : Int := (n : Int) - 1 + ein
    if 127 < e then (⟨65535, 127⟩, true)
    else if e < -128 then (⟨32768, -128⟩, false)
    else (⟨m, e⟩, false)

/-- `smul` (R86). -/
def smul (a b : Scale) : Scale × Bool :=
  if a.m = 0 ∨ b.m = 0 then (Scale.zero, false) else toScale (a.m * b.m) (a.e + b.e - 30)

/-- `srcp` (R86). -/
def srcp (v : Scale) : Scale × Bool :=
  if v.m = 0 then (⟨65535, 127⟩, false) else toScale (2147483648 / v.m) (-16 - v.e)

/-- `sc64` (R86). -/
def sc64 (s : Int) (ein : Int) : Scale × Bool :=
  if s < 0 then (Scale.zero, true) else toScale s.toNat ein

/-- `on_grid` (R220): x × sc rounded to the grid 2^e. -/
def onGrid (x : Int) (sc : Scale) (e : Int) : Int := shiftAny (x * (sc.m : Nat)) (15 + e - sc.e)

/-- The entry nearest to `v` among entries `j`, `j + 1`, …: least distance, an even index before an odd one, then the
lowest index (R43). The accumulator is the best distance and index so far. -/
def encodeFrom (v : Int) : List Int → Nat → Option (Nat × Nat) → Option (Nat × Nat)
  | [], _, best => best
  | c :: cs, j, best =>
    let d := (v - c).natAbs
    let better := match best with
      | none => true
      | some b => decide (d < b.1) || (decide (d = b.1) && decide (b.2 % 2 = 1) && decide (j % 2 = 0))
    encodeFrom v cs (j + 1) (if better then some (d, j) else best)

/-- `encode` (R43). -/
def encodeCode (v : Int) (cb : List Int) : Nat :=
  match encodeFrom v cb 0 none with
  | none => 0
  | some b => b.2

end Sys2Proof.Machine
end

