-- ==== Sys2Proof/Machine/State.lean ====
section
/-! DEFINITION. Every piece of state the manual gives the module, as plain data, and the state after reset. A field
that is a number holds the value of a register field of the width its comment gives. -/

namespace Sys2Proof.Machine

/-- No step of the block stops it: every error the manual describes is an error response, a kernel fault, a record
or a refused write, and each of these is a next state. No meaning raises a fault (safe). -/
inductive Fault where
deriving DecidableEq, Repr

/-- Raised only by an arm of `exec` whose command has no meaning yet (safe). -/
inductive Refusal where
  | notModelled (mnemonic : String)
deriving DecidableEq, Repr

/-- A set of function-table coefficients c0, c1, c2 (R92). -/
structure Coef where
  c0 : Word := 0
  c1 : Word := 0
  c2 : Word := 0
deriving DecidableEq, Repr

/-- A function table (R92): clamps, directions (0 none, 1 rising, 2 falling, 3 reserved), break, 512 records. -/
structure FnTable where
  omin : Word := 0
  omax : Word := 0
  brk : Bool := false
  dirn : Nat := 0
  dirp : Nat := 0
  recs : Table Coef := []
deriving DecidableEq, Repr

/-- Which atomic, load or store an AT operation is (R135). -/
inductive AtKind where
  | ld
  | st
  | atom
  | cas128
  | vatom
deriving DecidableEq, Repr

/-- How far one access of an AT operation has come; a failed one keeps its code and the STAMP of its record (R145). -/
inductive AtStage where
  | waiting
  | sent
  | done
  | failed (code at_ : Nat)
deriving DecidableEq, Repr

/-- One access of an AT operation: AT.VATOM has one for each row, every other operation has one (R138). -/
structure AtRow where
  addr : Nat
  operand : Nat
  stage : AtStage
deriving DecidableEq, Repr

/-- An AT operation in flight (R106, R136, R137): its number, the index of its instruction, what it does, the size
in bytes, the atomic operation, the compare value, the destination register, whether a line it fills may still be
installed (R310), and its accesses. -/
structure AtOp where
  id : Nat
  iidx : Nat
  kind : AtKind
  size : Nat
  aop : Nat
  compare : Nat
  sd : Nat
  sgn : Bool
  fill : Bool
  rows : List AtRow
deriving DecidableEq, Repr

/-- Why a square's control core issues nothing (R126, R131, R143, R200). -/
inductive Stall where
  | none
  | pmWait (ticket : Nat)
  | fence (mask : Nat)
  | counter (ci : Nat) (eq : Bool) (val : Reg64) (scope : Nat)
  | ending
deriving DecidableEq, Repr

/-- What runs on a square (R345): nothing, its launch, or a launch it has stopped on account of a fault, a destruction
or a reset, and not yet reported (R142). -/
inductive RunState where
  | idle
  | running
  | stopped
deriving DecidableEq, Repr

/-- A pump descriptor as PM.ENQ read it (R150). -/
structure Desc where
  ticket : Nat := 0
  iidx : Nat := 0
  coff : Nat := 0
  op : Nat := 0
  xp : Nat := 0
  rcls : Nat := 0
  relt : Nat := 0
  rdlag : Nat := 0
  sig : Bool := false
  sigsz : Nat := 0
  src : Nat := 0
  dst : Nat := 0
  rows : Nat := 0
  rowbytes : Nat := 0
  sstride : Nat := 0
  dstride : Nat := 0
  sigval : Reg64 := 0
  sigaddr : Nat := 0
  rtag : Nat := 0
deriving DecidableEq, Repr

/-- A region descriptor (R158). -/
structure Region where
  omask : Reg64 := 0
  rowblk : Nat := 0
  tagbase : Nat := 0
  dlag : Nat := 0
  elt : Nat := 0
  isSealed : Bool := false
  exact : Bool := false
  codec : Nat := 0
  valid : Bool := false
  size : Nat := 0
  base : Nat := 0
deriving DecidableEq, Repr

/-- What the pump has of a block whose source lies on another module or in host memory: a tag that has passed its checks holds its
reference to a bank (R174). -/
inductive Fetch where
  | idle
  | waitTag
  | haveTag (tag : Nat)
  | checked (tag : Nat)
  | waitData (tag : Nat)
  | haveData (tag : Nat) (bytes : List Byte)
deriving DecidableEq, Repr

/-- One write of a pump: its global address, its bytes, and whether it is a compressed block (R413, R414). -/
structure PumpWrite where
  addr : Nat
  bytes : List Byte
  packed : Bool := false
deriving DecidableEq, Repr

/-- The descriptor in progress (R146, R154, R160): its regions, the next row or element block with the bytes of the row that
are written and the source bytes read beyond them (R302), the source bytes being fetched, the writes of the block still to be
made, the remote writes not yet acknowledged, the transposed bytes held, the signal, an error response under way, and the
pieces of the current block gathered so far, each with its tag. -/
structure PumpRun where
  d : Desc
  regions : List Region
  pos : Nat := 0
  off : Nat := 0
  carry : List Byte := []
  todo : List PumpWrite := []
  fetch : Fetch := .idle
  outstanding : Nat := 0
  hold : Table Byte := []
  sigSent : Bool := false
  sigDone : Bool := false
  err : Nat := 0
  gathered : List (Nat × List Byte) := []
deriving DecidableEq, Repr

/-- One decoding bank of a pump (R172). -/
structure Bank where
  valid : Bool := false
  newest : Bool := false
  gen : Nat := 0
  useCnt : Nat := 0
  closed : Bool := false
  lens : List Nat := []
deriving DecidableEq, Repr

/-- A pump (R127, R146, R172): descriptors not begun, the one in progress, last ticket given, completed and
released, and the table-load registers with the generation being loaded and how far its image read has come. -/
structure Pump where
  queue : List Desc := []
  cur : Option PumpRun := none
  lastTicket : Nat := 0
  lastDone : Nat := 0
  released : Nat := 0
  tblSrc : Nat := 0
  tblErr : Nat := 0
  tblDone : Bool := false
  tblBusy : Bool := false
  tblTgt : Nat := 0
  tblGen : Nat := 0
  tblLoad : Nat := 0
  tblSent : Bool := false
  tblImage : Option (List Byte) := none
  tblCode : Nat := 0
  bank0 : Bank := {}
  bank1 : Bank := {}
deriving DecidableEq, Repr

/-- A fountain (R201, R204): an unlisted lane is at its start state for the seed (R197). `badLane` marks lane states that fail parity, and
`badStep` says that a lane state of the next positioned instruction will (R199). -/
structure Fountain where
  mode : Nat := 1
  ctlMode : Nat := 1
  seed : BitVec 128 := 0
  lanes : Table Nat := []
  jready : Bool := false
  lost : Bool := false
  badJump : Bool := false
  badLane : Table Bool := []
  badStep : Bool := false
  badExp2 : Bool := false
deriving DecidableEq, Repr

/-- A fault of a kernel or fused command on one square, as its status reports it (R144, R145). -/
structure FaultInfo where
  code : Nat
  iidx : Nat
  stamp : Nat
deriving DecidableEq, Repr

/-- One square (R22). Tile element (t, r, n) has key 1024 t + 32 r + n, lane l of register v key 512 v + l, entry j of
codebook slot c key 256 c + j, bank b of user table slot c key 2 c + b. -/
structure Square where
  run : RunState := .idle
  stall : Stall := .none
  launch : Nat := 0
  kpart : Nat := 0
  codeAddr : Nat := 0
  code : List Code := []
  pc : Nat := 0
  sregs : Table Reg64 := []
  allotBase : Nat := 0
  allotSize : Nat := 0
  cbase : Nat := 0
  ccount : Nat := 0
  gridX : Nat := 0
  gridY : Nat := 0
  order : Nat := 0
  rank : Nat := 0
  setSize : Nat := 0
  nextPos : Nat := 0
  tile : Reg64 := BitVec.allOnes 64
  tileXY : Reg64 := BitVec.allOnes 64
  accSat : Bool := false
  outSat : Bool := false
  fault : Option FaultInfo := none
  acc : Table Word := []
  vreg : Table Word := []
  sfile : Table Word := []
  cbook : Table Byte := []
  utab : Table FnTable := []
  uactive : Table Nat := []
  near : Table (List Byte) := []
  atOps : List AtOp := []
  nextAt : Nat := 0
  pump : Pump := {}
  ftn : Fountain := {}
  badTile : Table Bool := []
  badLane : Table Bool := []
  badCb : Table Bool := []
  badTab : Table Bool := []
  badNear : Table Bool := []
deriving DecidableEq, Repr

/-- A fence of a quarter (R295, R299): whether it is out of service, what is running, and the register fields.
`pendCause` is the cause of a fence still running. -/
structure QuarterFence where
  fenced : Bool := false
  busy : Bool := false
  restoring : Bool := false
  pendCause : Nat := 0
  cause : Nat := 0
  rfail : Bool := false
deriving DecidableEq, Repr

/-- An extent entry (R274). -/
structure Extent where
  valid : Bool := false
  scrub : Bool := false
  owner : Nat := 0
deriving DecidableEq, Repr

/-- An entry of PTN_SQOWN with the owner a running handover moves to (`moveTo`, and the stored fields it moves to), whether step 3 of that
handover is done (R373), and the owner the checks of R561 take: `eff` and `moveTo` are 0 for no partition, p + 1 for partition p. -/
structure SquareOwner where
  valid : Bool := false
  busy : Bool := false
  cleaned : Bool := false
  owner : Nat := 0
  moveTo : Nat := 0
  moved : Bool × Nat := (false, 0)
  eff : Nat := 0
deriving DecidableEq, Repr

/-- PTN_HART of one core (R375), with why its next start would start it anew (R479): `none` resumes; and what the core holds
(R22): its PC, mode, address translation and interrupt mask (R479), its integer registers (x10 and x11 in `a0` and `a1`, the
others in `xregs`), its floating-point and vector registers with their control and status registers, its other control and status
registers by number (mstatus, mtvec, mepc, mcause and the rest), its interrupt file (pending and enabled identities, delivery and
threshold; R380), the 128-byte lines that its caches hold written (R311), and whether its later accesses wait for its earlier ones
(R311). -/
structure Hart where
  halted : Bool := true
  run : Bool := false
  valid : Bool := false
  part : Nat := 0
  startCause : Option Nat := some 0
  a0 : Nat := 0
  a1 : Nat := 0
  pc : Nat := 0
  mode : Nat := 3
  satp : Reg64 := 0
  mie : Bool := false
  xregs : Table Reg64 := []
  fregs : Table Reg64 := []
  vregs : Table (BitVec 128) := []
  fcsr : Nat := 0
  vl : Nat := 0
  vtype : Reg64 := 0
  vstart : Nat := 0
  vcsr : Nat := 0
  csrs : Table Reg64 := []
  eip : Table Bool := []
  eie : Table Bool := []
  eidelivery : Nat := 0
  eithreshold : Nat := 0
  dirty : Table Bool := []
  fencing : Bool := false
deriving DecidableEq, Repr

/-- What blocks a hall context (R336, R337, R353): nothing, a counter, a synchronous launch, launches that its instruction waits
for, answers that its instruction waits for, writes of the hall that a release waits for (R312), or its end. -/
inductive Block where
  | ready
  | wait (hall : Bool) (ctr : Nat) (eq : Bool) (val : Reg64)
  | launch (id : Nat)
  | ends (ids : List Nat)
  | answer
  | release
  | ended
deriving DecidableEq, Repr

/-- The context of a queue's running entry (R335), with what ends it (R358), its status (R359), and how far its completion is
(R357): `doneStep` is 0 before the command end has been performed, 1 before the status area is written and 2 after it;
`doneAt` is the stamp of the completion. -/
structure Ctx where
  entry : Nat := 0
  regs : Table Reg64 := []
  pc : Nat := 0
  stack : List Nat := []
  statAddr : Nat := 0
  noInt : Bool := false
  fetched : Bool := true
  block : Block := .ready
  launches : List Nat := []
  pins : List Nat := []
  nlaunch : Nat := 0
  endCode : Nat := 0
  endSrc : Nat := 0
  endStx : Nat := 0
  endAddr : Nat := 0
  doneStep : Nat := 0
  doneAt : Nat := 0
deriving DecidableEq, Repr

/-- A submission queue (R329, R330). `state` is 0 FREE, 1 READY, 2 RUNNING, 3 CLOSING; `ctx` is the context of its running
entry. Of a destruction, `dstep` counts the writes of step 5 of R367 that are done, and `dwork` holds the status area being
written, with its stamp. -/
structure Queue where
  bound : Bool := false
  part : Nat := 0
  base : Nat := 0
  log2n : Nat := 0
  tail : Nat := 0
  head : Nat := 0
  cpl : Nat := 0
  seq : Nat := 0
  ddone : Bool := false
  state : Nat := 0
  hart : Nat := 0
  vec : Nat := 0
  itype : Nat := 0
  irq : Bool := false
  en : Bool := false
  ctx : Option Ctx := none
  dstep : Nat := 0
  dwork : Option (Nat × Nat) := none
deriving DecidableEq, Repr

/-- The hall's arbitration (R337, R377): the deficits of the partitions, the partition whose turn it is in the round and whether its
quantum is still to come, the queue number from which each partition's round robin goes on, the queue whose turn runs with how many
instructions it has run, and for each ready queue one more than the time at which it became ready. -/
structure HallTurn where
  deficit : Table Int := []
  visit : Nat := 0
  fresh : Bool := true
  next : Table Nat := []
  cur : Option Nat := none
  steps : Nat := 0
  since : Table Nat := []
deriving DecidableEq, Repr

/-- What a launch runs (R339). -/
inductive LaunchKind where
  | kernel
  | attention
  | lookup
deriving DecidableEq, Repr

/-- What one square reported of a launch (R143, R144): its fault if any, whether it was stopped, its two flags. -/
structure Report where
  sq : Nat
  fault : Option FaultInfo
  stopped : Bool
  accSat : Bool
  outSat : Bool
deriving DecidableEq, Repr

/-- A running score row of attention: maximum, sum, output accumulators (R222). -/
structure RowState where
  m : Int := -2147483648
  l : Nat := 0
  o : List Int := []
deriving DecidableEq, Repr

/-- The attention descriptor's fields (R216). -/
structure AttnDesc where
  op : Nat := 0
  causal : Bool := false
  ring : Bool := false
  stats : Bool := false
  scores : Bool := false
  ssrc : Bool := false
  fmt : Nat := 0
  qpg : Nat := 0
  kvh : Nat := 0
  split : Nat := 0
  ogrid : Int := 0
  qkscale : Word := 0
  layer : Nat := 0
  batch : Nat := 0
  nseq : Nat := 0
  blen : Nat := 0
  cbaddr : Nat := 0
  ringd : Nat := 0
  scaddr : Nat := 0
  allotBase : Nat := 0
  allotSize : Nat := 0
  cbase : Nat := 0
  ccount : Nat := 0
  gscale : Word := 0
  eds : Int := 0
  eq : Int := 0
  ek : Int := 0
  ev : Int := 0
deriving DecidableEq, Repr

/-- A sequence record with its BWD companion (R217). -/
structure SeqRec where
  len : Nat := 0
  qpos : Nat := 0
  nq : Nat := 0
  nbmax : Nat := 0
  pt : Nat := 0
  qaddr : Nat := 0
  oaddr : Nat := 0
  saddr : Nat := 0
  qsaddr : Nat := 0
  osaddr : Nat := 0
  doaddr : Nat := 0
  dosaddr : Nat := 0
  dqaddr : Nat := 0
  dkaddr : Nat := 0
  dvaddr : Nat := 0
deriving DecidableEq, Repr

/-- The ring descriptor (R229). -/
structure RingDesc where
  n : Nat := 0
  pos : Nat := 0
  base : Nat := 0
  nextSlot : Nat := 0
  mySlot : Nat := 0
  home : Nat := 0
  nextC : Nat := 0
  prevC : Nat := 0
  npg : Nat := 0
  gtab : Nat := 0
deriving DecidableEq, Repr

/-- Progress of one work item: how many blocks it has folded (under RING, over all steps), the block the walker has
read (its page, KPOS and FILL), what it has read of its rows, the states of its rows (R222) or their dQ sums (R235),
whether its parts are merged (R223), and whether its rows are written. -/
structure ItemState where
  next : Nat := 0
  walked : Option (Nat × Nat × Nat) := none
  inputs : List (List Byte) := []
  rows : List RowState := []
  dq : List (List Int) := []
  merged : Bool := false
  done : Bool := false
deriving DecidableEq, Repr

/-- Ring protocol state of a member (R231, R233): the step, whether the slab of the step is in hand, the ticket of its
forward (0 when it has none), who poisoned (0 none, 1 predecessor, 2 successor), whether the neighbours are told. -/
structure RingState where
  step : Nat := 0
  have_ : Bool := false
  ticket : Nat := 0
  poisonFrom : Nat := 0
  poisoned : Bool := false
deriving DecidableEq, Repr

/-- A fused attention command in progress. Work item (record, head, part, tile) has key `itemKey`; `mem0` is memory as it stood
when the command started, or under RING when the slab of the step was there (R214). -/
structure Attn where
  desc : AttnDesc := {}
  recs : List SeqRec := []
  ringd : RingDesc := {}
  items : Table ItemState := []
  ring : RingState := {}
  mem0 : Table Byte := []
deriving DecidableEq, Repr

/-- Progress of one request of a prefix lookup (R255, R256): the record's fields, the token ids and hashes of its full
blocks, the next block to probe, the blocks probed and not yet pinned (block, then node and record unless it missed),
the blocks pinned and not yet committed (block, record, node), entries written of the block being committed, committed
blocks, why it stopped, result written. -/
structure LookReq where
  result : Nat := 0
  bref : Nat := 0
  pt : Nat := 0
  nbmax : Nat := 0
  tok : Nat := 0
  ntok : Nat := 0
  hashed : Bool := false
  toks : List Nat := []
  hashes : List Reg64 := []
  probe : Nat := 0
  cands : List (Nat × Option (Nat × Nat)) := []
  pins : List (Nat × Nat × Nat) := []
  wrote : Nat := 0
  committed : Nat := 0
  stop : Option Nat := none
  written : Bool := false
deriving DecidableEq, Repr

/-- A prefix-lookup command in progress (R253). -/
structure Lookup where
  req : Nat := 0
  nreq : Nat := 0
  layers : Nat := 0
  ngrp : Nat := 0
  fmt : Nat := 0
  reqs : List LookReq := []
deriving DecidableEq, Repr

/-- How far a launch is (R346): 0 issued, 1 running, 2 ended. -/
inductive LaunchStage where
  | issued
  | running
  | ended
deriving DecidableEq, Repr

/-- A launch from its issue to its end (R340, R345, R346, R355), with how many writes and atomics of a fused command are
still unanswered by another module or the host, and whether the destruction of its queue has ended it, so that its squares
stay in their lists until step 6 of R367. -/
structure Launch where
  id : Nat
  queue : Nat
  part : Nat
  kind : LaunchKind
  iaddr : Nat
  daddr : Nat
  stx : Nat
  qmask : Nat
  smask : Nat
  order : Nat
  async : Bool
  cont : Bool
  ksw : Bool
  fskip : Bool
  grid : Option Reg64
  arg7 : Option Reg64
  ecnt : Nat
  statAddr : Nat
  stage : LaunchStage := .issued
  set : List Nat := []
  reports : List Report := []
  aborted : Bool := false
  stopAll : Bool := false
  status : Reg64 := 0
  attn : Option Attn := none
  look : Option Lookup := none
  outstanding : Nat := 0
  closing : Bool := false
deriving DecidableEq, Repr

/-- A seal range (R361): state 0 free, 1 sealed, 2 retiring. -/
structure SealRange where
  state : Nat := 0
  part : Nat := 0
  base : Nat := 0
  pins : Nat := 0
  pages : Nat := 0
deriving DecidableEq, Repr

/-- A program handle (R364). -/
structure Handle where
  valid : Bool := false
  addr : Nat := 0
  range : Nat := 0
  ver : Nat := 0
deriving DecidableEq, Repr

/-- An error-log ring of a partition (R507). -/
structure ErrRing where
  base : Nat := 0
  log2n : Nat := 0
  tail : Nat := 0
  head : Nat := 0
  hart : Nat := 0
  vec : Nat := 0
  itype : Nat := 0
  ien : Bool := false
  lost : Nat := 0
  err : Nat := 0
  from_ : Nat := 0
deriving DecidableEq, Repr

/-- A trace ring of a partition (R512) with its loss count and the stamp of the first lost record (R509). -/
structure TrcRing where
  base : Nat := 0
  log2n : Nat := 0
  tail : Nat := 0
  head : Nat := 0
  en : Nat := 0
  lost : Nat := 0
  err : Nat := 0
  loss : Nat := 0
  lossStamp : Nat := 0
deriving DecidableEq, Repr

/-- A partition's mailbox (R483). -/
structure Mailbox where
  op : Nat := 0
  busy : Bool := false
  done : Bool := false
  err : Nat := 0
  arg0 : Reg64 := 0
  arg1 : Reg64 := 0
  runOp : Nat := 0
  runArg0 : Reg64 := 0
  runArg1 : Reg64 := 0
deriving DecidableEq, Repr

/-- A PCI Express function (R369, R521, R523, R525, R526) with its MSI-X table: mask bits are 1 when not listed. `mps` and `mrrs` are
the fields of Device Control (128 << n bytes), `aer` the Uncorrectable Error Status register. -/
structure Function where
  memSpace : Bool := false
  busMaster : Bool := false
  msixEn : Bool := false
  fmask : Bool := false
  atomicEn : Bool := false
  bar2 : Nat := 30
  unmasked : Table Bool := []
  pend : Table Bool := []
  msixAddr : Table Reg64 := []
  msixData : Table Nat := []
  aer : Nat := 0
  mps : Nat := 0
  mrrs : Nat := 2
  d3 : Bool := false
  haper : Nat := 0
  hbase : Nat := 0
  hsize : Nat := 0
deriving DecidableEq, Repr

/-- Moderation of one interrupt target (R382): the end of its interval, whether a merged message waits, and the register
that names the target, with the unit that holds it (R380). -/
structure Moderation where
  target : IntTarget
  until_ : Nat
  pending : Bool
  regUnit : Nat
  regAddr : Nat
deriving DecidableEq, Repr

/-- How far a partition reset is (R385): 0 none, 1 triggered (step 1 done), 2 destruction running, 3 walking the tree, with the
next slot in `walk`. -/
structure ResetState where
  resetting : Bool := false
  done : Bool := false
  stage : Nat := 0
  walk : Nat := 0
  byPf : Bool := false
  byP0 : Bool := false
  held : Bool := false
  holdDone : Bool := false
deriving DecidableEq, Repr

/-- What belongs to one partition. -/
structure Part where
  rtabBase : Nat := 0
  rtabCnt : Nat := 0
  pfxBase : Nat := 0
  pfxProbe : Nat := 0
  pfxLog2n : Nat := 0
  pfxKey : Reg64 := 0
  qosLnk : Nat := 16
  qosBrg : Nat := 16
  qosMem : Nat := 16
  qosHall : Nat := 16
  mod_ : Nat := 0
  rdHart : Nat := 0
  rdVec : Nat := 0
  rdItype : Nat := 0
  ctxBase : Nat := 0
  ctxEn : Bool := false
  reset : ResetState := {}
  moderation : List Moderation := []
  mbox : Mailbox := {}
  elog : ErrRing := {}
  trc : TrcRing := {}
  fn : Function := {}
deriving DecidableEq, Repr

/-- A trace record (R508) with the ring it is for. -/
structure TrcRecord where
  ring : Nat
  event : Nat
  part : Nat
  unit : Nat
  stamp : Nat
  tu : Bool
  arg0 : Reg64
  arg1 : Reg64
deriving DecidableEq, Repr

/-- The counters as they stood when the time base reached a tick, with the units that were powered then, and which clearing the counters
count from and how long ago it was (R495, R497). -/
structure SnapHold where
  ctr : Table Reg64 := []
  units : List Nat := []
  epoch : Nat := 0
  age : Nat := 0
deriving DecidableEq, Repr

/-- The snapshot registers (R496, R499). `held` keeps what the counters were at a tick; `latched` says which ticks are latched; `age` has
for each unit the clearing and the age at its last latch of a bank. -/
structure Snap where
  t : Nat := 0
  end_ : Nat := 0
  late : Bool := false
  done : Bool := false
  busy : Bool := false
  armT : Nat := 0
  armEnd : Nat := 0
  held0 : Option SnapHold := none
  held1 : Option SnapHold := none
  latched0 : Bool := false
  bank0 : Table Reg64 := []
  bank1 : Table Reg64 := []
  age0 : Table (Nat × Nat) := []
  age1 : Table (Nat × Nat) := []
  uv : Table Bool := []
  uvNext : Table Bool := []
deriving DecidableEq, Repr

/-- The global stop (R513 to R520). `resuming` is when its end began: it ends once the links have handed on what they held then (R518). -/
structure Stop where
  id : Nat := 0
  ctlId : Nat := 0
  cause : Nat := 0
  all : Bool := false
  stopped : Bool := false
  resuming : Option Nat := none
  reqOut : Bool := false
  t0 : Nat := 0
  stamps : Table Nat := []
  selCh : Nat := 0
  selPort : Nat := 0
  markPorts : List Nat := []
  heldWrites : List (Nat × RegWrite) := []
  heldResets : List Nat := []
deriving DecidableEq, Repr

/-- A transaction (R410, R411). `payload` is the plain payload, or for `raw` the bytes after the header as received:
encrypted payload, padding and tag. `key` is the link key under which a transaction of this module is sealed as it is sent (R425, R426),
`ctr` its stream counter, `flits` how many flits of the receive buffer it holds (R404), `at_` when the flit in which it starts came
(R433). -/
structure Txn where
  type : Nat := 0
  ch : Nat := 0
  spart : Nat := 0
  dpart : Nat := 0
  srcm : Nat := 0
  dstm : Nat := 0
  hops : Nat := 0
  hptr : Nat := 0
  addr : Nat := 0
  len : Nat := 0
  tid : Nat := 0
  code : Nat := 0
  aop : Nat := 0
  asz : Nat := 0
  blk : Bool := false
  nb : Nat := 0
  route : Nat := 0
  raw : Bool := false
  payload : List Byte := []
  key : Option (BitVec 256) := none
  ctr : Nat := 0
  flits : Nat := 0
  at_ : Nat := 0
deriving DecidableEq, Repr

/-- One flit of a transmitter (R403): its SEQ, kind (0 DATA, 3 MARK), channel, the transaction it belongs to and which
of that transaction's flits it is, and when it was last sent and with which ACKSEQ. A MARK carries its identity in `addr` and its time
in `ctr` of `txn`. -/
structure SentFlit where
  seq : Nat
  kind : Nat
  ch : Nat
  txn : Txn
  idx : Nat
  at_ : Nat := 0
  ack : Nat := 0
  ackV : Bool := false
deriving DecidableEq, Repr

/-- One port (R402 to R408): fields of LNK_PORT_n, the receiver's next SEQ and NAK, the transmitter's next SEQ, replay
buffer and credits, what has been received in part with the flits it holds, the received transactions of each channel,
when the flit came in which the part received on channel 2 starts, whether anything was received in order, the flits waiting to be
sent, the channels on which a MARK was sent, and the deficits, the partition whose turn it is and whether its quantum is still to come
of the round of R377, for what leaves by the port and (`in…`) for what it has received. -/
structure Port where
  peerM : Nat := 4095
  peerP : Nat := 127
  peerPrec : Nat := 0
  retrains : Nat := 0
  loop : Bool := false
  child : Bool := false
  en : Bool := true
  state : Nat := 0
  rxSeq : Nat := 0
  nakSent : Bool := false
  txSeq : Nat := 0
  replay : List SentFlit := []
  replays : Nat := 0
  credReq : Nat := 1024
  credRsp : Nat := 1024
  credCtl : Nat := 32
  partialReq : List Byte := []
  partialRsp : List Byte := []
  partialCtl : List Byte := []
  flitsReq : Nat := 0
  flitsRsp : Nat := 0
  flitsCtl : Nat := 0
  rxReq : List Txn := []
  rxRsp : List Txn := []
  rxCtl : List Txn := []
  txq : List SentFlit := []
  marked : List Nat := []
  ctlAt : Nat := 0
  rxAny : Bool := false
  deficit : Table Int := []
  turn : Nat := 0
  fresh : Bool := true
  inDeficit : Table Int := []
  inTurn : Nat := 0
  inFresh : Bool := true
deriving DecidableEq, Repr

/-- A transaction held ahead of a gap of its stream (R417): the port it came by, when it arrived, the transaction as
received, and what its decryption found. -/
structure HeldTxn where
  port : Nat
  at_ : Nat
  txn : Txn
  cr : Crypt
  plain : List Byte
deriving DecidableEq, Repr

/-- Who waits for an answer from another module or from the host; an error response to an atomic of `tail`, which a launch sends
as it ends, changes nothing (R233, R260). -/
inductive Waiter where
  | atRow (sq : Nat) (op : Nat) (row : Nat)
  | pumpRead (sq : Nat) (tag : Bool)
  | pumpWrite (sq : Nat)
  | pumpSignal (sq : Nat)
  | tableRead (sq : Nat)
  | far (key : Nat)
  | command (id : Nat) (sq : Nat)
  | tail (id : Nat)
  | core (c : Nat)
  | link (port : Nat) (t : Txn)
  | nobody
deriving DecidableEq, Repr

/-- Whose far access it is: the context of a queue, the hall for a launch, a square of a launch, a work item of attention, a
request of a prefix lookup, the reset of a partition, the controller's reload of the jump parameters, or the handover of a square. -/
inductive FarOwner where
  | hall (q : Nat)
  | launch (id : Nat)
  | square (id : Nat) (sq : Nat)
  | item (id : Nat) (key : Nat)
  | request (id : Nat) (req : Nat)
  | reset (p : Nat)
  | bsc
  | handover (u : Nat)
deriving DecidableEq, Repr

/-- An access of the dispatch hall, or of a launch, to another module or to host memory: which access it is, its code and bytes
once it has been answered, and the stamp of the record of an error response. -/
structure FarAccess where
  key : Nat
  owner : FarOwner
  addr : Nat
  kind : AccessKind
  result : Option (Nat × List Byte) := none
  stamp : Nat := 0
deriving DecidableEq, Repr

/-- A request to another module without its answer (R415, R416). One that waits for room holds what is to be sent in `unsent`. -/
structure LinkReq where
  tid : Nat
  dstm : Nat
  part : Nat
  unit : Nat
  addr : Nat
  sent : Nat
  waiter : Waiter
  unsent : Option Txn := none
deriving DecidableEq, Repr

/-- One request of a read or atomic to the host: its tag, and which bytes of the whole it asks for (R521, R534). -/
structure HostTag where
  tag : Nat
  off : Nat
  len : Nat
deriving DecidableEq, Repr

/-- A read or atomic of host memory (R533, R534): its bus address, whether it has ended with an error already, how many of its bytes have
been asked for, the requests that wait for a completion, and the bytes that came, under their offsets. -/
structure HostReq where
  part : Nat
  unit : Nat
  addr : Nat
  bus : Nat
  len : Nat
  kind : AccessKind
  waiter : Waiter
  failed : Bool := false
  sent : Nat := 0
  tags : List HostTag := []
  got : Table (List Byte) := []
deriving DecidableEq, Repr

/-- An entry of the pair table (R425). -/
structure Pair where
  valid : Bool := false
  peer : Nat := 0
  lpart : Nat := 0
  rpart : Nat := 0
  kslot : Nat := 0
deriving DecidableEq, Repr

/-- The links and the precinct (R408 to R440). Route r of entry m in bank b has key 16384 b + 4 m + r. `sendCtr` and
`recvCtr` hold the counters of the streams sent and handed on (R417), `gap` the transactions held ahead of a gap, oldest
first. -/
structure Links where
  precid : Nat := 0
  modnum : Nat := 4095
  nmem : Nat := 1
  role : Nat := 0
  conflict : Bool := false
  root : Bool := false
  master : Bool := false
  timeout : Nat := 100
  parent : Nat := 127
  tlock : Bool := true
  offset : Int := 0
  delay : Nat := 0
  exchanges : Nat := 0
  loaded : Bool := false
  lastExchange : Nat := 0
  t1 : Nat := 0
  epochCur : Nat := 0
  epochArm : Nat := 0
  inProg : Bool := false
  late : Bool := false
  abandoned : Bool := false
  armed : Bool := false
  active : Nat := 0
  epoch : Nat := 0
  epochTc : Nat := 0
  epochCount : Nat := 0
  epochOk : Bool := true
  epochWait : List Nat := []
  committed : Bool := false
  route : Table Reg64 := []
  bundles : Table (BitVec 96) := []
  pairs : Table Pair := []
  keys : Table (Option (BitVec 256)) := []
  sendCtr : Table Nat := []
  recvCtr : Table Nat := []
  gap : List HeldTxn := []
  reqs : List LinkReq := []
  nextTid : Nat := 0
  ports : Table Port := []
  slew : Int := 0
  slewAcc : Nat := 0
deriving DecidableEq, Repr

/-- A point of a voltage table (R449). -/
structure VPoint where
  mv : Nat
  s60 : Nat
  tc : Int
deriving DecidableEq, Repr

/-- A die's registers (R464), its rail current (R446) and `core`, the voltage in mV that the controller sets its rail to (R448): 0
while the rail is off. -/
structure Die where
  tj : Nat := 0
  speed : Nat := 0
  volt : Nat := 0
  amp : Nat := 0
  core : Nat := 0
  phflt : Bool := false
  off : Bool := false
  table : List VPoint := []
deriving DecidableEq, Repr

/-- Power and supply (R441 to R464) and the pins of the supply (R540, R545). Times that are `none` are timers not
running; `age` is the time since input power became good, `base` what the module draws beside its quarters, `estimates` the quarters'
activity estimates, and `mw` the last sample's input power (R454). -/
structure Power where
  ven : Bool := false
  good : Bool := false
  gates : Bool := false
  perst : Bool := false
  brakePin : Bool := false
  mstrTied : Bool := false
  smbAddr : Nat := 0
  pinMstr : Bool := false
  pinSmb : Nat := 0
  busMv : Nat := 54000
  sag : Bool := false
  sagSince : Option Nat := none
  inRangeSince : Option Nat := none
  aboveSince : Option Nat := none
  overSince : Option Nat := none
  stoppedFor : Nat := 0
  brake : Bool := false
  tblFail : Nat := 0
  target : Nat := 1200
  deny : Bool := false
  trip : Bool := false
  loss : Bool := false
  state : Nat := 0
  thr : Nat := 0
  ramp : Nat := 10
  wien : Bool := false
  window : Nat := 2
  limit : Nat := 3200
  tmax : Nat := 0
  tjt : Nat := 95
  energy : Nat := 0
  avg : Int := 0
  pin : Nat := 0
  iin : Nat := 0
  vin : Nat := 0
  peakCap : Int := 3400000
  thermalS : Nat := 1200
  allowance : Int := 3400000
  base : Int := 0
  estimates : Table Int := []
  sampled : Bool := false
  mw : Nat := 0
  age : Nat := 0
  gating : Bool := false
  lastEval : Nat := 0
  lastSample : Nat := 0
  thrDur : Table Nat := []
  wakeAt : Option Nat := none
  wakePending : Bool := false
  enterAt : Option Nat := none
  retention : Table Fountain := []
  dies : Table Die := []
deriving DecidableEq, Repr

/-- An access held by a wake (R461). -/
inductive Held where
  | host (r : HostRequest)
  | link (port : Nat) (t : Txn)
  | reg (off : Nat) (w : RegWrite)
deriving DecidableEq, Repr

/-- Start-up, flash and mailbox (R465 to R486). A flash byte not listed is erased. `phase`: 0 ROM, 1 VERIFY, 2 LOAD,
3 SERVICE, 4 RECOVERY. `kept` is the running manifest's component table (R480), `elapsed` the time since step 1 of the start-up under way,
and `badFlash` has the flash bytes whose reads fail, a retry included (R473). -/
structure Boot where
  identPart : Nat := 0
  serialLo : Reg64 := 0
  serialHi : Reg64 := 0
  flash : Table Byte := []
  counter : Nat := 0
  bcause : Nat := 8
  acause : Nat := 8
  rpmcf : Bool := false
  idfail : Bool := false
  ddfail : Bool := false
  slot : Nat := 0
  phase : Nat := 0
  svn : Nat := 0
  imgVer : Nat := 0
  entry : Nat := 0
  mbBuf : Table Byte := []
  running : Option Nat := none
  executed : Bool := false
  outcome : Nat := 0
  lastServed : Nat := 15
  erasedA : Bool := false
  erasedB : Bool := false
  starting : Bool := false
  startCause : Nat := 0
  warming : Bool := false
  kept : List Byte := []
  elapsed : Nat := 0
  startKey : Nat := 0
  badFlash : Table Bool := []
  resKeys : Table (BitVec 512) := []
deriving DecidableEq, Repr

/-- Module-wide fountain registers (R205). `job`: 0 none, 1 reload, 2 self-test, 3 both. -/
structure FtnGlobal where
  err : Nat := 0
  done : Bool := false
  busy : Bool := false
  job : Nat := 0
  jsrc : Nat := 0
  stfail : Table Bool := []
deriving DecidableEq, Repr

/-- What leaves the block. An MSI-X message carries the address and the data of its table entry. A completion's status, of a memory or a configuration request, is PCI Express's: 0 successful,
1 Unsupported Request, 2 Request Retry Status, 4 Completer Abort. -/
inductive Out where
  | msi (fn : Nat) (vec : Nat) (addr : Nat) (data : Nat)
  | aia (hart : Nat) (vec : Nat)
  | resp (unit : Nat) (code : Nat) (bytes : List Byte)
  | hostCpl (fn : Nat) (tag : Nat) (status : Nat) (bytes : List Byte)
  | hostWrite (fn : Nat) (bus : Nat) (bytes : List Byte)
  | hostRead (fn : Nat) (bus : Nat) (len : Nat) (tag : Nat)
  | hostAtomic (fn : Nat) (bus : Nat) (op : Nat) (size : Nat) (operand : Nat) (compare : Nat) (tag : Nat)
  | config (fn : Nat) (status : Nat) (value : Nat)
  | smbus (ack : Bool) (bytes : List Byte)
  | flit (port : Nat) (f : SentFlit)
  | nak (port : Nat) (ack : Nat) (seq : Nat)
  | idle (port : Nat) (ack : Nat) (crReq crRsp crCtl : Nat) (seq : Nat)
  | ctl (port : Nat) (code : Nat) (payload : List Byte)
deriving DecidableEq, Repr

/-- What the acceptance of an error-log record lets go (R502): the error response that its home holds. -/
inductive Reply where
  | none
  | square (sq : Nat) (op : Nat) (row : Nat) (code : Nat)
  | pump (sq : Nat) (code : Nat)
  | hall (q : Nat)
  | far (key : Nat) (code : Nat)
  | command (id : Nat) (sq : Nat) (code : Nat)
  | tail (id : Nat)
  | out (o : Out)
  | linkErr (t : Txn) (code : Nat)
deriving DecidableEq, Repr

/-- An error-log record (R500) with the reply its acceptance lets go, and whether it fails parity in the store (R505). -/
structure ErrRecord where
  seq : Nat := 0
  tu : Bool := false
  srcm : Nat := 4095
  part : Nat := 0
  unit : Nat := 0
  code : Nat := 0
  addr : Nat := 0
  stamp : Nat := 0
  reply : Reply := .none
  bad : Bool := false
deriving DecidableEq, Repr

/-- The error log (R502, R503): records under way, the queue of 256, the store of 8,192, NEXT, DROP, STOPMASK. -/
structure ErrLog where
  transit : List ErrRecord := []
  queue : List ErrRecord := []
  store : List ErrRecord := []
  next : Nat := 0
  drop : Nat := 0
  stopMask : Nat := 0
deriving DecidableEq, Repr

/-- A read of a well or the reservoir whose first attempt failed parity (R291). -/
structure Retry where
  src : AccessSource
  addr : Nat
deriving DecidableEq, Repr

/-- A load-reserve's reservation: the core, and the bytes (R311). -/
structure Reservation where
  core : Nat
  addr : Nat
  size : Nat
deriving DecidableEq, Repr

/-- The whole block. `sqCtr` holds counter c of square u under 64 u + c, `hallCtr` hall counter c under c, `handles`
handle h of partition p under 256 p + h, `ctr` live counter i of unit u under 256 u + i; `ctrEpoch` counts the times that the
counters were cleared, and `ctrAge` is how many nanoseconds ago that was. `badWrite` marks the units whose next
write data arrives corrupt at its home (R291). -/
structure State where
  pending : List Instr := []
  out : List Out := []
  freeCtr : Nat := 0
  isM : Bool := false
  time : Nat := 0
  replicas : Table Nat := []
  mem : Table Byte := []
  parity : Table Nat := []
  retries : List Retry := []
  resv : List Reservation := []
  badWrite : Table Bool := []
  squares : Table Square := []
  sqCtr : Table Reg64 := []
  sqOwn : Table SquareOwner := []
  extents : Table Extent := []
  fences : Table QuarterFence := []
  harts : Table Hart := []
  parts : Table Part := []
  mintHart : Nat := 0
  mintVec : Nat := 0
  mintItype : Nat := 0
  rstLast : Nat := 0
  numVfs : Nat := 0
  vfEnable : Bool := false
  queues : Table Queue := []
  hall : HallTurn := {}
  launches : List Launch := []
  nextLaunch : Nat := 0
  hallCtr : Table Reg64 := []
  seals : Table SealRange := []
  handles : Table Handle := []
  hostReqs : List HostReq := []
  far : List FarAccess := []
  nextFar : Nat := 0
  ftnG : FtnGlobal := {}
  links : Links := {}
  power : Power := {}
  boot : Boot := {}
  held : List Held := []
  heldResets : List Nat := []
  elog : ErrLog := {}
  trcQ : List TrcRecord := []
  ctr : Table Reg64 := []
  ctrEpoch : Nat := 0
  ctrAge : Nat := 0
  snap : Snap := {}
  stop : Stop := {}
deriving DecidableEq, Repr

/-- The module before input power: every register at its reset value, memory with nothing listed. -/
def State.reset : State := {}

end Sys2Proof.Machine
end

