-- ==== Sys2Proof/Machine/Ops.lean ====
section
/-! DEFINITION. The named operations over the state that every family shares: access to the tables, stamps, counters,
error-log and trace records, interrupts, and the reading and writing of memory at its homes. -/

namespace Sys2Proof.Machine

/-! Error codes (R15). -/

abbrev eOk : Nat := 0
abbrev eUnmapped : Nat := 1
abbrev ePermission : Nat := 2
abbrev eParity : Nat := 3
abbrev eAlign : Nat := 4
abbrev eAllot : Nat := 5
abbrev eQueue : Nat := 6
abbrev eCodecLength : Nat := 7
abbrev eCodecTable : Nat := 8
abbrev eUnreachable : Nat := 9
abbrev eTimeout : Nat := 10
abbrev eAborted : Nat := 11
abbrev eIllegal : Nat := 12
abbrev eAtomic : Nat := 13
abbrev ePage : Nat := 14
abbrev eSaturated : Nat := 15

/-! Units (R501). -/

def unitCore (c : Nat) : Nat := 0x80 + c
def unitQuarter (q : Nat) : Nat := 0xB0 + q
def unitHall : Nat := 0xC0
def unitPower : Nat := 0xC1
def unitBsc : Nat := 0xC2
def unitGate (g : Nat) : Nat := 0xC3 + g
def unitReset : Nat := 0xC5
def unitTrace : Nat := 0xC6
def unitElog : Nat := 0xC7
def unitHost (p : Nat) : Nat := 0xD0 + p
def unitPort (n : Nat) : Nat := 0x100 + n

/-- The quarter beside link tile t (R21). -/
def tileQuarter (t : Nat) : Nat := Table.get 7 [(0, 0), (1, 1), (2, 1), (3, 2), (4, 2), (5, 3), (6, 4), (7, 5), (8, 5), (9, 6), (10, 6)] t

/-- The die of a unit: quarters 0 to 7, G0 as 8, G1 as 9. -/
def dieOfUnit (u : Nat) : Nat :=
  if u < 0x80 then u / 16
  else if u < 0xB0 then (u - 0x80) / 6
  else if u < 0xB8 then u - 0xB0
  else if u = 0xC4 ∨ u = 0xC6 ∨ u = 0xC7 then 9
  else if 0x100 ≤ u ∧ u < 0x160 then tileQuarter ((u - 0x100) / 8)
  else 8

/-- The time-base region of a unit (R490). -/
def regionOfUnit (u : Nat) : Nat :=
  if 0x100 ≤ u ∧ u < 0x160 then 10 + (u - 0x100) / 8 else dieOfUnit u

/-! Access to the tables of the state. -/

def State.sq (s : State) (u : Nat) : Square := Table.get {} s.squares u
def State.setSq (s : State) (u : Nat) (v : Square) : State := { s with squares := Table.set {} s.squares u v }
def State.modSq (s : State) (u : Nat) (f : Square → Square) : State := s.setSq u (f (s.sq u))
def State.part (s : State) (p : Nat) : Part := Table.get {} s.parts p
def State.setPart (s : State) (p : Nat) (v : Part) : State := { s with parts := Table.set {} s.parts p v }
def State.modPart (s : State) (p : Nat) (f : Part → Part) : State := s.setPart p (f (s.part p))
def State.queue (s : State) (q : Nat) : Queue := Table.get {} s.queues q
def State.setQueue (s : State) (q : Nat) (v : Queue) : State := { s with queues := Table.set {} s.queues q v }
def State.modQueue (s : State) (q : Nat) (f : Queue → Queue) : State := s.setQueue q (f (s.queue q))
def State.port (s : State) (n : Nat) : Port := Table.get {} s.links.ports n
def State.setPort (s : State) (n : Nat) (v : Port) : State :=
  { s with links := { s.links with ports := Table.set {} s.links.ports n v } }
def State.modPort (s : State) (n : Nat) (f : Port → Port) : State := s.setPort n (f (s.port n))
def State.fence (s : State) (q : Nat) : QuarterFence := Table.get {} s.fences q
def State.modFence (s : State) (q : Nat) (f : QuarterFence → QuarterFence) : State :=
  { s with fences := Table.set {} s.fences q (f (s.fence q)) }
def State.hart (s : State) (c : Nat) : Hart := Table.get {} s.harts c
def State.modHart (s : State) (c : Nat) (f : Hart → Hart) : State :=
  { s with harts := Table.set {} s.harts c (f (s.hart c)) }
def State.extent (s : State) (n : Nat) : Extent := Table.get {} s.extents n
def State.setExtent (s : State) (n : Nat) (e : Extent) : State := { s with extents := Table.set {} s.extents n e }
def State.owner (s : State) (u : Nat) : SquareOwner := Table.get {} s.sqOwn u
def State.setOwner (s : State) (u : Nat) (o : SquareOwner) : State := { s with sqOwn := Table.set {} s.sqOwn u o }
def State.seal (s : State) (n : Nat) : SealRange := Table.get {} s.seals n
def State.setSeal (s : State) (n : Nat) (r : SealRange) : State := { s with seals := Table.set {} s.seals n r }
def State.squareCounter (s : State) (u c : Nat) : Reg64 := Table.get 0 s.sqCtr (64 * u + c)
def State.setSquareCounter (s : State) (u c : Nat) (v : Reg64) : State :=
  { s with sqCtr := Table.set 0 s.sqCtr (64 * u + c) v }
def State.hallCounter (s : State) (c : Nat) : Reg64 := Table.get 0 s.hallCtr c
def State.setHallCounter (s : State) (c : Nat) (v : Reg64) : State := { s with hallCtr := Table.set 0 s.hallCtr c v }
def State.launch (s : State) (id : Nat) : Option Launch := s.launches.find? (fun l => l.id == id)
/-- Change the launch of a number. -/
def State.modLaunch (s : State) (id : Nat) (f : Launch → Launch) : State :=
  { s with launches := s.launches.map (fun l => if l.id = id then f l else l) }
def State.emit (s : State) (o : Out) : State := { s with out := o :: s.out }
def State.modPower (s : State) (f : Power → Power) : State := { s with power := f s.power }
def State.modLinks (s : State) (f : Links → Links) : State := { s with links := f s.links }
def State.modBoot (s : State) (f : Boot → Boot) : State := { s with boot := f s.boot }
def State.modSnap (s : State) (f : Snap → Snap) : State := { s with snap := f s.snap }
def State.modStop (s : State) (f : Stop → Stop) : State := { s with stop := f s.stop }
def State.modElog (s : State) (f : ErrLog → ErrLog) : State := { s with elog := f s.elog }

/-- The numbers from 0 to n - 1. -/
def upto (n : Nat) : List Nat := List.range n

/-- Apply a state change for each entry of a list, in order. -/
def forAll {α : Type} (xs : List α) (f : State → α → State) (s : State) : State := xs.foldl f s

/-! Time and stamps. -/

/-- Whether a replica is still to be loaded: entry 1 (R491). Entry 2 + t is a window that ends at t. -/
def State.replica (s : State) (r : Nat) : Nat := Table.get 0 s.replicas r

/-- Whether a stamp of a unit made now carries TU (R491, R492). -/
def State.uncertain (s : State) (unit : Nat) : Bool := !s.links.tlock || decide (s.replica (regionOfUnit unit) ≠ 0)

/-- The quarter's square entries as numbers. -/
def squaresOf (q : Nat) : List Nat := (upto 16).map (16 * q + ·)

/-! Counters (R493). -/

/-- Add to counter `idx` of a unit. -/
def State.count (s : State) (unit idx n : Nat) : State :=
  { s with ctr := Table.set 0 s.ctr (256 * unit + idx) (Table.get 0 s.ctr (256 * unit + idx) + BitVec.ofNat 64 n) }

/-- Every counter as it stands, those of the power controller included: counter 0 is PWR_ENERGY and 1 + r is
PWR_THRDUR_r (R493, R494). -/
def State.counters (s : State) : Table Reg64 :=
  (upto 6).foldl (fun t r => Table.set 0 t (256 * unitPower + 1 + r) (BitVec.ofNat 64 (Table.get 0 s.power.thrDur r)))
    (Table.set 0 s.ctr (256 * unitPower) (BitVec.ofNat 64 s.power.energy))

/-- Counters of R494 whose counts follow rates, replacement, packet sizes or symbol errors that the manual does not fix: pipe-B busy steps,
instructions retired, shared-cache hits and misses, FEC symbols and codewords, and the bytes of the host link (LOG 19). -/
def uncounted (unit idx : Nat) : Bool :=
  if unit < 0x80 then idx == 4
  else if unit < 0xB0 then idx == 0
  else if unit < 0xB8 then idx == 0 || idx == 1
  else if 0x100 ≤ unit ∧ unit < 0x160 then idx == 4 || idx == 5
  else if 0xD0 ≤ unit ∧ unit < 0xE0 then idx == 0 || idx == 1
  else false

/-- The sum of the first `n` values of a function. -/
def sumTo (f : Nat → Nat) : Nat → Nat
  | 0 => 0
  | n + 1 => sumTo f n + f n

/-- An uncounted counter: it goes on by an open amount in each nanosecond in which its unit works, so that it never decreases. For a
square that is the time with a kernel or fused command running, for a core the time it runs, as `t` has them, and otherwise the time
since the counters were cleared (R493, LOG 19). -/
def freeCounter (epoch age unit idx : Nat) (t : Table Reg64) : Reg64 :=
  let ns := if unit < 0x80 then (Table.get 0 t (256 * unit + 14)).toNat else if unit < 0xB0 then (Table.get 0 t (256 * unit + 1)).toNat else age
  BitVec.ofNat 64 (sumTo (Config.freeCount epoch unit idx) ns)

/-- Whether a stall is a wait of SY.WAIT or PM.WAIT (R494). -/
def Stall.waits (x : Stall) : Bool := match x with | .pmWait _ => true | .counter _ _ _ _ => true | _ => false

/-- The counters of nanoseconds, and the age of all counters, go on by one nanosecond (R494). They go on in a global stop too (R516). -/
def State.countTime (s : State) : State :=
  let s1 := forAll s.squares (fun t e =>
    if e.2.run = .running then
      let u := t.count e.1 14 1
      if e.2.stall.waits then u.count e.1 15 1 else u
    else t) s
  let s2 := forAll s1.harts (fun t e => if e.2.halted then t else t.count (unitCore e.1) 1 1) s1
  { s2 with ctrAge := s2.ctrAge + 1 }

/-- Every counter starts anew: at power-on and at a PERST_N reset (R493). -/
def State.clearCounters (s : State) : State := { s with ctr := [], ctrEpoch := s.ctrEpoch + 1, ctrAge := 0 }

/-! Hall time (R336, R377). -/

/-- A weight of a partition at an arbitration point: at least 1 while the partition is being reset (R376, R387). -/
def State.weightIn (s : State) (p w : Nat) : Nat := if (s.part p).reset.resetting then max w 1 else w

/-- The weight of a partition for hall time. -/
def State.hallWeight (s : State) (p : Nat) : Nat := s.weightIn p (s.part p).qosHall

/-- Charge hall time in ns to a partition: its counters, and its deficit where it has a weight (R336, R377, R494). -/
def State.hallTime (s : State) (p ns : Nat) : State :=
  let t := (s.count unitHall 2 ns).count unitHall (16 + p) ns
  if s.hallWeight p = 0 then t else { t with hall := { t.hall with deficit := chargeDeficit t.hall.deficit p ns } }

/-! Records. -/

/-- The form of an address of this module in a record (R557). -/
def globalOf (a : Nat) : Nat := 0xFFF * 2 ^ 44 + a % 2 ^ 44

/-- Whether an address names this module (R267). -/
def State.isLocal (s : State) (g : Nat) : Bool := g / 2 ^ 44 == 0xFFF || g / 2 ^ 44 == s.links.modnum

/-- A 56-bit address as a record carries it (R557). -/
def State.recordAddr (s : State) (g : Nat) : Nat := if s.isLocal g then globalOf g else g

/-- Send one error-log record on its way to the log, with the reply that its acceptance lets go (R500, R502). -/
def State.logErr (s : State) (unit part code addr : Nat) (reply : Reply := .none) (srcm : Nat := 0xFFF) : State :=
  { s with elog := { s.elog with transit := s.elog.transit ++
      [{ tu := s.uncertain unit, srcm := srcm, part := part, unit := unit, code := code, addr := s.recordAddr addr,
         stamp := s.time, reply := reply }] } }

/-- Whether a record of this reply has not been accepted yet. -/
def State.replyHeld (s : State) (r : Reply) : Bool :=
  (s.elog.transit ++ s.elog.queue).any (fun e => e.reply == r)

/-- Append a trace record to its unit's queue of 64 records; one that finds it full is counted as lost in its ring
(R509). A record is made only while its class is enabled in the ring (R511). -/
def State.traceRaw (s : State) (ring : Nat) (rec : TrcRecord) : State :=
  if 64 ≤ (s.trcQ.filter (fun r => r.unit == rec.unit)).length then
    (s.count unitTrace 1 1).modPart ring (fun p => { p with trc := { p.trc with
      loss := p.trc.loss + 1
      lossStamp := if p.trc.loss = 0 then rec.stamp else p.trc.lossStamp
      lost := min (p.trc.lost + 1) 4294967295 } })
  else { s with trcQ := s.trcQ ++ [rec] }

/-- What a record of a class costs a partition: 10 ns of hall time in classes 0 and 1 (R511). -/
def State.traceCost (s : State) (cls part : Nat) : State := if cls ≤ 1 then s.hallTime part 10 else s

/-- A trace event of a class in the ring of its partition (R508, R509, R511). -/
def State.trace (s : State) (cls event part unit : Nat) (arg0 arg1 : Nat) : State :=
  if (s.part part).trc.en.testBit cls then
    (s.traceRaw part ⟨part, event, part, unit, s.time, s.uncertain unit, BitVec.ofNat 64 arg0, BitVec.ofNat 64 arg1⟩).traceCost cls part
  else s

/-! Interrupts (R379 to R382, R388). -/

/-- Send a message to a target now, and whether one was sent (R380); an AIA message sets the identity pending in the core's interrupt
file, and one that R380 forbids is logged with the register that names the target. -/
def State.sendInt (s : State) (p : Nat) (t : IntTarget) (regUnit regAddr : Nat) : State × Bool :=
  match t with
  | .msix v =>
    let f := (s.part p).fn
    if !f.msixEn then (s, false)
    else if f.fmask || !Table.get false f.unmasked v then
      (s.modPart p (fun x => { x with fn := { x.fn with pend := Table.set false x.fn.pend v true } }), false)
    else (s.emit (.msi p v (Table.get 0 f.msixAddr v).toNat (Table.get 0 f.msixData v)), true)
  | .aia h v =>
    let c := s.hart h
    if h < 48 ∧ c.valid = true ∧ c.part = p ∧ v ≠ 0 then
      ((s.modHart h (fun x => { x with eip := Table.set false x.eip v true })).emit (.aia h v), true)
    else (s.logErr regUnit p ePermission (globalOf regAddr), false)

/-- The moderation entry of a target, if its interval has not ended (R382). -/
def moderated (m : List Moderation) (t : IntTarget) (now : Nat) : Bool :=
  m.any (fun e => e.target == t && (decide (now < e.until_) || e.pending))

/-- Mark a merged message in a target's moderation entry. -/
def markPending (m : List Moderation) (t : IntTarget) : List Moderation :=
  m.map (fun e => if e.target = t then { e with pending := true } else e)

/-- Start a target's interval. -/
def startInterval (m : List Moderation) (t : IntTarget) (until_ regUnit regAddr : Nat) : List Moderation :=
  ⟨t, until_, false, regUnit, regAddr⟩ :: m.filter (fun e => !(e.target == t))

/-- A message to a target of p has been sent: its interval starts when p has one (R382). -/
def State.beginInterval (s : State) (p : Nat) (t : IntTarget) (regUnit regAddr : Nat) : State :=
  s.modPart p (fun y =>
    if y.mod_ = 0 then y else { y with moderation := startInterval y.moderation t (s.time + 128 * y.mod_) regUnit regAddr })

/-- Send a message to a target, and start its interval when it was sent. -/
def State.sendModerated (s : State) (p : Nat) (t : IntTarget) (regUnit regAddr : Nat) : State :=
  let r := s.sendInt p t regUnit regAddr
  if r.2 then r.1.beginInterval p t regUnit regAddr else r.1

/-- Whether an interrupt to a target is discarded as it is raised: MSI-X Enable is clear (R380). -/
def intDiscarded (t : IntTarget) (f : Function) : Bool := match t with | .msix _ => !f.msixEn | .aia _ _ => false

/-- Raise an interrupt of p (R380, R382). It is dropped while a reset of p runs, and none is sent before a reset-done that is still
held (R388). -/
def State.raiseInt (s : State) (p : Nat) (t : IntTarget) (regUnit regAddr : Nat) : State :=
  let x := s.part p
  if x.reset.resetting || intDiscarded t x.fn then s
  else if x.reset.holdDone then
    match t with
    | .msix v => s.modPart p (fun y => { y with fn := { y.fn with pend := Table.set false y.fn.pend v true } })
    | .aia _ _ =>
      if moderated x.moderation t s.time then s.modPart p (fun y => { y with moderation := markPending y.moderation t })
      else s.modPart p (fun y => { y with moderation := ⟨t, s.time, true, regUnit, regAddr⟩ :: y.moderation })
  else if moderated x.moderation t s.time then
    s.modPart p (fun y => { y with moderation := markPending y.moderation t })
  else s.sendModerated p t regUnit regAddr

/-- The target of a register's type, core and vector fields (R360). -/
def targetOf (itype hart vec : Nat) : IntTarget := if itype = 1 then .aia hart vec else .msix vec

/-- Raise reset-done of a partition: sent at once, never moderated, and held while MSI-X Enable is clear or its vector
is masked, in which case the vector's pending bit sets (R380, R382, R388). -/
def State.raiseResetDone (s : State) (p : Nat) : State :=
  let x := s.part p
  if x.rdItype = 1 then s.sendModerated p (.aia x.rdHart x.rdVec) unitReset (0xF0002000300 + 8 * p)
  else if x.fn.msixEn && !x.fn.fmask && Table.get false x.fn.unmasked x.rdVec then
    s.sendModerated p (.msix x.rdVec) unitReset (0xF0002000300 + 8 * p)
  else s.modPart p (fun y => { y with
    reset := { y.reset with holdDone := true }
    fn := if y.fn.msixEn then { y.fn with pend := Table.set false y.fn.pend y.rdVec true } else y.fn })

/-- A management interrupt of Partition 0 (R379). -/
def State.raiseManagement (s : State) : State :=
  s.raiseInt 0 (targetOf s.mintItype s.mintHart s.mintVec) unitReset 0xF0002000380

/-! What waits for cores. -/

/-- Whether an access of a core is still without its answer: one to another module or to the host, one that awaits its second parity
attempt, or an error response that awaits its record (R291, R308, R502). -/
def State.coreWaits (s : State) (c : Nat) : Bool :=
  s.links.reqs.any (fun r => r.waiter == .core c) || s.hostReqs.any (fun r => r.waiter == .core c) ||
    s.retries.any (fun r => match r.src with | .core k _ _ => k.val == c | .coreSync k _ _ _ _ => k.val == c | _ => false) ||
    (s.elog.transit ++ s.elog.queue).any (fun e => match e.reply with | .out (.resp u _ _) => u == unitCore c | _ => false)

/-- Whether a unit is a core that issues nothing now: one whose FENCE or acquire still waits (R311), or any one in a global stop (R514). -/
def State.coreHolds (s : State) (unit : Nat) : Bool :=
  decide (0x80 ≤ unit ∧ unit < 0xB0) && (s.stop.stopped || ((s.hart (unit - 0x80)).fencing && s.coreWaits (unit - 0x80)))

/-! Bytes. -/

/-- The number whose little-endian bytes these are (R5). -/
def ofBytes (bs : List Byte) : Nat :=
  match bs with
  | [] => 0
  | b :: r => b.toNat + 256 * ofBytes r

/-- The `n` low bytes of a number, least significant first (R5). -/
def toBytes (n v : Nat) : List Byte :=
  match n with
  | 0 => []
  | m + 1 => BitVec.ofNat 8 v :: toBytes m (v / 256)

/-- `n` bytes of a list from byte `lo` on. -/
def slice (bs : List Byte) (lo n : Nat) : List Byte := (bs.drop lo).take n

/-- Bits `lo` to `lo + w - 1` of a number. -/
def bits (v lo w : Nat) : Nat := (v >>> lo) % 2 ^ w

/-- A two's-complement number of `w` bits read as signed. -/
def signed (w v : Nat) : Int := if v % 2 ^ w < 2 ^ (w - 1) then (v % 2 ^ w : Nat) else ((v % 2 ^ w : Nat) : Int) - (2 ^ w : Nat)

/-- The `w`-bit pattern of an integer. -/
def pattern (w : Nat) (x : Int) : Nat := (x % (2 ^ w : Nat)).toNat

/-- Whether a number lies outside a range. -/
def outside (lo hi n : Nat) : Bool := decide (n < lo) || decide (hi < n)

/-- One bit as a number. -/
def bitN (b : Bool) : Nat := if b then 1 else 0

/-- One byte of wells, cisterns or reservoir. -/
def State.byte (s : State) (a : Nat) : Byte := Table.get 0 s.mem a

/-- Bytes at a local address, lowest first. -/
def State.bytes (s : State) (a n : Nat) : List Byte := Table.getList 0 s.mem a n

/-- The reservations that a write to a range leaves (R311). -/
def reservedOutside (rs : List Reservation) (lo hi : Nat) : List Reservation :=
  rs.filter (fun r => decide (r.addr + r.size ≤ lo) || decide (hi ≤ r.addr))

/-- Store bytes at a local address, with valid parity; a reservation of any of the bytes is lost. -/
def State.store (s : State) (a : Nat) (bs : List Byte) : State :=
  { s with mem := Table.setList 0 s.mem a bs, parity := Table.clear s.parity a (a + bs.length), resv := reservedOutside s.resv a (a + bs.length) }

/-- Write zero with valid parity over a range (R275, R286, R298). -/
def State.zero (s : State) (lo hi : Nat) : State :=
  { s with mem := Table.clear s.mem lo hi, parity := Table.clear s.parity lo hi, resv := reservedOutside s.resv lo hi }

/-- The corrupt write data of a unit has arrived, and is gone (R291). -/
def State.takeBadWrite (s : State) (unit : Nat) : State := { s with badWrite := Table.set false s.badWrite unit false }

/-! The address map (R267, R268). -/

/-- Where a local address lies. -/
inductive Place where
  | unmapped
  | well (q : Nat)
  | cistern (u : Nat)
  | reservoir
  | host
  | reg
deriving DecidableEq, Repr

def cisternBase : Nat := 0x10000000000
def reservoirBase : Nat := 0x20000000000
def hostBase : Nat := 0x40000000000
def regBase : Nat := 0xF0000000000

/-- R268, and R2 for the M part. -/
def placeOf (isM : Bool) (a : Nat) : Place :=
  if a < 0x8000000000 then .well (a / 0x1000000000)
  else if a < cisternBase then .unmapped
  else if a < 0x10080000000 then .cistern ((a - cisternBase) / 0x1000000)
  else if a < reservoirBase then .unmapped
  else if a < hostBase then (if isM && decide (0x30000000000 ≤ a) then .unmapped else .reservoir)
  else if a < 0x80000000000 then .host
  else if a < regBase then .unmapped
  else if a < 0xF0100000000 then .reg
  else .unmapped

def cisternAddr (u off : Nat) : Nat := cisternBase + u * 0x1000000 + off
def wellBase (q : Nat) : Nat := q * 0x1000000000

/-- The extent of a well or reservoir address (R272). -/
def extentOf (a : Nat) : Nat := if a < reservoirBase then a / 2 ^ 28 else 2048 + (a - reservoirBase) / 2 ^ 28

/-- The first local address of an extent (R272). -/
def extentBase (n : Nat) : Nat := if n < 2048 then n * 2 ^ 28 else reservoirBase + (n - 2048) * 2 ^ 28

/-- R273: the extent is owned by the partition and not being scrubbed. -/
def State.extentOk (s : State) (p a : Nat) : Bool :=
  let e := s.extent (extentOf a)
  e.valid && !e.scrub && e.owner == p

/-- R287: the channel of a reservoir offset. -/
def reservoirChannel (o : Nat) : Nat :=
  (upto 6).foldl (fun c k => c ^^^ bits o (10 + 6 * k) 6) 0

/-- R287: the address of a reservoir offset within its channel. -/
def reservoirOffset (o : Nat) : Nat := o / 2 ^ 16 * 2 ^ 10 + o % 1024

/-- R277: the channel of a well offset. -/
def wellChannel (w : Nat) : Nat := (upto 6).foldl (fun c k => c ^^^ bits w (9 + 5 * k) 5) 0

/-- The gate that is the home of a reservoir address (R288). -/
def gateOf (a : Nat) : Nat := if reservoirChannel (a - reservoirBase) < 32 then 0 else 1

/-- Whether a byte lies in a sealed or retiring range (R362). -/
def State.isSealed (s : State) (a : Nat) : Bool :=
  s.seals.any (fun e => decide (e.2.state ≠ 0) && decide (e.2.base ≤ a) && decide (a < e.2.base + 4096 * e.2.pages))

/-- Whether any byte of a range lies in a sealed or retiring range. -/
def State.anySealed (s : State) (a n : Nat) : Bool :=
  s.seals.any (fun e => decide (e.2.state ≠ 0) && decide (e.2.base < a + n) && decide (a < e.2.base + 4096 * e.2.pages))

/-! Routes between dies (R18 to R20, R297). -/

/-- The bridge edges (R18), with G0 as 8 and G1 as 9. -/
def bridgeEdges : List (Nat × Nat) :=
  [(0, 1), (1, 2), (2, 3), (4, 5), (5, 6), (6, 7), (0, 4), (1, 5), (2, 6), (3, 7), (8, 0), (8, 4), (9, 3), (9, 7)]

/-- The dies one bridge away from a set. -/
def spread (live : Nat → Bool) (ds : List Nat) : List Nat :=
  (upto 10).filter (fun d => ds.contains d ||
    (live d && bridgeEdges.any (fun e => (e.1 == d && ds.contains e.2) || (e.2 == d && ds.contains e.1))))

/-- The dies reachable in at most `n` bridges. -/
def reachable (live : Nat → Bool) : Nat → List Nat → List Nat
  | 0, ds => ds
  | n + 1, ds => reachable live n (spread live ds)

/-- Whether a die is in service. -/
def State.liveDie (s : State) (d : Nat) : Bool := decide (8 ≤ d) || !(s.fence d).fenced

/-- Whether the module is asleep or on its way out of Dormant, so that memory accesses are held (R461). -/
def State.asleep (s : State) : Bool := s.power.state == 2 || s.power.state == 3

/-- Whether a unit is powered (R497): fenced quarters, quarters in Dormant and dark ports are not. -/
def State.unitPowered (s : State) (u : Nat) : Bool :=
  if u < 0xB8 then s.liveDie (dieOfUnit u) && !s.asleep
  else if 0x100 ≤ u ∧ u < 0x160 then (s.port (u - 0x100)).state != 3
  else true

/-- Every unit of the module that is powered (R501). -/
def State.poweredUnits (s : State) : List Nat :=
  (upto 184 ++ (upto 8).map (0xC0 + ·) ++ (upto 16).map unitHost ++ (upto 96).map unitPort).filter s.unitPowered

/-- The counters as they stand, for a tick that the time base reaches (R495, R497). -/
def State.holdCounters (s : State) : SnapHold := ⟨s.counters, s.poweredUnits, s.ctrEpoch, s.ctrAge⟩

/-- Advance the time base. A snapshot's counters are held as they stood when its tick was reached, so that they count
exactly the events stamped below it (R495). -/
def State.advanceTo (s : State) (t : Nat) : State :=
  let n := s.snap
  let n1 := if n.busy ∧ n.held0 = none ∧ s.time < n.armT ∧ n.armT ≤ t then { n with held0 := some s.holdCounters } else n
  let n2 := if n1.busy ∧ n1.armEnd ≠ 0 ∧ n1.held1 = none ∧ s.time < n1.armEnd ∧ n1.armEnd ≤ t then { n1 with held1 := some s.holdCounters } else n1
  { s with time := t % 2 ^ 64, snap := n2 }

/-- Whether a path of live bridges joins two dies (R20, R297). -/
def State.hasRoute (s : State) (src dst : Nat) : Bool :=
  s.fences.all (fun e => !e.2.fenced) || (reachable s.liveDie 9 [src]).contains dst

/-- The column of a die beside a row: its own, or that of the gate's edges. -/
def dieColumn (d : Nat) : Nat := if d = 8 then 0 else if d = 9 then 3 else d % 4

/-- The quarters of a row from one column to another, both included. -/
def rowPath (r a b : Nat) : List Nat :=
  if a ≤ b then (upto (b - a + 1)).map (fun i => 4 * r + a + i) else (upto (a - b + 1)).map (fun i => 4 * r + a - i)

/-- The path between two dies along one row: into the row at the source's column, along it to the destination's column, and
out of it there (R19). -/
def viaRow (r src dst : Nat) : List Nat :=
  let mid := rowPath r (dieColumn src) (dieColumn dst)
  (if mid.head? = some src then [] else [src]) ++ mid ++ (if mid.getLast? = some dst then [] else [dst])

/-- The row a route takes: that of its source quarter, for a route from a gate that of its destination quarter (R19), and row 0
between the gates (LOG 71). -/
def routeRow (src dst : Nat) : Nat := if src < 8 then src / 4 else if dst < 8 then dst / 4 else 0

/-- A shortest path over live dies, for what R297 routes as long as a path exists: paths are kept in reverse. -/
def searchPath (live : Nat → Bool) (dst : Nat) : Nat → List (List Nat) → List Nat
  | 0, _ => []
  | n + 1, ps =>
    match ps.find? (fun p => p.head? == some dst) with
    | some p => p.reverse
    | none => searchPath live dst n (ps.flatMap (fun p =>
        ((upto 10).filter (fun d => live d && !p.contains d &&
          bridgeEdges.any (fun e => (e.1 == d && p.head? == some e.2) || (e.2 == d && p.head? == some e.1)))).map (· :: p)))

/-- The dies that traffic from one die to another passes, both included (R19), by the other row when a quarter on its way is
fenced (R20), and by any live way when both are cut (R297). -/
def State.bridgePath (s : State) (src dst : Nat) : List Nat :=
  let r := routeRow src dst
  if src = dst then [src]
  else if (viaRow r src dst).all s.liveDie then viaRow r src dst
  else if (viaRow (1 - r) src dst).all s.liveDie then viaRow (1 - r) src dst
  else searchPath s.liveDie dst 10 [[src]]

/-- The counter of a quarter's bytes toward a neighbour: 6 to 8, in ascending order of the neighbour (R494). -/
def bridgeCounter (q d : Nat) : Nat :=
  6 + ((upto d).filter (fun x => bridgeEdges.any (fun e => (e.1 == x && e.2 == q) || (e.2 == x && e.1 == q)))).length

/-- Count bytes at each quarter that sends them on over a bridge of their path (R494). -/
def State.countPath (s : State) (n : Nat) : List Nat → State
  | a :: b :: r => State.countPath (if a < 8 then s.count (unitQuarter a) (bridgeCounter a b) n else s) n (b :: r)
  | _ => s

/-- `n` bytes cross from one die to another. -/
def State.carry (s : State) (src dst n : Nat) : State :=
  if src = dst ∨ n = 0 then s else s.countPath n (s.bridgePath src dst)

/-! Accesses at their homes (R271, R273, R283, R291, R293). -/

/-- What an access does, as far as its checks are concerned. -/
inductive AccOp where
  | read
  | write
  | atom (op : Nat) (size : Nat)
  | cas128
deriving DecidableEq, Repr

/-- An access to a local address: requester's unit, partition, address, length, what it does, and whether it is bound
to natural alignment (R271). -/
structure Acc where
  unit : Nat
  part : Nat
  addr : Nat
  len : Nat
  op : AccOp
  bulk : Bool := true
deriving DecidableEq, Repr

/-- The check description of an access (R271). -/
def accFor (unit part a : Nat) (k : AccessKind) (bulk : Bool) : Acc :=
  match k with
  | .load n => ⟨unit, part, a, n, .read, bulk⟩
  | .store bs => ⟨unit, part, a, bs.length, .write, bulk⟩
  | .atom op n _ => ⟨unit, part, a, n, .atom op n, false⟩
  | .cas n _ _ => if n = 16 then ⟨unit, part, a, 16, .cas128, false⟩ else ⟨unit, part, a, n, .atom 9 n, false⟩

/-- What an access of an operation does at its home. -/
def AtOp.access (o : AtOp) (r : AtRow) : AccessKind :=
  match o.kind with
  | .ld => .load o.size
  | .st => .store (toBytes o.size r.operand)
  | .cas128 => .cas 16 r.operand o.compare
  | _ => if o.aop = 9 then .cas o.size r.operand o.compare else .atom o.aop o.size r.operand

/-- Whether the access writes. -/
def AccOp.writes (o : AccOp) : Bool := match o with | .read => false | _ => true

/-- The size rule of R271 for single accesses. -/
def sizeOk (a : Acc) : Bool :=
  match a.op with
  | .read => a.bulk || ((a.len == 1 || a.len == 2 || a.len == 4 || a.len == 8) && a.addr % a.len == 0)
  | .write => a.bulk || ((a.len == 1 || a.len == 2 || a.len == 4 || a.len == 8) && a.addr % a.len == 0)
  | .atom _ n => (n == 4 || n == 8) && a.addr % n == 0
  | .cas128 => a.addr % 16 == 0

/-- The home's die of a place. -/
def homeDie (p : Place) (a : Nat) : Nat :=
  match p with
  | .well q => q
  | .cistern u => u / 16
  | .reservoir => 8 + gateOf a
  | _ => 8

/-- Order 2 of R293: the home is fenced or cut off. -/
def State.homeLost (s : State) (unit : Nat) (p : Place) (a : Nat) : Bool :=
  !s.liveDie (homeDie p a) || !s.hasRoute (dieOfUnit unit) (homeDie p a)

/-- Which partition a square belongs to for the checks of R561: 0 none, p + 1 partition p. -/
def State.squareOwnedBy (s : State) (u p : Nat) : Bool := (s.owner u).eff == p + 1

/-- Order 5 of R293 for one byte of a place. -/
def State.placeAllows (s : State) (p : Nat) (pl : Place) (a : Nat) : Bool :=
  match pl with
  | .well _ => s.extentOk p a
  | .reservoir => s.extentOk p a
  | .cistern u => s.squareOwnedBy u p
  | _ => true

/-- Whether the host window takes an atomic (R271, R535): add, swap and compare-swap, when enabled. -/
def hostAtomic (f : Function) (o : AccOp) : Bool :=
  match o with
  | .atom op _ => f.atomicEn && (op == 0 || op == 8 || op == 9)
  | .cas128 => f.atomicEn
  | _ => true

/-- Parity of a byte range: 2 when a byte fails every read, 1 when a retry would succeed, 0 when good (R291). -/
def State.parityIn (s : State) (a n : Nat) : Nat :=
  (s.parity.filter (fun e => decide (a ≤ e.1) && decide (e.1 < a + n))).foldl (fun m e => max m e.2) 0

/-- Whether a place is the reservoir. -/
def isReservoir (isM : Bool) (a : Nat) : Bool := match placeOf isM a with | .reservoir => true | _ => false

/-- Parity of what a read of a range checks: the bytes read, and in the reservoir, whose data is checked before it is
decrypted, their whole granules (R178, R289, R291). -/
def State.parityOf (s : State) (a n : Nat) : Nat :=
  if n = 0 then 0
  else if isReservoir s.isM a then s.parityIn (a / 32 * 32) ((a + n + 31) / 32 * 32 - a / 32 * 32)
  else s.parityIn a n

/-- Parity of the granules that a write to part of a granule of the reservoir reads first (R288): the first and the last one, whole, where
it does not write all of them. -/
def State.edgeParity (s : State) (a n : Nat) : Nat :=
  if isReservoir s.isM a && decide (0 < n) then
    max (if a % 32 = 0 then 0 else s.parityIn (a / 32 * 32) 32) (if (a + n) % 32 = 0 then 0 else s.parityIn ((a + n - 1) / 32 * 32) 32)
  else 0

/-- The addresses at which a range may pass to another extent, window or gate: its first byte, and each multiple of 32 KiB
within it (R272, R283, R287). -/
def rangePoints (a n : Nat) : List Nat :=
  a :: (upto ((a + (n - 1)) / 32768 - a / 32768)).map (fun i => (a / 32768 + 1 + i) * 32768)

/-- The parts of a range of which each has one home (R272, R283, R287). -/
def rangePieces (a n : Nat) : List (Nat × Nat) :=
  if n = 0 then [] else (rangePoints a n).map (fun b => (b, min (a + n) ((b / 32768 + 1) * 32768) - b))

/-- Whether a place holds no memory. -/
def noMemory (p : Place) : Bool := match p with | .unmapped => true | .reg => true | _ => false

/-- Whether a write finds data that fails parity (R291): its own as it arrives, or that of a granule it merges with. -/
def State.writeCorrupt (s : State) (x : Acc) : Bool :=
  x.op.writes && (Table.get false s.badWrite x.unit || (x.op == .write && s.edgeParity x.addr x.len == 2))

/-- The checks of R293 on an access outside the register space, but for the parity of what it reads; 0 when it passes. Every
place, home, extent and window that the range touches is checked. -/
def State.checkAcc (s : State) (x : Acc) : Nat :=
  let p0 := placeOf s.isM x.addr
  let last := x.addr + (x.len - 1)
  let at_ := (rangePoints x.addr x.len).map (fun a => (placeOf s.isM a, a))
  let p1 := placeOf s.isM last
  let f := (s.part x.part).fn
  if at_.any (fun e => noMemory e.1) || noMemory p1 then eUnmapped
  else if (p0 = .host ∨ p1 = .host) ∧ (f.hsize < last + 1 - hostBase ∨ p0 ≠ .host) then eUnmapped
  else if at_.any (fun e => s.homeLost x.unit e.1 e.2) then eUnmapped
  else if !sizeOk x then eAlign
  else if p0 = .host ∧ hostAtomic f x.op = false then eAtomic
  else if p0 = .host ∧ (!f.busMaster || (s.part x.part).reset.resetting) = true then ePermission
  else if at_.any (fun e => !s.placeAllows x.part e.1 e.2) then ePermission
  else if x.op.writes && s.anySealed x.addr x.len then ePermission
  else if s.writeCorrupt x then eParity
  else eOk

/-- Whether a unit is a port: the response to a request that came by one leaves by the port that its route names. -/
def isPort (u : Nat) : Bool := decide (0x100 ≤ u ∧ u < 0x160)

/-- `n` bytes of data cross between an access's unit and the die of its home (R19): toward the home for a write, toward the unit for a read,
both ways for an atomic. What answers a request of another module is carried as it is sent. -/
def State.carryData (s : State) (unit home n : Nat) (op : AccOp) : State :=
  let t := if op = .read then s else s.carry (dieOfUnit unit) home n
  if op = .write ∨ isPort unit = true then t else t.carry home (dieOfUnit unit) n

/-- The dies that an access's data leaves and reaches, and how many bytes, for each of its homes (R19). -/
def State.carryAcc (s : State) (x : Acc) : State :=
  forAll (rangePieces x.addr x.len) (fun t e => t.carryData x.unit (homeDie (placeOf s.isM e.1) e.1) e.2 x.op) s

/-- Memory-error counters and byte counters of a home (R494): index `i` of the home's unit. -/
def State.countHome (s : State) (a i n : Nat) : State :=
  match placeOf s.isM a with
  | .well q => s.count (unitQuarter q) (2 + i) n
  | .reservoir => s.count (unitGate (gateOf a)) i n
  | _ => s

/-- Bytes read (0) or written (1) at each home of a range (R494). -/
def State.countHomes (s : State) (a i n : Nat) : State := forAll (rangePieces a n) (fun t e => t.countHome e.1 i e.2) s

/-- The first byte of a range, or in the reservoir of its granules, whose parity is at least as bad as `m`, or the range's first byte. -/
def State.failingAt (s : State) (a n m : Nat) : Nat :=
  let lo := if isReservoir s.isM a then a / 32 * 32 else a
  let hi := if isReservoir s.isM a then (a + n + 31) / 32 * 32 else a + n
  ((s.parity.filter (fun e => decide (lo ≤ e.1) && decide (e.1 < hi) && decide (m ≤ e.2))).map Prod.fst).headD a

/-- An access that is refused: write data that arrived corrupt is gone, and a home counts its PARITY responses (R291, R494). -/
def State.refused (s : State) (x : Acc) (c : Nat) : State :=
  if c = eParity then
    (if Table.get false s.badWrite x.unit then s.takeBadWrite x.unit else s).countHome
      (if Table.get false s.badWrite x.unit then x.addr else s.failingAt x.addr x.len 2) 3 1
  else s

/-- The granules of 32 bytes that a range touches only in part (R288). -/
def partialGranules (a n : Nat) : List Nat :=
  if n = 0 then []
  else if a / 32 = (a + n - 1) / 32 then (if a % 32 != 0 || (a + n) % 32 != 0 then [a / 32 * 32] else [])
  else (if a % 32 = 0 then [] else [a / 32 * 32]) ++ (if (a + n) % 32 = 0 then [] else [(a + n) / 32 * 32])

/-- Read bytes at their home once its checks have passed: PARITY when a byte fails after the retry that its place
allows (R291, R292). -/
def State.homeRead (s : State) (a n : Nat) : State × Except Nat (List Byte) :=
  let m := s.parityOf a n
  let cis := match placeOf s.isM a with | .cistern _ => true | _ => false
  if m = 2 ∨ (m = 1 ∧ cis = true) then (s.countHome (s.failingAt a n m) 3 1, .error eParity)
  else ((if m = 1 then s.countHome (s.failingAt a n 1) 2 1 else s).countHomes a 0 n, .ok (s.bytes a n))

/-- Write bytes at their home once its checks have passed; a partial granule of the reservoir is read first, and a retry that
this read needs is counted (R288, R292). -/
def State.homeWrite (s : State) (a : Nat) (bs : List Byte) : State :=
  let s1 := (s.store a bs).countHomes a 1 bs.length
  if isReservoir s.isM a then
    forAll (partialGranules a bs.length) (fun t g =>
      (if s.parityIn g 32 = 0 then t else t.countHome g 2 1).count (unitGate (gateOf g)) 4 1) s1
  else s1

/-- The new value of an atomic (R135): 0 ADD, 1 MIN, 2 MAX, 3 MINU, 4 MAXU, 5 AND, 6 OR, 7 XOR, 8 SWAP, 9 CAS. -/
def atomicNew (op w old operand compare : Nat) : Nat :=
  let v := operand % 2 ^ w
  match op with
  | 0 => (old + v) % 2 ^ w
  | 1 => if signed w old ≤ signed w v then old else v
  | 2 => if signed w v ≤ signed w old then old else v
  | 3 => min old v
  | 4 => max old v
  | 5 => Nat.land old v
  | 6 => Nat.lor old v
  | 7 => Nat.xor old v
  | 8 => v
  | _ => if old = compare % 2 ^ w then v else old

/-- Store the result of an atomic at its home; at a gate it is a read-modify-write of its granule, which its read has checked
(R288). -/
def State.homeMerge (s : State) (a : Nat) (bs : List Byte) : State :=
  let s1 := (s.store a bs).countHome a 1 bs.length
  if isReservoir s.isM a then s1.count (unitGate (gateOf a)) 4 1 else s1

/-- Perform an atomic at a home once its checks have passed: the old value, or PARITY with nothing performed (R291,
R317). -/
def State.homeAtomic (s : State) (a size op operand compare : Nat) : State × Except Nat Nat :=
  let r := s.homeRead a size
  match r.2 with
  | .error c => (r.1, .error c)
  | .ok bs =>
    let old := ofBytes bs
    (r.1.homeMerge a (toBytes size (atomicNew op (8 * size) old operand compare)), .ok old)

/-- The whole access of one checked load of memory outside the register space and the host window. -/
def State.accRead (s : State) (x : Acc) : State × Except Nat (List Byte) :=
  let c := s.checkAcc x
  if c ≠ 0 then (s, .error c) else (s.carryAcc x).homeRead x.addr x.len

/-- A range of bus addresses cut at the multiples of a limit: offset and length of each part. -/
def busPieces (limit bus n : Nat) : List (Nat × Nat) :=
  if n = 0 then []
  else
    (upto ((bus + n - 1) / limit - bus / limit + 1)).map (fun i =>
      let lo := max bus ((bus / limit + i) * limit)
      (lo - bus, min (bus + n) ((bus / limit + i + 1) * limit) - lo))

/-- Max Payload Size and Max Read Request Size in bytes (R521); those of the physical function hold for its virtual functions (LOG 89). -/
def State.maxPayload (s : State) : Nat := 128 * 2 ^ min (s.part 0).fn.mps 2
def State.maxReadRequest (s : State) : Nat := 128 * 2 ^ min (s.part 0).fn.mrrs 5

/-- A posted write of host memory (R533): the bus address is BASE + w; no request carries more than Max Payload Size (R521). -/
def State.hostPost (s : State) (p a : Nat) (bs : List Byte) : State :=
  let bus := (s.part p).fn.hbase + (a - hostBase)
  forAll (busPieces s.maxPayload bus bs.length) (fun t e => t.emit (.hostWrite p (bus + e.1) (slice bs e.1 e.2))) s

/-- The whole access of one checked write of memory or of the host window (R293, R533). -/
def State.accWrite (s : State) (x : Acc) (bs : List Byte) : State × Nat :=
  let c := s.checkAcc x
  if c ≠ 0 then (s.refused x c, c)
  else if placeOf s.isM x.addr = .host then ((s.carryAcc x).hostPost x.part x.addr bs, eOk)
  else ((s.carryAcc x).homeWrite x.addr bs, eOk)

/-- Forget the far accesses of an owner; answers still to come are discarded. -/
def State.forgetFar (s : State) (o : FarOwner) : State := { s with far := s.far.filter (fun x => x.owner != o) }

/-- Which units have reported a PARITY error and where, as one record with no reply. -/
def State.logAccess (s : State) (x : Acc) (code : Nat) : State := s.logErr x.unit x.part code (globalOf x.addr)

end Sys2Proof.Machine
end

