-- ==== Sys2Proof/Machine/Regions.lean ====
section
/-! DEFINITION. Regions of wells and reservoir and their tables (R157 to R161). -/

namespace Sys2Proof.Machine

/-- A region descriptor from its 32 bytes (R158). -/
def regionOf (v : Nat) : Region where
  base := bits v 0 44
  size := bits v 44 44
  valid := v.testBit 127
  codec := bits v 128 3
  exact := v.testBit 131
  isSealed := v.testBit 132
  elt := bits v 133 1
  dlag := bits v 134 2
  tagbase := bits v 136 44
  rowblk := bits v 180 12
  omask := BitVec.ofNat 64 (bits v 192 64)

/-- Whether a range lies wholly within the wells or wholly within the reservoir (R158). -/
def inWells (lo n : Nat) : Bool := decide (lo + n ≤ 0x8000000000)
def inReservoir (isM : Bool) (lo n : Nat) : Bool :=
  decide (reservoirBase ≤ lo) && decide (lo + n ≤ (if isM then 0x30000000000 else hostBase))
def inMemory (isM : Bool) (lo n : Nat) : Bool := inWells lo n || inReservoir isM lo n

/-- Whether an entry takes part in the lookup (R158). -/
def Region.usable (isM : Bool) (r : Region) : Bool := r.valid && decide (0 < r.size) && inMemory isM r.base r.size

/-- The region of a local address: the first usable entry that contains it (R158). -/
def findRegion (isM : Bool) (rs : List Region) (a : Nat) : Option Region :=
  rs.find? (fun r => r.usable isM && decide (r.base ≤ a) && decide (a < r.base + r.size))

/-- Read the entries of partition p's region table at their homes (R157, R160, R325), or the code of the failing read
with its address. -/
def State.readRegions (s : State) (unit p : Nat) : Except (Nat × Nat) (List Region) :=
  let x := s.part p
  (upto x.rtabCnt).foldl (fun acc i =>
    match acc with
    | .error e => .error e
    | .ok rs =>
      let a := x.rtabBase + 32 * i
      match (s.accRead ⟨unit, p, a, 32, .read, true⟩).2 with
      | .error c => .error (c, a)
      | .ok bs => .ok (rs ++ [regionOf (ofBytes bs)])) (.ok [])

/-- Whether a range lies wholly within one sealed region of a partition (R488). -/
def State.inSealedRegion (s : State) (unit p a n : Nat) : Bool :=
  match s.readRegions unit p with
  | .error _ => false
  | .ok rs =>
    match findRegion s.isM rs a with
    | none => false
    | some r => r.isSealed && decide (a + n ≤ r.base + r.size)

end Sys2Proof.Machine
end

