-- ==== Sys2Proof/Machine/Sha.lean ====
section
/-! DEFINITION. The digests that start-up and attestation name (R471, R472): SHA-512 as FIPS 180-4 gives it, and the
SHAKE functions of FIPS 202 on which ML-DSA-65 rests. The spec names the standards; their constants are PRESUMED (LOG 12). -/

namespace Sys2Proof.Machine

/-- A 64-bit sum. -/
def add64 (xs : List Nat) : Nat := xs.foldl (· + ·) 0 % 2 ^ 64

/-- Rotate a 64-bit word right, and left. -/
def ror64 (n x : Nat) : Nat := (x >>> n ||| x <<< (64 - n)) % 2 ^ 64
def rol64 (n x : Nat) : Nat := (x <<< n ||| x >>> (64 - n)) % 2 ^ 64

/-- A number's `n` bytes, most significant first, and the number of such bytes. -/
def toBytesBE (n v : Nat) : List Byte := (toBytes n v).reverse
def ofBytesBE (bs : List Byte) : Nat := ofBytes bs.reverse

/-- The round constants of SHA-512. -/
def sha512K : List Nat :=
  [0x428a2f98d728ae22, 0x7137449123ef65cd, 0xb5c0fbcfec4d3b2f, 0xe9b5dba58189dbbc] ++
  [0x3956c25bf348b538, 0x59f111f1b605d019, 0x923f82a4af194f9b, 0xab1c5ed5da6d8118] ++
  [0xd807aa98a3030242, 0x12835b0145706fbe, 0x243185be4ee4b28c, 0x550c7dc3d5ffb4e2] ++
  [0x72be5d74f27b896f, 0x80deb1fe3b1696b1, 0x9bdc06a725c71235, 0xc19bf174cf692694] ++
  [0xe49b69c19ef14ad2, 0xefbe4786384f25e3, 0x0fc19dc68b8cd5b5, 0x240ca1cc77ac9c65] ++
  [0x2de92c6f592b0275, 0x4a7484aa6ea6e483, 0x5cb0a9dcbd41fbd4, 0x76f988da831153b5] ++
  [0x983e5152ee66dfab, 0xa831c66d2db43210, 0xb00327c898fb213f, 0xbf597fc7beef0ee4] ++
  [0xc6e00bf33da88fc2, 0xd5a79147930aa725, 0x06ca6351e003826f, 0x142929670a0e6e70] ++
  [0x27b70a8546d22ffc, 0x2e1b21385c26c926, 0x4d2c6dfc5ac42aed, 0x53380d139d95b3df] ++
  [0x650a73548baf63de, 0x766a0abb3c77b2a8, 0x81c2c92e47edaee6, 0x92722c851482353b] ++
  [0xa2bfe8a14cf10364, 0xa81a664bbc423001, 0xc24b8b70d0f89791, 0xc76c51a30654be30] ++
  [0xd192e819d6ef5218, 0xd69906245565a910, 0xf40e35855771202a, 0x106aa07032bbd1b8] ++
  [0x19a4c116b8d2d0c8, 0x1e376c085141ab53, 0x2748774cdf8eeb99, 0x34b0bcb5e19b48a8] ++
  [0x391c0cb3c5c95a63, 0x4ed8aa4ae3418acb, 0x5b9cca4f7763e373, 0x682e6ff3d6b2b8a3] ++
  [0x748f82ee5defb2fc, 0x78a5636f43172f60, 0x84c87814a1f0ab72, 0x8cc702081a6439ec] ++
  [0x90befffa23631e28, 0xa4506cebde82bde9, 0xbef9a3f7b2c67915, 0xc67178f2e372532b] ++
  [0xca273eceea26619c, 0xd186b8c721c0c207, 0xeada7dd6cde0eb1e, 0xf57d4f7fee6ed178] ++
  [0x06f067aa72176fba, 0x0a637dc5a2c898a6, 0x113f9804bef90dae, 0x1b710b35131c471b] ++
  [0x28db77f523047d84, 0x32caab7b40c72493, 0x3c9ebe0a15c9bebc, 0x431d67c49c100d4c] ++
  [0x4cc5d4becb3e42b6, 0x597f299cfc657e2a, 0x5fcb6fab3ad6faec, 0x6c44198c4a475817]

/-- The initial hash value of SHA-512. -/
def sha512Init : List Nat :=
  [0x6a09e667f3bcc908, 0xbb67ae8584caa73b, 0x3c6ef372fe94f82b, 0xa54ff53a5f1d36f1] ++
  [0x510e527fade682d1, 0x9b05688c2b3e6c1f, 0x1f83d9abfb41bd6b, 0x5be0cd19137e2179]

/-- A message padded to whole blocks of 128 bytes. -/
def sha512Pad (m : List Byte) : List Byte :=
  m ++ (0x80 :: List.replicate ((239 - m.length % 128) % 128) 0) ++ toBytesBE 16 (8 * m.length)

/-- The next word of a block's schedule, its latest word first. -/
def sha512Next (w : List Nat) : Nat :=
  let x := w.getD 1 0
  let y := w.getD 14 0
  add64 [ror64 19 x ^^^ ror64 61 x ^^^ x >>> 6, w.getD 6 0, ror64 1 y ^^^ ror64 8 y ^^^ y >>> 7, w.getD 15 0]

/-- The 80 words of a block's schedule. -/
def sha512Schedule (block : List Byte) : List Nat :=
  let first := ((upto 16).map (fun i => ofBytesBE (slice block (8 * i) 8))).reverse
  ((upto 64).foldl (fun w _ => sha512Next w :: w) first).reverse

/-- One round on the eight working variables. -/
def sha512Round (v : List Nat) (kw : Nat × Nat) : List Nat :=
  match v with
  | [a, b, c, d, e, f, g, h] =>
    let t1 := add64 [h, ror64 14 e ^^^ ror64 18 e ^^^ ror64 41 e, (e &&& f) ^^^ ((2 ^ 64 - 1 - e) &&& g), kw.1, kw.2]
    let t2 := add64 [ror64 28 a ^^^ ror64 34 a ^^^ ror64 39 a, (a &&& b) ^^^ (a &&& c) ^^^ (b &&& c)]
    [add64 [t1, t2], a, b, c, add64 [d, t1], e, f, g]
  | _ => v

/-- One block taken into the hash value. -/
def sha512Block (h : List Nat) (block : List Byte) : List Nat :=
  (h.zip ((sha512K.zip (sha512Schedule block)).foldl sha512Round h)).map (fun e => add64 [e.1, e.2])

/-- SHA-512 of a message (FIPS 180-4). -/
def sha512 (m : List Byte) : List Byte :=
  let p := sha512Pad m
  ((upto (p.length / 128)).foldl (fun h i => sha512Block h (slice p (128 * i) 128)) sha512Init).flatMap (toBytesBE 8)

/-! Keccak (FIPS 202). Lane x + 5y of the state is a 64-bit word. -/

/-- The round constants of the permutation. -/
def keccakRC : List Nat :=
  [0x0000000000000001, 0x0000000000008082, 0x800000000000808a, 0x8000000080008000, 0x000000000000808b, 0x0000000080000001] ++
  [0x8000000080008081, 0x8000000000008009, 0x000000000000008a, 0x0000000000000088, 0x0000000080008009, 0x000000008000000a] ++
  [0x000000008000808b, 0x800000000000008b, 0x8000000000008089, 0x8000000000008003, 0x8000000000008002, 0x8000000000000080] ++
  [0x000000000000800a, 0x800000008000000a, 0x8000000080008081, 0x8000000000008080, 0x0000000080000001, 0x8000000080008008]

/-- The rotation of each lane. -/
def keccakRho : List Nat := [0, 1, 62, 28, 27, 36, 44, 6, 55, 20, 3, 10, 43, 25, 39, 41, 45, 15, 21, 8, 18, 2, 61, 56, 14]

/-- One round of the permutation. -/
def keccakRound (a : List Nat) (rc : Nat) : List Nat :=
  let col := (upto 5).map (fun x => (upto 5).foldl (fun c y => c ^^^ a.getD (x + 5 * y) 0) 0)
  let t := (upto 25).map (fun i => a.getD i 0 ^^^ col.getD ((i + 4) % 5) 0 ^^^ rol64 1 (col.getD ((i + 1) % 5) 0))
  let r := (t.zip keccakRho).map (fun e => rol64 e.2 e.1)
  let b := (upto 25).map (fun i => r.getD ((i % 5 + 3 * (i / 5)) % 5 + 5 * (i % 5)) 0)
  let at_ := fun (i k : Nat) => b.getD ((i + k) % 5 + 5 * (i / 5)) 0
  (upto 25).map (fun i => b.getD i 0 ^^^ ((2 ^ 64 - 1 - at_ i 1) &&& at_ i 2) ^^^ (if i = 0 then rc else 0))

/-- The permutation Keccak-f[1600]. -/
def keccakF (a : List Nat) : List Nat := keccakRC.foldl keccakRound a

/-- Absorb one block into the state. -/
def keccakAbsorb (a : List Nat) (block : List Byte) : List Nat :=
  keccakF ((upto 25).map (fun i => a.getD i 0 ^^^ ofBytes (slice block (8 * i) 8)))

/-- Squeeze a number of blocks of `rate` bytes. -/
def keccakSqueeze (rate : Nat) : Nat → List Nat → List Byte
  | 0, _ => []
  | n + 1, a => (a.flatMap (toBytes 8)).take rate ++ keccakSqueeze rate n (keccakF a)

/-- The first `n` bytes of SHAKE with a rate: 168 for SHAKE128, 136 for SHAKE256. -/
def shake (rate : Nat) (m : List Byte) (n : Nat) : List Byte :=
  let zeros := rate - 1 - m.length % rate
  let last := if zeros = 0 then [0x9F] else 0x1F :: (List.replicate (zeros - 1) 0 ++ [0x80])
  let p := m ++ last
  let a := (upto (p.length / rate)).foldl (fun a i => keccakAbsorb a (slice p (rate * i) rate)) (List.replicate 25 0)
  (keccakSqueeze rate ((n + rate - 1) / rate) a).take n

end Sys2Proof.Machine
end

