-- ==== Sys2Proof/Machine/Ed25519.lean ====
section
/-! DEFINITION. Pure Ed25519 (R468, R472, R487), as RFC 8032 section 5.1 gives it. The spec names the standard; its numbers are
PRESUMED (LOG 12). -/

namespace Sys2Proof.Machine

/-- The field's prime and the order of the base point. -/
def edP : Nat := 2 ^ 255 - 19
def edL : Nat := 2 ^ 252 + 27742317777372353535851937790883648493

/-- The `n` low bits of a number, the highest first. -/
def bitsDown : Nat → Nat → List Bool
  | 0, _ => []
  | n + 1, v => v.testBit n :: bitsDown n v

/-- A power modulo `m`; the exponent has at most 256 bits. -/
def powMod (m b e : Nat) : Nat := (bitsDown 256 e).foldl (fun a bit => if bit then a * a % m * b % m else a * a % m) 1

/-- Field operations. -/
def edSub (a b : Nat) : Nat := (a + (edP - b % edP)) % edP
def edInv (a : Nat) : Nat := powMod edP a (edP - 2)

/-- The curve's constant d = -121665 / 121666. -/
def edD : Nat := edSub 0 (121665 * edInv 121666 % edP)

/-- A point in extended coordinates X, Y, Z, T. -/
abbrev EdPoint := Nat × Nat × Nat × Nat

/-- The neutral point. -/
def edZero : EdPoint := (0, 1, 1, 0)

/-- The sum of two points (5.1.4), which also doubles. -/
def edAdd (p q : EdPoint) : EdPoint :=
  let a := edSub p.2.1 p.1 * edSub q.2.1 q.1 % edP
  let b := (p.2.1 + p.1) * (q.2.1 + q.1) % edP
  let c := p.2.2.2 * 2 * edD % edP * q.2.2.2 % edP
  let d := p.2.2.1 * 2 * q.2.2.1 % edP
  let e := edSub b a
  let f := edSub d c
  let g := d + c
  let h := b + a
  (e * f % edP, g * h % edP, f * g % edP, e * h % edP)

/-- A multiple of a point. -/
def edMul (n : Nat) (p : EdPoint) : EdPoint :=
  (bitsDown 256 n).foldl (fun a bit => let d := edAdd a a; if bit then edAdd d p else d) edZero

/-- Whether two points are the same. -/
def edSame (p q : EdPoint) : Bool :=
  decide (p.1 * q.2.2.1 % edP = q.1 * p.2.2.1 % edP) && decide (p.2.1 * q.2.2.1 % edP = q.2.1 * p.2.2.1 % edP)

/-- The x coordinate for y and a sign (5.1.3). -/
def edRecover (y sign : Nat) : Option Nat :=
  let u := edSub (y * y) 1
  let v := (edD * (y * y % edP) + 1) % edP
  let r := u * powMod edP v 3 % edP * powMod edP (u * powMod edP v 7 % edP) ((edP - 5) / 8) % edP
  let vr := v * (r * r % edP) % edP
  let x := if vr = u then some r else if vr = edSub 0 u then some (r * powMod edP 2 ((edP - 1) / 4) % edP) else none
  x.bind (fun x => if x = 0 ∧ sign = 1 then none else some (if x % 2 = sign then x else edSub 0 x))

/-- Decode a point of 32 bytes (5.1.3). -/
def edDecode (bs : List Byte) : Option EdPoint :=
  let v := ofBytes bs
  let y := v % 2 ^ 255
  if edP ≤ y then none else (edRecover y (v / 2 ^ 255)).map (fun x => (x, y, 1, x * y % edP))

/-- Encode a point in 32 bytes (5.1.2). -/
def edEncode (p : EdPoint) : List Byte :=
  let z := edInv p.2.2.1
  toBytes 32 (p.2.1 * z % edP + 2 ^ 255 * (p.1 * z % edP % 2))

/-- The base point: y = 4/5, x even. -/
def edBase : EdPoint :=
  let y := 4 * edInv 5 % edP
  let x := (edRecover y 0).getD 0
  (x, y, 1, x * y % edP)

/-- The secret scalar of a seed's digest (5.1.5). -/
def edClamp (h : List Byte) : Nat :=
  let v := ofBytes (h.take 32)
  v % 2 ^ 254 - v % 8 + 2 ^ 254

/-- The public key of a 32-byte seed (5.1.5). -/
def edPublic (seed : List Byte) : List Byte := edEncode (edMul (edClamp (sha512 seed)) edBase)

/-- The signature of a message (5.1.6). -/
def edSign (seed m : List Byte) : List Byte :=
  let h := sha512 seed
  let r := ofBytes (sha512 (h.drop 32 ++ m)) % edL
  let rs := edEncode (edMul r edBase)
  let k := ofBytes (sha512 (rs ++ edPublic seed ++ m)) % edL
  rs ++ toBytes 32 ((r + k * edClamp h) % edL)

/-- Whether a signature verifies (5.1.7). -/
def edVerify (key m sig : List Byte) : Bool :=
  let s := ofBytes (sig.drop 32)
  match edDecode key, edDecode (sig.take 32) with
  | some a, some r =>
    let k := ofBytes (sha512 (sig.take 32 ++ key ++ m)) % edL
    decide (sig.length = 64) && decide (s < edL) &&
      edSame (edMul 8 (edMul s edBase)) (edAdd (edMul 8 r) (edMul 8 (edMul k a)))
  | _, _ => false

end Sys2Proof.Machine
end

