-- ==== Sys2Proof/Machine/MlDsa.lean ====
section
/-! DEFINITION. Pure ML-DSA-65 with an empty context (R468, R472, R487), as FIPS 204 gives it. The spec names the standard; its
numbers are PRESUMED (LOG 12). A polynomial is the list of its 256 coefficients modulo q. -/

namespace Sys2Proof.Machine

/-! Parameters of ML-DSA-65 (FIPS 204, section 4). -/

def dsaQ : Nat := 8380417
def dsaK : Nat := 6
def dsaL : Nat := 5
def dsaGamma1 : Nat := 2 ^ 19
def dsaGamma2 : Nat := (dsaQ - 1) / 32
def dsaBeta : Nat := 196
def dsaOmega : Nat := 55

/-- A polynomial, and a vector of them. -/
abbrev Poly := List Nat
abbrev PolyVec := List Poly

/-- SHAKE256 to n bytes. -/
def dsaH (m : List Byte) (n : Nat) : List Byte := shake 136 m n

/-- Coefficients in fields of `w` bits, and back. -/
def packCoeffs (w : Nat) (p : List Nat) : List Byte :=
  toBytes (w * p.length / 8) (p.foldr (fun c acc => c + 2 ^ w * acc) 0)
def unpackCoeffs (w n : Nat) (bs : List Byte) : List Nat :=
  let v := ofBytes bs
  (upto n).map (fun i => bits v (w * i) w)

/-- The absolute value of a coefficient taken about 0. -/
def centred (c : Nat) : Nat := min (c % dsaQ) (dsaQ - c % dsaQ)

/-- Coefficientwise sum, difference and product. -/
def polyAdd (a b : Poly) : Poly := (a.zip b).map (fun e => (e.1 + e.2) % dsaQ)
def polySub (a b : Poly) : Poly := (a.zip b).map (fun e => (e.1 + (dsaQ - e.2 % dsaQ)) % dsaQ)
def polyDot (a b : Poly) : Poly := (a.zip b).map (fun e => e.1 * e.2 % dsaQ)

/-- The same over vectors. -/
def vecAdd (a b : PolyVec) : PolyVec := (a.zip b).map (fun e => polyAdd e.1 e.2)
def vecSub (a b : PolyVec) : PolyVec := (a.zip b).map (fun e => polySub e.1 e.2)

/-- A power modulo q. -/
def powQ (b : Nat) : Nat → Nat
  | 0 => 1
  | n + 1 => b * powQ b n % dsaQ

/-- The bits of a byte in reverse order. -/
def reverse8 (m : Nat) : Nat := (upto 8).foldl (fun a i => a + (m >>> i) % 2 * 2 ^ (7 - i)) 0

/-- The m-th root of the transform. -/
def dsaZeta (m : Nat) : Nat := powQ 1753 (reverse8 m)

/-- The number-theoretic transform of 2^level coefficients below node m (Algorithm 41). -/
def nttAt : Nat → Nat → Poly → Poly
  | 0, _, p => p
  | level + 1, m, p =>
    let lo := p.take (2 ^ level)
    let hi := (p.drop (2 ^ level)).map (fun c => dsaZeta m * c % dsaQ)
    nttAt level (2 * m) (polyAdd lo hi) ++ nttAt level (2 * m + 1) (polySub lo hi)

/-- Its inverse, without the division by 256 (Algorithm 42). -/
def inttAt : Nat → Nat → Poly → Poly
  | 0, _, p => p
  | level + 1, m, p =>
    let lo := inttAt level (2 * m) (p.take (2 ^ level))
    let hi := inttAt level (2 * m + 1) (p.drop (2 ^ level))
    polyAdd lo hi ++ (polySub lo hi).map (fun c => (dsaQ - powQ 1753 (256 - reverse8 m)) * c % dsaQ)

def ntt (p : Poly) : Poly := nttAt 8 1 p
def intt (p : Poly) : Poly := (inttAt 8 1 p).map (fun c => 8347681 * c % dsaQ)

/-- A matrix in the transform's domain times a vector in it. -/
def matVec (a : List PolyVec) (v : PolyVec) : PolyVec :=
  a.map (fun row => (row.zip v).foldl (fun acc e => polyAdd acc (polyDot e.1 e.2)) (List.replicate 256 0))

/-- The matrix A of a seed (Algorithms 30 and 32); 2,688 bytes hold more samples than FIPS 204 asks for. -/
def dsaMatrix (rho : List Byte) : List PolyVec :=
  (upto dsaK).map (fun r => (upto dsaL).map (fun s =>
    let bs := shake 168 (rho ++ [BitVec.ofNat 8 s, BitVec.ofNat 8 r]) 2688
    ((unpackCoeffs 24 896 bs).map (· % 2 ^ 23)).filter (· < dsaQ) |>.take 256))

/-- One secret polynomial (Algorithm 31, eta = 4). -/
def dsaSecret (seed : List Byte) (i : Nat) : Poly :=
  let bs := dsaH (seed ++ toBytes 2 i) 1088
  (((unpackCoeffs 4 2176 bs).filter (· < 9)).map (fun b => (dsaQ + 4 - b) % dsaQ)).take 256

/-- One masking polynomial (Algorithm 34). -/
def dsaMask (seed : List Byte) (i : Nat) : Poly :=
  (unpackCoeffs 20 256 (dsaH (seed ++ toBytes 2 i) 640)).map (fun v => (dsaQ + dsaGamma1 - v) % dsaQ)

/-- The places that the challenge's 49 coefficients take: the next byte that is at most i (Algorithm 29). -/
def challengePlaces : Nat → Nat → List Nat → List Nat
  | 0, _, _ => []
  | n + 1, i, js =>
    let rest := js.dropWhile (i < ·)
    rest.getD 0 0 :: challengePlaces n (i + 1) (rest.drop 1)

/-- The challenge polynomial of a digest (Algorithm 29). -/
def dsaChallenge (ct : List Byte) : Poly :=
  let bs := dsaH ct 544
  let signs := ofBytes (bs.take 8)
  let js := challengePlaces 49 207 ((bs.drop 8).map BitVec.toNat)
  ((upto 49).zip js).foldl (fun c e =>
    (c.set (207 + e.1) (c.getD e.2 0)).set e.2 (if signs.testBit e.1 then dsaQ - 1 else 1)) (List.replicate 256 0)

/-- Power2Round (Algorithm 35): high and low part, the low one modulo q. -/
def power2Round (r : Nat) : Nat × Nat :=
  let lo := r % 8192
  if lo ≤ 4096 then (r / 8192, lo) else (r / 8192 + 1, dsaQ + lo - 8192)

/-- Decompose (Algorithm 36): the high part, and the low part as an integer. -/
def decompose (r : Nat) : Nat × Int :=
  let m := 2 * dsaGamma2
  let lo : Int := if r % m ≤ dsaGamma2 then (r % m : Nat) else ((r % m : Nat) : Int) - m
  if (r : Int) - lo = dsaQ - 1 then (0, lo - 1) else (((r : Int) - lo).toNat / m, lo)

def highBits (r : Nat) : Nat := (decompose r).1

/-- UseHint (Algorithm 40). -/
def useHint (h : Bool) (r : Nat) : Nat :=
  let d := decompose r
  if h then (if 0 < d.2 then (d.1 + 1) % 16 else (d.1 + 15) % 16) else d.1

/-- w1Encode (Algorithm 28): four bits a coefficient. -/
def w1Encode (w : PolyVec) : List Byte := w.flatMap (packCoeffs 4)

/-! Keys. -/

/-- What key generation derives from a seed (Algorithm 6): rho, K, the secrets s1 and s2, and t. -/
def dsaExpand (xi : List Byte) : List Byte × List Byte × PolyVec × PolyVec × PolyVec :=
  let h := dsaH (xi ++ [6, 5]) 128
  let rho := h.take 32
  let s1 := (upto dsaL).map (dsaSecret (slice h 32 64))
  let s2 := (upto dsaK).map (fun i => dsaSecret (slice h 32 64) (dsaL + i))
  let t := vecAdd ((matVec (dsaMatrix rho) (s1.map ntt)).map intt) s2
  (rho, slice h 96 32, s1, s2, t)

/-- The public key of a seed ξ (Algorithms 6 and 22). -/
def mldsaPublic (xi : List Byte) : List Byte :=
  let e := dsaExpand xi
  e.1 ++ e.2.2.2.2.flatMap (fun p => packCoeffs 10 (p.map (fun c => (power2Round c).1)))

/-- The message digest µ of a pure signature with an empty context (Algorithms 2, 3, 7 and 8). -/
def dsaMu (pk m : List Byte) : List Byte := dsaH (dsaH pk 64 ++ ([0, 0] ++ m)) 64

/-! Signatures. -/

/-- HintBitPack (Algorithm 20). -/
def hintPack (h : List (List Bool)) : List Byte :=
  let places := h.map (fun p => (upto 256).filter (fun i => p.getD i false))
  let flat := places.flatten
  let ends := (upto dsaK).map (fun i => ((places.take (i + 1)).map List.length).foldl (· + ·) 0)
  (flat ++ List.replicate (dsaOmega - flat.length) 0 ++ ends).map (BitVec.ofNat 8 ·)

/-- Strictly rising. -/
def rising : List Nat → Bool
  | a :: b :: r => decide (a < b) && rising (b :: r)
  | _ => true

/-- HintBitUnpack (Algorithm 21). -/
def hintUnpack (y : List Byte) : Option (List (List Bool)) :=
  let v := y.map BitVec.toNat
  let end_ := fun (i : Nat) => if i = 0 then 0 else v.getD (dsaOmega + i - 1) 0
  let places := fun (i : Nat) => (v.drop (end_ i)).take (end_ (i + 1) - end_ i)
  let ok := (upto dsaK).all (fun i => decide (end_ i ≤ end_ (i + 1) ∧ end_ (i + 1) ≤ dsaOmega) && rising (places i)) &&
    ((v.take dsaOmega).drop (end_ dsaK)).all (· == 0)
  if ok then some ((upto dsaK).map (fun i => (upto 256).map (fun j => (places i).contains j))) else none

/-- One attempt of the signing loop with counter kappa (Algorithm 7); `none` where it is rejected. -/
def dsaAttempt (a : List PolyVec) (s1 s2 t0 : PolyVec) (mu rho2 : List Byte) (kappa : Nat) : Option (List Byte) :=
  let y := (upto dsaL).map (fun i => dsaMask rho2 (kappa + i))
  let w := (matVec a (y.map ntt)).map intt
  let ct := dsaH (mu ++ w1Encode (w.map (fun p => p.map highBits))) 48
  let c := ntt (dsaChallenge ct)
  let times := fun (v : PolyVec) => v.map (fun p => intt (polyDot c (ntt p)))
  let z := vecAdd y (times s1)
  let r := vecSub w (times s2)
  let ct0 := times t0
  let hints := (r.zip ct0).map (fun e => (e.1.zip (polyAdd e.1 e.2)).map (fun x => highBits x.2 != highBits x.1))
  let small := fun (bound : Nat) (v : PolyVec) => v.all (fun p => p.all (fun x => decide (centred x < bound)))
  let low := r.all (fun p => p.all (fun x => decide ((decompose x).2.natAbs < dsaGamma2 - dsaBeta)))
  if small (dsaGamma1 - dsaBeta) z && low && small dsaGamma2 ct0 && decide ((hints.flatten.filter id).length ≤ dsaOmega) then
    some (ct ++ z.flatMap (fun p => packCoeffs 20 (p.map (fun x => (dsaGamma1 + (dsaQ - x)) % dsaQ))) ++ hintPack hints)
  else none

/-- The first attempt that is not rejected, of at most n. -/
def dsaLoop (try_ : Nat → Option (List Byte)) : Nat → Nat → List Byte
  | 0, _ => []
  | n + 1, kappa => match try_ kappa with
    | some sig => sig
    | none => dsaLoop try_ n (kappa + dsaL)

/-- The signature of a message under the key of a seed, with the 32 bytes `rnd` of FIPS 204's randomness (Algorithms 2 and 7). The
loop ends at 814 attempts, the least bound that FIPS 204 allows. -/
def mldsaSign (xi rnd m : List Byte) : List Byte :=
  let e := dsaExpand xi
  let t0 := e.2.2.2.2.map (fun p => p.map (fun c => (power2Round c).2))
  let mu := dsaMu (mldsaPublic xi) m
  dsaLoop (dsaAttempt (dsaMatrix e.1) e.2.2.1 e.2.2.2.1 t0 mu (dsaH (e.2.1 ++ rnd ++ mu) 64)) 814 0

/-- Whether a signature verifies (Algorithms 3 and 8). -/
def mldsaVerify (pk m sig : List Byte) : Bool :=
  let ct := sig.take 48
  let z := (upto dsaL).map (fun i => (unpackCoeffs 20 256 (slice sig (48 + 640 * i) 640)).map (fun v => (dsaQ + dsaGamma1 - v) % dsaQ))
  match hintUnpack (slice sig 3248 61) with
  | none => false
  | some h =>
    let t1 := (upto dsaK).map (fun i => (unpackCoeffs 10 256 (slice pk (32 + 320 * i) 320)).map (· * 8192))
    let mu := dsaMu pk m
    let c := ntt (dsaChallenge ct)
    let w := (vecSub (matVec (dsaMatrix (pk.take 32)) (z.map ntt)) (t1.map (fun p => polyDot c (ntt p)))).map intt
    let w1 := (w.zip h).map (fun e => (e.1.zip e.2).map (fun x => useHint x.2 x.1))
    decide (pk.length = 1952) && decide (sig.length = 3309) &&
      z.all (fun p => p.all (fun x => decide (centred x < dsaGamma1 - dsaBeta))) && (dsaH (mu ++ w1Encode w1) 48 == ct)

end Sys2Proof.Machine
end

