-- ==== Sys2Proof/Machine/Stopping.lean ====
section
/-! DEFINITION. Stopping the work of squares (R142, R156), faults of a square, and clearing what a square holds when it
passes to another owner (R134, R177, R282, R286). -/

namespace Sys2Proof.Machine

/-- Bytes of a row of an element block (R153). -/
def Desc.seg (d : Desc) : Nat := 32 * d.xp

/-- What the position of a descriptor counts: rows, or element blocks of a transposition (R152, R153). -/
def Desc.steps (d : Desc) : Nat := if d.xp = 0 then d.rows else d.rows / 32 * (d.rowbytes / d.seg)

/-- Whether every write of the descriptor in progress has been issued. -/
def PumpRun.issued (r : PumpRun) : Bool := r.err == 0 && decide (r.d.steps ≤ r.pos) && r.todo.isEmpty

/-- Whether every write of the descriptor in progress has been performed (R147). -/
def PumpRun.written (r : PumpRun) : Bool := r.issued && r.outstanding == 0

/-- Whether a descriptor has nothing left to issue, so that a stop lets it complete (R147, R156). -/
def PumpRun.closing (r : PumpRun) : Bool := r.issued && (!r.d.sig || r.sigSent)

/-- Whether a read of the pump is without its answer. -/
def Fetch.waits (f : Fetch) : Bool := match f with | .waitTag => true | .waitData _ => true | _ => false

/-- Whether the pump still has requests without their answers, or writes of a block that it has begun to write. -/
def PumpRun.busy (r : PumpRun) : Bool := r.outstanding != 0 || r.fetch.waits || !r.todo.isEmpty

/-- A descriptor that is being abandoned is gone once the pump is quiet (R156). -/
def PumpRun.settle (r : PumpRun) : Option PumpRun := if r.err = eAborted ∧ r.busy = false then none else some r

/-- The descriptor in progress of a pump that is stopped: one that has only answers to await completes; a block whose writes were
issued is finished, answers to requests and an error response under way are awaited, and the rest is abandoned (R142, R156). -/
def PumpRun.stop (r : PumpRun) : Option PumpRun :=
  if r.closing then some r
  else ({ r with fetch := if r.fetch.waits then r.fetch else .idle, hold := [], carry := [], gathered := [],
                 err := if r.err = 0 then eAborted else r.err } : PumpRun).settle

/-- A pump that is stopped: its descriptors not begun are discarded, with its references to banks (R142, R156). -/
def stopPump (p : Pump) : Pump :=
  { p with
    queue := []
    bank0 := { p.bank0 with useCnt := 0 }
    bank1 := { p.bank1 with useCnt := 0 }
    cur := p.cur.bind PumpRun.stop }

/-- Change the descriptor in progress of a pump, which may leave it quiet (R156). -/
def Pump.onRun (p : Pump) (f : PumpRun → PumpRun) : Pump := { p with cur := p.cur.bind (fun r => (f r).settle) }

/-- Let nobody wait any more for the answers that some waiters wait for. -/
def State.orphan (s : State) (f : Waiter → Bool) : State :=
  { s with
    links := { s.links with reqs := s.links.reqs.map (fun r => if f r.waiter then { r with waiter := .nobody } else r) }
    hostReqs := s.hostReqs.map (fun r => if f r.waiter then { r with waiter := .nobody } else r) }

/-- Whether a waiter is the pump of a square that reads a table image. -/
def loadsFor (u : Nat) (w : Waiter) : Bool := match w with | .tableRead v => v == u | _ => false

/-- Stop a square that runs a launch: its engines stop, its AT operations complete with their results discarded, its
pump finishes or abandons its block (R142). -/
def stopSquareNow (q : Square) : Square :=
  { q with
    run := .stopped
    stall := .none
    atOps := q.atOps.map (fun o => { o with sd := 0 })
    pump := stopPump q.pump }

/-- Stop a square of a launch, if it is running it. -/
def State.stopSquare (s : State) (u : Nat) : State :=
  if (s.sq u).run = .running then s.modSq u stopSquareNow else s

/-- A fault of a square, with the STAMP of its record: the fault its status will name, and the stop (R141, R142, R145). A square
that has already stopped takes no further fault. -/
def State.faultSquareAt (s : State) (u code iidx stamp : Nat) : State :=
  if (s.sq u).run = .running then s.modSq u (fun q => stopSquareNow { q with fault := some ⟨code, iidx, stamp⟩ }) else s

/-- A fault of a square found now. -/
def State.faultSquare (s : State) (u code iidx : Nat) : State := s.faultSquareAt u code iidx s.time

/-- A precise fault, with the one record that the square logs (R140, R142). -/
def State.faultLogged (s : State) (u code iidx addr : Nat) : State :=
  (s.logErr u (s.sq u).kpart code addr).faultSquare u code iidx

/-- Count a descriptor's end for its square and trace it (R494, R508). -/
def State.countDescriptor (s : State) (u ticket code : Nat) : State :=
  (s.count u 7 1).trace 3 0x08 (s.sq u).kpart u ticket code

/-- Every running square of a launch stops; a launch that has not started ends without starting; one whose squares have all
reported has ended already (R142, R143, R367). -/
def State.abortLaunch (s : State) (id : Nat) : State :=
  match s.launch id with
  | none => s
  | some l =>
    match l.stage with
    | .ended => s
    | .issued => s.modLaunch id (fun l => { l with stage := .running, set := [], aborted := true, stopAll := true })
    | .running =>
      if l.set.all (fun u => l.reports.any (fun r => r.sq == u)) then s
      else forAll l.set (fun t u => if (t.sq u).launch = id then t.stopSquare u else t)
        (s.modLaunch id (fun l => { l with aborted := true, stopAll := true }))

/-- The numbers of a queue's launches that have not ended. -/
def State.launchesOfQueue (s : State) (q : Nat) : List Nat :=
  (s.launches.filter (fun l => l.queue == q && l.stage != .ended)).map (·.id)

/-- Abort every launch of a queue that is being destroyed (R367). -/
def State.abortQueue (s : State) (q : Nat) : State :=
  forAll (s.launchesOfQueue q) (fun t id => (t.abortLaunch id).modLaunch id (fun l => { l with closing := true })) s

/-- Discard a square's whole near cache (R282). -/
def State.discardNear (s : State) (u : Nat) : State := s.modSq u (fun q => { q with near := [] })

/-- A near cache without the lines of a range. -/
def dropLines (near : Table (List Byte)) (lo hi : Nat) : Table (List Byte) :=
  near.filter (fun l => !(decide (lo ≤ 128 * l.1) && decide (128 * l.1 < hi)))

/-- Discard the near-cache lines of a range in every square (R275). -/
def State.discardNearRange (s : State) (lo hi : Nat) : State :=
  forAll (s.squares.map Prod.fst) (fun t u => t.modSq u (fun q => { q with near := dropLines q.near lo hi })) s

/-- Clear the 64 counters of a square (R134). -/
def State.clearSquareCounters (s : State) (u : Nat) : State :=
  { s with sqCtr := Table.clear s.sqCtr (64 * u) (64 * u + 64) }

/-- Make both decoding banks of a square's pump invalid (R177); a load under way ends. -/
def State.clearBanks (s : State) (u : Nat) : State :=
  (s.orphan (loadsFor u)).modSq u (fun q => { q with pump := { q.pump with bank0 := {}, bank1 := {}, tblBusy := false, tblSent := false, tblImage := none, tblCode := 0 } })

/-- Zero a square's cistern (R286). -/
def State.zeroCistern (s : State) (u : Nat) : State := s.zero (cisternAddr u 0) (cisternAddr (u + 1) 0)

/-- Zero a quarter's well (R298). -/
def State.zeroWell (s : State) (q : Nat) : State := s.zero (wellBase q) (wellBase (q + 1))

/-- The partition that the checks of R561 give a square: 0 none, p + 1 partition p. -/
def ownerEff (o : SquareOwner) : Nat := if o.valid then o.owner + 1 else 0

end Sys2Proof.Machine
end

