-- ==== Sys2Proof/Machine/Fountain.lean ====
section
/-! DEFINITION. The generator of a fountain (R184 to R187, R195 to R197), its state across owners (R201 to R203) and
the module-wide reload and self-test (R198, R205). -/

namespace Sys2Proof.Machine

/-- Low bits of the service polynomial x^128 + x^7 + x^2 + x + 1 (R184). -/
def servicePoly : Nat := 0x87

/-- s × x mod the polynomial of these low bits. -/
def gfDouble (poly s : Nat) : Nat :=
  if 2 ^ 127 ≤ s then Nat.xor (2 * (s - 2 ^ 127)) poly else 2 * s

/-- s × x^n mod the polynomial. -/
def gfShift (poly : Nat) : Nat → Nat → Nat
  | 0, s => s
  | n + 1, s => gfShift poly n (gfDouble poly s)

/-- a × (bits n - 1 to 0 of b) mod the polynomial, Horner's way. -/
def gfMulFrom (poly a b : Nat) : Nat → Nat → Nat
  | 0, acc => acc
  | n + 1, acc =>
    let d := gfDouble poly acc
    gfMulFrom poly a b n (if b.testBit n then Nat.xor d a else d)

/-- Product in GF(2)[x] mod the polynomial. -/
def gfMul (poly a b : Nat) : Nat := gfMulFrom poly a b 128 0

/-- `s` times the jump parameters of the set bits of `n`, lowest first, with `j` the parameter of the lowest bit (R188,
R195). -/
def jumpFrom : Nat → Nat → Nat → Nat → Nat
  | 0, _, _, s => s
  | f + 1, n, j, s =>
    if n = 0 then s
    else jumpFrom f (n / 2) (gfMul servicePoly j j) (if n % 2 = 1 then gfMul servicePoly s j else s)

/-- The start state of a seed (R185). -/
def startState (seed : Nat) : Nat := if seed = 0 then 1 else seed

/-- S0 × x^(32 n) mod P (R186). -/
def jumped (seed n : Nat) : Nat := jumpFrom 128 n (2 ^ 32) (startState seed)

/-- `temper` (R184). -/
def temper (s : Nat) : Nat :=
  let m := 2 ^ 32
  let t := (Nat.xor (s / 2 ^ 96) (s / 2 ^ 32 % m) + s / 2 ^ 64 % m) % m
  let t := Nat.xor t (t / 2 ^ 16)
  let t := t * 0x7A3B91C5 % m
  let t := Nat.xor t (t / 2 ^ 13)
  (t + s % m) % m

/-- `word` (R186). -/
def fountainWord (seed j k : Nat) : Nat := temper (jumped seed (j * 2 ^ 96 + k))

/-- The states of consecutive offsets from a state. -/
def positionedStates : Nat → Nat → List Nat
  | 0, _ => []
  | n + 1, s => s :: positionedStates n (gfShift servicePoly 32 s)

/-- The words of lanes 0 to n - 1 of a positioned instruction (R187). -/
def positionedWords (seed j k n : Nat) : List Nat :=
  (positionedStates n (jumped seed (j * 2 ^ 96 + k))).map temper

/-- x^e mod the polynomial, from bit `n - 1` of e down. -/
def gfPowX (poly e : Nat) : Nat → Nat → Nat
  | 0, acc => acc
  | n + 1, acc =>
    let q := gfMul poly acc acc
    gfPowX poly e n (if e.testBit n then gfDouble poly q else q)

/-- The primes of 2^128 - 1. -/
def orderPrimes : List Nat := [3, 5, 17, 257, 641, 65537, 274177, 6700417, 67280421310721]

/-- x^128 + these low bits is primitive: x has order 2^128 - 1. -/
def primitivePoly (poly : Nat) : Bool :=
  gfPowX poly (2 ^ 128 - 1) 128 1 == 1 && orderPrimes.all (fun q => gfPowX poly ((2 ^ 128 - 1) / q) 128 1 != 1)

/-- What R196 promises of the 511 polynomials after P_0: primitive, and all 512 distinct. -/
def lanePolysGood (ps : List Nat) : Bool := ps.all primitivePoly && decide (servicePoly :: ps).Nodup

/-- The polynomials that the manual does not print (R196): free values (LOG 7). -/
def lanePolysFree : List Nat := (List.range 511).map (fun l => (Config.lanePoly (l + 1)).toNat)

/-! The low bits of the 512 least primitive polynomials of degree 128; the first is P_0. -/
def leastPolys0 : List Nat := [
  135, 371, 373, 1017, 1677, 1779, 1859, 1973, 2015, 2107, 2349, 2791, 2837, 2943, 2947, 2961, 3273, 3353, 3443, 3555,
  3569, 3639, 3873, 4253, 5261, 5285, 5341, 5345, 5805, 6177, 6363, 6793, 6799, 6883, 6945, 7137, 7259, 7301, 7559, 7725,
  7849, 7943, 8015, 8443, 9007, 9111, 9339, 10059, 10695, 10873, 11251, 11331, 11491, 11853, 12111, 12555, 12671, 12761,
  12879, 13239, 14357, 14391, 14607, 14755]
def leastPolys1 : List Nat := [
  14947, 15873, 16155, 16199, 16213, 16555, 17193, 17567, 17645, 18289, 18803, 18927, 19171, 19401, 19481, 19787, 19811,
  20025, 20039, 20057, 20079, 20355, 20463, 20675, 21029, 21195, 21909, 22959, 23249, 23343, 23451, 23499, 23575, 23969,
  24013, 24123, 24385, 24969, 25045, 25125, 25215, 25559, 25563, 25883, 26519, 27005, 27337, 27343, 27639, 27879, 28377,
  28845, 28875, 29057, 29295, 29415, 29915, 30085, 30641, 31243, 31245, 31313, 31459, 31473]
def leastPolys2 : List Nat := [
  31551, 31607, 31713, 31731, 31745, 32463, 32827, 33591, 33693, 34325, 34489, 34527, 34981, 35085, 35575, 35647, 35707,
  35895, 36063, 36725, 36959, 37521, 38025, 38257, 38405, 39377, 39701, 39831, 41185, 41337, 41559, 42429, 43029, 43081,
  43115, 43225, 43501, 43547, 43591, 43969, 44107, 44239, 44843, 45025, 45351, 46627, 47215, 47565, 47725, 47809, 47877,
  48417, 48427, 48561, 48605, 48643, 48989, 49383, 49415, 49515, 50039, 50135, 50195, 50427]
def leastPolys3 : List Nat := [
  50619, 50847, 51345, 51651, 51763, 51777, 52135, 52461, 52661, 53321, 53365, 53439, 53461, 53627, 53693, 53949, 54131,
  54249, 54461, 54683, 54757, 54795, 55511, 55683, 55975, 56091, 56299, 56553, 57927, 58031, 58325, 58359, 58371, 58533,
  59629, 60061, 60675, 60955, 61029, 61467, 61539, 61853, 61947, 62089, 62169, 62805, 63319, 63471, 63609, 63801, 63819,
  64607, 64631, 64959, 65021, 65319, 65489, 65511, 65515, 66235, 66713, 67045, 67467, 67853]
def leastPolys4 : List Nat := [
  68477, 69041, 69521, 69709, 70367, 70485, 71133, 71231, 71485, 71811, 71941, 71987, 72085, 72201, 72379, 72799, 72979,
  73047, 73057, 73443, 73499, 73535, 73717, 73755, 73867, 74183, 74277, 74685, 74907, 75065, 75091, 75933, 76097, 76519,
  77091, 77385, 77663, 77717, 77787, 77995, 78041, 78255, 78299, 78311, 78495, 78639, 78673, 78785, 78887, 79171, 79643,
  79729, 79881, 79935, 80207, 80481, 80759, 81113, 81435, 81705, 81825, 81835, 81887, 81935]
def leastPolys5 : List Nat := [
  82079, 82235, 82409, 82985, 83061, 83349, 83743, 85189, 85375, 86125, 86459, 86497, 86603, 86617, 86765, 87163, 87235,
  87389, 87475, 87943, 88223, 88731, 90097, 90577, 90763, 91355, 92125, 92839, 92905, 92925, 93449, 93483, 94519, 94625,
  94757, 95219, 95299, 95341, 95743, 95827, 95829, 96173, 96601, 96869, 97283, 97439, 97477, 97691, 97803, 97817, 97907,
  98257, 98361, 98379, 98415, 98439, 98653, 98721, 98971, 100263, 100269, 100287, 100591, 100785]
def leastPolys6 : List Nat := [
  100833, 101155, 101277, 101541, 101565, 101803, 101913, 102695, 102821, 103247, 103633, 103943, 104087, 104587, 104735,
  104811, 105151, 105639, 105793, 106109, 106137, 106191, 106853, 106881, 107013, 107197, 107391, 107409, 107467, 107981,
  108373, 108389, 108571, 108619, 108645, 108733, 108751, 109489, 109543, 109749, 109965, 110059, 110687, 111005, 111411,
  111629, 111901, 112091, 112131, 112343, 112465, 112617, 112887, 112919, 113217, 113945, 114013, 114225, 114257, 114521,
  114681, 114973, 115039, 115103]
def leastPolys7 : List Nat := [
  115477, 115553, 115611, 115617, 115679, 116255, 116765, 116841, 117615, 117673, 117959, 118043, 118067, 118305, 118731,
  118829, 119389, 119487, 119637, 119749, 119935, 120147, 120223, 120289, 120353, 120421, 120473, 121043, 121151, 121283,
  121421, 121503, 121565, 121703, 121817, 122257, 122879, 122889, 123019, 123099, 123155, 123509, 123811, 123925, 124325,
  124337, 124397, 124641, 124679, 124741, 124929, 125141, 125167, 125721, 126545, 126759, 127091, 127175, 127337, 127511,
  128057, 128291, 128317, 128645]

/-- The 512 least primitive polynomials. -/
def leastPolys : List Nat :=
  leastPolys0 ++ leastPolys1 ++ leastPolys2 ++ leastPolys3 ++ leastPolys4 ++ leastPolys5 ++ leastPolys6 ++ leastPolys7

/-- Low 128 bits of P_l (R196): the free polynomials, held to what the manual promises of them. Free values that break the promise would be
no table of the hardware; the least primitive polynomials stand for them, so that the promise holds of the model (LOG 7). -/
def polyOf (l : Nat) : Nat :=
  if l = 0 then servicePoly else if lanePolysGood lanePolysFree then lanePolysFree.getD (l - 1) 0 else leastPolys.getD l 0

/-- The start state of lane l (R197). -/
def laneStart (seed : BitVec 128) (l : Nat) : Nat :=
  let v := Nat.xor (startState seed.toNat) l
  if v = 0 then 1 else v

/-- The state of lane l: a lane that is not listed stands at its start state, and one that is, at one less than its entry. -/
def Fountain.lane (f : Fountain) (l : Nat) : Nat :=
  let v := Table.get 0 f.lanes l
  if v = 0 then laneStart f.seed l else v - 1

/-- The entry of lane l that stands for a state. -/
def Fountain.entry (f : Fountain) (l s : Nat) : Nat := if s = laneStart f.seed l then 0 else s + 1

/-- Put a state into lane l. -/
def Fountain.setLane (f : Fountain) (l s : Nat) : Fountain :=
  { f with lanes := Table.set 0 f.lanes l (f.entry l s) }

/-- One per-lane instruction: every lane gives its word and steps (R197). -/
def Fountain.stepLanes (f : Fountain) : List Nat × Fountain :=
  let ls := upto 512
  (ls.map (fun l => temper (f.lane l)),
   { f with lanes := ls.foldl (fun t l =>
      Table.set 0 t l (f.entry l (gfShift (polyOf l) 32 (f.lane l)))) [] })

/-- A new seed, with every lane at its start state (R189, R201). -/
def Fountain.reseed (f : Fountain) (seed : Nat) : Fountain := { f with seed := BitVec.ofNat 128 seed, lanes := [], badLane := [] }

/-- A cleared fountain (R203): its parameters, their check and FTN_CTL stay. -/
def Fountain.cleared (f : Fountain) : Fountain := { f with mode := f.ctlMode, seed := 0, lanes := [], badLane := [], badStep := false }

/-- Lane states that failed parity restart and LOST sets (R199). -/
def Fountain.restartBad (f : Fountain) : Fountain :=
  if f.badLane = [] then f
  else f.badLane.foldl (fun g e => { g with lanes := Table.erase g.lanes e.1 }) { f with lost := true, badLane := [] }

/-- The context record of a fountain (R202). -/
def contextRecord (f : Fountain) : List Byte :=
  toBytes 16 f.seed.toNat ++ toBytes 16 (1 + 2 * (f.mode % 2)) ++
    ((upto 512).map (fun l => toBytes 16 (f.lane l))).flatten

/-- A fountain restored from a context record (R202). -/
def restoreRecord (f : Fountain) (bs : List Byte) : Fountain :=
  let g := { f with seed := BitVec.ofNat 128 (ofBytes (bs.take 16)), mode := bits (ofBytes ((bs.drop 16).take 1)) 1 1, lanes := [], badLane := [] }
  (upto 512).foldl (fun h l => h.setLane l (ofBytes ((bs.drop (32 + 16 * l)).take 16))) g

/-- The record's access of a square for a partition (R202, R558). -/
def contextAcc (p : Part) (n u : Nat) (op : AccOp) : Acc := ⟨u, n, p.ctxBase + 8224 * u, 8224, op, true⟩

/-- Save a square's fountain to the area of partition p, if enabled (R202, R558). The save reads the lane states: one that fails parity
restarts, and LOST sets, so that no record holds a corrupt state (R199, LOG 21). -/
def State.saveFountain (s : State) (u p : Nat) : State :=
  if (s.part p).ctxEn then
    let x := contextAcc (s.part p) p u .write
    let r := (s.modSq u (fun q => { q with ftn := q.ftn.restartBad })).accWrite x (contextRecord (s.sq u).ftn.restartBad)
    if r.2 = eOk then r.1 else r.1.logAccess x r.2
  else s

/-- Clear a square's fountain (R203). -/
def State.clearFountain (s : State) (u : Nat) : State := s.modSq u (fun q => { q with ftn := q.ftn.cleared })

/-- A square's fountain takes a context record, if it is valid (R202). -/
def State.takeRecord (s : State) (u : Nat) (bs : List Byte) : State :=
  if bits (ofBytes ((bs.drop 16).take 1)) 0 1 = 1 then s.modSq u (fun q => { q with ftn := restoreRecord q.ftn bs }) else s

/-- Write VALID = 0 in every record of a partition's area, whether or not EN is set (R203); a partition whose BASE is 0 with EN clear has
no area (LOG 74). R558 does not list these writes: they are checked as accesses of p, and failures are logged with the unit of the
reset logic (the model's choice, LOG 74). -/
def State.invalidateContexts (s : State) (p : Nat) : State :=
  if (s.part p).ctxEn || (s.part p).ctxBase != 0 then
    forAll (upto 128) (fun t u =>
      let x : Acc := ⟨unitReset, p, (t.part p).ctxBase + 8224 * u + 16, 1, .write, true⟩
      let r := t.accWrite x [t.byte x.addr &&& 2]
      if r.2 = eOk then r.1 else r.1.logAccess x r.2) s
  else s

/-- Whether 128 jump parameters from bytes are valid (R195): `want` is the next J_i. -/
def jumpParamsOk : Nat → Nat → List Byte → Bool
  | 0, _, _ => true
  | n + 1, want, bs =>
    decide (ofBytes (bs.take 16) = want) && jumpParamsOk n (gfMul servicePoly want want) (bs.drop 16)

/-- R198 on one fountain: the generator agrees with the jump unit, so the outcome is that of its parameter check. -/
def selfTested (f : Fountain) : Bool := f.jready && !f.badJump

/-- End a check of every fountain: JREADY and FTN_STFAIL take the outcome (R198, R205). -/
def State.setChecked (s : State) (ok : Fountain → Bool) (reloaded : Bool) : State :=
  forAll (upto 128) (fun t u =>
    let g := ok (t.sq u).ftn
    let t1 := t.modSq u (fun q => { q with ftn := { q.ftn with jready := g, badJump := if reloaded then false else q.ftn.badJump } })
    { t1 with ftnG := { t1.ftnG with stfail := Table.set false t1.ftnG.stfail u (!g) } }) s

/-- A write of FTN_GCTL's RELOAD and SELFTEST bits (R205): nothing while BUSY. -/
def State.startFountainJob (s : State) (reload selftest : Bool) : State :=
  if s.ftnG.busy || !(reload || selftest) then s
  else { s with ftnG := { s.ftnG with busy := true, job := bitN reload + 2 * bitN selftest } }

end Sys2Proof.Machine
end

