-- ==== Sys2Proof/Machine/Aes.lean ====
section
/-! DEFINITION. AES-256 (FIPS 197), its XTS mode for the reservoir (R179, IEEE 1619) and its GCM mode for the links (R426,
SP 800-38D). The spec names the modes; their numbers are PRESUMED (LOG 11, 13). A block is 16 bytes, the first one first. -/

namespace Sys2Proof.Machine

/-- Twice an element of GF(2^8) modulo x^8 + x^4 + x^3 + x + 1. -/
def aesDouble (x : Nat) : Nat := (if 128 ≤ x then 2 * x ^^^ 0x11B else 2 * x) % 256

/-- The product of two elements of GF(2^8), the first one below 16. -/
def aesMul (x y : Nat) : Nat :=
  (if x.testBit 0 then y else 0) ^^^ (if x.testBit 1 then aesDouble y else 0) ^^^
    (if x.testBit 2 then aesDouble (aesDouble y) else 0) ^^^ (if x.testBit 3 then aesDouble (aesDouble (aesDouble y)) else 0)

/-- The S-box, 32 entries a number, the first one lowest. -/
def aesSboxRows : List Nat :=
  [0xc072a49cafa2d4adf04759fa7dc982ca76abd7fe2b670130c56f6bf27b777c63] ++
  [0x75b227ebe28012079a059618c323c7041531d871f1e5a534ccf73f362693fdb7] ++
  [0xcf584c4a39becb6a5bb1fc20ed00d153842fe329b3d63b52a05a6e1b1a2c8309] ++
  [0xd2f3ff1021dab6bcf5389d928f40a351a89f3c507f02f94585334d43fbaaefd0] ++
  [0xdb0b5ede14b8ee4688902a22dc4f816073195d643d7ea7c41744975fec130ccd] ++
  [0x08ae7a65eaf4566ca94ed58d6d37c8e779e4959162acd3c25c2406490a3a32e0] ++
  [0x9e1dc186b95735610ef6034866b53e708a8bbd4b1f74dde8c6b4a61c2e2578ba] ++
  [0x16bb54b00f2d99416842e6bf0d89a18cdf2855cee9871e9b948ed9691198f8e1]

/-- The inverse S-box, as `aesSboxRows`. -/
def aesInvRows : List Nat :=
  [0xcbe9dec444438e3487ff2f9b8239e37cfbd7f3819ea340bf38a53630d56a0952] ++
  [0x25d18b6d49a25b76b224d92866a12e084ec3fa420b954cee3d23c2a632947b54] ++
  [0x849d8da75746155edab9edfd5048706c92b6655dcc5ca4d41698688664f6f872] ++
  [0x6b8a130103bdafc1020f3fca8f1e2cd00645b3b80558e4f70ad3bc8c00abd890] ++
  [0x6edf751ce837f9e28535ade72274ac9673e6b4f0cecff297eadc674f4111913a] ++
  [0xf45acd78fec0db9a2079d2c64b3e56fc1bbe18aa0e62b76f89c5291d711af147] ++
  [0xef9cc9939f7ae52d0d4ab519a97f51605fec8027591012b131c7078833a8dd1f] ++
  [0x7d0c2155631469e126d677ba7e042b17619953833cbbebc8b0f52aae4d3be0a0]

/-- An entry of a table of 32 bytes a number. -/
def rowsAt (rows : List Nat) (b : Byte) : Byte := BitVec.ofNat 8 (rows.getD (b.toNat / 32) 0 >>> (8 * (b.toNat % 32)))

def aesSbox (b : Byte) : Byte := rowsAt aesSboxRows b
def aesInvSbox (b : Byte) : Byte := rowsAt aesInvRows b

/-- Bytewise exclusive or. -/
def xorBytes (a b : List Byte) : List Byte := (a.zip b).map (fun e => e.1 ^^^ e.2)

/-- The next word of the key schedule, of words kept latest first; `i` is its number. -/
def aesNextWord (i : Nat) (w : List (List Byte)) : List Byte :=
  let t := w.getD 0 []
  let u :=
    if i % 8 = 0 then
      xorBytes ((t.drop 1 ++ t.take 1).map aesSbox) [BitVec.ofNat 8 (2 ^ (i / 8 - 1)), 0, 0, 0]
    else if i % 8 = 4 then t.map aesSbox else t
  xorBytes (w.getD 7 []) u

/-- The 15 round keys of a 32-byte key. -/
def aesSchedule (key : List Byte) : List (List Byte) :=
  let first := ((upto 8).map (fun i => slice key (4 * i) 4)).reverse
  let w := ((upto 52).foldl (fun w i => aesNextWord (8 + i) w :: w) first).reverse
  (upto 15).map (fun r => ((w.drop (4 * r)).take 4).flatten)

/-- Move row r of the state left by r columns, or right by r where `inv`. -/
def aesShiftRows (inv : Bool) (s : List Byte) : List Byte :=
  (upto 16).map (fun i => s.getD ((if inv then i + 12 * (i % 4) else i + 4 * (i % 4)) % 16) 0)

/-- Multiply each column by a circulant matrix with this first row. -/
def aesMixColumns (row : List Nat) (s : List Byte) : List Byte :=
  (upto 16).map (fun i => BitVec.ofNat 8 ((upto 4).foldl (fun a k =>
    a ^^^ aesMul (row.getD ((k + 4 - i % 4) % 4) 0) (s.getD (i / 4 * 4 + k) 0).toNat) 0))

/-- Encrypt one block under a schedule. -/
def aesRounds (ks : List (List Byte)) (block : List Byte) : List Byte :=
  let start := xorBytes block (ks.getD 0 [])
  let mid := (upto 13).foldl (fun s i =>
    xorBytes (aesMixColumns [2, 3, 1, 1] (aesShiftRows false (s.map aesSbox))) (ks.getD (i + 1) [])) start
  xorBytes (aesShiftRows false (mid.map aesSbox)) (ks.getD 14 [])

/-- Encrypt one block. -/
def aesEncrypt (key block : List Byte) : List Byte := aesRounds (aesSchedule key) block

/-- Decrypt one block. -/
def aesDecrypt (key block : List Byte) : List Byte :=
  let ks := aesSchedule key
  let start := (aesShiftRows true (xorBytes block (ks.getD 14 []))).map aesInvSbox
  let mid := (upto 13).foldl (fun s i =>
    (aesShiftRows true (aesMixColumns [14, 11, 13, 9] (xorBytes s (ks.getD (13 - i) [])))).map aesInvSbox) start
  xorBytes mid (ks.getD 0 [])

/-! XTS. -/

/-- The tweak of the second block of a data unit: the first one's times x. -/
def xtsNext (t : List Byte) : List Byte :=
  let v := ofBytes t
  toBytes 16 (2 * v % 2 ^ 128 ^^^ (if v.testBit 127 then 0x87 else 0))

/-- One 32-byte granule under a key pair (data key, tweak key) and a tweak number (R179), with a block function. -/
def xtsGranule (f : List Byte → List Byte → List Byte) (key : List Byte) (tweak : Nat) (granule : List Byte) : List Byte :=
  let t := aesEncrypt (key.drop 32) (toBytes 16 tweak)
  let one := fun (t b : List Byte) => xorBytes (f (key.take 32) (xorBytes b t)) t
  one t (granule.take 16) ++ one (xtsNext t) (granule.drop 16)

def xtsEncrypt (key : List Byte) (tweak : Nat) (granule : List Byte) : List Byte := xtsGranule aesEncrypt key tweak granule
def xtsDecrypt (key : List Byte) (tweak : Nat) (granule : List Byte) : List Byte := xtsGranule aesDecrypt key tweak granule

/-! GCM. Blocks are numbers whose most significant bit is the first one. -/

/-- The product of two elements of GF(2^128) as GCM numbers their bits. -/
def ghashMul (x y : Nat) : Nat :=
  ((upto 128).foldl (fun (e : Nat × Nat) i =>
    (if x.testBit (127 - i) then e.1 ^^^ e.2 else e.1,
      e.2 / 2 ^^^ (if e.2 % 2 = 1 then 0xE1 * 2 ^ 120 else 0))) (0, y)).1

/-- Bytes followed by zeros to a multiple of 16. -/
def padBlocks (bs : List Byte) : List Byte := bs ++ List.replicate ((16 - bs.length % 16) % 16) 0

/-- GHASH of whole blocks. -/
def ghash (h : Nat) (bs : List Byte) : Nat :=
  (upto (bs.length / 16)).foldl (fun a i => ghashMul (a ^^^ ofBytesBE (slice bs (16 * i) 16)) h) 0

/-- The counter block `i` of a 96-bit IV. -/
def gcmCounter (iv i : Nat) : List Byte := toBytesBE 16 (iv * 2 ^ 32 + i % 2 ^ 32)

/-- The key stream applied to data: both encryption and decryption. -/
def gcmCrypt (key : List Byte) (iv : Nat) (bs : List Byte) : List Byte :=
  let ks := aesSchedule key
  xorBytes bs ((upto ((bs.length + 15) / 16)).flatMap (fun i => aesRounds ks (gcmCounter iv (i + 2))))

/-- The 16-byte tag over associated data and cipher text. -/
def gcmTag (key : List Byte) (iv : Nat) (aad ct : List Byte) : List Byte :=
  let ks := aesSchedule key
  let h := ofBytesBE (aesRounds ks (toBytes 16 0))
  let s := ghash h (padBlocks aad ++ padBlocks ct ++ toBytesBE 8 (8 * aad.length) ++ toBytesBE 8 (8 * ct.length))
  xorBytes (toBytesBE 16 s) (aesRounds ks (gcmCounter iv 1))

end Sys2Proof.Machine
end

