-- ==== Sys2Proof/Machine/Wire.lean ====
section
/-! DEFINITION. What a port puts on the fibre: a transaction's header and its protection (R410, R411, R425, R426), the flits that carry
it (R399, R400), the MARK's body (R439), and frames and their error correction (R398). -/

namespace Sys2Proof.Machine

/-! Transactions (R410, R411). -/

/-- A number rounded up to a multiple of 16. -/
def pad16 (n : Nat) : Nat := (n + 15) / 16 * 16

/-- Payload bytes that a transaction carries in its stream: LEN, except that a GET outside block mode carries none, its
LEN being what it asks for (R410, R412). -/
def Txn.streamLen (t : Txn) : Nat := if t.type = 2 ∧ t.blk = false then 0 else t.len

/-- Bytes of the stream that a transaction takes (R410). -/
def Txn.size (t : Txn) : Nat := if t.raw then 32 + t.payload.length else 32 + pad16 t.streamLen + 16

/-- The 256-bit header (R411). -/
def Txn.header (t : Txn) : Nat :=
  t.type % 16 + (t.ch % 4) * 2 ^ 4 + (t.spart % 16) * 2 ^ 6 + (t.dpart % 16) * 2 ^ 10 + (t.srcm % 4096) * 2 ^ 14 +
  (t.dstm % 4096) * 2 ^ 26 + (t.hops % 8) * 2 ^ 38 + (t.hptr % 8) * 2 ^ 41 + (t.addr % 2 ^ 44) * 2 ^ 64 +
  (t.len % 2 ^ 14) * 2 ^ 108 + (t.tid % 65536) * 2 ^ 128 + (t.code % 256) * 2 ^ 144 + (t.aop % 16) * 2 ^ 152 +
  (t.asz % 4) * 2 ^ 156 + bitN t.blk * 2 ^ 158 + (t.nb % 128) * 2 ^ 159 + (t.route % 2 ^ 42) * 2 ^ 192

/-- Header bytes on the wire (R5, R411). -/
def Txn.headerBytes (t : Txn) : List Byte := toBytes 32 t.header

/-- A header's fields (R411). -/
def Txn.ofHeader (h : Nat) : Txn where
  type := bits h 0 4
  ch := bits h 4 2
  spart := bits h 6 4
  dpart := bits h 10 4
  srcm := bits h 14 12
  dstm := bits h 26 12
  hops := bits h 38 3
  hptr := bits h 41 3
  addr := bits h 64 44
  len := bits h 108 14
  tid := bits h 128 16
  code := bits h 144 8
  aop := bits h 152 4
  asz := bits h 156 2
  blk := h.testBit 158
  nb := bits h 159 7
  route := bits h 192 42

/-- Whether a header has a nonzero reserved bit (R11, R411). -/
def headerReserved (h : Nat) : Bool :=
  bits h 44 20 != 0 || bits h 122 6 != 0 || bits h 166 26 != 0 || bits h 234 22 != 0

/-! Protection (R425, R426). -/

/-- The 96-bit IV of a transaction under a stream counter. -/
def Txn.iv (t : Txn) (ctr : Nat) : Nat :=
  (t.srcm % 4096) * 2 ^ 84 + (t.spart % 16) * 2 ^ 80 + (t.ch % 4) * 2 ^ 78 + ctr % 2 ^ 64

/-- The associated data: the header with HPTR taken as 0. -/
def Txn.aad (t : Txn) : List Byte := Txn.headerBytes { t with hptr := 0 }

/-- The bytes of a link key, as KEYLOAD reads them (R482). -/
def keyBytes (k : BitVec 256) : List Byte := toBytes 32 k.toNat

/-- The payload with its padding. -/
def Txn.padded (t : Txn) : List Byte := (t.payload.take t.streamLen ++ List.replicate (pad16 t.streamLen) 0).take (pad16 t.streamLen)

/-- The encrypted payload and padding, and the tag. -/
def Txn.sealed (t : Txn) (k : BitVec 256) : List Byte :=
  let ct := gcmCrypt (keyBytes k) (t.iv t.ctr) t.padded
  ct ++ gcmTag (keyBytes k) (t.iv t.ctr) t.aad ct

/-- What a received transaction's payload and padding decrypt to under a stream counter; `none` where the tag fails. -/
def Txn.openWith (t : Txn) (k : BitVec 256) (ctr : Nat) : Option (List Byte) :=
  let ct := t.payload.take (t.payload.length - 16)
  if gcmTag (keyBytes k) (t.iv ctr) t.aad ct = t.payload.drop (t.payload.length - 16) then
    some (gcmCrypt (keyBytes k) (t.iv ctr) ct)
  else none

/-- The bytes of the stream that a transaction is sent as: one in transit as it came (R428), one of this module sealed under its key. -/
def Txn.wire (t : Txn) : List Byte :=
  t.headerBytes ++ (if t.raw then t.payload else match t.key with | some k => t.sealed k | none => t.padded ++ List.replicate 16 0)

/-! Flits (R399, R400). -/

/-- One bit of the reflected CRC-32 (R400). -/
def crcBit (c : Nat) : Nat := if c % 2 = 1 then Nat.xor (c / 2) 0xEDB88320 else c / 2

/-- One byte of the CRC-32. -/
def crcByte (c : Nat) (b : Byte) : Nat := (upto 8).foldl (fun x _ => crcBit x) (Nat.xor c b.toNat)

/-- The CRC-32 of IEEE 802.3 over bytes (R400). -/
def crc32 (bs : List Byte) : Nat := Nat.xor (bs.foldl crcByte 0xFFFFFFFF) 0xFFFFFFFF

/-- The 12 header bytes of a flit (R399). -/
def flitHead (seq ackSeq ch ft fho : Nat) (ackV : Bool) (crReq crRsp crCtl : Nat) : List Byte :=
  toBytes 12 (seq + ackSeq * 2 ^ 16 + ch * 2 ^ 32 + ft * 2 ^ 34 + fho * 2 ^ 36 + bitN ackV * 2 ^ 40 + crReq * 2 ^ 48 +
    crRsp * 2 ^ 60 + crCtl * 2 ^ 72)

/-- The header, the body filled up with zeros to 240 bytes, and the CRC. -/
def flitBytes (head body : List Byte) : List Byte :=
  let m := head ++ (body ++ List.replicate 240 0).take 240
  m ++ toBytes 4 (crc32 m)

/-- A MARK's body: the stop identity and the sender's time base (R439). -/
def markBody (id stamp : Nat) : List Byte := toBytes 4 id ++ toBytes 8 stamp

/-- The 256 bytes of a DATA or MARK flit as it was last sent (R399, R410, R439): a DATA flit of index i carries the i-th 240 bytes of its
transaction's stream, which starts in flit 0. -/
def SentFlit.wire (f : SentFlit) : List Byte :=
  let body := if f.kind = 3 then markBody f.txn.addr f.txn.ctr else slice f.txn.wire (240 * f.idx) 240
  flitBytes (flitHead f.seq f.ack f.ch f.kind (if f.kind = 0 ∧ f.idx = 0 then 0 else 15) f.ackV 0 0 0) body

/-- The bytes of an IDLE and of a NAK flit, whose SEQ is the next one to be sent (R399, R402). -/
def idleBytes (seq ack : Nat) (ackV : Bool) (crReq crRsp crCtl : Nat) : List Byte :=
  flitBytes (flitHead seq ack 0 1 15 ackV crReq crRsp crCtl) []
def nakBytes (seq ack : Nat) : List Byte := flitBytes (flitHead seq ack 0 2 15 true 0 0 0) []

/-! Frames (R398). -/

/-- Twice an element of GF(2^10) modulo x^10 + x^3 + 1, and a product. The spec names RS(544,514) over 10-bit symbols; the field, the
generator's roots and the place of the check symbols are those of IEEE 802.3 (LOG 79). -/
def rsDouble (x : Nat) : Nat := (if 512 ≤ x then 2 * x ^^^ 0x409 else 2 * x) % 1024
def rsMul (x y : Nat) : Nat := (upto 10).foldl (fun a i => rsDouble a ^^^ (if x.testBit (9 - i) then y else 0)) 0

/-- The generator polynomial without its leading 1, highest power first: the product of x + α^j for j from 0 to 29. -/
def rsGenerator : List Nat :=
  ((upto 30).foldl (fun (g : List Nat × Nat) _ =>
    (((g.1 ++ [0]).zip (0 :: g.1)).map (fun (e : Nat × Nat) => e.1 ^^^ rsMul g.2 e.2), rsDouble g.2)) ([1], 1)).1.drop 1

/-- The 30 check symbols of 514 message symbols. -/
def rsCheck (msg : List Nat) : List Nat :=
  msg.foldl (fun r m =>
    let f := m ^^^ r.getD 0 0
    ((r.drop 1 ++ [0]).zip rsGenerator).map (fun (e : Nat × Nat) => e.1 ^^^ rsMul f e.2)) (List.replicate 30 0)

/-- A codeword of 544 symbols. -/
def rsEncode (msg : List Nat) : List Nat := msg ++ rsCheck msg

/-- The message bits of a frame: the frame word with the frame count, then five flits (R398). -/
def frameBits (count : Nat) (flits : List (List Byte)) : Nat :=
  count % 65536 + 0x5B6E * 2 ^ 16 + 2 ^ 40 * ofBytes ((flits.take 5).flatten)

/-- The 1,088 symbols of a frame: its first and its second 514 message symbols encoded, the two codewords interleaved symbol by
symbol (R398; LOG 79). -/
def frameSymbols (count : Nat) (flits : List (List Byte)) : List Nat :=
  let v := frameBits count flits
  let sym := (upto 1028).map (fun i => bits v (10 * i) 10)
  ((rsEncode (sym.take 514)).zip (rsEncode (sym.drop 514))).flatMap (fun e => [e.1, e.2])

/-- The symbols that lane l carries: symbol i travels on lane i mod 8 (R398). -/
def laneSymbols (l : Nat) (frame : List Nat) : List Nat := (upto 136).map (fun i => frame.getD (8 * i + l) 0)

end Sys2Proof.Machine
end

