-- ==== Sys2Proof/Machine/LinkTx.lean ====
section
/-! DEFINITION. How transactions leave the module (R398 to R425) and how a port changes state (R406, R407). -/

namespace Sys2Proof.Machine

/-- Hop i of a route (R411). -/
def hopOf (route i : Nat) : Nat := bits route (7 * i) 7

/-- The ports of a bundle (R419). -/
def State.bundlePorts (s : State) (b : Nat) : List Nat :=
  (upto 96).filter (fun n => (Table.get (0 : BitVec 96) s.links.bundles b).getLsbD n)

/-- The UP ports that a hop names (R419, R420). -/
def State.hopPorts (s : State) (hop : Nat) : List Nat :=
  (if hop < 96 then [hop] else s.bundlePorts (hop - 96)).filter (fun n => (s.port n).state == 2)

/-- Stream bytes waiting at a port. -/
def queuedBytes (p : Port) : Nat :=
  p.txq.foldl (fun n f => n + min 240 (f.txn.size - 240 * f.idx)) 0

/-- The port with the fewest bytes queued, and the lowest index among equals (R419). -/
def State.pickPort (s : State) (ns : List Nat) : Option Nat :=
  ns.foldl (fun b n => match b with
    | none => some n
    | some m => if queuedBytes (s.port n) < queuedBytes (s.port m) then some n else some m) none

/-- A route word's parts (R418). -/
def State.routeWord (s : State) (b m r : Nat) : Nat := (Table.get 0 s.links.route (16384 * b + 4 * m + r)).toNat

/-- Whether a route word is valid (R418). -/
def State.routeValid (s : State) (w : Nat) : Bool :=
  let n := bits w 42 3
  w.testBit 63 && decide (1 ≤ n ∧ n ≤ 6) &&
    (upto n).all (fun i => decide (hopOf w i < 96) || !(s.bundlePorts (hopOf w i - 96)).isEmpty)

/-- The valid routes to a module in the active bank (R420). -/
def State.routesTo (s : State) (m : Nat) : List Nat :=
  ((upto 4).map (s.routeWord s.links.active m)).filter s.routeValid

/-- A list turned left by `n` places. -/
def rotate {α : Type} (xs : List α) (n : Nat) : List α := xs.drop n ++ xs.take n

/-- The first live route in cyclic order from SPART mod |V| (R420). -/
def State.chooseRoute (s : State) (m spart : Nat) : Option Nat :=
  let v := s.routesTo m
  (rotate v (spart % v.length)).find? (fun w => !(s.hopPorts (hopOf w 0)).isEmpty)

/-- The credits a port holds for a channel (R404). -/
def Port.credit (p : Port) (ch : Nat) : Nat := if ch = 0 then p.credReq else if ch = 1 then p.credRsp else p.credCtl

/-- Take one credit of a channel. -/
def Port.takeCredit (p : Port) (ch : Nat) : Port :=
  if ch = 0 then { p with credReq := p.credReq - 1 }
  else if ch = 1 then { p with credRsp := p.credRsp - 1 }
  else { p with credCtl := p.credCtl - 1 }

/-- Whether the flit may leave now: a DATA flit needs a credit and no MARK cut on its channel; the replay buffer holds
1,024 flits (R403, R404, R439). -/
def Port.maySend (p : Port) (f : SentFlit) : Bool :=
  decide (p.replay.length < 1024) && (f.kind == 3 || (decide (0 < p.credit f.ch) && !p.marked.contains f.ch))

/-- The last SEQ accepted by a port. -/
def Port.lastSeq (p : Port) : Nat := (p.rxSeq + 65535) % 65536

/-- The stamp that a TREQ or TRESP carries of its own departure, which the port inserts as the flit leaves (R433). -/
def Txn.departs (t : Txn) (now : Nat) : Txn :=
  if t.raw ∨ t.type ≠ 8 then t
  else if t.code = 2 then { t with payload := toBytes 8 now }
  else if t.code = 3 then { t with payload := t.payload.take 16 ++ toBytes 8 now }
  else t

/-- Send one flit: it takes the next SEQ, names the last flit accepted and stays in the replay buffer (R399, R402, R403). -/
def Port.sendFlit (p : Port) (f : SentFlit) (now : Nat) : Port × SentFlit :=
  let g := { f with seq := p.txSeq, at_ := now, ack := p.lastSeq, ackV := p.rxAny, txn := if f.kind = 3 then f.txn else f.txn.departs now }
  let q := { p with txSeq := (p.txSeq + 1) % 65536, replay := p.replay ++ [g] }
  if f.kind = 3 then
    ({ q with marked := if f.txn.addr / 2 ^ 31 = 0 then f.ch :: q.marked else q.marked.filter (· != f.ch) }, g)
  else (q.takeCredit f.ch, g)

/-! Arbitration at a port (R377, R378, R423): the partitions whose transactions wait are served by deficit round robin; one that has
begun is finished first, and a MARK keeps its place in its channel. -/

/-- The partition a transaction is charged to: the one that issued it at its source, DPART elsewhere (R423). -/
def Txn.charged (mine : Nat) (t : Txn) : Nat := if t.srcm = mine then t.spart else t.dpart

/-- Where a channel's first waiting flit stands. -/
def Port.front (p : Port) (ch : Nat) : Option Nat := p.txq.findIdx? (·.ch == ch)

/-- The flit that waits at a place. -/
def Port.waitingAt (p : Port) (i : Nat) : SentFlit := p.txq.getD i ⟨0, 0, 0, {}, 0, 0, 0, false⟩

/-- Whether a flit begins a transaction. -/
def SentFlit.begins (f : SentFlit) : Bool := f.kind == 0 && f.idx == 0

/-- The first place whose flit continues a transaction or is a MARK, and may be sent. -/
def Port.continues (p : Port) : Option Nat :=
  ((upto p.txq.length).filter (fun i => p.front (p.waitingAt i).ch == some i)).find?
    (fun i => !(p.waitingAt i).begins && p.maySend (p.waitingAt i))

/-- The places of the transactions that may begin: none behind a MARK of its channel or behind one that is not finished. -/
def Port.starts (p : Port) : List Nat :=
  (upto p.txq.length).filter (fun i =>
    let f := p.waitingAt i
    f.begins && p.maySend f && ((p.front f.ch).map (fun k => (p.waitingAt k).begins)).getD false &&
      !(p.txq.take i).any (fun g => g.ch == f.ch && g.kind == 3))

/-- Which transaction begins next, and the port after the choice: by the round while a partition of nonzero weight has one; else the
oldest (R377, R378). -/
def Port.choose (p : Port) (mine : Nat) (w : Nat → Nat) : Option Nat × Port :=
  let starts := p.starts
  let owner := fun i => (p.waitingAt i).txn.charged mine
  if starts.any (fun i => w (owner i) != 0) then
    let oldest := fun q => (starts.find? (fun i => owner i == q)).map (fun i => (i, (p.waitingAt i).txn.size))
    let r := drrPick 256 w oldest (drrFuel p.deficit (p.txq.foldl (fun n f => max n f.txn.size) 0)) p.deficit p.turn p.fresh
    match r.1 with
    | none => (none, { p with deficit := r.2.1, turn := r.2.2.1, fresh := r.2.2.2 })
    | some i =>
      let d := chargeDeficit r.2.1 r.2.2.1 (p.waitingAt i).txn.size
      let waits := fun q => (upto p.txq.length).any (fun j => j != i && (p.waitingAt j).begins && owner j == q)
      (some i, { p with deficit := settleDeficits waits d, turn := r.2.2.1, fresh := r.2.2.2 })
  else (starts.head?, p)

/-- Bring the transaction that begins at a place to the front of the queue. -/
def Port.advance (p : Port) (i : Nat) : Port :=
  let rest := p.txq.drop i
  let n := 1 + ((rest.drop 1).takeWhile (fun f => f.kind == 0 && f.idx != 0 && f.ch == (p.waitingAt i).ch)).length
  { p with txq := rest.take n ++ p.txq.take i ++ rest.drop n }

/-- Send the flit that waits at a place. -/
def Port.sendAt (p : Port) (i now : Nat) : Port × SentFlit :=
  Port.sendFlit { p with txq := p.txq.take i ++ p.txq.drop (i + 1) } (p.waitingAt i) now

/-- Send what may be sent, at most `n` flits: the port and what was sent (newest first). -/
def drainFlits (mine : Nat) (w : Nat → Nat) (now : Nat) : Nat → Port → List SentFlit → Port × List SentFlit
  | 0, p, sent => (p, sent)
  | n + 1, p, sent =>
    match p.continues with
    | some i => let x := p.sendAt i now; drainFlits mine w now n x.1 (x.2 :: sent)
    | none =>
      match p.choose mine w with
      | (some i, q) => let x := (q.advance i).sendAt 0 now; drainFlits mine w now n x.1 (x.2 :: sent)
      | (none, _) => (p, sent)

/-- The weight of a partition at a port; at least 1 while it is being reset (R376, R387). -/
def State.linkWeight (s : State) (p : Nat) : Nat := s.weightIn p (s.part p).qosLnk

/-- The place among the received transactions of a channel of the one that the port serves next (R377, R423), and the port after the
choice. The command names the channel, and the round is over what that channel has received (LOG 87). -/
def Port.serveNext (p : Port) (mine : Nat) (w : Nat → Nat) (ts : List Txn) : Option Nat × Port :=
  if ts.any (fun t => w (t.charged mine) != 0) then
    let oldest := fun q => (ts.findIdx? (fun t => t.charged mine == q)).map (fun i => (i, (ts.getD i {}).size))
    let r := drrPick 256 w oldest (drrFuel p.inDeficit (ts.foldl (fun n t => max n t.size) 0)) p.inDeficit p.inTurn p.inFresh
    match r.1 with
    | none => (none, p)
    | some i =>
      let d := chargeDeficit r.2.1 r.2.2.1 (ts.getD i {}).size
      let left := fun q => (p.rxReq ++ p.rxRsp ++ p.rxCtl).countP (fun t => t.charged mine == q) - bitN ((ts.getD i {}).charged mine == q)
      (some i, { p with
        inDeficit := settleDeficits (fun q => left q != 0) d
        inTurn := r.2.2.1, inFresh := r.2.2.2 })
  else (if ts = [] then none else some 0, p)

/-- Let a port send what it may (R404). -/
def State.drainPort (s : State) (n : Nat) : State :=
  let p := s.port n
  if p.state ≠ 2 then s
  else
    let x := drainFlits s.links.modnum s.linkWeight s.time p.txq.length p []
    let t := s.setPort n x.1
    let u := { t with out := x.2.map (Out.flit n) ++ t.out }
    u.count (unitPort n) 0 (x.2.filter (fun f => f.kind == 0)).length

/-- The flits of a transaction, each starting its own flit (R399, R410). -/
def flitsOf (t : Txn) : List SentFlit := (upto ((t.size + 239) / 240)).map (fun i => ⟨0, 0, t.ch, t, i, 0, 0, false⟩)

/-- Hand a transaction to a port. -/
def State.toPort (s : State) (n : Nat) (t : Txn) : State :=
  (s.modPort n (fun p => { p with txq := p.txq ++ flitsOf t })).drainPort n

/-- The key of a sending stream's counter (R417, R425). -/
def streamKey (dstm spart dpart ch : Nat) : Nat := ((dstm * 16 + spart) * 16 + dpart) * 4 + ch

/-- The first valid pair entry of a local partition to a module (R425). -/
def State.pairTo (s : State) (m p : Nat) : Option Pair :=
  ((upto 1024).map (Table.get {} s.links.pairs)).find? (fun e => e.valid && e.peer == m && e.lpart == p)

/-- Whether a key slot holds a key (R482). -/
def State.hasKey (s : State) (k : Nat) : Bool := (Table.get none s.links.keys k).isSome

/-- The key of the pair of a peer's partition with a local one (R425, R427). -/
def State.linkKey (s : State) (peer lpart rpart : Nat) : Option (BitVec 256) :=
  (s.links.pairs.find? (fun e => e.2.valid && e.2.peer == peer && e.2.lpart == lpart && e.2.rpart == rpart && s.hasKey e.2.kslot)).bind
    (fun e => Table.get none s.links.keys e.2.kslot)

/-- The die of a port's link tile (R21). -/
def portDie (n : Nat) : Nat := tileQuarter (n / 8)

/-- Send a transaction from a die along a route, with its pair's key and its stream's next counter; its payload crosses the bridges to
the tile's quarter (R19, R21, R420, R425, R426). -/
def State.sendAlong (s : State) (die w : Nat) (t : Txn) : State :=
  match s.pickPort (s.hopPorts (hopOf w 0)) with
  | none => s
  | some n =>
    let k := streamKey t.dstm t.spart t.dpart t.ch
    let c := Table.get 0 s.links.sendCtr k + 1
    ((s.carry die (portDie n) t.payload.length).modLinks (fun l => { l with sendCtr := Table.set 0 l.sendCtr k c })).toPort n
      { t with hops := bits w 42 3, hptr := 1, route := w % 2 ^ 42, key := s.linkKey t.dstm t.spart t.dpart, ctr := c }

/-- A transaction identity no outstanding request uses (R411, R415). -/
def freeTid (used : List Nat) : Nat → Nat → Nat
  | 0, t => t
  | f + 1, t => if used.contains t then freeTid used f ((t + 1) % 65536) else t

/-- Whether another request may be issued (R415). -/
def State.linkRoom (s : State) : Bool := decide ((s.links.reqs.filter (fun r => r.unsent.isNone)).length < 32768)

/-- The code of the source's own refusal of a request to another module, or 0 (R420, R425). -/
def State.linkCode (s : State) (m part : Nat) : Nat :=
  if s.links.modnum = 0xFFF then eUnreachable
  else
    match s.chooseRoute m part with
    | none => eUnreachable
    | some _ =>
      match s.pairTo m part with
      | none => ePermission
      | some e => if s.hasKey e.kslot then eOk else ePermission

/-- Send a request of a pair's partition along a route. -/
def State.issueRequest (s : State) (unit part g r : Nat) (e : Pair) (t : Txn) (w : Waiter) : State :=
  let m := g / 2 ^ 44
  let tid := freeTid (s.links.reqs.map (·.tid)) 65536 s.links.nextTid
  let q := { t with
    ch := 0, spart := part, dpart := e.rpart, srcm := s.links.modnum, dstm := m, addr := g % 2 ^ 44, tid := tid }
  let s1 := s.modLinks (fun l => { l with
    nextTid := (tid + 1) % 65536
    reqs := l.reqs ++ [(⟨tid, m, part, unit, g, s.time, w, none⟩ : LinkReq)] })
  s1.sendAlong (dieOfUnit unit) r q

/-- Keep a request that has no room yet (R415), under a number that no transaction identity has. -/
def State.keepRequest (s : State) (unit part g : Nat) (t : Txn) (w : Waiter) : State :=
  let k := s.links.reqs.foldl (fun k r => max k (r.tid + 1)) 65536
  s.modLinks (fun l => { l with reqs := l.reqs ++ [(⟨k, g / 2 ^ 44, part, unit, g, s.time, w, some t⟩ : LinkReq)] })

/-- Issue a request to another module (R415, R420, R425): the code of the source's own refusal, or 0 when it was sent or waits for
room. A refusal is logged here with the unit of the requester and `reply` (14, "Outcomes seen by a requester"); a stopped square logs
none (R142). -/
def State.linkRequest (s : State) (unit part g : Nat) (t : Txn) (w : Waiter) (reply : Nat → Reply) : State × Nat :=
  let m := g / 2 ^ 44
  let refuse := fun (c : Nat) => (if unit < 0x80 ∧ (s.sq unit).run = .stopped then s else s.logErr unit part c g (reply c), c)
  if s.links.modnum = 0xFFF then refuse eUnreachable
  else
    match s.chooseRoute m part with
    | none => refuse eUnreachable
    | some r =>
      match s.pairTo m part with
      | none => refuse ePermission
      | some e =>
        if !s.hasKey e.kslot then refuse ePermission
        else if s.linkRoom then (s.issueRequest unit part g r e t w, eOk)
        else (s.keepRequest unit part g t w, eOk)

/-- Whether a valid pair entry joins a peer's partition to a local one, with a key in its slot (R425, R427). -/
def State.paired (s : State) (peer lpart rpart : Nat) : Bool := (s.linkKey peer lpart rpart).isSome

/-- Send a response to a request; without a live route or a key it is lost (R415, R416, R420). -/
def State.sendResponse (s : State) (q : Txn) (type code : Nat) (payload : List Byte) : State :=
  match s.chooseRoute q.srcm q.dpart with
  | none => s
  | some r =>
    if !s.paired q.srcm q.dpart q.spart then s
    else s.sendAlong (homeDie (placeOf s.isM q.addr) q.addr) r { type := type, ch := 1, spart := q.dpart, dpart := q.spart, srcm := s.links.modnum, dstm := q.srcm, addr := q.addr, len := payload.length, tid := q.tid, code := code, payload := payload }

/-- The granules that a count map names, out of the bytes of the slots' whole span (R413). -/
def granulesOf (counts : List Byte) (bs : List Byte) : List Byte :=
  (counts.mapIdx (fun i c => slice bs (256 * i) (32 * c.toNat))).flatten

/-- The response to a request that was performed and found these bytes (R412, R413). -/
def State.answerTxn (s : State) (q : Txn) (bs : List Byte) : State :=
  match q.type with
  | 2 => s.sendResponse q 6 0 (if q.blk then granulesOf (q.payload.take q.nb) bs else bs)
  | 3 => s.sendResponse q 6 0 (toBytes (if q.asz = 1 then 16 else 8) (ofBytes bs))
  | _ => s.sendResponse q 5 0 []

/-- Whether a control message can be sent to the peer of a port: the port is UP, and the two modules' partitions 0 have a key (R431). -/
def State.canCtl (s : State) (n : Nat) : Bool := (s.port n).state == 2 && s.paired (s.port n).peerM 0 0

/-- Send a control message to the peer of a port, under the Partition 0 pair, or not at all (R431). -/
def State.sendCtl (s : State) (n code : Nat) (payload : List Byte) : State :=
  if s.canCtl n then
    let m := (s.port n).peerM
    let k := streamKey m 0 0 2
    let c := Table.get 0 s.links.sendCtr k + 1
    (s.modLinks (fun l => { l with sendCtr := Table.set 0 l.sendCtr k c })).toPort n
      { type := 8, ch := 2, spart := 0, dpart := 0, srcm := s.links.modnum, dstm := m, len := payload.length, code := code, payload := payload, key := s.linkKey m 0 0, ctr := c }
  else s

/-- The payload of the HELLO that a port sends when it trains (R431). -/
def State.helloBytes (s : State) (n : Nat) : List Byte :=
  toBytes 2 s.links.modnum ++ toBytes 1 n ++ toBytes 1 s.links.precid ++ toBytes 1 s.links.role ++
    toBytes 4 s.links.epochCur

/-- The HELLO transaction: one hop to the link peer, HOPS and ROUTE 0, neither encrypted nor authenticated, so that a tag of zeros
follows its payload. It names the peer that the port knows (LOG 84). -/
def State.helloTxn (s : State) (n : Nat) : Txn :=
  { type := 8, ch := 2, srcm := s.links.modnum, dstm := (s.port n).peerM, code := 1, len := (s.helloBytes n).length, payload := s.helloBytes n }

/-- A port enters a state other than UP (R406). Training sends HELLO. -/
def State.enterPortState (s : State) (n st : Nat) : State :=
  let t := (s.modPort n (fun p => { p with state := st })).trace 6 0x0F 0 (unitPort n) (n + 256 * st) 0
  if st = 1 then t.emit (.ctl n 1 (t.helloTxn n).wire) else t

/-- A transaction whose flits are no longer owed as credits. -/
def Txn.unowed (t : Txn) : Txn := { t with flits := 0 }

/-- A port that leaves UP (R406, R407): its replay buffer, the flits waiting and what it received in part are
discarded; it counts one retrain; sequence numbers and credits start anew when it trains. -/
def State.leaveUp (s : State) (n st : Nat) : State :=
  (((s.modLinks (fun l => { l with gap := l.gap.map (fun h => if h.port = n then { h with txn := h.txn.unowed } else h) })).modPort n (fun p => { p with
      retrains := min 255 (p.retrains + 1)
      replay := [], txq := [], partialReq := [], partialRsp := [], partialCtl := []
      flitsReq := 0, flitsRsp := 0, flitsCtl := 0
      rxReq := p.rxReq.map Txn.unowed, rxRsp := p.rxRsp.map Txn.unowed, rxCtl := p.rxCtl.map Txn.unowed
      rxSeq := 0, rxAny := false, txSeq := 0, nakSent := false, replays := 0
      marked := if s.stop.stopped then p.marked else []
      deficit := settleDeficits (fun _ => false) p.deficit
      credReq := 1024, credRsp := 1024, credCtl := 32 })).count (unitPort n) 9 1).enterPortState n st

/-- Take a port out of its state: UP is left as R407 says. -/
def State.setPortDown (s : State) (n st : Nat) : State :=
  if (s.port n).state = 2 then s.leaveUp n st
  else if (s.port n).state = st then s
  else s.enterPortState n st

/-- The ports of a quarter's link tiles (R21). -/
def quarterPorts (q : Nat) : List Nat := (upto 96).filter (fun n => tileQuarter (n / 8) == q)

/-- Take every UP port through training (R429). -/
def State.retrainAll (s : State) : State :=
  forAll (upto 96) (fun t n => if (t.port n).state = 2 then t.leaveUp n 1 else t) s

/-! Requests to the host (R521, R533, R534). -/

/-- The requests that one read or atomic of host memory is sent as: a read asks for at most Max Read Request Size at a time (R521). -/
def State.hostPieces (s : State) (r : HostReq) : List (Nat × Nat) :=
  match r.kind with | .load _ => if r.len = 0 then [(0, 0)] else busPieces s.maxReadRequest r.bus r.len | _ => [(0, r.len)]

/-- What leaves for the host for a part of a request. -/
def HostReq.message (r : HostReq) (off n tag : Nat) : Out :=
  match r.kind with
  | .load _ => .hostRead r.part (r.bus + off) n tag
  | .atom op size v => .hostAtomic r.part r.bus op size v 0 tag
  | .cas size v c => .hostAtomic r.part r.bus 9 size v c tag
  | .store bs => .hostWrite r.part r.bus bs

/-- The tags of the requests that wait for a completion. -/
def State.hostTags (s : State) : List Nat := s.hostReqs.flatMap (fun r => r.tags.map (·.tag))

/-- Send a part of a request, if it is the next one and fewer than 1,024 requests wait for a completion (R521). -/
def State.sendHostPiece (s : State) (i : Nat) (e : Nat × Nat) : State :=
  match s.hostReqs[i]? with
  | none => s
  | some r =>
    if r.failed || r.sent != e.1 || (e.2 == 0 && !r.tags.isEmpty) || decide (1024 ≤ s.hostTags.length) then s
    else
      let tag := freeTid s.hostTags 1024 0
      State.emit { s with hostReqs := s.hostReqs.set i { r with sent := r.sent + e.2, tags := r.tags ++ [⟨tag, e.1, e.2⟩] } } (r.message e.1 e.2 tag)

/-- Send what may be sent to the host, oldest first. -/
def State.sendHost (s : State) : State :=
  forAll (upto s.hostReqs.length) (fun t i => match t.hostReqs[i]? with
    | none => t
    | some r => forAll (t.hostPieces r) (fun x e => x.sendHostPiece i e) t) s

/-- A read or atomic of host memory: it waits for its completions (R533, R534). -/
def State.hostRequest (s : State) (unit part addr len : Nat) (k : AccessKind) (w : Waiter) : State :=
  let r : HostReq := { part := part, unit := unit, addr := addr, bus := (s.part part).fn.hbase + (addr - hostBase), len := len, kind := k, waiter := w }
  State.sendHost { s with hostReqs := s.hostReqs ++ [r] }

end Sys2Proof.Machine
end

