-- ==== Sys2Proof/Machine/PartOps.lean ====
section
/-! DEFINITION. What fences, restores, handovers, partition resets and Dormant do to the module (R275, R294 to R299,
R372 to R375, R383 to R388, R459 to R463): the operations that register writes and events share. -/

namespace Sys2Proof.Machine

/-! Quarters leaving and returning to service. -/

/-- The launches in progress that use a square of the quarter. -/
def State.launchesOn (s : State) (q : Nat) : List Nat :=
  (s.launches.filter (fun l => l.stage == .running && l.set.any (fun u => u / 16 == q))).map (·.id)

/-- The reports that the lost squares of a quarter leave in a launch: stopped, unless they had reported (R144, R295). One that has
faulted and whose report is lost with its quarter counts in NFAULT alone (LOG 74). -/
def lostReports (s : State) (q : Nat) (l : Launch) : List Report :=
  ((l.set.filter (fun u => u / 16 == q && !(l.reports.any (fun r => r.sq == u)))).map
    (fun u => ⟨u, (s.sq u).fault, (s.sq u).fault.isNone, (s.sq u).accSat, (s.sq u).outSat⟩))

/-- R295: end every launch with a square in q, and stop its other squares. -/
def State.abortOn (s : State) (q : Nat) : State :=
  forAll (s.launchesOn q) (fun t id =>
    (t.abortLaunch id).modLaunch id (fun l => { l with reports := l.reports ++ lostReports s q l })) s

/-- Whether a requester of a module lies in a quarter. -/
def Waiter.inQuarter (w : Waiter) (q : Nat) : Bool :=
  match w with
  | .atRow u _ _ => u / 16 == q
  | .pumpRead u _ => u / 16 == q
  | .pumpWrite u => u / 16 == q
  | .pumpSignal u => u / 16 == q
  | .tableRead u => u / 16 == q
  | .command _ u => u / 16 == q
  | .core c => c / 6 == q
  | _ => false

/-- Who waits for the answer of a lost requester: nobody, but that a command still counts its requests (R367). -/
def Waiter.lost (w : Waiter) : Waiter := match w with | .command id _ => .tail id | _ => .nobody

/-- Whether a reply is one to a requester in a quarter, and what is left of it. -/
def Reply.lost (r : Reply) (q : Nat) : Reply :=
  match r with
  | .square u op row c => if u / 16 = q then .none else .square u op row c
  | .pump u c => if u / 16 = q then .none else .pump u c
  | .command id u c => if u / 16 = q then .tail id else .command id u c
  | .out (.resp n c bs) => if (upto 6).any (fun h => n == unitCore (6 * q + h)) then .none else .out (.resp n c bs)
  | r => r

/-- Responses to a fenced quarter are discarded (R295, R296). -/
def State.dropAnswers (s : State) (q : Nat) : State :=
  let gone := fun (w : Waiter) => if w.inQuarter q then w.lost else w
  let drop := fun (rs : List ErrRecord) => rs.map (fun r => { r with reply := r.reply.lost q })
  { s with
    links := { s.links with reqs := s.links.reqs.map (fun r => { r with waiter := gone r.waiter }) }
    hostReqs := s.hostReqs.map (fun r => { r with waiter := gone r.waiter })
    elog := { s.elog with transit := drop s.elog.transit, queue := drop s.elog.queue } }

/-- A core that loses its state: its registers, its mode, its interrupt file and its caches (R295, R460, R479). What PTN_HART holds
stays. -/
def Hart.lose (h : Hart) (cause : Nat) : Hart := { run := h.run, valid := h.valid, part := h.part, startCause := some cause }

/-- Whether an access comes from a quarter. -/
def sourceInQuarter (x : AccessSource) (q : Nat) : Bool :=
  match x with
  | .square u _ _ => u.val / 16 == q
  | .core c _ _ => c.val / 6 == q
  | .coreSync c _ _ _ _ => c.val / 6 == q
  | .coreFence c _ _ => c.val / 6 == q

/-- An atomic that its home has accepted and that awaits its second parity attempt is performed there, without a response (R291, R295). -/
def State.performAccepted (s : State) (unit part g : Nat) (k : AccessKind) : State :=
  let x := accFor unit part (g % 2 ^ 44) k false
  if s.checkAcc x ≠ eOk then s
  else
    match k with
    | .atom op n v => (s.homeAtomic x.addr n op v 0).1
    | .cas n v c => (s.homeAtomic x.addr n 9 v c).1
    | _ => s

/-- What is left of a lost requester's access that its home has accepted. -/
def State.performLost (s : State) (src : AccessSource) : State :=
  match src with
  | .square u op row =>
    match (s.sq u.val).atOps.find? (fun o => o.id == op) with
    | some o => match o.rows[row]? with | some r => s.performAccepted u.val (s.sq u.val).kpart r.addr (o.access r) | none => s
    | none => s
  | .core c g k => s.performAccepted (unitCore c.val) (s.hart c.val).part g k
  | .coreSync c g (.amo op n v) _ _ => s.performAccepted (unitCore c.val) (s.hart c.val).part g (.atom op n v)
  | _ => s

/-- The accesses of a fenced quarter that await their second parity attempt leave it: atomics are performed, reads are dropped (R295). -/
def State.dropRetries (s : State) (q : Nat) : State :=
  forAll (s.retries.filter (fun r => sourceInQuarter r.src q)) (fun t r => t.performLost r.src)
    { s with retries := s.retries.filter (fun r => !sourceInQuarter r.src q) }

/-- Everything a quarter holds is lost (R295): squares, counters, cores, answers to its requests, scrubs, stop stamps; its ports go
dark. -/
def State.loseQuarter (s : State) (q : Nat) : State :=
  let s1 := ((s.abortOn q).dropRetries q).dropAnswers q
  let s2 := forAll (squaresOf q) (fun t u => (t.setSq u {}).clearSquareCounters u) s1
  let s3 := forAll (upto 6) (fun t h => t.modHart (6 * q + h) (fun c => { c.lose 4 with run := false })) s2
  let s4 := forAll (quarterPorts q) (fun t n => t.setPortDown n 3) s3
  let s5 := forAll (upto 256) (fun t i => t.setExtent (256 * q + i) { t.extent (256 * q + i) with scrub := false }) s4
  s5.modStop (fun x => { x with stamps := Table.erase (Table.clear (Table.clear x.stamps (16 * q) (16 * q + 16)) (0x80 + 6 * q) (0x86 + 6 * q)) (0xB0 + q) })

/-- A fence cause on a live quarter (R294 to R296, R299): a fenced or busy quarter is not affected. -/
def State.beginFence (s : State) (q cause : Nat) : State :=
  let f := s.fence q
  if f.fenced || f.busy then s
  else (s.modFence q (fun f => { f with fenced := true, busy := true, restoring := false, pendCause := cause })).loseQuarter q

/-- The last steps of a fence (R296): phases off, CAUSE set, BUSY clear, record logged, interrupt raised. -/
def State.endFence (s : State) (q : Nat) : State :=
  let f := s.fence q
  if f.busy ∧ f.fenced ∧ f.restoring = false then
    let s1 := s.modFence q (fun g => { g with busy := false, cause := g.pendCause })
    let s2 := s1.modPower (fun w => { w with dies := Table.set {} w.dies q { Table.get {} w.dies q with off := true, core := 0 } })
    ((s2.logErr (unitQuarter q) 0 eAborted (globalOf (wellBase q))).trace 6 0x0D 0 (unitQuarter q) q f.pendCause).raiseManagement
  else s

/-- A RESTORE of a fenced quarter that is not busy (R298, R299). -/
def State.beginRestore (s : State) (q : Nat) : State :=
  let f := s.fence q
  if f.fenced ∧ f.busy = false then s.modFence q (fun g => { g with busy := true, restoring := true }) else s

/-- PTN_QFENCE_CTL (R299): per quarter, FENCE and RESTORE together do nothing. -/
def State.writeFenceCtl (s : State) (v : Nat) : State :=
  forAll (upto 8) (fun t q =>
    let fe := v.testBit q
    let re := v.testBit (8 + q)
    if fe && re then t else if fe then t.beginFence q 1 else if re then t.beginRestore q else t) s

/-! Extents. -/

/-- No entry pins a range any more: its number may name another range (R363, R366). -/
def State.forgetPins (s : State) (n : Nat) : State :=
  { s with queues := s.queues.map (fun e => (e.1, { e.2 with ctx := e.2.ctx.map (fun c => { c with pins := c.pins.filter (· != n) }) })) }

/-- Free every sealed range that has a page in the extent, whatever its pins (R366). -/
def State.freeSealsIn (s : State) (n : Nat) : State :=
  let lo := extentBase n
  let hi := lo + 2 ^ 28
  forAll (s.seals.map Prod.fst) (fun t i =>
    let r := t.seal i
    if r.state ≠ 0 ∧ r.base < hi ∧ lo < r.base + 4096 * r.pages then (t.setSeal i {}).forgetPins i else t) s

/-- The cores' caches without the lines of a range (R275). -/
def State.discardCoreLines (s : State) (lo hi : Nat) : State :=
  { s with harts := s.harts.map (fun e => (e.1, { e.2 with dirty := e.2.dirty.filter (fun l => !(decide (lo ≤ 128 * l.1) && decide (128 * l.1 < hi))) })) }

/-- Start a scrub of an extent with new fields (R275): accesses are refused and every line is discarded at once, and
every granule reads zero when SCRUB clears. -/
def State.startScrub (s : State) (n : Nat) (valid : Bool) (owner : Nat) : State :=
  let lo := extentBase n
  let s1 := s.setExtent n ⟨valid, true, owner⟩
  (((s1.freeSealsIn n).zero lo (lo + 2 ^ 28)).discardNearRange lo (lo + 2 ^ 28)).discardCoreLines lo (lo + 2 ^ 28)

/-- The bytes of an entry that a half of an 8-entry register covers (R7). -/
def halfCovers (h : Half) (i : Nat) : Bool :=
  match h with
  | .full => true
  | .lo => i < 4
  | .hi => 4 ≤ i

/-- Whether an extent exists on this part (R272). -/
def State.extentExists (s : State) (n : Nat) : Bool := decide (n < 10240) && !(s.isM && decide (6144 ≤ n))

/-- PTN_XTENT_n (R274, R275): a change of VALID or OWNER starts, or restarts, a scrub. -/
def State.writeXtent (s : State) (n : Nat) (h : Half) (v : Nat) : State :=
  forAll (upto 8) (fun t i =>
    let e := t.extent (8 * n + i)
    let valid := v.testBit (8 * i + 7)
    let owner := bits v (8 * i) 4
    if halfCovers h i && t.extentExists (8 * n + i) && (e.valid != valid || e.owner != owner) then
      t.startScrub (8 * n + i) valid owner
    else t) s

/-- An extent entry as its register byte (R274). -/
def extentByte (e : Extent) : Nat := e.owner + 64 * bitN e.scrub + 128 * bitN e.valid

/-! Square handovers (R372, R373, R561). -/

/-- Whether a launch is running on a square. -/
def State.squareInLaunch (s : State) (u : Nat) : Bool :=
  s.launches.any (fun l => l.stage == .running && l.set.contains u)

/-- Whether a square of a partition that is being reset has step 3 of R385 still before it, so that no handover of it starts (R390). -/
def State.beforeStep3 (s : State) (u : Nat) : Bool :=
  let o := s.owner u
  decide (o.eff ≠ 0) && (s.part (o.eff - 1)).reset.resetting && decide ((s.part (o.eff - 1)).reset.stage < 3)

/-- One entry of PTN_SQOWN takes new fields. -/
def State.writeOwnerEntry (s : State) (u : Nat) (valid : Bool) (owner : Nat) : State :=
  let o := s.owner u
  if o.valid = valid ∧ o.owner = owner then s
  else
    let n := { o with valid := valid, owner := owner }
    if (s.fence (u / 16)).fenced || o.busy || s.beforeStep3 u then s.setOwner u n
    else s.setOwner u { n with busy := true, moveTo := ownerEff n, moved := (valid, owner) }

/-- PTN_SQOWN_n (R372, R373). -/
def State.writeSqown (s : State) (n : Nat) (h : Half) (v : Nat) : State :=
  forAll (upto 8) (fun t i =>
    if halfCovers h i then t.writeOwnerEntry (8 * n + i) (v.testBit (8 * i + 7)) (bits v (8 * i) 4) else t) s

/-- A PTN_SQOWN entry as its register byte. -/
def ownerByte (o : SquareOwner) : Nat := o.owner + 64 * bitN o.busy + 128 * bitN o.valid

/-- Whether the waiting handover of a square may be performed (R373, R390). -/
def State.handoverReady (s : State) (u : Nat) : Bool :=
  let o := s.owner u
  o.busy && !(s.fence (u / 16)).fenced && !s.squareInLaunch u && !s.beforeStep3 u

/-! Dormant (R459 to R461). -/

/-- A wake starts (R462): the rails of the live quarters ramp to 550 mV, and their replicas are to load the time base anew. -/
def State.beginWake (s : State) : State :=
  forAll ((upto 8).filter (fun q => !(s.fence q).fenced)) (fun t q =>
    let u := t.modPower (fun w => { w with dies := Table.set {} w.dies q { Table.get {} w.dies q with off := false, core := 550 } })
    { u with replicas := Table.set 0 u.replicas q 1 })
    (s.modPower (fun w => { w with state := 3, wakeAt := some s.time }))

/-- Start a wake (R461): from Dormant at once, from entry when the entry is complete. -/
def State.requestWake (s : State) : State :=
  if s.power.state = 2 then s.beginWake
  else if s.power.state = 1 then s.modPower (fun w => { w with wakePending := true })
  else s

/-- The conditions of R459 for entering Dormant. -/
def State.mayEnter (s : State) : Bool :=
  s.power.state == 0 && !s.stop.stopped &&
  s.queues.all (fun e => decide (e.2.state < 2)) &&
  s.parts.all (fun e => !e.2.reset.resetting) &&
  s.harts.all (fun e => e.2.halted) &&
  s.fences.all (fun e => !e.2.busy) && s.sqOwn.all (fun e => !e.2.busy)

/-- A write of ENTER = 1 (R459, R461, R519). -/
def State.requestEnter (s : State) : State :=
  if s.mayEnter then s.modPower (fun w => { w with state := 1, enterAt := some s.time })
  else s.modPower (fun w => { w with deny := true })

/-! Partition resets (R383, R385, R388). -/

/-- The trace record of a step of a partition reset (R385, R508). -/
def State.traceStep (s : State) (p step : Nat) : State := s.trace 6 0x0E 0 unitReset (p + 256 * step) 0

/-- Step 1 of a partition reset: RESETTING sets, interrupts are held, and the partition's cores have RUN cleared. A message
that moderation has merged before is owed still (R382), after reset-done (R388). -/
def State.beginReset (s : State) (p : Nat) (byP0 : Bool) : State :=
  let s1 := s.modPart p (fun x => { x with
    reset := { resetting := true, done := x.reset.done, stage := 1, byP0 := byP0 }
    fn := if byP0 then { x.fn with pend := [] } else x.fn })
  (forAll (upto 48) (fun t c => t.modHart c (fun h => if h.valid ∧ h.part = p then { h with run := false } else h)) s1).traceStep p 1

/-- A trigger of a partition reset: none while it is resetting; held through a global stop; after a wake in Dormant
(R383, R463, R519). -/
def State.triggerReset (s : State) (p : Nat) (byP0 : Bool) : State :=
  if (s.part p).reset.resetting then s
  else if s.stop.stopped then s.modStop (fun x => { x with heldResets := x.heldResets ++ [if byP0 then p + 16 else p] })
  else if s.power.state = 0 then s.beginReset p byP0
  else (State.requestWake { s with heldResets := s.heldResets ++ [if byP0 then p + 16 else p] })

/-- The triggers held, begun now: entry 16 + p was made by Partition 0. -/
def State.releaseResets (s : State) (ps : List Nat) : State :=
  forAll ps (fun t n => if (t.part (n % 16)).reset.resetting then t else t.beginReset (n % 16) (decide (16 ≤ n))) s

/-- PTN_RST_CTL.PRST (R383): bits 1 to 15. -/
def State.writePrst (s : State) (v : Nat) : State :=
  forAll ((upto 16).drop 1) (fun t p => if v.testBit p then t.triggerReset p true else t) s

/-- A function-level reset's effect on the function (R525), and that of a virtual function's leaving (R383). -/
def State.resetFunction (s : State) (p : Nat) : State :=
  s.modPart p (fun x => { x with fn := { x.fn with memSpace := false, busMaster := false, msixEn := false, fmask := false, unmasked := [] } })

/-- VF Enable is cleared or NumVFs lowered: the functions that disappear have their partitions reset (R383). -/
def State.setVfs (s : State) (en : Bool) (n : Nat) : State :=
  let had := if s.vfEnable then s.numVfs else 0
  let has_ := if en then n else 0
  let s1 : State := { s with vfEnable := en, numVfs := n }
  forAll ((upto 16).filter (fun p => decide (has_ < p ∧ p ≤ had))) (fun t p => (t.resetFunction p).triggerReset p false) s1

/-- R383: a function-level reset. That of the physical function clears VF Enable, resets partitions 1 to 15, and then
Partition 0 once they have completed. -/
def State.functionReset (s : State) (p : Nat) : State :=
  let s1 := s.resetFunction p
  if p ≠ 0 then s1.triggerReset p false
  else
    let s2 : State := { s1 with vfEnable := false }
    let s3 := forAll ((upto 16).drop 1) (fun t q => (t.resetFunction q).triggerReset q false) s2
    s3.modPart 0 (fun x => { x with reset := { x.reset with byPf := true } })

/-- Begin the reset of Partition 0 that a function-level reset of the physical function is owed (R383). -/
def State.continuePfReset (s : State) : State :=
  if (s.part 0).reset.byPf ∧ (s.part 0).reset.resetting = false ∧
      ((upto 16).drop 1).all (fun p => !(s.part p).reset.resetting) = true ∧ s.heldResets = [] ∧ s.stop.heldResets = [] then
    (s.modPart 0 (fun x => { x with reset := { x.reset with byPf := false } })).triggerReset 0 false
  else s

/-! Cores (R375). -/

/-- A core starts: anew at BOOT_ENTRY, in machine mode, with translation off, interrupts masked, and a0 and a1 set when it has lost its
state, or where it halted (R479). -/
def startCore (entry c : Nat) (h : Hart) : Hart :=
  match h.startCause with
  | some k => { h with halted := false, startCause := none, a0 := c, a1 := k, pc := entry, mode := 3, satp := 0, mie := false }
  | none => { h with halted := false }

/-- The caches of a core are written back, as accesses of a partition, and invalidated (R375). What a line holds has been in home order
since its store was performed (R301), so that the write changes no byte; one that its checks refuse is logged (LOG 83). -/
def State.writeBackCaches (s : State) (c part : Nat) : State :=
  (forAll (s.hart c).dirty (fun t e =>
    let x : Acc := ⟨unitCore c, part, 128 * e.1, 128, .write, true⟩
    if t.checkAcc x = eOk then (t.carryAcc x).countHomes x.addr 1 128 else t.logAccess x (t.checkAcc x)) s).modHart c (fun h => { h with dirty := [] })

/-- PTN_HART_n: RUN is stored; VALID and PART change only while HALTED. A core that is to run starts; a running core
that is to halt keeps HALTED = 0 until it has completed its accesses. RUN = 1 asks for a wake (R461). A core of a partition that is
resetting has RUN cleared (R384). When PART changes, its caches are written back (R375). In recovery no core runs (R481). -/
def State.writeHart (s : State) (c : Nat) (v : Nat) : State :=
  let h := s.hart c
  let run := v.testBit 8 && s.boot.phase != 4
  let s0 := if h.halted && h.part != bits v 0 4 then s.writeBackCaches c h.part else s
  let s1 := s0.modHart c (fun h =>
    let g := if h.halted then { h with valid := v.testBit 4, part := bits v 0 4 } else h
    { g with run := run && !(g.valid && (s.part g.part).reset.resetting) })
  let s2 := if run then s1.requestWake else s1
  let g := s2.hart c
  if g.run ∧ g.valid ∧ h.halted ∧ s2.power.state = 0 ∧ (s2.fence (c / 6)).fenced = false then
    s2.modHart c (startCore s2.boot.entry c)
  else s2

end Sys2Proof.Machine
end

