-- ==== Sys2Proof/Machine/Flash.lean ====
section
/-! DEFINITION. The configuration flash, and the mailbox commands that erase, program and read it (R465, R484 to R486). -/

namespace Sys2Proof.Machine

/-! The flash. -/

def State.flash (s : State) (a n : Nat) : List Byte := Table.getList 255 s.boot.flash a n
/-- Whether every byte of a range of the flash can be read, a retry included (R473). -/
def State.flashGood (s : State) (a n : Nat) : Bool := s.boot.badFlash.all (fun e => !(decide (a ≤ e.1) && decide (e.1 < a + n)))

def slotBase (slot : Nat) : Nat := if slot = 0 then 0x100000 else 0x2000000
def slotSize : Nat := 0x1F00000

/-! The running command of the boot mailbox. -/

/-- The running command is p's, of this OP, and has not been executed yet. -/
def State.mailboxAt (s : State) (p op : Nat) : Bool :=
  s.boot.running == some p && (s.part p).mbox.runOp == op && (s.part p).mbox.busy && !s.boot.executed

/-- Keep the outcome of the running command. -/
def State.mailboxOutcome (s : State) (code : Nat) : State := s.modBoot (fun b => { b with executed := true, outcome := code })

/-- Who may run a command, and in which phase (R484): 0 when it may. -/
def State.mailboxDenied (s : State) (p : Nat) (inRecovery : Bool) : Bool :=
  decide (p ≠ 0) || (s.boot.phase == 4 && !inRecovery)

/-- The slot of a flash offset. -/
def slotOf (a : Nat) : Option Nat := if a < 0x100000 then none else if a < 0x2000000 then some 0 else if a < 0x3F00000 then some 1 else none

/-- Checks of a range that is to be erased or programmed (R484); multiples are checked first by the caller. -/
def State.flashRange (s : State) (a n : Nat) : Nat :=
  let runs := fun (k : Nat) => s.boot.phase == 3 && s.boot.slot == k && decide (a < slotBase k + slotSize) && decide (slotBase k < a + n)
  if decide (a < 0x100000) || runs 0 || runs 1 then ePermission
  else if 0x3F00000 < a + n then eUnmapped
  else eOk

/-- Erase a range of the flash. -/
def State.eraseFlash (s : State) (a n : Nat) : State := s.modBoot (fun b => { b with flash := Table.clear b.flash a (a + n) })

/-- Note whether a slot's first sector stands erased with no write since (R485). -/
def State.setErased (s : State) (slot : Nat) (v : Bool) : State :=
  s.modBoot (fun b => if slot = 0 then { b with erasedA := v } else { b with erasedB := v })

/-- R485: before a command touches a slot at 64 KiB or above, its first sector is erased unless it stands erased. -/
def State.guardManifest (s : State) (a n : Nat) : State :=
  forAll [0, 1] (fun t k =>
    let lo := slotBase k + 65536
    let erased := if k = 0 then t.boot.erasedA else t.boot.erasedB
    if a < slotBase k + slotSize ∧ lo < a + n ∧ erased = false then (t.eraseFlash (slotBase k) 65536).setErased k true else t) s

/-- A write into a slot's first sector means that it no longer stands erased (R485). -/
def State.noteWrite (s : State) (a n : Nat) : State :=
  forAll [0, 1] (fun t k => if a < slotBase k + 65536 ∧ slotBase k < a + n then t.setErased k false else t) s

/-- FERASE (R484, R485). An empty range touches nothing. -/
def State.mbErase (s : State) (a n : Nat) : State × Nat :=
  if a % 65536 ≠ 0 ∨ n % 65536 ≠ 0 then (s, eAlign)
  else if n = 0 then (s, eOk)
  else if s.flashRange a n ≠ eOk then (s, s.flashRange a n)
  else
    let t := (s.guardManifest a n).eraseFlash a n
    (forAll [0, 1] (fun t k => if a ≤ slotBase k ∧ slotBase k + 65536 ≤ a + n then t.setErased k true else t) t, eOk)

/-- FWRITE (R484, R485): programming a NOR byte can only clear bits, so the read-back finds a byte that was not
erased. -/
def State.mbWrite (s : State) (a n : Nat) : State × Nat :=
  if a % 256 ≠ 0 then (s, eAlign)
  else if n = 0 ∨ 65536 < n then (s, eIllegal)
  else if s.flashRange a n ≠ eOk then (s, s.flashRange a n)
  else
    let t := s.guardManifest a n
    let src := Table.getList 0 t.boot.mbBuf 0 n
    let new := (src.zip (t.flash a n)).map (fun e => e.1 &&& e.2)
    ((t.modBoot (fun b => { b with flash := Table.setList 255 b.flash a new })).noteWrite a n, if new = src ∧ s.flashGood a n = true then eOk else eParity)

/-- FREAD (R484). Bytes whose read fails after its retry end it with PARITY, and nothing is copied: the manual names no code (LOG 42). -/
def State.mbRead (s : State) (a n : Nat) : State × Nat :=
  if n = 0 ∨ 65536 < n then (s, eIllegal)
  else if 0x3F00000 < a + n then (s, eUnmapped)
  else if !s.flashGood a n then (s, eParity)
  else (s.modBoot (fun b => { b with mbBuf := Table.setList 0 b.mbBuf 0 (s.flash a n) }), eOk)

/-- A reset or a supply-loss stop meets an erase or a programming that has not ended: the sector erase or page program in progress is
finished, and the rest of the command abandoned (R486). How far it has come is a free value (LOG 88). -/
def State.interruptFlash (s : State) : State :=
  match s.boot.running with
  | none => s
  | some p =>
    let m := (s.part p).mbox
    let a := m.runArg0.toNat
    let n := m.runArg1.toNat
    let unit := if m.runOp = 1 then 65536 else 256
    let run := if m.runOp = 1 then s.mbErase else s.mbWrite
    if s.boot.executed || !(m.runOp == 1 || m.runOp == 2) || s.mailboxDenied p true || decide (s.power.stoppedFor ≠ 0) then s
    else if n = 0 ∨ (run a n).2 = eAlign ∨ (run a n).2 = eIllegal ∨ s.flashRange a n ≠ eOk then s
    else
      let k := Config.flashDone s.freeCtr % ((n + unit - 1) / unit + 2)
      let t : State := { s with freeCtr := s.freeCtr + 1 }
      if k = 0 then t
      else
        let g := t.guardManifest a n
        if k = 1 then g else (if m.runOp = 1 then g.mbErase a (min n (unit * (k - 1))) else g.mbWrite a (min n (unit * (k - 1)))).1

end Sys2Proof.Machine
end

