-- ==== Sys2Proof/Machine/PowerOps.lean ====
section
/-! DEFINITION. The supply, the telemetry, the controller and Dormant (15). -/

namespace Sys2Proof.Machine

def State.die (s : State) (d : Nat) : Die := Table.get {} s.power.dies d
def State.modDie (s : State) (d : Nat) (f : Die → Die) : State :=
  s.modPower (fun w => { w with dies := Table.set {} w.dies d (f (Table.get {} w.dies d)) })

/-- The fallback table of R451. -/
def fallbackTable : List VPoint := [⟨550, 450, 0⟩, ⟨750, 900, 0⟩]

/-- `spd` (R450). -/
def pointSpeed (p : VPoint) (t : Int) : Int :=
  (p.s60 : Int) + (p.s60 * p.tc * (clampI 20 100 t - 60)) / 1000000

/-- `speed` (R450): the segment of the largest point at or below v, the last one at most n - 2. -/
def tableSpeed (ps : List VPoint) (v : Nat) (t : Int) : Int :=
  match ps with
  | a :: b :: r =>
    if v < b.mv ∨ r = [] then
      let x := pointSpeed a t
      x + ((pointSpeed b t - x) * ((v : Int) - a.mv)) / ((b.mv : Int) - a.mv)
    else tableSpeed (b :: r) v t
  | _ => 0

/-- The voltage table in force for a die (R451). -/
def Die.points (d : Die) : List VPoint := if d.table.length < 2 then fallbackTable else d.table

/-- `volt` (R450): the smallest voltage that gives the speed, else 750. -/
def voltFrom (ps : List VPoint) (target t : Int) : Nat → Nat → Nat
  | 0, _ => 750
  | f + 1, v => if target ≤ tableSpeed ps v t then v else voltFrom ps target t f (v + 1)

def dieVolt (d : Die) (target : Nat) : Nat := voltFrom d.points target d.tj 201 550

/-- The quarters in service for the speed target (R448, R458). -/
def State.liveQuarters (s : State) : List Nat := (upto 8).filter (fun q => !(s.fence q).fenced)

/-- The least of a list of speeds, or 0. -/
def leastSpeed (xs : List Int) : Int :=
  match xs with
  | [] => 0
  | x :: r => r.foldl min x

/-- S_top: the least speed of a live quarter at a voltage (R450). -/
def State.speedAt (s : State) (v : Nat) : Int :=
  leastSpeed (s.liveQuarters.map (fun q => tableSpeed (s.die q).points v (s.die q).tj))

/-- S never exceeds S_top (R450). -/
def State.clampTarget (s : State) : State := s.modPower (fun w => { w with target := min w.target (s.speedAt 750).toNat })

/-- In service, each rail that is on is set to the voltage of its own table for S at its own temperature, 550 to 750 mV, and the gates' rails
to 750 mV (R448). Before service and in a wake the quarters' rails stay at 550 mV (R462, R476). -/
def State.setRails (s : State) : State :=
  if s.boot.phase = 3 ∧ s.power.state < 2 then
    forAll (upto 10) (fun t d => t.modDie d (fun e => { e with
      core := if e.off then 0 else if 8 ≤ d then 750 else dieVolt e s.power.target })) s
  else s

/-! Restores. -/

/-- Whether the cause of the fence is still present (R298): a regulator fault while PHFLT is reported. -/
def State.causePresent (s : State) (q : Nat) : Bool :=
  (s.fence q).cause == 2 && (Table.get {} s.power.dies q).phflt

/-- The end of a restore (R298): its cores' next start is cause 4 (R479), and the target and the rails follow the quarters in service
(R448, R450). -/
def State.endRestore (s : State) (q : Nat) (selfTest : Bool) : State :=
  let f := s.fence q
  if f.busy ∧ f.restoring then
    if s.causePresent q || !selfTest then
      (s.modFence q (fun g => { g with busy := false, restoring := false, rfail := true })).raiseManagement
    else
      let s1 := (forAll (squaresOf q) State.zeroCistern s).zeroWell q
      let s2 := forAll (squaresOf q) (fun t u =>
        let o := t.owner u
        (((t.setSq u {}).clearSquareCounters u).forgetFar (.handover u)).setOwner u { o with busy := false, cleaned := false, eff := ownerEff o, moveTo := ownerEff o, moved := (o.valid, o.owner) }) s1
      let s3 := s2.modFence q (fun g => { g with fenced := false, busy := false, restoring := false, cause := 0, pendCause := 0 })
      let s4 := forAll (quarterPorts q) (fun t n => if (t.port n).en then t.setPortDown n 1 else t.setPortDown n 0) s3
      let s5 := s4.modPower (fun w => { w with dies := Table.set {} w.dies q { Table.get {} w.dies q with off := false, core := 550 } })
      let s6 : State := { s5 with replicas := Table.set 0 s5.replicas q 1 }
      let s7 := forAll (upto 6) (fun t h => t.modHart (6 * q + h) (fun c => { c with startCause := some 4 })) s6
      ((s7.clampTarget.setRails).trace 6 0x0D 0 (unitQuarter q) q 0).raiseManagement
  else s

/-- What the module is estimated to draw: its quarters' activity estimates, and what it draws beside them (R454). -/
def Power.estimate (w : Power) : Int := (upto 8).foldl (fun n q => n + Table.get 0 w.estimates q) w.base

/-- The highest estimate that RAMP allows now (R454). -/
def State.rampCap (s : State) : Int :=
  s.power.estimate + (s.power.ramp * 1000 * ((s.time - s.power.lastEval) / 1000) : Nat)

/-- The quarters' estimates, from what their instructions would draw (a free value, LOG 76), in proportion where a total would pass
what is left for them. -/
def State.followActivity (s : State) (cap : Int) : Table Int :=
  let acts := (upto 8).map (fun q => if (s.fence q).fenced then 0 else Config.activity q s.time)
  let total := acts.foldl (· + ·) 0
  let left := (max 0 (cap - s.power.base)).toNat
  (upto 8).foldl (fun t q => Table.set 0 t q (((if total ≤ left then acts.getD q 0 else acts.getD q 0 * left / total) : Nat) : Int)) []

/-- The estimates calibrated against the regulators: each quarter's from its rail's power, and the rest of the input power, no
further up than RAMP lets the total rise (R454). -/
def State.calibrate (s : State) (t : Telemetry) (mw : Nat) : Power → Power := fun w =>
  let es : Table Int := (upto 8).foldl (fun e q => Table.set 0 e q ((t.volts.getD q 0 * t.amps.getD q 0 / 100 : Nat) : Int)) []
  { w with estimates := es, base := min (mw : Int) s.rampCap - (upto 8).foldl (fun n q => n + Table.get 0 es q) 0 }

/-- The caps, in mW, of PEAK, RAMP, SAG and BRAKE at an evaluation (R453, R454, R456). -/
def State.caps (s : State) : List (Nat × Int) :=
  let w := s.power
  [(0, w.peakCap), (1, s.rampCap)] ++
    (if w.sag then [(3, 900000)] else []) ++ (if w.brake then [(4, 900000)] else [])

/-- Add the time since the last evaluation to the durations of the reasons that were active (R457). -/
def addDurations (d : Table Nat) (thr dt : Nat) : Table Nat :=
  let each := (upto 5).foldl (fun t r => if thr.testBit r then Table.set 0 t r ((Table.get 0 t r + dt) % 2 ^ 64) else t) d
  if thr = 0 then each else Table.set 0 each 5 ((Table.get 0 each 5 + dt) % 2 ^ 64)

/-- One evaluation of the controller (R448, R453 to R457): the allowance, the target, the issue gate, the active
reasons and their durations. THERMAL's cap is a speed: it is active where it is what holds S below S_top, and a power cap where it is
(R455, R457). The activity estimates follow what the squares issue, no further than A lets them (R454, LOG 76). -/
def State.evaluate (s : State) : State :=
  let w := s.power
  let dur := addDurations w.thrDur w.thr (s.time - w.lastEval)
  if 2 ≤ w.state then
    let t := s.modPower (fun w => { w with thrDur := dur, thr := 0, lastEval := s.time })
    if w.thr ≠ 0 then t.trace 6 0x0C 0 unitPower 0 w.target else t
  else
    let cs := s.caps
    let a := cs.foldl (fun m c => min m c.2) 3400000
    let top := (s.speedAt 750).toNat
    let want := Config.speedFor a
    let target := min top (min w.thermalS want)
    let gating := decide (want ≤ (s.speedAt 550).toNat)
    let byPower := gating || decide (want < top ∧ want ≤ w.thermalS)
    let thr0 := (cs.filter (fun c => byPower && c.2 == a)).foldl (fun m c => m + 2 ^ c.1) 0
    let thr := thr0 + (if w.thermalS < top ∧ w.thermalS ≤ want then 4 else 0)
    let t := State.setRails (s.modPower (fun w => { w with
      thrDur := dur, lastEval := s.time, allowance := a, target := target, gating := gating, thr := thr
      estimates := s.followActivity a }))
    if thr ≠ w.thr then t.trace 6 0x0C 0 unitPower thr target else t

/-- Every quarter is handled as at a fence at once, and an erase or a programming of the flash is cut short (R445, R486); a supply loss or a thermal stop with its record, once
for each of the two. -/
def State.supplyStop (s : State) (thermal : Bool) : State :=
  if s.power.stoppedFor.testBit (bitN thermal) then s
  else
    let s0 := s.interruptFlash
    let s1 := forAll (upto 8) (fun t q =>
      ((t.modFence q (fun f => { f with fenced := true, busy := false, restoring := false })).loseQuarter q).modDie q
        (fun d => { d with off := true, core := 0 })) s0
    let s2 := s1.modPower (fun w => { w with
      stoppedFor := w.stoppedFor + (if thermal then 2 else 1)
      trip := thermal || w.trip
      loss := !thermal || w.loss })
    s2.logErr unitPower 0 eAborted (globalOf 0xF0006000000)

/-- One sample (R446 to R448, R453 to R455, R458): input power, which the activity estimates are calibrated to, and energy, the running
average, the rails, temperatures and the thermal cap, by which S itself moves; the rails follow S and the temperatures; a phase fault that is no longer reported clears PHFLT
(LOG 75); a junction at 110 °C is a thermal stop. -/
def State.sample (s : State) (t : Telemetry) : State :=
  let w := s.power
  let mw := t.vin * t.iin / 100
  let n : Int := (20 * w.window : Nat)
  let avg := w.avg + ((mw : Int) - w.avg) / n
  let cap := min 3400000 (avg + n * ((w.limit * 1000 : Nat) - avg))
  let tmax := t.temps.foldl max 0
  let s1 := forAll (upto 10) (fun x d => x.modDie d (fun e => { e with
    tj := t.temps.getD d 0, speed := t.speeds.getD d 0, volt := t.volts.getD d 0, amp := t.amps.getD d 0
    phflt := e.phflt && t.faults.testBit d })) s
  let top := (s1.speedAt 750).toNat
  let ts := if w.tjt ≤ tmax then min w.thermalS (min top w.target) - top / 100
    else if tmax + 2 ≤ w.tjt then min top (w.thermalS + top / 100) else w.thermalS
  let rises := decide (tmax + 2 ≤ w.tjt) && decide (w.state < 2)
  let s2 := s1.modPower (fun w => { w with
    vin := t.vin, iin := t.iin, pin := mw / 1000, mw := mw, sampled := true
    energy := (w.energy + mw / 20) % 2 ^ 64
    target := min top (min ts (if rises then Config.speedFor w.allowance else w.target))
    avg := avg, peakCap := cap, tmax := tmax, thermalS := ts, lastSample := s.time })
  let s3 := (s2.modPower (s.calibrate t mw)).setRails
  if 110 ≤ tmax then s3.supplyStop true else s3

/-- Whether a sample keeps to the bound of R454: its input power exceeds that of the sample before by at most RAMP × 50 + 100 W. -/
def State.withinRamp (s : State) (t : Telemetry) : Bool :=
  !s.power.sampled || decide (t.vin * t.iin / 100 ≤ s.power.mw + (s.power.ramp * 50 + 100) * 1000)

/-- Power-gate the squares and cores, which lose what they hold, and save every fountain (R459, R460); no reason is active any more (R456). -/
def State.enterDormant (s : State) : State :=
  let saved : Table Fountain := (upto 128).foldl (fun m u => Table.set {} m u (s.sq u).ftn) []
  let s1 : State := { s with squares := [], sqCtr := [] }
  let s2 := forAll (upto 48) (fun t c => t.modHart c (fun h => h.lose 5)) s1
  let s3 := s2.zero cisternBase 0x10080000000
  let s4 := forAll (upto 8) (fun t q => t.modDie q (fun d => { d with off := true, core := 0 })) s3
  let s5 := s4.modPower (fun w => { w with state := 2, enterAt := none, retention := saved })
  let s6 := s5.evaluate
  if s.power.wakePending then (s6.modPower (fun w => { w with wakePending := false })).requestWake else s6

/-- What a wake restores by full service, but for the accesses it holds (R462): a replica of a woken region has loaded by 1,100,000 ns, so
that its stamps are certain by then, and the rails go to the voltages of S (R448). -/
def State.wakeUp (s : State) : State :=
  let s2 := forAll (s.power.retention.map Prod.fst) (fun t u => t.modSq u (fun q => { q with ftn := Table.get {} s.power.retention u })) s
  let s3 := s2.modPower (fun w => { w with state := 0, wakeAt := none, retention := [], lastEval := s.time, base := (w.mw : Nat), estimates := [] })
  let loaded := fun (t : Table Nat) (q : Nat) => if Table.get 0 t q = 1 then Table.set 0 t q 0 else t
  let s4 := (State.clampTarget { s3 with replicas := s3.liveQuarters.foldl loaded s3.replicas }).setRails
  let s5 := if s.power.wien then s4.raiseManagement else s4
  State.releaseResets { s5 with heldResets := [] } s.heldResets

/-- A register write of PWR_CTL (R464): RAMP and WIEN are stored, WAKE and ENTER act; a write whose ENTER is refused only sets DENY
(R459). -/
def State.writePowerCtl (s : State) (h : Half) (v : Nat) : State :=
  if h = .hi then s
  else if v.testBit 0 && !s.mayEnter then s.requestEnter
  else
    let r := bits v 8 10
    let s1 := s.modPower (fun w => { w with ramp := max 1 (min 50 r), wien := v.testBit 2 })
    let s2 := if v.testBit 1 then s1.requestWake else s1
    if v.testBit 0 then s2.requestEnter else s2

end Sys2Proof.Machine
end

