-- ==== Sys2Proof/Machine/BootOps.lean ====
section
/-! DEFINITION. Start-up, images, trust and the boot mailbox (16), and the module resets (R391, R392). -/

namespace Sys2Proof.Machine

/-- A little-endian field of bytes. -/
def field (bs : List Byte) (lo n : Nat) : Nat := ofBytes (slice bs lo n)

/-- Whether bytes `lo` to `hi - 1` are zero. -/
def zeroBytes (bs : List Byte) (lo hi : Nat) : Bool := (slice bs lo (hi - lo)).all (· == 0)

/-- The bytes of an ASCII string (R467). -/
def ascii (t : String) : List Byte := t.toList.map (fun c => BitVec.ofNat 8 c.toNat)

/-- The bytes of a digest, a key or a signature. -/
def cryptoBytes {w : Nat} (v : BitVec w) : List Byte := toBytes (w / 8) v.toNat

/-- Both signatures of a message verify under the root keys (R472). -/
def rootVerify (msg es ms : List Byte) : Bool :=
  edVerify (cryptoBytes Config.rootEd25519) msg es && mldsaVerify (cryptoBytes Config.rootMldsa) msg ms

/-- Both signatures of a message verify (R472). -/
def bothVerify (ek mk msg es ms : List Byte) : Bool := edVerify ek msg es && mldsaVerify mk msg ms

/-- The seeds of the identity's two keys (R468). -/
def edSeed (k : List Byte) : List Byte := (sha512 (ascii "UW96-ID-ED25519" ++ k)).take 32
def mldsaSeed (k : List Byte) : List Byte := (sha512 (ascii "UW96-ID-MLDSA65" ++ k)).take 32

/-- The PUF secret of 256 bits, reconstructed from the helper data in the vendor region (R467, R468). -/
def State.secret (s : State) : List Byte := cryptoBytes (Config.pufSecret (s.flash 0x4000 8192))

/-- The identity certificate is valid (R467) and names the identity keys derived from the secret k (R468). -/
def identityOk (c k : List Byte) : Bool :=
  decide (field c 0 4 = 0x43495755) && decide (field c 4 2 = 1) &&
  zeroBytes c 2008 2048 && zeroBytes c 5421 8192 &&
  rootVerify (ascii "UW96-IDCERT" ++ slice c 0 2048) (slice c 2048 64) (slice c 2112 3309) &&
  (slice c 24 32 == edPublic (edSeed k)) && (slice c 56 1952 == mldsaPublic (mldsaSeed k))

/-- The die data record is valid (R467). -/
def dieDataOk (c : List Byte) : Bool :=
  decide (field c 0 4 = 0x44445755) && decide (field c 4 2 = 1) && zeroBytes c 6 64 && zeroBytes c 704 1024 &&
  zeroBytes c 3072 4096 && zeroBytes c 7469 8192 &&
  rootVerify (ascii "UW96-DIEDATA" ++ slice c 0 4096) (slice c 4096 64) (slice c 4160 3309)

/-- The points of a voltage table (R449). -/
def tablePoints (t : List Byte) : List VPoint :=
  (upto (field t 1 1)).map (fun i => ⟨field t (8 + 6 * i) 2, field t (10 + 6 * i) 2, signed 16 (field t (12 + 6 * i) 2)⟩)

/-- Voltages and speeds rise strictly (R449). -/
def risingPoints : List VPoint → Bool
  | a :: b :: r => decide (a.mv < b.mv) && decide (a.s60 < b.s60) && risingPoints (b :: r)
  | _ => true

/-- A voltage table is valid (R449). -/
def voltageTableOk (t : List Byte) : Bool :=
  let n := field t 1 1
  decide (2 ≤ n ∧ n ≤ 8) && zeroBytes t 2 8 && zeroBytes t (8 + 6 * n) 64 &&
  decide (field t 8 2 = 550) && decide (field t (8 + 6 * (n - 1)) 2 = 750) && risingPoints (tablePoints t)

/-! Images. -/

/-- Component entry i of a manifest (R471). -/
def component (m : List Byte) (i : Nat) : List Byte := slice m (64 + 96 * i) 96

/-- A manifest's component table (R470), and the entry of a type in a table. -/
def tableOf (m : List Byte) : List Byte := slice m 64 480
def entryOf (t : List Byte) (type : Nat) : List Byte :=
  ((upto 5).map (fun i => slice t (96 * i) 96)).find? (fun c => field c 0 2 == type) |>.getD []

/-- The largest length of a component's type (R471). -/
def componentLengthOk (type len : Nat) : Bool :=
  if type = 5 then len == 32
  else if type = 4 then decide (1 ≤ len ∧ len ≤ 24 * 2 ^ 20)
  else decide (1 ≤ len ∧ len ≤ 4 * 2 ^ 20)

/-- One component entry is well formed (R471). -/
def componentOk (c : List Byte) : Bool :=
  let type := field c 0 2
  let off := field c 4 4
  let len := field c 8 4
  let load := field c 16 8
  let entry := field c 24 8
  decide (1 ≤ type ∧ type ≤ 5) && zeroBytes c 2 4 && zeroBytes c 12 16 &&
  decide (off % 65536 = 0 ∧ 65536 ≤ off ∧ off + len ≤ slotSize) && componentLengthOk type len &&
  (if type = 4 then decide (load % 4096 = 0 ∧ load + len ≤ 0x8000000000 ∧ entry % 4 = 0 ∧ load ≤ entry ∧ entry < load + len)
   else decide (load = 0 ∧ entry = 0))

/-- Two components do not overlap (R471). -/
def disjoint (a b : List Byte) : Bool :=
  decide (field a 4 4 + field a 8 4 ≤ field b 4 4) || decide (field b 4 4 + field b 8 4 ≤ field a 4 4)

/-- Every pair of components is disjoint. -/
def allDisjoint : List (List Byte) → Bool
  | [] => true
  | c :: r => r.all (disjoint c) && allDisjoint r

/-- The number of the SITE record that a slot's component table names (R477). -/
def State.siteOf (s : State) (slot : Nat) (t : List Byte) : Nat :=
  let c := entryOf t 5
  ofBytes (s.flash (slotBase slot + field c 4 4) 32)

/-- A SITE record is in range (R477): its reserved bits, T, NMEM, and MODNUM, which is 0 to 0xFFE (R429). -/
def siteOk (v : Nat) : Bool :=
  bits v 82 4 == 0 && bits v 0 60 == 0 && bits v 60 12 != 0xFFF && bits v 96 16 != 0 && decide (1 ≤ bits v 86 10 ∧ bits v 86 10 ≤ 512)

/-- Whether a component's bytes can be read (R473). -/
def State.componentReads (s : State) (slot : Nat) (c : List Byte) : Bool := s.flashGood (slotBase slot + field c 4 4) (field c 8 4)

/-- Cause 2 of R473; the fields of a SITE record that cannot be read are not seen. -/
def State.manifestFieldsOk (s : State) (slot : Nat) (m : List Byte) : Bool :=
  let cs := (upto 5).map (component m)
  decide (field m 6 2 = 5) && zeroBytes m 12 16 && zeroBytes m 24 64 && zeroBytes m 544 1600 &&
  zeroBytes m 6957 6976 && zeroBytes m 10349 16384 &&
  cs.all componentOk && ((upto 5).map (· + 1)).all (fun t => (cs.filter (fun c => field c 0 2 == t)).length == 1) &&
  allDisjoint cs && (!s.componentReads slot (entryOf (tableOf m) 5) || siteOk (s.siteOf slot (tableOf m)))

/-- A component's bytes agree with its digest (R473). -/
def State.digestOk (s : State) (slot : Nat) (c : List Byte) : Bool :=
  sha512 (s.flash (slotBase slot + field c 4 4) (field c 8 4)) == slice c 32 64

/-- The manifest of a slot. -/
def State.manifest (s : State) (slot : Nat) : List Byte := s.flash (slotBase slot) 16384

/-- The cause of a slot (R473, R474). A manifest that cannot be read has cause 7 at once, and a component that cannot be read gives it
once every other one agrees with its digest (LOG 46). -/
def State.slotCause (s : State) (slot : Nat) (rpmcf : Bool) : Nat :=
  let m := s.manifest slot
  let cs := (upto 5).map (component m)
  if rpmcf then 6
  else if !s.flashGood (slotBase slot) 16384 then 7
  else if !(decide (field m 0 4 = 0x464D5755) && decide (field m 4 2 = 1)) then 1
  else if !s.manifestFieldsOk slot m then 2
  else if !rootVerify (ascii "UW96-ENDORSE" ++ slice m 1600 1984) (slice m 3584 64) (slice m 3648 3309) then 3
  else if !bothVerify (slice m 1600 32) (slice m 1632 1952) (ascii "UW96-MANIFEST" ++ slice m 0 6976) (slice m 6976 64) (slice m 7040 3309) then 4
  else if field m 8 4 < s.boot.counter then 6
  else if !(cs.filter (s.componentReads slot)).all (s.digestOk slot) then 5
  else if !cs.all (s.componentReads slot) then 7
  else 0

/-- The slot to boot among those with cause 0 (R474): higher SVN, then higher version, then A. -/
def State.chooseSlot (s : State) (a b : Nat) : Option Nat :=
  let key := fun slot => field (s.manifest slot) 8 4 * 2 ^ 64 + field (s.manifest slot) 16 8
  if a = 0 ∧ b = 0 then some (if key 0 < key 1 then 1 else 0)
  else if a = 0 then some 0 else if b = 0 then some 1 else none

/-! Resets of the module. -/

/-- The supply's pins, timers and energy, which every reset keeps (R391, R447), with the straps as they were sampled last (R545) and the
last sample, which the next one is held to (R454). -/
def keptPower (w : Power) (keepDurations : Bool) : Power :=
  { ven := w.ven, good := w.good, gates := w.gates, perst := w.perst, brakePin := w.brakePin
    mstrTied := w.mstrTied, smbAddr := w.smbAddr, age := w.age, sampled := w.sampled, mw := w.mw, pinMstr := w.pinMstr, pinSmb := w.pinSmb, busMv := w.busMv
    sag := w.sag, sagSince := w.sagSince, inRangeSince := w.inRangeSince, aboveSince := w.aboveSince
    overSince := w.overSince, brake := w.brake, trip := w.trip, loss := w.loss, energy := w.energy
    thrDur := if keepDurations then w.thrDur else [], lastEval := w.lastEval, lastSample := w.lastSample
    dies := if w.gates then [(8, { core := 750 }), (9, { core := 750 })] else [] }

/-- The PCI Express configuration and host-window registers of a partition, which a warm or cold reset keeps (R391). -/
def keptPart (x : Part) : Part := { fn := { x.fn with pend := [] }, elog := x.elog, trc := { lost := x.trc.lost } }

/-- Every port with EN forced to 0 (R476). -/
def portsOff : Table Port := (upto 96).map (fun n => (n, { en := false }))

/-- MSTR_SEL_N is sampled as a start begins (R545). -/
def State.sampleStrap (s : State) : State := s.modPower (fun w => { w with mstrTied := w.pinMstr })

/-- Step 1 of R476 (R545): the strap is sampled, and the times of its steps are picked. -/
def State.beginStart (s : State) (cause : Nat) : State :=
  ({ s with freeCtr := s.freeCtr + 1 } : State).sampleStrap.modBoot (fun b => { b with starting := true, startCause := cause, elapsed := 0, startKey := s.freeCtr })

/-- What a cold reset (2) or PERST_N (3) leaves: everything at its reset value but what R391 keeps. LOST of a trace ring counts since
power-on (R512). -/
def State.resetModule (s : State) (cause : Nat) : State :=
  let keep := decide (cause = 2)
  { pending := s.pending, out := s.out, freeCtr := s.freeCtr, isM := s.isM, time := s.time
    replicas := s.replicas
    rstLast := cause
    numVfs := if keep then s.numVfs else 0
    vfEnable := keep && s.vfEnable
    parts := (s.parts.map (fun e => (e.1, if keep then keptPart e.2 else { trc := { lost := e.2.trc.lost } }))).filter (fun e => decide (e.2 ≠ {}))
    power := keptPower s.power keep
    links := { ports := portsOff }
    boot := { flash := s.boot.flash, counter := s.boot.counter, erasedA := s.boot.erasedA, erasedB := s.boot.erasedB, badFlash := s.boot.badFlash }
    elog := if keep then s.elog else {}
    ctr := if keep then s.ctr else []
    ctrEpoch := if keep then s.ctrEpoch else s.ctrEpoch + 1
    ctrAge := if keep then s.ctrAge else 0
    harts := (upto 48).map (fun c => (c, { startCause := some cause })) }

/-- A cold reset (2), which starts at once, or a PERST_N reset (3), which its release starts (R391, R476). -/
def State.restart (s : State) (cause : Nat) : State :=
  let t := s.interruptFlash.resetModule cause
  if cause = 3 then t else t.beginStart cause

/-- Die tables and TBLFAIL (R451, R469). -/
def State.applyDieData (s : State) (ok : Bool) (rcd : List Byte) : State :=
  let good := fun d => ok && voltageTableOk (slice rcd (64 + 64 * d) 64)
  let s1 := forAll (upto 10) (fun t d => t.modDie d (fun e => { e with
    table := if good d then tablePoints (slice rcd (64 + 64 * d) 64) else fallbackTable
    core := if d < 8 then 550 else 750 })) s
  State.clampTarget <| s1.modPower (fun w => { w with tblFail := (upto 10).foldl (fun m d => if good d then m else m + 2 ^ d) 0 })

/-- LNK_ID (R429): a change of MODNUM or PRECID takes every UP port through training. -/
def State.writeLnkId (s : State) (h : Half) (v : Nat) : State :=
  if h = .hi then s
  else
    let changed := s.links.modnum ≠ bits v 0 12 ∨ s.links.precid ≠ bits v 16 8
    let s1 := s.modLinks (fun l => { l with modnum := bits v 0 12, precid := bits v 16 8 })
    if changed then s1.retrainAll else s1

/-- R477: SITE into the link registers and the ports' EN bits, and the role that STRAP and MASTER give (R430). -/
def State.applySite (s : State) (v : Nat) : State :=
  let s0 := s.writeLnkId .full (bits v 60 12 + 2 ^ 16 * bits v 72 8)
  let s1 := s0.modLinks (fun l => { l with
    master := v.testBit 80, root := v.testBit 81
    nmem := bits v 86 10, timeout := bits v 96 16
    role := bitN (v.testBit 80 && s.power.mstrTied) })
  forAll (upto 96) (fun t n =>
    let en := v.testBit (160 + n)
    let dark := (t.fence (tileQuarter (n / 8))).fenced
    let t1 := t.modPort n (fun p => { p with en := en })
    if dark then t1 else if !en then t1.setPortDown n 0 else if (t1.port n).state = 2 then t1 else t1.setPortDown n 1) s1

/-- Extents given to Partition 0 for a load range, scrubbed before the load (R478). -/
def State.assignExtents (s : State) (lo n : Nat) : State :=
  forAll (upto ((lo + n - 1) / 2 ^ 28 - lo / 2 ^ 28 + 1)) (fun t i =>
    let x := lo / 2 ^ 28 + i
    (t.startScrub x true 0).setExtent x ⟨true, false, 0⟩) s

/-- R478: the extents of the load range, then HOSTRT from a slot's component entry into its load address and its digest checked again, then
BOOT_ENTRY and the boot cores with a start cause; false on a mismatch. The load is an access of Partition 0 by the BSC: where its
range is lost with a quarter it is refused and logged (R558). A boot core of a fenced quarter does not run (R295). -/
def State.loadHostrt (s : State) (slot : Nat) (h : List Byte) (cores cause : Nat) : State × Bool :=
  let bs := s.flash (slotBase slot + field h 4 4) (field h 8 4)
  let x : Acc := ⟨unitBsc, 0, field h 16 8, field h 8 4, .write, true⟩
  let w := (s.assignExtents (field h 16 8) (field h 8 4)).accWrite x bs
  let s1 := if w.2 = eOk then w.1 else w.1.logAccess x w.2
  if !(s.componentReads slot h && sha512 bs == slice h 32 64) then (s1, false)
  else
    let s2 := s1.modBoot (fun b => { b with entry := field h 24 8 })
    (forAll (upto 48) (fun t c =>
      let live := !(t.fence (c / 6)).fenced
      if cores.testBit c then t.modHart c (fun h =>
        let g := { h with valid := true, part := 0, run := live }
        if live then startCore t.boot.entry c { g with startCause := some cause } else g)
      else t) s2, true)

/-- The reservoir's key pair of each partition, drawn at step 7 of R476 (R482). -/
def State.drawKeys (s : State) : State :=
  { s.modBoot (fun b => { b with resKeys := (upto 16).map (fun p => (p, Config.trueRandom (s.freeCtr + p))) }) with
    freeCtr := s.freeCtr + 16 }

/-- The boot of a chosen slot: steps 7 to 9 of R476, and whether its HOSTRT agreed with its digest. -/
def State.bootSlot (s : State) (slot : Nat) : State × Bool :=
  let m := s.manifest slot
  let s1 := s.modBoot (fun b => { b with
    slot := slot, svn := field m 8 4, imgVer := field m 16 8, identPart := if s.isM then 2 else 1, kept := tableOf m })
  let rcd := s.flash 0x2000 8192
  let s2 := if s.boot.ddfail then s1.drawKeys else s1.drawKeys.setChecked (fun _ => jumpParamsOk 128 (2 ^ 32) (slice rcd 1024 2048)) true
  let v := s.siteOf slot (tableOf m)
  let r := (s2.applySite v).loadHostrt slot (entryOf (tableOf m) 4) (bits v 112 48) s.boot.startCause
  if r.2 then (((r.1.modBoot (fun b => { b with phase := 3, starting := false })).clampTarget).setRails, true) else (r.1, false)

/-- Recovery (R481): no image runs, and every port has EN = 0. -/
def State.recover (s : State) : State :=
  (s.modBoot (fun b => { b with phase := 4, starting := false, slot := 0, svn := 0, imgVer := 0, kept := [] })).modLinks (fun _ => { ports := portsOff })

/-- A slot's cause (R473). -/
def Boot.cause (b : Boot) (slot : Nat) : Nat := if slot = 0 then b.acause else b.bcause

/-- The slot's HOSTRT failed at the load: its digest, or its reading (R473, R478). -/
def State.failSlot (s : State) (slot : Nat) : State :=
  let c := if s.componentReads slot (entryOf (tableOf (s.manifest slot)) 4) then 5 else 7
  s.modBoot (fun b => if slot = 0 then { b with acause := c } else { b with bcause := c })

/-- Try a slot, then the other one when its digest fails at the load (R478). -/
def State.bootFrom (s : State) (slot : Nat) : State :=
  let r := s.bootSlot slot
  if r.2 then r.1
  else if s.boot.cause (1 - slot) ≠ 0 then (r.1.failSlot slot).recover
  else
    let q := (r.1.failSlot slot).bootSlot (1 - slot)
    if q.2 then q.1 else (q.1.failSlot (1 - slot)).recover

/-- Steps 2 and 3 of R476, and the start of step 4. The monotonic counter is authentic where the key derived from the secret is the one
that was installed in the flash, and without an identity it cannot be authenticated (R465, R469). -/
def State.verifyStage (s : State) : State :=
  let cert := s.flash 0 8192
  let rcd := s.flash 0x2000 8192
  let k := s.secret
  let idok := s.flashGood 0 8192 && s.flashGood 0x4000 8192 && identityOk cert k
  let ddok := s.flashGood 0x2000 8192 && dieDataOk rcd
  let s1 := s.modBoot (fun b => { b with
    phase := 1, idfail := !idok, ddfail := !ddok, rpmcf := !(idok && Config.counterKey k == Config.counterKeyInstalled)
    serialLo := if idok then BitVec.ofNat 64 (field cert 8 8) else 0
    serialHi := if idok then BitVec.ofNat 64 (field cert 16 8) else 0 })
  s1.applyDieData ddok rcd

/-- Steps 4 to 6 of R476: both slots are checked, and one is chosen, or none. -/
def State.checkStage (s : State) : State :=
  let a := s.slotCause 0 s.boot.rpmcf
  let b := s.slotCause 1 s.boot.rpmcf
  let t := s.modBoot (fun x => { x with acause := a, bcause := b })
  match t.chooseSlot a b with
  | none => t.recover
  | some slot => t.modBoot (fun x => { x with phase := 2, slot := slot })

/-- What is left of steps 2 to 9 of R476. -/
def State.startUp (s : State) : State :=
  let s1 := if s.boot.phase = 0 then s.verifyStage else s
  let s2 := if s1.boot.phase = 1 then s1.checkStage else s1
  if s2.boot.phase = 2 then s2.bootFrom s2.boot.slot else s2

/-- One nanosecond of a start-up: PHASE is VERIFY, and then LOAD or RECOVERY, at open times within the bounds of R476 (LOG 43). -/
def State.startTick (s : State) : State :=
  if !s.boot.starting then s
  else
    let t := s.modBoot (fun b => { b with elapsed := b.elapsed + 1 })
    if t.boot.phase = 0 ∧ min 45000000 (Config.startTime t.boot.startKey 0) ≤ t.boot.elapsed then t.verifyStage
    else if t.boot.phase = 1 ∧ min 220000000 (Config.startTime t.boot.startKey 1) ≤ t.boot.elapsed then t.checkStage
    else t

/-- The rails of the live quarters, back on when a reset ends Dormant (R463). -/
def wokenDies (fences : Table QuarterFence) (ds : Table Die) : Table Die :=
  (upto 8).foldl (fun t q => if (Table.get {} fences q).fenced then t
    else Table.set {} t q { Table.get {} t q with off := false, core := 550 }) ds

/-- What a warm reset leaves (R391, R392, R463): all work ends, tables and registers take their reset values; PCI Express
configuration, the well and reservoir contents, keys, flash, error log, time base, counters and link training stay. A global stop ends
without a resume, and its MARKs that have not been sent are gone (R519). A core of a fenced quarter will start with cause 4 (R479). -/
def State.warmed (s : State) : State :=
  { pending := s.pending, out := s.out, freeCtr := s.freeCtr, isM := s.isM, time := s.time
    replicas := s.replicas
    mem := Table.clear s.mem cisternBase 0x10080000000
    parity := Table.clear s.parity cisternBase 0x10080000000
    fences := s.fences
    rstLast := 1
    numVfs := s.numVfs, vfEnable := s.vfEnable
    parts := (s.parts.map (fun e => (e.1, keptPart e.2))).filter (fun e => decide (e.2 ≠ {}))
    power := { keptPower s.power true with
      stoppedFor := s.power.stoppedFor, tblFail := s.power.tblFail, tmax := s.power.tmax
      dies := if s.power.state = 2 then wokenDies s.fences s.power.dies else s.power.dies
      peakCap := s.power.peakCap, thermalS := s.power.thermalS, allowance := s.power.allowance, target := s.power.target
      base := s.power.base, estimates := s.power.estimates, avg := s.power.avg, pin := s.power.pin, iin := s.power.iin, vin := s.power.vin }
    links := { s.links with
      nmem := 1, role := 0, conflict := false, root := false, master := false, timeout := 100
      epochCur := 0, epochArm := 0, inProg := false, late := false, abandoned := false, armed := false, active := 0
      epochWait := [], committed := false, route := [], bundles := [], pairs := [], reqs := []
      gap := []
      ports := s.links.ports.map (fun e => (e.1, { e.2 with rxReq := [], rxRsp := [], rxCtl := [], marked := [], child := false, txq := e.2.txq.filter (fun f => f.kind != 3) })) }
    boot := { s.boot with entry := 0, mbBuf := [], running := none, executed := false, warming := true }
    squares := ((if s.power.state < 2 then s.squares.map (fun e => (e.1, e.2.ftn)) else s.power.retention).map (fun e =>
      (e.1, { ({} : Square) with ftn := { ({} : Fountain) with jready := e.2.jready } }))).filter (fun e => decide (e.2 ≠ {}))
    elog := s.elog
    ctr := s.ctr
    ctrEpoch := s.ctrEpoch
    ctrAge := s.ctrAge
    harts := (upto 48).map (fun c => (c, { startCause := some (if (s.fence (c / 6)).fenced then 4 else 1) })) }

/-- A warm reset begins; an erase or a programming of the flash is cut short (R486). -/
def State.beginWarm (s : State) : State := s.interruptFlash.warmed

/-- The end of a warm reset: SITE and HOSTRT are applied last, by the component table kept; a digest mismatch is a cold reset (R392, R480). -/
def State.endWarm (s : State) : State :=
  if s.boot.warming then
    let v := s.siteOf s.boot.slot s.boot.kept
    let r := (s.applySite v).loadHostrt s.boot.slot (entryOf s.boot.kept 4) (bits v 112 48) 1
    if r.2 then ((r.1.modBoot (fun b => { b with warming := false })).clampTarget).setRails else r.1.restart 2
  else s

/-- PTN_RST_CTL (R391, R394): WARM and COLD together start a cold reset. -/
def State.writeRstCtl (s : State) (v : Nat) : State :=
  if v.testBit 17 then s.restart 2
  else if v.testBit 16 then s.beginWarm
  else s.writePrst v

/-! The boot mailbox. -/

/-- A write of BOOT_MB_CMD_p (R483, R486): with GO, nothing at all while BUSY; else OP is stored and DONE may be cleared, and with GO
the command is pending, with the OP and the arguments of that moment (LOG 77), and runs when no other does. -/
def State.writeMailbox (s : State) (p : Nat) (h : Half) (v : Nat) : State :=
  let m := (s.part p).mbox
  if h = .hi ∨ (v.testBit 8 = true ∧ m.busy = true) then s
  else
    let s1 := s.modPart p (fun x => { x with mbox := { x.mbox with op := bits v 0 8, done := x.mbox.done && !v.testBit 15 } })
    if v.testBit 8 then
      let s2 := s1.modPart p (fun x => { x with mbox := { x.mbox with
        busy := true, runOp := x.mbox.op, runArg0 := x.mbox.arg0, runArg1 := x.mbox.arg1 } })
      if s2.boot.running = none then s2.modBoot (fun b => { b with running := some p, executed := false, outcome := 0 }) else s2
    else s1

/-- The next mailbox to serve after partition p (R486). -/
def State.nextMailbox (s : State) (p : Nat) : Option Nat :=
  ((upto 16).map (fun i => (p + 1 + i) % 16)).find? (fun q => (s.part q).mbox.busy)

/-- A mailbox command ends with a code (R486). -/
def State.endMailbox (s : State) (p code : Nat) : State :=
  let s1 := s.modPart p (fun x => { x with mbox := { x.mbox with err := code, done := true, busy := false } })
  s1.modBoot (fun b => { b with running := s1.nextMailbox p, executed := false, outcome := 0, lastServed := p })

/-- The bytes of an ATTEST's area, which it leaves undefined when it is aborted after it has begun writing (R486): free values (LOG 5). -/
def State.spoilReport (s : State) (p : Nat) : State :=
  let m := (s.part p).mbox
  if m.runOp = 5 ∧ s.boot.executed = true ∧ s.boot.outcome = eOk then
    State.store { s with freeCtr := s.freeCtr + 16384 } (m.runArg0.toNat % 2 ^ 44) ((upto 16384).map (fun i => Config.freeByte (s.freeCtr + i)))
  else s

/-- A partition reset of p ends its pending or running command with ABORTED (R486). -/
def State.abortMailbox (s : State) (p : Nat) : State :=
  if s.boot.running = some p then (s.spoilReport p).endMailbox p eAborted
  else if (s.part p).mbox.busy then
    s.modPart p (fun x => { x with mbox := { x.mbox with err := eAborted, done := true, busy := false } })
  else s

/-- COMMIT (R475). -/
def State.mbCommit (s : State) : State := s.modBoot (fun b => { b with counter := max b.counter b.svn })

/-- Every stream counter of a key slot starts anew (R425). -/
def State.resetStreams (s : State) (slot : Nat) : State :=
  forAll (s.links.pairs.map Prod.snd) (fun t e =>
    if e.valid ∧ e.kslot = slot then
      t.modLinks (fun l => { l with
        sendCtr := [0, 1, 2].foldl (fun c ch => Table.set 0 c (streamKey e.peer e.lpart e.rpart ch) 0) l.sendCtr
        recvCtr := [0, 1, 2].foldl (fun c ch => Table.set 0 c (streamKey e.peer e.rpart e.lpart ch) 0) l.recvCtr })
    else t) s

/-- KEYLOAD (R482, R484). -/
def State.mbKeyload (s : State) (slot g : Nat) : State × Nat :=
  let a := g % 2 ^ 44
  if 1024 ≤ slot then (s, eIllegal)
  else if g % 32 ≠ 0 then (s, eAlign)
  else if !s.isLocal g || !s.inSealedRegion unitBsc 0 a 32 then (s, ePermission)
  else
    let r := s.accRead ⟨unitBsc, 0, a, 32, .read, true⟩
    match r.2 with
    | .error c => (r.1.logErr unitBsc 0 c (globalOf a), c)
    | .ok bs =>
      let w := r.1.accWrite ⟨unitBsc, 0, a, 32, .write, true⟩ (toBytes 32 0)
      if w.2 ≠ eOk then (w.1.logErr unitBsc 0 w.2 (globalOf a), w.2)
      else
        ((w.1.modLinks (fun l => { l with keys := Table.set none l.keys slot (some (BitVec.ofNat 256 (ofBytes bs))) })).resetStreams slot, eOk)

/-- KEYCLEAR (R482, R484). -/
def State.mbKeyclear (s : State) (slot : Nat) : State × Nat :=
  if 1024 ≤ slot then (s, eIllegal)
  else (s.modLinks (fun l => { l with keys := Table.set none l.keys slot none }), eOk)

/-- The signed part of an attestation report, bytes 0 to 255 (R487). -/
def State.reportBytes (s : State) (p : Nat) (nonce : List Byte) : List Byte :=
  let b := s.boot
  let cert := s.flash 0 8192
  let m := s.manifest b.slot
  let other := if b.slot = 0 then b.bcause else b.acause
  toBytes 4 0x52415755 ++ toBytes 2 1 ++ toBytes 1 0xB0 ++ slice cert 7 1 ++ slice cert 8 16 ++ toBytes 8 s.time ++
    toBytes 1 p ++ toBytes 1 b.slot ++
    toBytes 1 (bitN (decide (other ≠ 0)) + 2 * bitN b.ddfail + 4 * bitN (decide (s.power.tblFail ≠ 0))) ++ toBytes 1 0 ++
    toBytes 4 b.svn ++ toBytes 4 b.counter ++ toBytes 4 0 ++ toBytes 8 b.imgVer ++
    sha512 (ascii "UW96-MANIFEST" ++ slice m 0 6976) ++ sha512 (slice (s.flash 0x2000 8192) 0 4096) ++
    nonce ++ toBytes 8 0

/-- ATTEST (R487, R488): PERMISSION in any of the cases of R488, then ALIGN. -/
def State.mbAttest (s : State) (p g : Nat) : State × Nat :=
  let a := g % 2 ^ 44
  if s.boot.idfail then (s, ePermission)
  else if !s.isLocal g || !s.inSealedRegion unitBsc p a 16384 || !s.extentOk p a || !s.extentOk p (a + 16383) then (s, ePermission)
  else if g % 4096 ≠ 0 then (s, eAlign)
  else
    let r := s.accRead ⟨unitBsc, p, a, 64, .read, true⟩
    match r.2 with
    | .error c => (r.1.logErr unitBsc p c (globalOf a), c)
    | .ok nonce =>
      let body := r.1.reportBytes p nonce
      let msg := ascii "UW96-ATTEST" ++ body
      let rnd := (cryptoBytes (Config.trueRandom r.1.freeCtr)).take 32
      let full := body ++ edSign (edSeed s.secret) msg ++ mldsaSign (mldsaSeed s.secret) rnd msg
      let report := (full ++ toBytes (4096 - full.length) 0).take 4096
      let w := State.accWrite { r.1 with freeCtr := r.1.freeCtr + 1 } ⟨unitBsc, p, a, 16384, .write, true⟩ (report ++ r.1.flash 0 8192 ++ toBytes 4096 0)
      if w.2 ≠ eOk then (w.1.logErr unitBsc p w.2 (globalOf a), w.2) else (w.1, eOk)

end Sys2Proof.Machine
end

