-- ==== Sys2Proof/Machine/QueueOps.lean ====
section
/-! DEFINITION. What writes to the queue registers do (R329 to R332, R367). -/

namespace Sys2Proof.Machine

/-- The local address of queue q's registers (R330). -/
def queueReg (q off : Nat) : Nat := 0xF0001000000 + 0x1000 * q + off

/-- Whether a write touches the low half of a register (R7). -/
def touchesLo (h : Half) : Bool := match h with | .hi => false | _ => true
def touchesHi (h : Half) : Bool := match h with | .lo => false | _ => true

/-- The 64-bit value after a write of a half (R7): the other half keeps its value. -/
def mergeHalf (h : Half) (old new : Nat) : Nat :=
  match h with
  | .full => new % 2 ^ 64
  | .lo => old / 2 ^ 32 * 2 ^ 32 + new % 2 ^ 32
  | .hi => new % 2 ^ 64 / 2 ^ 32 * 2 ^ 32 + old % 2 ^ 32

/-- The bits that a write of a half presents: the other half's bits are 0 (R6, R7). -/
def halfBits (h : Half) (v : Nat) : Nat :=
  match h with
  | .full => v % 2 ^ 64
  | .lo => v % 2 ^ 32
  | .hi => v % 2 ^ 64 / 2 ^ 32 * 2 ^ 32

/-- Raise the queue's interrupt (R360, R379). -/
def State.raiseQueue (s : State) (q : Nat) : State :=
  let x := s.queue q
  s.raiseInt x.part (targetOf x.itype x.hart x.vec) unitHall (queueReg q 0x38)

/-- DSP_QBIND (R330): a change of BOUND binds or frees a queue that is FREE or READY. -/
def State.writeQbind (s : State) (q : Nat) (h : Half) (v : Nat) : State :=
  let x := s.queue q
  if 2 ≤ x.state ∨ h = .hi then s
  else if v.testBit 8 ≠ x.bound then
    s.setQueue q { x with bound := v.testBit 8, part := bits v 0 4, state := bitN (v.testBit 8), head := 0, tail := 0, seq := 0 }
  else if x.bound then s
  else s.setQueue q { x with part := bits v 0 4 }

/-- DSP_QTAIL (R331): the new state and the code of a refusal. -/
def State.writeQtail (s : State) (q : Nat) (h : Half) (v : Nat) : State × Nat :=
  let x := s.queue q
  let t := mergeHalf h x.tail v
  if x.state ≠ 2 ∨ t < x.tail then (s, ePermission)
  else if 2 ^ x.log2n < t - x.head then (s, eQueue)
  else (s.setQueue q { x with tail := t }, eOk)

/-- Whether a range lies in one well or in the reservoir (R332). -/
def inOneMemory (isM : Bool) (lo n : Nat) : Bool :=
  inReservoir isM lo n || (inWells lo n && decide (lo / 2 ^ 36 = (lo + n - 1) / 2 ^ 36))

/-- The settings that EN = 1 needs (R332, R481). -/
def State.queueValid (s : State) (x : Queue) : Bool :=
  s.isLocal x.base && inOneMemory s.isM (x.base % 2 ^ 44) (64 * 2 ^ x.log2n) && decide (x.cpl ≠ 0) && decide (s.boot.phase = 3)

/-- A write of EN (R332): EN = 1 runs a valid READY queue; otherwise EN is 0 afterwards, and a RUNNING queue whose EN is 0 comes to rest
once the current entry has completed (R329; LOG 70). EN = 1 asks for a wake (R461). -/
def State.writeQen (s : State) (q : Nat) (en : Bool) : State :=
  let x := s.queue q
  let t := s.setQueue q (
    if en ∧ x.state = 1 ∧ s.queueValid x then { x with state := 2, en := true }
    else { x with en := false, state := if x.state = 2 ∧ x.ctx = none then 1 else x.state })
  if en then t.requestWake else t

/-- The running entry of a queue is cut off (R367): an entry that had reached DSP.DONE or had ended keeps its own
end. -/
def cutOff (c : Ctx) : Ctx :=
  if c.block = .ended then c else { c with block := .ended, endCode := eAborted, endSrc := 3, endAddr := 0 }

/-- Steps 1 to 3 of R367 on a RUNNING queue. -/
def State.beginDestroy (s : State) (q : Nat) : State :=
  let x := s.queue q
  (s.setQueue q { x with state := 3, en := false, ctx := x.ctx.map cutOff }).abortQueue q

/-- A write of DESTROY = 1 (R367, R519). -/
def State.destroyQueue (s : State) (q : Nat) : State :=
  let x := s.queue q
  if x.state = 2 then s.beginDestroy q
  else if x.state = 1 then (s.setQueue q { x with ddone := true }).raiseQueue q
  else s

/-- DSP_QCTL (R330): the stored fields, DDONE, then DESTROY, then EN. A write of DESTROY in a stop is held whole until the resume
(R519). -/
def State.writeQctl (s : State) (q : Nat) (w : RegWrite) : State :=
  let v := w.val.toNat
  if w.half = .hi then s
  else if v.testBit 1 && s.stop.stopped then s.modStop (fun y => { y with heldWrites := y.heldWrites ++ [(queueReg q 0x38, w)] })
  else
    let x := s.queue q
    let s1 := s.setQueue q { x with
      hart := bits v 15 6, vec := bits v 4 11, itype := bits v 3 1, irq := v.testBit 2, ddone := x.ddone && !v.testBit 26 }
    let s2 := if v.testBit 1 then s1.destroyQueue q else s1
    s2.writeQen q (v.testBit 0)

/-- DSP_QCTL as it reads (R330). -/
def qctlValue (x : Queue) : Nat :=
  bitN x.en + 4 * bitN x.irq + 8 * x.itype + 16 * x.vec + 2 ^ 15 * x.hart + 2 ^ 24 * x.state + 2 ^ 26 * bitN x.ddone

/-- A queue register as it reads (R330). -/
def queueValue (x : Queue) (off : Nat) : Nat :=
  match off with
  | 0x00 => x.part + 256 * bitN x.bound
  | 0x08 => x.base
  | 0x10 => x.log2n
  | 0x18 => x.tail
  | 0x20 => x.head
  | 0x28 => x.cpl
  | 0x30 => x.seq
  | _ => qctlValue x

/-- A write to one of a queue's registers by an agent that may write it. -/
def State.writeQueueReg (s : State) (q off : Nat) (w : RegWrite) : State × Nat :=
  let x := s.queue q
  let v := w.val.toNat
  match off with
  | 0x00 => (s.writeQbind q w.half v, eOk)
  | 0x08 => (s.setQueue q { x with base := mergeHalf w.half x.base v % 2 ^ 56 / 64 * 64 }, eOk)
  | 0x10 => (s.setQueue q { x with log2n := min 16 (mergeHalf w.half x.log2n v % 32) }, eOk)
  | 0x18 => s.writeQtail q w.half v
  | 0x28 => (s.setQueue q { x with cpl := mergeHalf w.half x.cpl v % 2 ^ 56 / 8 * 8 }, eOk)
  | 0x38 => (s.writeQctl q w, eOk)
  | _ => (s, eOk)

end Sys2Proof.Machine
end

