-- ==== Sys2Proof/Machine/ObsOps.lean ====
section
/-! DEFINITION. Snapshots, the error log's rings, trace rings and the global stop (R496 to R520), and the precinct's
link services that writes start (R429 to R440). -/

namespace Sys2Proof.Machine

/-! Snapshots. -/

/-- A GO write of OBS_SNAP_CTL (R496). -/
def State.armSnapshot (s : State) : State :=
  let n := s.snap
  if n.busy then s
  else if n.t < s.time + 1000 ∨ (n.end_ ≠ 0 ∧ n.end_ ≤ n.t) then s.modSnap (fun n => { n with late := true })
  else s.modSnap (fun n => { n with
    busy := true, armT := n.t, armEnd := n.end_, held0 := none, held1 := none, latched0 := false, uvNext := [] })

/-- OBS_SNAP_CTL (R499). -/
def State.writeSnapCtl (s : State) (h : Half) (v : Nat) : State :=
  if h = .hi then s
  else
    let s1 := s.modSnap (fun n => { n with late := n.late && !v.testBit 10, done := n.done && !v.testBit 9 })
    if v.testBit 0 then s1.armSnapshot else s1

/-! Error-log rings (R500, R504 to R507, R563). -/

/-- The 32 bytes of an error-log record (R500). -/
def recordBytes (r : ErrRecord) : List Byte :=
  toBytes 32 (r.stamp % 2 ^ 64 + (r.addr % 2 ^ 56) * 2 ^ 64 + (r.code % 256) * 2 ^ 120 + (r.unit % 4096) * 2 ^ 128 +
    (r.part % 16) * 2 ^ 140 + (r.srcm % 4096) * 2 ^ 144 + bitN r.tu * 2 ^ 156 + (r.seq % 2 ^ 32) * 2 ^ 192)

/-- Write a record of a ring in module memory as an access of its partition: the code of the write (R505, R509). -/
def State.ringWrite (s : State) (unit p base : Nat) (bs : List Byte) : State × Nat :=
  if s.isLocal base then s.accWrite ⟨unit, p, base % 2 ^ 44, bs.length, .write, true⟩ bs else (s, eUnmapped)

/-- Offer a record to an enabled error ring (R504 to R506). -/
def State.offerRing (s : State) (p : Nat) (r : ErrRecord) : State :=
  let g := (s.part p).elog
  if g.log2n = 0 then s
  else if r.bad ∨ 2 ^ g.log2n ≤ g.tail - g.head then
    s.modPart p (fun x => { x with elog := { x.elog with lost := min (x.elog.lost + 1) 4294967295 } })
  else
    let w := s.ringWrite unitElog p (g.base + 32 * (g.tail % 2 ^ g.log2n)) (recordBytes r)
    if w.2 ≠ eOk then w.1.modPart p (fun x => { x with elog := { x.elog with log2n := 0, err := w.2 } })
    else
      let t := w.1.modPart p (fun x => { x with elog := { x.elog with tail := x.elog.tail + 1 } })
      if g.ien then t.raiseInt p (targetOf g.itype g.hart g.vec) unitElog (0xF0007001018 + 0x40 * p) else t

/-- OBS_ELOG_RING_p (R504, R507, R563). -/
def State.writeElogRing (s : State) (p : Nat) (h : Half) (v : Nat) : State :=
  let g := (s.part p).elog
  let m := mergeHalf h (g.base + g.log2n) v
  let n := m % 32
  let n1 := if n = 0 then 0 else max 4 (min 16 n)
  let s1 := s.modPart p (fun x => { x with elog := { x.elog with base := m % 2 ^ 56 / 32 * 32 } })
  if touchesLo h then
    if n1 = 0 then s1.modPart p (fun x => { x with elog := { x.elog with log2n := 0 } })
    else
      let s2 := s1.modPart p (fun x => { x with elog := { x.elog with log2n := n1, tail := 0 } })
      forAll (s.elog.store.filter (fun (r : ErrRecord) => decide (g.from_ ≤ r.seq) && (p == 0 || r.part == p))) (fun t r => t.offerRing p r) s2
  else s1

/-- OBS_TRC_RING_p (R512, R564). -/
def State.writeTrcRing (s : State) (p : Nat) (h : Half) (v : Nat) : State :=
  let g := (s.part p).trc
  let m := mergeHalf h (g.base + g.log2n) v
  let n := m % 32
  let n1 := if n = 0 then 0 else max 6 (min 20 n)
  let s1 := s.modPart p (fun x => { x with trc := { x.trc with base := m % 2 ^ 56 / 32 * 32 } })
  if touchesLo h then
    if n1 = 0 then s1.modPart p (fun x => { x with trc := { x.trc with log2n := 0 } })
    else s1.modPart p (fun x => { x with trc := { x.trc with log2n := n1, tail := 0, loss := 0 } })
  else s1

/-- OBS_TRC_MARK_p (R508, R512): event 0x0B with the writer as unit. -/
def State.writeTrcMark (s : State) (p unit : Nat) (v : Nat) : State := s.trace 5 0x0B p unit v 0

/-- The 32 bytes of a trace record (R508). -/
def traceBytes (r : TrcRecord) : List Byte :=
  toBytes 32 (r.stamp % 2 ^ 64 + (r.unit % 4096) * 2 ^ 64 + (r.part % 16) * 2 ^ 76 + (r.event % 256) * 2 ^ 80 +
    bitN r.tu * 2 ^ 88 + r.arg0.toNat * 2 ^ 128 + r.arg1.toNat * 2 ^ 192)

/-- Write one record to a trace ring (R509). -/
def State.putTrace (s : State) (p : Nat) (r : TrcRecord) : State × Bool :=
  let g := (s.part p).trc
  let w := s.ringWrite unitTrace p (g.base + 32 * (g.tail % 2 ^ g.log2n)) (traceBytes r)
  if w.2 ≠ eOk then (w.1.modPart p (fun x => { x with trc := { x.trc with log2n := 0, err := w.2 } }), false)
  else ((w.1.modPart p (fun x => { x with trc := { x.trc with tail := x.trc.tail + 1 } })).count unitTrace 0 1, true)

/-- Write a ring's loss record as soon as one entry is free (R509). -/
def State.flushLoss (s : State) (p : Nat) : State :=
  let g := (s.part p).trc
  if g.loss ≠ 0 ∧ g.log2n ≠ 0 ∧ g.tail - g.head < 2 ^ g.log2n then
    let r := s.putTrace p ⟨p, 0xFF, p, unitTrace, s.time, s.uncertain unitTrace, BitVec.ofNat 64 g.loss, BitVec.ofNat 64 g.lossStamp⟩
    if r.2 then r.1.modPart p (fun x => { x with trc := { x.trc with loss := 0 } }) else r.1
  else s

/-- A record reaches the collector: written, or lost and counted (R509). -/
def State.collect (s : State) (r : TrcRecord) : State :=
  let s1 := s.flushLoss r.ring
  let g := (s1.part r.ring).trc
  if g.log2n = 0 then s1
  else if g.loss = 0 ∧ 2 ≤ 2 ^ g.log2n - (g.tail - g.head) then (s1.putTrace r.ring r).1
  else
    (s1.modPart r.ring (fun x => { x with trc := { x.trc with
      loss := x.trc.loss + 1, lossStamp := if x.trc.loss = 0 then r.stamp else x.trc.lossStamp
      lost := min (x.trc.lost + 1) 4294967295 } })).count unitTrace 1 1

/-! Global stop (R513 to R520, R439). -/

/-- The port of the module's parent (R432): the one PARENT names, or 0x7F; a master that is the root has no parent. -/
def Links.parentPort (l : Links) : Nat := if l.role = 1 ∧ l.root then 0x7F else l.parent

/-- Whether this module is its stop owner (R513). -/
def State.stopOwner (s : State) : Bool := s.links.role == 1 || s.links.parent == 0x7F

/-- A MARK of a channel (R439); a resume MARK has bit 31 of its identity set (R518). -/
def markFlit (ch id stamp : Nat) : SentFlit := ⟨0, 3, ch, { ch := ch, addr := id, ctr := stamp }, 0, 0, 0, false⟩

/-- How many of the flits that wait come before the end of a channel's last MARK. -/
def marksEnd (ch : Nat) (fs : List SentFlit) : Nat :=
  (upto fs.length).foldl (fun k i => if (fs.drop i).head?.any (fun f => f.ch == ch && f.kind == 3) then i + 1 else k) 0

/-- Place a flit at the next transaction boundary of its channel. -/
def atBoundary (m : SentFlit) : List SentFlit → List SentFlit
  | [] => [m]
  | f :: r => if f.ch = m.ch ∧ f.idx = 0 then m :: f :: r else f :: atBoundary m r

/-- Place a stop MARK at the next transaction boundary of its channel, after the MARKs that still wait there (R439). -/
def placeMark (m : SentFlit) (fs : List SentFlit) : List SentFlit :=
  fs.take (marksEnd m.ch fs) ++ atBoundary m (fs.drop (marksEnd m.ch fs))

/-- Place a resume MARK after the MARKs that still wait, or first (R518). -/
def placeResume (m : SentFlit) (fs : List SentFlit) : List SentFlit :=
  fs.take (marksEnd m.ch fs) ++ m :: fs.drop (marksEnd m.ch fs)

/-- Send a MARK on channels 0, 1 and 2 of a port. -/
def State.sendMarks (s : State) (n id : Nat) : State :=
  (s.modPort n (fun p => { p with txq := [0, 1, 2].foldl (fun q ch =>
    if id / 2 ^ 31 = 0 then placeMark (markFlit ch id s.time) q else placeResume (markFlit ch id s.time) q) p.txq })).drainPort n

/-- The module enters the stop (R439, R514, R515). -/
def State.enterStop (s : State) (id cause : Nat) : State :=
  let ports := (upto 96).filter (fun n => (s.port n).state == 2 && (s.port n).peerPrec == s.links.precid)
  let s1 := s.modStop (fun x => { x with
    id := id, cause := cause, stopped := true, all := true, reqOut := false, t0 := s.time
    stamps := s.poweredUnits.foldl (fun t u => Table.set 0 t u s.time) [], markPorts := ports })
  (forAll ports (fun t n => t.sendMarks n id) s1).trace 6 0x11 0 unitReset id 0

/-- A trigger of a stop (R513, R440): the owner stops; another module asks its parent, once a STOPREQ can be sent. -/
def State.triggerStop (s : State) (id cause origin : Nat) : State :=
  if s.stop.stopped || s.stop.reqOut then s
  else if s.stopOwner then s.enterStop id cause
  else if s.canCtl s.links.parentPort then
    (s.sendCtl s.links.parentPort 8 (toBytes 4 id ++ toBytes 2 origin)).modStop (fun x => { x with reqOut := true })
  else s

/-- Whether the links hold nothing on to the homes: the module is stopped, and its resume has not begun (R514, R518). -/
def State.linksHeld (s : State) : Bool := s.stop.stopped && s.stop.resuming.isNone

/-- Whether a port still has a transaction that it had received by a time. -/
def State.holdsFrom (s : State) (t : Nat) : Bool :=
  s.links.ports.any (fun e => (e.2.rxReq ++ e.2.rxRsp ++ e.2.rxCtl).any (fun x => decide (x.at_ ≤ t)))

/-- Every unit resumes (R518): the timers of R516 go on from where they stood, and the held resets and writes of DESTROY take place
(R519). -/
def State.endStop (s : State) : State :=
  let d := s.time - s.stop.t0
  let s2 := s.modLinks (fun l => { l with
    reqs := l.reqs.map (fun r => { r with sent := r.sent + (if r.sent < s.stop.t0 then d else s.time - r.sent) })
    gap := l.gap.map (fun h => { h with at_ := h.at_ + (if h.at_ < s.stop.t0 then d else s.time - h.at_) }) })
  let s3 := s2.modStop (fun x => { x with stopped := false, resuming := none, all := false, markPorts := [], heldWrites := [], heldResets := [] })
  let s4 := forAll s.stop.heldWrites (fun t e => t.writeQctl ((e.1 - 0xF0001000000) / 0x1000) e.2) s3
  (s4.releaseResets s.stop.heldResets).trace 6 0x11 0 unitReset (s.stop.id + 2 ^ 31) 0

/-- The stop ends once the links have handed on what they held as the resume began (R518). -/
def State.settleStop (s : State) : State :=
  match s.stop.resuming with
  | some t => if s.holdsFrom t then s else s.endStop
  | none => s

/-- The module leaves the stop (R518): resume MARKs on every port that carried its MARKs; then the links hand on what they hold. -/
def State.leaveStop (s : State) : State :=
  if s.linksHeld then
    State.settleStop ((forAll s.stop.markPorts (fun t n => t.sendMarks n (s.stop.id + 2 ^ 31)) s).modStop (fun x => { x with resuming := some s.time }))
  else s

/-- OBS_STOP_CTL (R513, R518, R520). -/
def State.writeStopCtl (s : State) (h : Half) (v : Nat) : State :=
  let s1 := if touchesHi h then s.modStop (fun x => { x with ctlId := bits v 32 31 }) else s
  if !touchesLo h then s1
  else
    let s2 := if v.testBit 1 && s1.stop.stopped && s1.stopOwner then s1.leaveStop else s1
    if v.testBit 0 then s2.triggerStop s2.stop.ctlId 1 s2.links.modnum else s2

/-! Links (R408, R418, R419, R425, R429, R434, R437, R438). -/

/-- LNK_PORT_n (R406, R408). -/
def State.writePort (s : State) (n : Nat) (h : Half) (v : Nat) : State :=
  if h = .hi then s
  else
    let en := v.testBit 6
    let s1 := s.modPort n (fun p => { p with child := v.testBit 7, en := en })
    let p := s1.port n
    if p.state = 3 then s1
    else if !en then s1.setPortDown n 0
    else if p.state = 0 then s1.setPortDown n 1 else s1

/-- The role that the strap and MASTER give; a conflict lost stays lost (R430). -/
def State.writeLnkPrec (s : State) (h : Half) (v : Nat) : State :=
  if h = .hi then s
  else s.modLinks (fun l => { l with
    nmem := max 1 (min 512 (bits v 16 10)), conflict := l.conflict && !v.testBit 7, root := v.testBit 1, master := v.testBit 0
    role := if v.testBit 0 && s.power.mstrTied then (if l.master then l.role else 1) else 0 })

/-- LNK_TIME.PARENT (R434). -/
def State.writeLnkTime (s : State) (h : Half) (v : Nat) : State :=
  if !touchesHi h then s
  else
    let p := bits v 55 7
    s.modLinks (fun l => { l with parent := p, tlock := decide (p = 0x7F), exchanges := 0, slew := 0 })

/-- LNK_EPOCH (R437). -/
def State.writeLnkEpoch (s : State) (h : Half) (v : Nat) : State :=
  s.modLinks (fun l =>
    let arm := bits (mergeHalf h (l.epochArm * 2 ^ 16) v) 16 24
    let m := { l with epochArm := arm }
    if touchesLo h then { m with late := m.late && !v.testBit 4, abandoned := m.abandoned && !v.testBit 3, armed := v.testBit 2 } else m)

/-- The child ports (R432). -/
def State.childPorts (s : State) : List Nat := (upto 96).filter (fun n => (s.port n).child)

/-- Send a control message on every child port. -/
def State.toChildren (s : State) (code : Nat) (payload : List Byte) : State :=
  forAll s.childPorts (fun t n => t.sendCtl n code payload) s

/-- The master's answer when every count is in, or when one answer was refused (R438). -/
def State.settleEpoch (s : State) : State :=
  let l := s.links
  if l.role = 1 ∧ l.inProg ∧ l.committed = false then
    if !l.epochOk then
      ((s.toChildren 7 (toBytes 4 l.epoch)).modLinks (fun l => { l with inProg := false, abandoned := true }))
    else if l.nmem ≤ l.epochCount ∧ s.time < l.epochTc then
      (s.toChildren 6 (toBytes 4 l.epoch ++ toBytes 8 l.epochTc)).modLinks (fun l => { l with committed := true })
    else s
  else s

/-- A GO write of LNK_EPOCH_GO (R438). -/
def State.writeEpochGo (s : State) (h : Half) (v : Nat) : State :=
  let l := s.links
  if touchesHi h ∧ v.testBit 63 ∧ l.role = 1 ∧ l.armed ∧ l.epochArm = (l.epochCur + 1) % 2 ^ 24 ∧ l.inProg = false then
    let e := (l.epochCur + 1) % 2 ^ 24
    let tc := s.time + (if touchesLo h then bits v 0 24 else 0) * 1000
    let s1 := s.modLinks (fun l => { l with
      inProg := true, epoch := e, epochTc := tc, epochCount := 1, epochOk := true, epochWait := s.childPorts, committed := false })
    (s1.toChildren 4 (toBytes 4 e ++ toBytes 8 tc)).settleEpoch
  else s

end Sys2Proof.Machine
end

