-- ==== Sys2Proof/Machine/Regs.lean ====
section
/-! DEFINITION. The register space: which register lies where (R269), who may access it, what it reads and what a
write does (R6 to R9). -/

namespace Sys2Proof.Machine

/-- The registers. A number `off` is the offset within its block. -/
inductive Reg where
  | ident
  | serial (hi : Bool)
  | hostWin (p off : Nat)
  | queue (q off : Nat)
  | hallCtr (c : Nat)
  | sealEntry (n : Nat) (hi : Bool)
  | handle (p h : Nat) (hi : Bool)
  | sqown (n : Nat)
  | hart (c : Nat)
  | qos (p : Nat)
  | intr (p : Nat)
  | mint
  | rstCtl
  | rstSts
  | bootInfo (off : Nat)
  | bootEntry
  | mbCmd (p : Nat)
  | mbArg (p i : Nat)
  | mbBuf (i : Nat)
  | sqCtr (u c : Nat)
  | pump (u off : Nat)
  | ftn (u off : Nat)
  | ftnG (off : Nat)
  | ctx (p : Nat)
  | poly (l : Nat) (hi : Bool)
  | rtab (p : Nat) (cnt : Bool)
  | pfx (p off : Nat)
  | xtent (n : Nat)
  | fenceCtl
  | fenceSts
  | pwr (off : Nat)
  | snap (off : Nat)
  | elog (p off : Nat)
  | elogStat
  | stopMask
  | trc (p off : Nat)
  | stop (off : Nat)
  | stamp (u : Nat)
  | capSquare (u i : Nat)
  | capLink (i : Nat)
  | shadow (b u i : Nat)
  | live (u i : Nat)
  | lnk (off : Nat)
  | lnkPort (n : Nat)
  | route (b m r : Nat)
  | pair (i : Nat)
  | bundle (b : Nat) (hi : Bool)
deriving DecidableEq, Repr

/-- Identity and management, queues and hall (R330, R351, R361, R364, R532). `o` is the offset from 0xF00_0000_0000. -/
def regLow (o : Nat) : Option Reg :=
  if o = 0 then some .ident
  else if o = 8 then some (.serial false)
  else if o = 16 then some (.serial true)
  else if 0x1000 ≤ o ∧ o < 0x1400 then (if (o - 0x1000) % 0x40 ≤ 16 then some (.hostWin ((o - 0x1000) / 0x40) ((o - 0x1000) % 0x40)) else none)
  else if 0x1000000 ≤ o ∧ o < 0x1100000 then (if o % 0x1000 ≤ 0x38 then some (.queue ((o - 0x1000000) / 0x1000) (o % 0x1000)) else none)
  else if 0x1100000 ≤ o ∧ o < 0x1108000 then some (.hallCtr ((o - 0x1100000) / 8))
  else if 0x1200000 ≤ o ∧ o < 0x1204000 then some (.sealEntry ((o - 0x1200000) / 16) (o % 16 == 8))
  else if 0x1300000 ≤ o ∧ o < 0x1310000 then some (.handle ((o - 0x1300000) / 0x1000) (o % 0x1000 / 16) (o % 16 == 8))
  else none

/-- Partitions and boot (R371, R483). -/
def regPart (o : Nat) : Option Reg :=
  if 0x2000000 ≤ o ∧ o < 0x2000080 then some (.sqown ((o - 0x2000000) / 8))
  else if 0x2000800 ≤ o ∧ o < 0x2000980 then some (.hart ((o - 0x2000800) / 8))
  else if 0x2000200 ≤ o ∧ o < 0x2000280 then some (.qos ((o - 0x2000200) / 8))
  else if 0x2000300 ≤ o ∧ o < 0x2000380 then some (.intr ((o - 0x2000300) / 8))
  else if o = 0x2000380 then some .mint
  else if o = 0x2000400 then some .rstCtl
  else if o = 0x2000408 then some .rstSts
  else if 0x3000000 ≤ o ∧ o ≤ 0x3000010 then some (.bootInfo (o - 0x3000000))
  else if o = 0x3000018 then some .bootEntry
  else if 0x3001000 ≤ o ∧ o < 0x3001400 then
    (let r := (o - 0x3001000) % 0x40
     let p := (o - 0x3001000) / 0x40
     if r = 0 then some (.mbCmd p) else if r = 8 then some (.mbArg p 0) else if r = 16 then some (.mbArg p 1) else none)
  else if 0x3020000 ≤ o ∧ o < 0x3030000 then some (.mbBuf ((o - 0x3020000) / 8))
  else none

/-- Squares, fountains, tables, extents and fences (R133, R157, R172, R204, R205, R250, R274, R299). -/
def regSquare (o : Nat) : Option Reg :=
  if 0x4000000 ≤ o ∧ o < 0x4010000 then some (.sqCtr ((o - 0x4000000) / 0x200) ((o - 0x4000000) % 0x200 / 8))
  else if 0x5000000 ≤ o ∧ o < 0x5008000 then (if o % 0x100 ≤ 0x20 then some (.pump ((o - 0x5000000) / 0x100) (o % 0x100)) else none)
  else if 0x5100000 ≤ o ∧ o < 0x5108000 then (if o % 0x100 ≤ 0x18 then some (.ftn ((o - 0x5100000) / 0x100) (o % 0x100)) else none)
  else if 0x5200000 ≤ o ∧ o < 0x5200020 then some (.ftnG (o - 0x5200000))
  else if 0x5200100 ≤ o ∧ o < 0x5200180 then some (.ctx ((o - 0x5200100) / 8))
  else if 0x5210000 ≤ o ∧ o < 0x5212000 then some (.poly ((o - 0x5210000) / 16) (o % 16 == 8))
  else if 0x5800000 ≤ o ∧ o < 0x5800100 then some (.rtab ((o - 0x5800000) / 16) (o % 16 == 8))
  else if 0x5900000 ≤ o ∧ o < 0x5900200 then (if o % 0x20 ≤ 0x10 then some (.pfx ((o - 0x5900000) / 0x20) (o % 0x20)) else none)
  else if 0x5A00000 ≤ o ∧ o < 0x5A02800 then some (.xtent ((o - 0x5A00000) / 8))
  else if o = 0x5A02800 then some .fenceCtl
  else if o = 0x5A02808 then some .fenceSts
  else none

/-- Power and observation (R464, R494, R499, R507, R512, R517, R520). -/
def regObs (o : Nat) : Option Reg :=
  if 0x6000000 ≤ o ∧ o < 0x6000030 ∨ 0x6000040 ≤ o ∧ o < 0x6000070 ∨ 0x6000080 ≤ o ∧ o < 0x60000D0 then some (.pwr (o - 0x6000000))
  else if 0x7000000 ≤ o ∧ o < 0x7000028 ∨ 0x7000040 ≤ o ∧ o < 0x7000070 then some (.snap (o - 0x7000000))
  else if o = 0x7000200 then some .elogStat
  else if o = 0x7000208 then some .stopMask
  else if 0x7000300 ≤ o ∧ o ≤ 0x7000320 then some (.stop (o - 0x7000300))
  else if 0x7001000 ≤ o ∧ o < 0x7001400 then (if o % 0x40 ≤ 0x28 then some (.elog ((o - 0x7001000) / 0x40) (o % 0x40)) else none)
  else if 0x7002000 ≤ o ∧ o < 0x7002400 then (if o % 0x40 ≤ 0x28 then some (.trc ((o - 0x7002000) / 0x40) (o % 0x40)) else none)
  else if 0x7010000 ≤ o ∧ o < 0x7010B00 then some (.stamp ((o - 0x7010000) / 8))
  else if 0x7020000 ≤ o ∧ o < 0x7030000 then some (.capSquare ((o - 0x7020000) / 0x200) ((o - 0x7020000) % 0x200 / 8))
  else if 0x7040000 ≤ o ∧ o < 0x70C0000 then some (.capLink ((o - 0x7040000) / 8))
  else if 0x7100000 ≤ o ∧ o < 0x71B0000 then some (.shadow 0 ((o - 0x7100000) / 0x800) ((o - 0x7100000) % 0x800 / 8))
  else if 0x7200000 ≤ o ∧ o < 0x72B0000 then some (.shadow 1 ((o - 0x7200000) / 0x800) ((o - 0x7200000) % 0x800 / 8))
  else if 0x7300000 ≤ o ∧ o < 0x73B0000 then some (.live ((o - 0x7300000) / 0x800) ((o - 0x7300000) % 0x800 / 8))
  else none

/-- Links and precinct (R408, R418, R419, R425, R429, R436, R437). -/
def regLinks (o : Nat) : Option Reg :=
  if 0x8000000 ≤ o ∧ o ≤ 0x8000028 then some (.lnk (o - 0x8000000))
  else if 0x8001000 ≤ o ∧ o < 0x8001300 then some (.lnkPort ((o - 0x8001000) / 8))
  else if 0x8100000 ≤ o ∧ o < 0x8140000 then
    some (.route ((o - 0x8100000) / 0x20000) ((o - 0x8100000) % 0x20000 / 32) (o % 32 / 8))
  else if 0x8200000 ≤ o ∧ o < 0x8202000 then some (.pair ((o - 0x8200000) / 8))
  else if 0x8300000 ≤ o ∧ o < 0x8300200 then some (.bundle ((o - 0x8300000) / 16) (o % 16 == 8))
  else none

/-- The register at an 8-byte aligned offset of the register space (R269). -/
def regAt (o : Nat) : Option Reg :=
  if o % 8 ≠ 0 then none
  else if o < 0x2000000 then regLow o
  else if o < 0x4000000 then regPart o
  else if o < 0x6000000 then regSquare o
  else if o < 0x8000000 then regObs o
  else regLinks o

/-- The square whose die holds a register, if a square does. -/
def Reg.square? (r : Reg) : Option Nat :=
  match r with
  | .sqCtr u _ => some u
  | .pump u _ => some u
  | .ftn u _ => some u
  | _ => none

/-- Whether an access to a register starts a wake and waits for it (R461): the square counters, the pumps and the fountains. -/
def Reg.wakes (r : Reg) : Bool :=
  match r with
  | .ftnG _ | .ctx _ | .poly _ _ => true
  | r => r.square?.isSome

/-- Who may read a register (R133, R172, R204, R205, R250, R274, R299, R330, R351, R361, R364, R371, R409, R464,
R483, R494, R499, R507, R512, R520, R532). -/
def State.mayRead (s : State) (r : Reg) (p : Nat) : Bool :=
  match r with
  | .ident | .serial _ | .sqown _ | .hart _ | .bootInfo _ | .poly _ _ | .lnkPort _ => true
  | .lnk off => off == 0 || p == 0
  | .hostWin q _ | .qos q | .intr q | .handle q _ _ | .rtab q _ | .pfx q _ | .elog q _ | .trc q _ => p == 0 || p == q
  | .queue q _ => p == 0 || ((s.queue q).bound && (s.queue q).part == p)
  | .hallCtr c => p == c / 256
  | .sealEntry n _ => p == 0 || (s.seal n).part == p
  | .mbCmd q | .mbArg q _ => p == q
  | .sqCtr u _ => s.squareOwnedBy u p
  | .pump u _ | .ftn u _ => p == 0 || s.squareOwnedBy u p
  | _ => p == 0

/-- Who may write a register. -/
def State.mayWrite (s : State) (r : Reg) (p : Nat) : Bool :=
  match r with
  | .ident | .serial _ | .bootInfo _ | .sealEntry _ _ | .handle _ _ _ | .sqCtr _ _ | .live _ _ | .shadow _ _ _ => false
  | .hostWin q _ | .pfx q _ | .elog q _ | .trc q _ => p == 0 || p == q
  | .queue q off => p == 0 || (off != 0 && (s.queue q).bound && (s.queue q).part == p)
  | .hallCtr c => p == c / 256
  | .mbCmd q | .mbArg q _ => p == q
  | .pump u _ => p == 0 || s.squareOwnedBy u p
  | _ => p == 0

/-- Fold bits of consecutive numbers into a register, `w` bits for each. -/
def packed (w n : Nat) (f : Nat → Nat) : Nat := (upto n).foldl (fun m i => m + f i * 2 ^ (w * i)) 0

/-! What registers read. -/

/-- Host-window registers (R532). -/
def hostWinValue (f : Function) (off : Nat) : Nat := if off = 0 then f.haper else if off = 8 then f.hbase else f.hsize

/-- PMP registers (R172). -/
def bankValue (b : Bank) : Nat := b.gen + 4 * bitN b.valid + 8 * bitN b.newest + b.useCnt * 2 ^ 16
def pumpValue (p : Pump) (off : Nat) : Nat :=
  match off with
  | 0x00 => (match p.cur with | some r => r.d.ticket % 2 ^ 32 + 2 ^ 40 | none => 0) + (p.lastTicket - p.released) % 256 * 2 ^ 32
  | 0x08 => p.tblSrc
  | 0x10 => p.tblGen + 8 * p.tblTgt + 2 ^ 8 * bitN p.tblBusy + 2 ^ 9 * bitN p.tblDone + p.tblErr * 2 ^ 16
  | 0x18 => bankValue p.bank0
  | _ => bankValue p.bank1

/-- Whether an FN instruction of a square is in progress: one in positioned mode that waits for a reload (R200, R204). Every other FN
instruction takes one step. -/
def State.fnBusy (s : State) (u : Nat) : Bool :=
  let q := s.sq u
  let w := ((q.code[q.pc]?).getD 0).toNat
  q.run == .running && q.stall == .none && q.ftn.mode == 0 && s.ftnG.busy && s.ftnG.job % 2 == 1 && bits w 0 4 == 4 && bits w 4 6 != 0

/-- FTN registers of a square (R204). -/
def ftnValue (f : Fountain) (busy : Bool) (off : Nat) : Nat :=
  match off with
  | 0x00 => f.mode + 2 * bitN busy + 4 * bitN f.jready + 8 * bitN f.lost
  | 0x08 => f.ctlMode
  | 0x10 => f.seed.toNat % 2 ^ 64
  | _ => f.seed.toNat / 2 ^ 64

/-- Module-wide fountain registers (R205). -/
def ftnGValue (g : FtnGlobal) (off : Nat) : Nat :=
  match off with
  | 0x00 => 2 ^ 8 * bitN g.busy + 2 ^ 9 * bitN g.done + g.err * 2 ^ 16
  | 0x08 => g.jsrc
  | 0x10 => packed 1 64 (fun i => bitN (Table.get false g.stfail i))
  | _ => packed 1 64 (fun i => bitN (Table.get false g.stfail (64 + i)))

/-- BOOT_STATUS, BOOT_SVN, BOOT_IMGVER (R483). -/
def bootValue (b : Boot) (off : Nat) : Nat :=
  match off with
  | 0x00 => b.phase + 2 ^ 16 * b.slot + 2 ^ 21 * bitN b.ddfail + 2 ^ 22 * bitN b.idfail + 2 ^ 23 * bitN b.rpmcf +
      2 ^ 32 * b.acause + 2 ^ 36 * b.bcause
  | 0x08 => b.counter + 2 ^ 32 * b.svn
  | _ => b.imgVer

/-- PWR registers (R464). -/
def dieValue (d : Die) : Nat :=
  bitN d.off + 2 * bitN d.phflt + d.volt % 65536 * 2 ^ 16 + d.speed % 4096 * 2 ^ 44 + d.tj % 256 * 2 ^ 56
def powerValue (w : Power) (off : Nat) : Nat :=
  if off = 0x00 then
    w.thr + w.state * 2 ^ 16 + bitN w.loss * 2 ^ 18 + bitN w.trip * 2 ^ 19 + bitN w.deny * 2 ^ 20 + w.target % 4096 * 2 ^ 36 + w.tblFail * 2 ^ 48
  else if off = 0x08 then 4 * bitN w.wien + w.ramp * 2 ^ 8
  else if off = 0x10 then w.limit + w.window * 2 ^ 16
  else if off = 0x18 then w.tjt + w.tmax % 256 * 2 ^ 8
  else if off = 0x20 then w.energy
  else if off = 0x28 then w.vin % 65536 + w.iin % 65536 * 2 ^ 16 + w.pin % 65536 * 2 ^ 32 + (w.avg / 1000).toNat % 65536 * 2 ^ 48
  else if off < 0x80 then Table.get 0 w.thrDur ((off - 0x40) / 8)
  else dieValue (Table.get {} w.dies ((off - 0x80) / 8))

/-- A counter at its live address (R494); counts that follow rates are free values (LOG 19). -/
def State.liveCounter (s : State) (u i : Nat) : Nat :=
  (if uncounted u i then freeCounter s.ctrEpoch s.ctrAge u i s.counters else Table.get 0 s.counters (256 * u + i)).toNat

/-- A counter's shadow (R494, R495): an uncounted one as it was at the unit's last latch of the bank. -/
def State.shadowCounter (s : State) (b u i : Nat) : Nat :=
  let bank := if b = 0 then s.snap.bank0 else s.snap.bank1
  let age := Table.get (0, 0) (if b = 0 then s.snap.age0 else s.snap.age1) u
  (if uncounted u i then freeCounter age.1 age.2 u i bank else Table.get 0 bank (256 * u + i)).toNat

/-- The snapshot registers (R499). -/
def State.snapValue (s : State) (off : Nat) : Nat :=
  let n := s.snap
  if off = 0x00 then s.time
  else if off = 0x08 then packed 1 22 (fun r => bitN (decide (2 ≤ s.replica r))) + bitN (!s.links.tlock) * 2 ^ 22
  else if off = 0x10 then n.t
  else if off = 0x18 then n.end_
  else if off = 0x20 then bitN n.busy * 2 ^ 8 + bitN n.done * 2 ^ 9 + bitN n.late * 2 ^ 10
  else packed 1 64 (fun i => bitN (Table.get false n.uv (8 * (off - 0x40) + i)))

/-- The registers of an error-log ring (R507). -/
def elogValue (g : ErrRing) (off : Nat) : Nat :=
  match off with
  | 0x00 => g.base + g.log2n
  | 0x08 => g.tail
  | 0x10 => g.head
  | 0x18 => 2 * bitN g.ien + 4 * g.itype + 8 * g.vec + 2 ^ 14 * g.hart
  | 0x20 => g.err + g.lost * 2 ^ 32
  | _ => g.from_

/-- The registers of a trace ring (R512). -/
def trcValue (g : TrcRing) (off : Nat) : Nat :=
  match off with
  | 0x00 => g.base + g.log2n
  | 0x08 => g.tail
  | 0x10 => g.head
  | 0x18 => g.en
  | 0x20 => g.err + g.lost * 2 ^ 32
  | _ => 0

/-- The stream bytes held of the selected port and channel, those of a transaction received in part included (R517). -/
def State.capturedBytes (s : State) : List Byte :=
  if s.stop.stopped then
    let p := s.port s.stop.selPort
    let ts := if s.stop.selCh = 0 then p.rxReq else if s.stop.selCh = 1 then p.rxRsp else p.rxCtl
    let hs := (s.links.gap.filter (fun h => h.port == s.stop.selPort && h.txn.ch == s.stop.selCh)).map (·.txn)
    ((hs ++ ts).map (fun t => t.headerBytes ++ t.payload)).flatten ++
      (if s.stop.selCh = 0 then p.partialReq else if s.stop.selCh = 1 then p.partialRsp else p.partialCtl)
  else []

/-- Whether a kernel is running on a square: a fused command is none (R517). -/
def State.runsKernel (s : State) (u : Nat) : Bool :=
  (s.sq u).run != .idle && (s.launch (s.sq u).launch).all (fun l => l.kind == .kernel)

/-- A word of the capture window of a square (R517). -/
def State.captureWord (s : State) (u i : Nat) : Nat :=
  if !s.stop.stopped then 0
  else
    let q := s.sq u
    if i < 32 then (Table.get 0 q.sregs i).toNat
    else if i = 32 then 16 * q.pc
    else if i = 33 then q.atOps.length * 2 ^ 24 + (q.pump.lastTicket - q.pump.released) * 2 ^ 32
    else if i = 34 then bitN q.accSat + 2 * bitN q.outSat + 2 ^ 8 * bitN (!s.runsKernel u)
    else 0

/-- The stop registers (R520). -/
def State.stopValue (s : State) (off : Nat) : Nat :=
  let x := s.stop
  match off with
  | 0x00 => x.ctlId * 2 ^ 32
  | 0x08 => 2 * bitN x.stopped + 4 * bitN s.stopOwner + 8 * bitN x.all + 16 * x.cause + x.id % 2 ^ 31 * 2 ^ 32
  | 0x10 => x.t0
  | 0x18 => x.selPort + x.selCh * 2 ^ 7
  | _ => s.capturedBytes.length

/-- LNK_ID to LNK_EPOCH (R429, R436, R437). -/
def State.lnkValue (s : State) (off : Nat) : Nat :=
  let l := s.links
  match off with
  | 0x00 => l.modnum + l.precid * 2 ^ 16
  | 0x08 => bitN l.master + 2 * bitN l.root + 2 ^ 5 * bitN s.power.mstrTied + 2 ^ 6 * bitN (s.power.mstrTied != l.master) +
      2 ^ 7 * bitN l.conflict + l.role * 2 ^ 8 + l.nmem * 2 ^ 16
  | 0x10 => l.timeout
  | 0x18 => l.delay % 65536 + pattern 24 l.offset * 2 ^ 16 + l.parent * 2 ^ 55 + bitN l.tlock * 2 ^ 63
  | 0x20 => l.active + 4 * bitN l.armed + 8 * bitN l.abandoned + 16 * bitN l.late + 32 * bitN l.inProg + l.epochArm * 2 ^ 16 +
      l.epochCur * 2 ^ 40
  | _ => 0

/-- LNK_PORT_n (R408). -/
def portValue (p : Port) : Nat :=
  p.state + 2 ^ 6 * bitN p.en + 2 ^ 7 * bitN p.child + 2 ^ 8 * bitN p.loop + p.retrains * 2 ^ 24 + p.peerPrec * 2 ^ 37 +
    p.peerP * 2 ^ 45 + p.peerM * 2 ^ 52

/-- LNK_PAIR_i (R425). -/
def pairValue (e : Pair) : Nat :=
  e.kslot + e.rpart * 2 ^ 16 + e.lpart * 2 ^ 24 + e.peer * 2 ^ 32 + bitN e.valid * 2 ^ 63

/-- PTN_HART_n (R375). -/
def hartValue (h : Hart) : Nat := h.part + 16 * bitN h.valid + 2 ^ 8 * bitN h.run + 2 ^ 9 * bitN h.halted

/-- What a register reads to a partition (R6). -/
def State.regValue (s : State) (r : Reg) (p : Nat) : Nat :=
  match r with
  | .ident => 0xB0 + s.boot.identPart * 2 ^ 8 + p * 2 ^ 16
  | .serial hi => (if hi then s.boot.serialHi else s.boot.serialLo).toNat
  | .hostWin q off => hostWinValue (s.part q).fn off
  | .queue q off => queueValue (s.queue q) off
  | .hallCtr c => (s.hallCounter c).toNat
  | .sealEntry n hi =>
    let x := s.seal n
    if hi then x.pages + x.pins * 2 ^ 32 else x.base + x.part * 2 ^ 56 + x.state * 2 ^ 62
  | .handle q h hi =>
    let x := Table.get {} s.handles (256 * q + h)
    if hi then x.ver + x.range * 2 ^ 32 else x.addr + bitN x.valid * 2 ^ 63
  | .sqown n => packed 8 8 (fun i => ownerByte (s.owner (8 * n + i)))
  | .hart c => hartValue (s.hart c)
  | .qos q => (s.part q).qosHall + (s.part q).qosMem * 2 ^ 8 + (s.part q).qosBrg * 2 ^ 16 + (s.part q).qosLnk * 2 ^ 24
  | .intr q => (s.part q).rdItype + (s.part q).rdVec * 2 ^ 6 + (s.part q).rdHart * 2 ^ 17 + (s.part q).mod_ * 2 ^ 32
  | .mint => s.mintItype + s.mintVec * 2 ^ 6 + s.mintHart * 2 ^ 17
  | .rstCtl => 0
  | .rstSts => packed 1 16 (fun i => bitN (s.part i).reset.resetting) + packed 1 16 (fun i => bitN (s.part i).reset.done) * 2 ^ 32 +
      s.rstLast * 2 ^ 48
  | .bootInfo off => bootValue s.boot off
  | .bootEntry => s.boot.entry
  | .mbCmd q => (s.part q).mbox.op + 2 ^ 14 * bitN (s.part q).mbox.busy + 2 ^ 15 * bitN (s.part q).mbox.done + (s.part q).mbox.err * 2 ^ 24
  | .mbArg q i => (if i = 0 then (s.part q).mbox.arg0 else (s.part q).mbox.arg1).toNat
  | .mbBuf i => ofBytes (Table.getList 0 s.boot.mbBuf (8 * i) 8)
  | .sqCtr u c => (s.squareCounter u c).toNat
  | .pump u off => pumpValue (s.sq u).pump off
  | .ftn u off => ftnValue (s.sq u).ftn (s.fnBusy u) off
  | .ftnG off => ftnGValue s.ftnG off
  | .ctx q => (s.part q).ctxBase + bitN (s.part q).ctxEn
  | .poly l hi => if hi then polyOf l / 2 ^ 64 else polyOf l % 2 ^ 64
  | .rtab q cnt => if cnt then (s.part q).rtabCnt else (s.part q).rtabBase
  | .pfx q off => if off = 0 then (s.part q).pfxBase else if off = 8 then (s.part q).pfxLog2n + (s.part q).pfxProbe * 2 ^ 8 else (s.part q).pfxKey.toNat
  | .xtent n => packed 8 8 (fun i => extentByte (s.extent (8 * n + i)))
  | .fenceCtl => 0
  | .fenceSts => packed 4 8 (fun q => (s.fence q).cause) + packed 1 8 (fun q => bitN (s.fence q).busy) * 2 ^ 32 +
      packed 1 8 (fun q => bitN (s.fence q).rfail) * 2 ^ 40
  | .pwr off => powerValue s.power off
  | .snap off => s.snapValue off
  | .elog q off => elogValue (s.part q).elog off
  | .elogStat => s.elog.drop + s.elog.next % 2 ^ 32 * 2 ^ 32
  | .stopMask => s.elog.stopMask
  | .trc q off => trcValue (s.part q).trc off
  | .stop off => s.stopValue off
  | .stamp u => Table.get 0 s.stop.stamps u
  | .capSquare u i => s.captureWord u i
  | .capLink i => ofBytes (slice s.capturedBytes (8 * i) 8)
  | .shadow b u i => s.shadowCounter b u i
  | .live u i => s.liveCounter u i
  | .lnk off => s.lnkValue off
  | .lnkPort n => portValue (s.port n)
  | .route b m i => s.routeWord b m i
  | .pair i => pairValue (Table.get {} s.links.pairs i)
  | .bundle b hi =>
    let v := (Table.get (0 : BitVec 96) s.links.bundles b).toNat
    if hi then v / 2 ^ 64 else v % 2 ^ 64

/-! What writes do. -/

/-- PTN_HAPER_p, PTN_HBASE_p, PTN_HSIZE_p (R532). -/
def writeHostWin (f : Function) (off : Nat) (h : Half) (v : Nat) : Function :=
  match off with
  | 0x00 => { f with haper := mergeHalf h f.haper v % 2 ^ 44 / 2 ^ (max 28 f.bar2) * 2 ^ (max 28 f.bar2) }
  | 0x08 => { f with hbase := mergeHalf h f.hbase v / 4096 * 4096 }
  | _ => { f with hsize := min (2 ^ 42) (mergeHalf h f.hsize v % 2 ^ 43 / 4096 * 4096) }

/-- The bank a table load closes (R173): 0 when none is valid, else an invalid one, else the one not newest. -/
def loadTarget (p : Pump) : Nat :=
  if !p.bank0.valid then 0 else if !p.bank1.valid then 1 else if p.bank0.newest then 1 else 0

/-- A GO write of PMP_TBL_CTL (R173, steps 1 to 3). -/
def startTableLoad (p : Pump) (gen : Nat) : Pump :=
  let t := loadTarget p
  let other := if t = 0 then p.bank1 else p.bank0
  let q := { p with tblGen := gen, tblTgt := t }
  if other.valid ∧ other.gen = gen then { q with tblErr := eIllegal, tblDone := true }
  else
    let b := { q with tblBusy := true, tblLoad := gen, tblSent := false, tblImage := none, tblCode := 0 }
    if t = 0 then { b with bank0 := { p.bank0 with closed := true } } else { b with bank1 := { p.bank1 with closed := true } }

/-- PMP registers (R172, R173). -/
def writePump (p : Pump) (off : Nat) (h : Half) (v : Nat) : Pump :=
  match off with
  | 0x08 => { p with tblSrc := mergeHalf h p.tblSrc v % 2 ^ 56 / 32 * 32 }
  | 0x10 =>
    if h = .hi then p
    else if v.testBit 4 then
      if p.tblBusy then p
      else startTableLoad { p with tblDone := p.tblDone && !v.testBit 9 } (v % 4)
    else { p with tblDone := p.tblDone && !v.testBit 9, tblGen := v % 4 }
  | _ => p

/-- FTN registers of a square (R204). -/
def writeFtn (f : Fountain) (off : Nat) (h : Half) (v : Nat) : Fountain :=
  if h = .hi then f
  else
    match off with
    | 0x00 => { f with lost := f.lost && !v.testBit 3 }
    | 0x08 => { f with ctlMode := v % 2 }
    | _ => f

/-- PWR registers (R464). -/
def State.writePower (s : State) (off : Nat) (h : Half) (v : Nat) : State :=
  if off = 0x00 then
    if h = .hi then s
    else s.modPower (fun w => { w with deny := w.deny && !v.testBit 20, trip := w.trip && !v.testBit 19, loss := w.loss && !v.testBit 18 })
  else if h = .hi then s
  else if off = 0x08 then s.writePowerCtl h v
  else if off = 0x10 then s.modPower (fun w => { w with window := max 1 (min 20 (bits v 16 5)), limit := max 1000 (min 3400 (v % 4096)) })
  else if off = 0x18 then s.modPower (fun w => { w with tjt := max 70 (min 100 (v % 256)) })
  else s

/-- Error-log ring registers (R507). -/
def State.writeElog (s : State) (p off : Nat) (h : Half) (v : Nat) : State :=
  match off with
  | 0x00 => s.writeElogRing p h v
  | 0x10 => s.modPart p (fun x => { x with elog := { x.elog with head := mergeHalf h x.elog.head v } })
  | 0x18 => if h = .hi then s else s.modPart p (fun x => { x with elog := { x.elog with ien := v.testBit 1, itype := bits v 2 1, vec := bits v 3 11, hart := bits v 14 6 } })
  | 0x20 => s.modPart p (fun x => { x with elog := { x.elog with lost := x.elog.lost - Nat.land x.elog.lost (halfBits h v / 2 ^ 32) } })
  | 0x28 => if h = .hi then s else s.modPart p (fun x => { x with elog := { x.elog with from_ := v % 2 ^ 32 } })
  | _ => s

/-- Trace ring registers (R512): class 6 only in ring 0. -/
def State.writeTrc (s : State) (p unit off : Nat) (h : Half) (v : Nat) : State :=
  match off with
  | 0x00 => s.writeTrcRing p h v
  | 0x10 => (s.modPart p (fun x => { x with trc := { x.trc with head := mergeHalf h x.trc.head v } })).flushLoss p
  | 0x18 => if h = .hi then s else s.modPart p (fun x => { x with trc := { x.trc with en := if p = 0 then v % 256 else v % 256 - (if v.testBit 6 then 64 else 0) } })
  | 0x28 => s.writeTrcMark p unit (halfBits h v)
  | _ => s

/-- A write of a register by an agent that may write it: the new state and the code of a refusal (R6 to R9). -/
def State.regWrite (s : State) (r : Reg) (w : RegWrite) : State × Nat :=
  let v := halfBits w.half w.val.toNat
  let h := w.half
  let lo := touchesLo h
  match r with
  | .hostWin q off => (s.modPart q (fun x => { x with fn := writeHostWin x.fn off h v }), eOk)
  | .queue q off => s.writeQueueReg q off { w with val := BitVec.ofNat 64 v }
  | .hallCtr c => (s.setHallCounter c (BitVec.ofNat 64 v), eOk)
  | .sqown n => (s.writeSqown n h v, eOk)
  | .hart c => (if lo then s.writeHart c v else s, eOk)
  | .qos q => (if lo then s.modPart q (fun x => { x with qosHall := bits v 0 8, qosMem := bits v 8 8, qosBrg := bits v 16 8, qosLnk := bits v 24 8 }) else s, eOk)
  | .intr q =>
    let s1 := if lo then s.modPart q (fun x => { x with rdItype := bits v 0 1, rdVec := bits v 6 11, rdHart := bits v 17 6 }) else s
    (if touchesHi h then s1.modPart q (fun x => { x with mod_ := bits v 32 16 }) else s1, eOk)
  | .mint => (if lo then { s with mintItype := bits v 0 1, mintVec := bits v 6 11, mintHart := bits v 17 6 } else s, eOk)
  | .rstCtl => (if lo then s.writeRstCtl v else s, eOk)
  | .rstSts => (forAll (upto 16) (fun t i => if v.testBit (32 + i) then t.modPart i (fun x => { x with reset := { x.reset with done := false } }) else t) s, eOk)
  | .bootEntry => (s.modBoot (fun b => { b with entry := mergeHalf h b.entry v % 2 ^ 56 / 4 * 4 }), eOk)
  | .mbCmd q => (s.writeMailbox q h v, eOk)
  | .mbArg q i => (s.modPart q (fun x => { x with mbox := if i = 0 then { x.mbox with arg0 := BitVec.ofNat 64 (mergeHalf h x.mbox.arg0.toNat v) } else { x.mbox with arg1 := BitVec.ofNat 64 (mergeHalf h x.mbox.arg1.toNat v) } }), eOk)
  | .mbBuf i => (s.modBoot (fun b => { b with mbBuf := Table.setList 0 b.mbBuf (8 * i) (toBytes 8 (mergeHalf h (ofBytes (Table.getList 0 b.mbBuf (8 * i) 8)) v)) }), eOk)
  | .pump u off => (s.modSq u (fun q => { q with pump := writePump q.pump off h v }), eOk)
  | .ftn u off => (s.modSq u (fun q => { q with ftn := writeFtn q.ftn off h v }), eOk)
  | .ftnG off =>
    (if off = 0 then
      if lo then
        State.startFountainJob { s with ftnG := { s.ftnG with done := s.ftnG.done && !v.testBit 9 } } (v.testBit 0) (v.testBit 1)
      else s
    else if off = 8 then { s with ftnG := { s.ftnG with jsrc := mergeHalf h s.ftnG.jsrc v % 2 ^ 56 / 32 * 32 } }
    else s, eOk)
  | .ctx q => (s.modPart q (fun x =>
      let m := mergeHalf h (x.ctxBase + bitN x.ctxEn) v
      { x with ctxBase := m % 2 ^ 44 / 32 * 32, ctxEn := m.testBit 0 }), eOk)
  | .rtab q cnt =>
    (if cnt then (if lo then s.modPart q (fun x => { x with rtabCnt := min 64 (v % 128) }) else s)
     else s.modPart q (fun x => { x with rtabBase := mergeHalf h x.rtabBase v % 2 ^ 44 / 32 * 32 }), eOk)
  | .pfx q off =>
    (if off = 0 then s.modPart q (fun x => { x with pfxBase := mergeHalf h x.pfxBase v % 2 ^ 44 / 64 * 64 })
     else if off = 8 then (if lo then s.modPart q (fun x => { x with pfxLog2n := min 26 (v % 32), pfxProbe := max 1 (bits v 8 6) }) else s)
     else s.modPart q (fun x => { x with pfxKey := BitVec.ofNat 64 (mergeHalf h x.pfxKey.toNat v) }), eOk)
  | .xtent n => (s.writeXtent n h v, eOk)
  | .fenceCtl => (s.writeFenceCtl v, eOk)
  | .fenceSts => (forAll (upto 8) (fun t q => if v.testBit (40 + q) then t.modFence q (fun f => { f with rfail := false }) else t) s, eOk)
  | .pwr off => (s.writePower off h v, eOk)
  | .snap off =>
    (if off = 0x10 then s.modSnap (fun n => { n with t := mergeHalf h n.t v })
     else if off = 0x18 then s.modSnap (fun n => { n with end_ := mergeHalf h n.end_ v })
     else if off = 0x20 then s.writeSnapCtl h v else s, eOk)
  | .elog q off => (s.writeElog q off h v, eOk)
  | .stopMask => (if lo then s.modElog (fun e => { e with stopMask := v % 65536 }) else s, eOk)
  | .trc q off => (s.writeTrc q w.unit off h v, eOk)
  | .stop off =>
    (if off = 0 then s.writeStopCtl h v
     else if off = 0x18 then (if lo then s.modStop (fun x => { x with selPort := bits v 0 7, selCh := bits v 7 2 }) else s) else s, eOk)
  | .lnk off =>
    (match off with
     | 0x00 => s.writeLnkId h v
     | 0x08 => s.writeLnkPrec h v
     | 0x10 => if lo then s.modLinks (fun l => { l with timeout := max 1 (v % 65536) }) else s
     | 0x18 => s.writeLnkTime h v
     | 0x20 => s.writeLnkEpoch h v
     | _ => s.writeEpochGo h v, eOk)
  | .lnkPort n => (s.writePort n h v, eOk)
  | .route b m i => (s.modLinks (fun l =>
      let k := 16384 * b + 4 * m + i
      let x := mergeHalf h (Table.get 0 l.route k).toNat v
      { l with route := Table.set 0 l.route k (BitVec.ofNat 64 (x % 2 ^ 45 + (if x.testBit 63 then 2 ^ 63 else 0))) }), eOk)
  | .pair i => (s.modLinks (fun l =>
      let x := mergeHalf h (pairValue (Table.get {} l.pairs i)) v
      { l with pairs := Table.set {} l.pairs i ⟨x.testBit 63, bits x 32 12, bits x 24 4, bits x 16 4, bits x 0 10⟩ }), eOk)
  | .bundle b hi => (s.modLinks (fun l =>
      let old := (Table.get (0 : BitVec 96) l.bundles b).toNat
      let n := if hi then mergeHalf h (old / 2 ^ 64) v % 2 ^ 32 * 2 ^ 64 + old % 2 ^ 64 else old / 2 ^ 64 * 2 ^ 64 + mergeHalf h (old % 2 ^ 64) v
      { l with bundles := Table.set 0 l.bundles b (BitVec.ofNat 96 n) }), eOk)
  | _ => (s, eOk)

/-! Checked accesses to the register space (R7, R269, R293). -/

/-- The die that holds a register: its square's quarter, G1 for the error log and the trace collector (R490), and G0 for the
rest (LOG 71). -/
def Reg.die (r : Reg) : Nat :=
  match r with
  | .elog _ _ | .elogStat | .stopMask | .trc _ _ => 9
  | _ => match r.square? with | some u => u / 16 | none => 8

/-- Orders 1 and 2 of R293: the register at an address, and whether its die is in service and reachable (R297). -/
def State.findReg (s : State) (unit a : Nat) : Except Nat Reg :=
  match regAt ((a - regBase) / 8 * 8) with
  | none => .error eUnmapped
  | some r => if !s.liveDie r.die || !s.hasRoute (dieOfUnit unit) r.die then .error eUnmapped else .ok r

/-- The size rule: square and hall counters take 64 bits only (R133, R351); others 32 or 64 (R7). -/
def regSizeOk (r : Reg) (a n : Nat) : Bool :=
  let wide := match r with | .sqCtr _ _ => true | .hallCtr _ => true | _ => false
  (n == 8 && a % 8 == 0) || (n == 4 && a % 4 == 0 && !wide)

/-- A checked read of the register space. -/
def State.regRead (s : State) (unit p a n : Nat) : Except Nat (List Byte) :=
  match s.findReg unit a with
  | .error c => .error c
  | .ok r =>
    if !regSizeOk r a n then .error eAlign
    else if !s.mayRead r p then .error ePermission
    else .ok (toBytes n (s.regValue r p / 2 ^ (8 * (a % 8))))

/-- The code of the error response that a write of the register space would get from its checks; 0 when it passes them. -/
def State.regStoreCode (s : State) (unit p a n : Nat) : Nat :=
  match s.findReg unit a with
  | .error c => c
  | .ok r =>
    if !regSizeOk r a n then eAlign
    else if !s.mayWrite r p then ePermission
    else if Table.get false s.badWrite unit then eParity
    else eOk

/-- A checked write of the register space. -/
def State.regStore (s : State) (unit : Nat) (p : PartId) (a : Nat) (bs : List Byte) : State × Nat :=
  match s.findReg unit a with
  | .error c => (s, c)
  | .ok r =>
    if !regSizeOk r a bs.length then (s, eAlign)
    else if !s.mayWrite r p.val then (s, ePermission)
    else if Table.get false s.badWrite unit then (s.takeBadWrite unit, eParity)
    else
      let h : Half := if bs.length = 8 then .full else if a % 8 = 0 then .lo else .hi
      s.regWrite r ⟨unit, p, h, BitVec.ofNat 64 (ofBytes bs * 2 ^ (8 * (a % 8)))⟩

/-- A checked atomic of the register space: a 64-bit add to a counter alone (R133, R271, R351). -/
def State.regAtomic (s : State) (unit p a n op operand : Nat) : State × Except Nat Nat :=
  match s.findReg unit a with
  | .error c => (s, .error c)
  | .ok r =>
    if !regSizeOk r a n then (s, .error eAlign)
    else
      match r with
      | .sqCtr u c =>
        if op ≠ 0 ∨ n ≠ 8 then (s, .error eAtomic)
        else if !s.squareOwnedBy u p then (s, .error ePermission)
        else if Table.get false s.badWrite unit then (s.takeBadWrite unit, .error eParity)
        else (s.setSquareCounter u c (s.squareCounter u c + BitVec.ofNat 64 operand), .ok (s.squareCounter u c).toNat)
      | .hallCtr c =>
        if op ≠ 0 ∨ n ≠ 8 then (s, .error eAtomic)
        else if p ≠ c / 256 then (s, .error ePermission)
        else if Table.get false s.badWrite unit then (s.takeBadWrite unit, .error eParity)
        else (s.setHallCounter c (s.hallCounter c + BitVec.ofNat 64 operand), .ok (s.hallCounter c).toNat)
      | _ => (s, .error eAtomic)

/-- `n` bytes cross between a unit and the die of a register (R19). -/
def State.carryRegister (s : State) (unit a n : Nat) (op : AccOp) : State :=
  match regAt ((a - regBase) / 8 * 8) with
  | none => s
  | some r => s.carryData unit r.die n op

/-- A register write that is performed: its checks, and the response that the requester gets; an error response is logged with the
register's address and held until its record is accepted. -/
def State.performWrite (s : State) (o : Nat) (w : RegWrite) : State :=
  let bs := match w.half with
    | .full => toBytes 8 w.val.toNat
    | .lo => toBytes 4 w.val.toNat
    | .hi => toBytes 4 (w.val.toNat / 2 ^ 32)
  let a := regBase + o / 8 * 8 + (match w.half with | .hi => 4 | _ => 0)
  let r := s.regStore w.unit w.part a bs
  if r.2 = eOk then (r.1.carryRegister w.unit a bs.length .write).emit (.resp w.unit 0 [])
  else r.1.logErr w.unit w.part.val r.2 (globalOf a) (.out (.resp w.unit r.2 []))

/-- Whether a posted write of a host function stands behind one that a wake holds (R324). -/
def State.heldBehind (s : State) (unit : Nat) : Bool :=
  decide (0xD0 ≤ unit ∧ unit < 0xE0) &&
    s.held.any (fun h => match h with | .host x => unitHost x.fn.val == unit && x.write | .reg _ w => w.unit == unit | .link _ _ => false)

/-- Whether an offset of the register space can be reached: in recovery, the BOOT_ registers alone (R481, R524). -/
def State.registerReached (s : State) (o : Nat) : Bool := s.boot.phase != 4 || decide (0x3000000 ≤ o ∧ o < 0x4000000)

/-- A register write as a command: the write at an offset of the register space. One that a wake holds waits for full service (R461), and
so does one of a host function behind another that it holds (R324); a core's waits for its FENCE (R311, R325) and for the end of a
stop (R514). -/
def State.registerCommand (s : State) (o : Nat) (w : RegWrite) : State :=
  if !s.registerReached o || s.coreHolds w.unit then s
  else if (s.power.state ≠ 0 ∧ (regAt (o / 8 * 8)).any Reg.wakes = true) ∨ s.heldBehind w.unit = true then
    State.requestWake { s with held := s.held ++ [.reg o w] }
  else s.performWrite o w

end Sys2Proof.Machine
end

