-- ==== Sys2Proof/Machine/Exact.lean ====
section
/-! DEFINITION. The exactly rounded values of the seven built-in functions (R562): integer arithmetic on 128 fraction bits, rounded once
onto the output grid. RECIP and RSQRT are rounded from the exact rational or root. The other five are within 2^-100 of a unit before that
one rounding, so a value closer than that to a half unit may round the other way (LOG 7). -/

namespace Sys2Proof.Machine

/-- One on the working grid 2^-128. -/
def fixOne : Nat := 2 ^ 128

/-- floor(sqrt n): one bit a step, from bit `f - 1` down. -/
def isqrtFrom (n : Nat) : Nat → Nat → Nat
  | 0, r => r
  | f + 1, r => isqrtFrom n f (if (r + 2 ^ f) * (r + 2 ^ f) ≤ n then r + 2 ^ f else r)

/-- floor(sqrt n) for n below 2^512. -/
def isqrt (n : Nat) : Nat := isqrtFrom n 256 0

/-- num / den rounded to nearest, halves away from zero. -/
def rdivNat (num den : Nat) : Nat := (2 * num + den) / (2 * den)

/-- The sum of a series: `f` terms, each from the one before by `next k t`. -/
def series (next : Nat → Int → Int) : Nat → Nat → Int → Int
  | 0, _, _ => 0
  | f + 1, k, t => t + series next f (k + 1) (next k t)

/-- ln 2, as the sum of 1 / (k 2^k). -/
def fixLn2 : Nat := (List.range' 1 140).foldl (fun a k => a + fixOne * 65536 / (k * 2 ^ k)) 0 / 65536

/-- atan(1 / n), by its series. -/
def fixAtan (n : Nat) : Int :=
  (List.range 60).foldl (fun a k => a + (if k % 2 = 0 then 1 else -1) * (((2 ^ 144 / (n ^ (2 * k + 1) * (2 * k + 1)) : Nat)) : Int)) 0

/-- sqrt(2 pi), with pi by Machin's formula. -/
def fixSqrt2Pi : Nat := isqrt ((2 * (16 * fixAtan 5 - 4 * fixAtan 239)).toNat * 2 ^ 112)

/-- Square n times. -/
def fixSquares : Nat → Nat → Nat
  | 0, v => v
  | n + 1, v => fixSquares n (v * v / fixOne)

/-- e^(-y) for y from 0 to 64: the series at y / 1024, then ten squarings. -/
def fixExpNeg (y : Nat) : Nat :=
  let z : Int := ((y / 1024 : Nat) : Int)
  fixSquares 10 (series (fun k t => -(t * z) / (((k + 1) * fixOne : Nat) : Int)) 24 0 (fixOne : Int)).toNat

/-- log2 of m, for m from 1 to 2: 2 atanh((m - 1) / (m + 1)) / ln 2. -/
def fixLog2 (m : Nat) : Nat :=
  let z : Int := (((m - fixOne) * fixOne / (m + fixOne) : Nat) : Int)
  let zz : Int := z * z / (fixOne : Int)
  let ps := (List.range 45).foldl (fun (a : Int × Int) k => (a.1 + a.2 / ((2 * k + 1 : Nat) : Int), a.2 * zz / (fixOne : Int))) (0, z)
  (2 * ps.1 * (fixOne : Int)).toNat / fixLn2

/-- The standard normal distribution function at x, for x from 0 to 8: 1/2 plus the density times sum of x^(2k+1) / (1·3·…·(2k+1)). -/
def fixPhi (x : Nat) : Nat :=
  let xx := x * x / fixOne
  let sum := series (fun k t => t * (xx : Int) / ((2 * k + 3) * fixOne : Nat)) 240 0 (x : Int)
  fixOne / 2 + fixExpNeg (xx / 2) * sum.toNat / fixSqrt2Pi

/-- A grid argument (2^-16) on the working grid. -/
def fixArg (a : Nat) : Nat := a * 2 ^ 112

/-- The exactly rounded value of a built-in function at an argument on the grid 2^-16, outside its limits (R562). -/
def builtinExactInt (slot : Nat) (x : Int) : Int :=
  let a := x.natAbs
  match slot with
  | 0 =>
    let f := (x % 65536).toNat
    rneShift (fixExpNeg ((65536 - f) * fixLn2 / 65536)) (103 - x / 65536).toNat
  | 1 => ((Nat.log2 a : Nat) - 16 : Int) * 65536 + rneShift (fixLog2 (a * fixOne / 2 ^ Nat.log2 a)) 112
  | 2 => (if x < 0 then -1 else 1) * (rdivNat (2 ^ 40) a : Int)
  | 3 => (((isqrt (2 ^ 66 / a) + 1) / 2 : Nat) : Int)
  | 4 =>
    let e := fixExpNeg (fixArg a)
    (rdivNat (2 ^ 30 * (if x < 0 then e else fixOne)) (fixOne + e) : Int)
  | 5 =>
    let e := fixExpNeg (fixArg (2 * a))
    (if x < 0 then -1 else 1) * (rdivNat (2 ^ 30 * (fixOne - e)) (fixOne + e) : Int)
  | _ =>
    if 8 * 65536 ≤ x then x
    else if x < 0 then -rneShift (a * (fixOne - fixPhi (fixArg a)) : Nat) 128
    else rneShift (a * fixPhi (fixArg a) : Nat) 128

end Sys2Proof.Machine
end

