-- ==== Sys2Proof/Machine/Functions.lean ====
section
/-! DEFINITION. Special functions (R88 to R97): evaluation of a function table, the built-in tables with their limits,
the seam check, and what the
spec promises of the built-in tables. -/

namespace Sys2Proof.Machine

/-- The clamped pre-shifted argument of R88 and whether the clamp set OUT_SAT. -/
def sfnArg (x : Int) (ish : Int) : Int × Bool :=
  let xs := shiftAny x (-ish)
  let xc := clampI (-2147483647) 2147483647 xs
  (xc, decide (xc ≠ xs))

/-- The segment index and offset of a magnitude (R88). -/
def segment (a : Nat) : Nat × Nat :=
  if a < 8 then (a, 0)
  else
    let o := Nat.log2 a
    let w := o - 3
    let d := a % 2 ^ w
    (8 * (o - 2) + (a / 2 ^ w) % 8, if w ≤ 16 then d * 2 ^ (16 - w) else d / 2 ^ (w - 16))

/-- The value of one record's quadratic at offset `u` (R88). -/
def quadratic (c : Coef) (u : Nat) : Int :=
  sint c.c0 + rneShift (sint c.c1 * u * 65536 + sint c.c2 * u * u) 32

/-- The record a clamped argument selects, and its offset (R88). -/
def recordOf (xc : Int) : Nat × Nat :=
  let s := segment xc.natAbs
  ((if xc < 0 then 256 else 0) + s.1, s.2)

/-- `sfn` after the pre-shift, with a table's record lookup and clamps (R88). -/
def evalTable (rec : Nat → Coef) (omin omax : Int) (xc : Int) : Int :=
  let r := recordOf xc
  clampI omin omax (quadratic (rec r.1) r.2)

/-- OMIN and OMAX of a built-in slot (R89). -/
def builtinClamp (slot : Nat) : Int × Int :=
  match slot with
  | 0 => (0, 2147483647)
  | 1 => (-2147483648, 2147483647)
  | 2 => (-2147483647, 2147483647)
  | 3 => (0, 2147483647)
  | 4 => (0, 1073741824)
  | 5 => (-1073741824, 1073741824)
  | _ => (-2147483648, 2147483647)

/-- The exact results the manual states for a built-in: the limit regions of R89, and the integer arguments of R192.
`none` elsewhere. The argument is on the grid 2^-16. -/
def builtinLimit (slot : Nat) (x : Int) : Option Int :=
  match slot with
  | 0 => if x ≤ -25 * 65536 then some 0
         else if 7 * 65536 ≤ x then some 2147483647
         else if x % 65536 = 0 then some ((2 ^ (24 + x / 65536).toNat : Nat) : Int)
         else none
  | 1 => if x ≤ 0 then some (-2147483648) else none
  | 2 => if 0 ≤ x ∧ x ≤ 512 then some 2147483647
         else if -512 ≤ x ∧ x < 0 then some (-2147483647) else none
  | 3 => if x < 0 then some 0 else if x ≤ 4 then some 2147483647 else none
  | 4 => if x ≤ -22 * 65536 then some 0 else if 22 * 65536 ≤ x then some 1073741824 else none
  | 5 => if x ≤ -12 * 65536 then some (-1073741824) else if 12 * 65536 ≤ x then some 1073741824 else none
  | _ => if x ≤ -8 * 65536 then some 0 else none

/-- DIRP, DIRN and BRK of a built-in slot (R89), as VX.TST writes them. -/
def builtinDirs (slot : Nat) : Nat × Nat × Bool :=
  match slot with
  | 0 => (1, 2, false)
  | 1 => (1, 0, false)
  | 2 => (2, 1, true)
  | 3 => (2, 0, false)
  | 4 => (1, 2, false)
  | 5 => (1, 2, false)
  | _ => (1, 0, false)

/-- A user table of a clamped argument (R88, R95). -/
def userEval (t : FnTable) (xc : Int) : Int :=
  evalTable (Table.get {} t.recs) (sint t.omin) (sint t.omax) xc

/-- One record's part of the seam check (R93): true when it passes. -/
def checkRecord (t : FnTable) (dir idx k : Nat) : Bool :=
  let c := Table.get {} t.recs k
  let lo := sint c.c1 * 65536 + sint c.c2
  let hi := sint c.c1 * 65536 + sint c.c2 * 131071
  !(decide (idx < 231) && decide (sint (Table.get {} t.recs (k + 1)).c0 ≠ sint c.c0 + sint c.c1 + sint c.c2)) &&
  !(decide (dir = 1) && (decide (lo < 0) || decide (hi < 0))) &&
  !(decide (dir = 2) && (decide (lo > 0) || decide (hi > 0)))

/-- The first failing record of a half, from index `idx` on, as k + 1; 0 when all pass (R93). -/
def checkHalf (t : FnTable) (neg dir : Nat) : Nat → Nat → Nat
  | 0, _ => 0
  | f + 1, idx =>
    if checkRecord t dir idx (256 * neg + idx) then checkHalf t neg dir f (idx + 1) else 256 * neg + idx + 1

/-- `check` (R93). -/
def seamCheck (t : FnTable) : Nat :=
  if t.dirp = 3 ∨ t.dirn = 3 ∨ sint t.omin > sint t.omax then 1024
  else
    let a := checkHalf t 0 t.dirp 232 0
    let b := checkHalf t 1 t.dirn 231 1
    let p := sint (Table.get {} t.recs 0).c0
    let n := sint (Table.get {} t.recs 257).c0
    if a ≠ 0 then a
    else if b ≠ 0 then b
    else if t.brk then 0
    else if t.dirp = 1 ∧ t.dirn = 2 ∧ n > p then 1025
    else if t.dirp = 2 ∧ t.dirn = 1 ∧ n < p then 1025
    else 0

/-- A built-in slot as a table image (R90, R92), over its 512 records. -/
def builtinImage (slot : Nat) (rs : List Coef) : FnTable where
  omin := ofI32 (builtinClamp slot).1
  omax := ofI32 (builtinClamp slot).2
  brk := (builtinDirs slot).2.2
  dirn := (builtinDirs slot).2.1
  dirp := (builtinDirs slot).1
  recs := Table.setList {} [] 0 rs

/-- The records that the manual does not print (R90): free values (LOG 7). -/
def builtinFree (slot : Nat) : List Coef :=
  (List.range 512).map (fun k => ⟨Config.builtinCoef slot k 0, Config.builtinCoef slot k 1, Config.builtinCoef slot k 2⟩)

/-- The rounded exact value, the stated limit where there is one, within the slot's clamps. -/
def builtinIdeal (slot : Nat) (x : Int) : Int :=
  match builtinLimit slot x with
  | some y => y
  | none => clampI (builtinClamp slot).1 (builtinClamp slot).2 (builtinExactInt slot x)

/-- The magnitude at which segment `idx` begins (R88). -/
def segStart (idx : Nat) : Nat := if idx < 8 then idx else (8 + idx % 8) * 2 ^ (idx / 8 - 1)

/-- A record that meets its function at both ends of the segment, and in the middle where that keeps the segment's direction. -/
def fitRecord (slot k : Nat) : Coef :=
  let sg : Int := if k < 256 then 1 else -1
  let idx := k % 256
  if 231 < idx then {}
  else
    let a := segStart idx
    let b := segStart (idx + 1)
    let f0 := builtinIdeal slot (sg * a)
    let f1 := builtinIdeal slot (sg * b)
    let d := f1 - f0
    let bend := 2 * (f0 + f1 - 2 * builtinIdeal slot (sg * ((a + b) / 2 : Nat)))
    let c2 := if idx < 16 then 0 else clampI (-(d.natAbs : Int)) d.natAbs bend
    ⟨ofI32 f0, ofI32 (d - c2), ofI32 c2⟩

/-- The fitted table of a slot. -/
def fitTable (slot : Nat) : FnTable := builtinImage slot ((List.range 512).map (fitRecord slot))

/-- Whether a result lies within R562's bound of the rounded exact value: 4 units, or 2^-11 of its magnitude. -/
def nearExact (slot : Nat) (x y : Int) : Bool :=
  let e := builtinIdeal slot x
  decide ((y - e).natAbs ≤ 4) || decide (2048 * (y - e).natAbs ≤ e.natAbs)

/-- A property of every number below a bound. -/
def allBelow (p : Nat → Bool) : Nat → Bool
  | 0 => true
  | n + 1 => p n && allBelow p n

/-- What R89, R192 and R562 promise of a table's result at one argument: the stated result where one is stated, and elsewhere one within
R562's bound, where the fitted table has one: over some segments of EXP2 and SIGMOID no table of R88 does (LOG 7). -/
def promiseKept (slot : Nat) (t : FnTable) (x : Int) : Bool :=
  match builtinLimit slot x with
  | some y => decide (userEval t x = y)
  | none => nearExact slot x (userEval t x) || !nearExact slot x (userEval (fitTable slot) x)

/-- What R89, R192 and R562 promise of a built-in table: the seam check passes, and its results are as stated at every argument. -/
def builtinGood (slot : Nat) (t : FnTable) : Bool :=
  seamCheck t == 0 && allBelow (fun k => promiseKept slot t ((k : Int) - 2147483647)) 4294967295

/-- The built-in table of a slot (R90), which VX.TST writes: the records the manual does not print, held to what it promises of them. Free
records that break a promise would be no table of the hardware; a fitted table that keeps the promises stands for them, so that the
promises hold of every built-in table of the model (LOG 7). -/
def builtinTable (slot : Nat) : FnTable :=
  if builtinGood slot (builtinImage slot (builtinFree slot)) then builtinImage slot (builtinFree slot) else fitTable slot

/-- A built-in function of a clamped argument: its table's result (R88, R90). -/
def builtinEval (slot : Nat) (xc : Int) : Int := userEval (builtinTable slot) xc

/-- EXP2 with no pre-shift (R89), as fused commands and FN.DRAW use it. -/
def exp2 (x : Int) : Int := builtinEval 0 (sfnArg x 0).1

/-- The table argument of `srsq` (R86). -/
def srsqArg (v : Scale) : Int := ((if v.e % 2 = 1 then v.m else 2 * v.m : Nat) : Int)

/-- `srsq` (R86). -/
def srsq (v : Scale) : Scale × Bool :=
  if v.m = 0 then (⟨65535, 127⟩, false)
  else
    let g := if v.e % 2 = 1 then (v.e + 1) / 2 else v.e / 2
    toScale (builtinEval 3 (srsqArg v)).toNat (-24 - g)

end Sys2Proof.Machine
end

