-- ==== Sys2Proof/Machine/Flags.lean ====
section
/-! DEFINITION. The flags of a square and the status words made from them: ACC_SAT and OUT_SAT (R50), the kernel status
word (R144, R145) and the entry status word (R359). -/

namespace Sys2Proof.Machine

/-- ACC_SAT is sticky: it sets when an accumulation saturated (R50). -/
def Square.orAcc (q : Square) (b : Bool) : Square := { q with accSat := q.accSat || b }

/-- OUT_SAT is sticky: it sets when an output saturated (R50). -/
def Square.orOut (q : Square) (b : Bool) : Square := { q with outSat := q.outSat || b }

/-- The FLAGS special register (R115). -/
def Square.flagsWord (q : Square) : Nat := bitN q.accSat + 2 * bitN q.outSat

/-- Whether report `a` names an earlier fault than report `b`: by stamp, then by square number (R145). -/
def earlierFault (a b : Report) : Bool :=
  match a.fault, b.fault with
  | some f, some g => decide (f.stamp < g.stamp) || (decide (f.stamp = g.stamp) && decide (a.sq < b.sq))
  | some _, none => true
  | none, _ => false

/-- The report of the earliest fault (R145). -/
def firstFault (rs : List Report) : Option Report :=
  (rs.filter (fun r => r.fault.isSome)).foldl (fun b r => match b with
    | none => some r
    | some c => if earlierFault r c then some r else some c) none

/-- The code, instruction index and square of the earliest fault; zeros when no square faulted (R145). -/
def faultFields (rs : List Report) : Nat × Nat × Nat :=
  match firstFault rs with
  | none => (0, 0, 0)
  | some r =>
    match r.fault with
    | none => (0, 0, 0)
    | some f => (f.code, f.iidx % 4096, r.sq)

/-- CODE of a kernel status word (R145). -/
def statusCode (aborted : Bool) (rs : List Report) : Nat :=
  if aborted then eAborted
  else if (firstFault rs).isSome then (faultFields rs).1
  else if rs.any (fun r => r.accSat || r.outSat) then eSaturated
  else eOk

/-- The kernel status word (R144). -/
def statusWord (aborted : Bool) (rs : List Report) : Nat :=
  let f := faultFields rs
  statusCode aborted rs + 2 ^ 8 * bitN (rs.any (·.accSat)) + 2 ^ 9 * bitN (rs.any (·.outSat)) +
    2 ^ 24 * ((rs.filter (·.stopped)).length % 256) + 2 ^ 32 * ((rs.filter (fun r => r.fault.isSome)).length % 256) +
    2 ^ 40 * (f.2.2 % 256) + 2 ^ 48 * f.2.1

/-- CODE of a status word. -/
def codeOf (w : Reg64) : Nat := bits w.toNat 0 8

/-- The entry status word (R359) from the context's end and the status words of its launches. -/
def entryStatus (c : Ctx) (words : List Reg64) : Nat :=
  let acc := words.any (fun w => w.toNat.testBit 8)
  let out := words.any (fun w => w.toNat.testBit 9)
  let code := if c.endCode ≠ 0 then c.endCode else if acc || out then eSaturated else eOk
  code + 2 ^ 8 * bitN acc + 2 ^ 9 * bitN out + 2 ^ 16 * (c.endStx % 256) + 2 ^ 24 * (c.endSrc % 4) +
    2 ^ 32 * (c.nlaunch % 2 ^ 32)

end Sys2Proof.Machine
end

