-- ==== Sys2Proof/Machine/Operands.lean ====
section
/-! DEFINITION. How a square reads its instruction stream and its operands: fetch and decode (R102, R103, R110), scalar
registers (R104, R107), vector lanes (R78), cistern operands (R111), and the order in which an instruction issues. -/

namespace Sys2Proof.Machine

/-! Scalar registers. -/

/-- The content of a scalar register; s0 reads 0 (R104). -/
def Square.sreg (q : Square) (r : Nat) : Reg64 := if r = 0 then 0 else Table.get 0 q.sregs r

/-- Write a scalar register; a write to s0 is discarded (R104). -/
def Square.setSreg (q : Square) (r : Nat) (v : Reg64) : Square :=
  if r = 0 then q else { q with sregs := Table.set 0 q.sregs r v }

/-- Whether an AT operation in flight still has to write a register. -/
def AtOp.writesReg (o : AtOp) (r : Nat) : Bool :=
  decide (o.sd ≠ 0) && (decide (o.sd = r) || (o.kind == .cas128 && decide (o.sd + 1 = r)))

/-- Whether every AT operation in flight has written these registers (R107). -/
def Square.regsReady (q : Square) (rs : List Nat) : Bool :=
  rs.all (fun r => decide (r = 0) || !q.atOps.any (fun o => o.writesReg r))

/-! Vector registers: lane l of register v (R78). -/

def Square.lane (q : Square) (v l : Nat) : Word := Table.get 0 q.vreg (512 * v + l)

/-- The lanes of a register. -/
def Square.lanes (q : Square) (v n : Nat) : List Word := Table.getList 0 q.vreg (512 * v) n

/-- Write consecutive lanes from lane 0 of a register, with valid parity. -/
def Square.setLanes (q : Square) (v : Nat) (ws : List Word) : Square :=
  { q with vreg := Table.setList 0 q.vreg (512 * v) ws, badLane := Table.clear q.badLane (512 * v) (512 * v + ws.length) }

/-- Whether one of `n` lanes from lane `l` of register `v` fails parity (R76, R101); the lanes go on into the next register. -/
def Square.badSpan (q : Square) (v l n : Nat) : Bool :=
  q.badLane.any (fun e => decide (512 * v + l ≤ e.1) && decide (e.1 < 512 * v + l + n))

/-- Whether a lane of consecutive registers fails parity (R76, R101). -/
def Square.badRegs (q : Square) (v n : Nat) : Bool := q.badSpan v 0 (512 * n)

/-- Write all 512 lanes of a register from a function of the lane. -/
def Square.mapLanes (q : Square) (v : Nat) (f : Nat → Word) : Square := q.setLanes v ((upto 512).map f)

/-! Fetch. -/

/-- What stands at a square's PC. -/
inductive Fetched where
  | idle
  | past
  | word (w : Nat)
deriving DecidableEq, Repr

/-- Whether a square runs a kernel, and not a fused command. -/
def State.kernelOn (s : State) (u : Nat) : Bool :=
  (s.sq u).run == .running && (s.launches.any (fun l => l.id == (s.sq u).launch && l.kind == .kernel && l.stage == .running))

/-- The instruction a square would issue next: none while it does not run, stalls, or is stopped (R105, R515). -/
def State.fetched (s : State) (u : Nat) : Fetched :=
  let q := s.sq u
  if s.kernelOn u = false ∨ q.stall ≠ .none ∨ s.stop.stopped = true then .idle
  else
    match q.code[q.pc]? with
    | none => .past
    | some w => .word w.toNat

/-- The opcodes of each class (R102, R113, R118, R123, R124, R128, R130, R135). -/
def opcodeDefined (cls op : Nat) : Bool :=
  match cls with
  | 0 => decide (op ≤ 0x1A) && op != 0x0F
  | 1 => decide (op ≤ 0x08)
  | 2 => decide (op ≤ 0x25)
  | 3 => decide (op ≤ 0x01)
  | 4 => decide (op ≤ 0x04)
  | 5 => decide (op ≤ 0x05)
  | 6 => decide (op ≤ 0x04)
  | _ => false

/-- The global address of the instruction at the PC. -/
def Square.insAddr (q : Square) : Nat := (q.codeAddr + 16 * q.pc) % 2 ^ 56

/-- The instruction's index as a status word carries it. -/
def Square.iidx (q : Square) : Nat := q.pc % 4096

/-- A precise fault of the instruction at the PC, with an address of its own (R140, R142). -/
def State.faultAt (s : State) (u code addr : Nat) : State := s.faultLogged u code (s.sq u).iidx addr

/-- A precise fault that names the instruction's address. -/
def State.faultHere (s : State) (u code : Nat) : State := s.faultAt u code (s.sq u).insAddr

/-- The next instruction in sequence. -/
def State.advance (s : State) (u : Nat) : State := s.modSq u (fun q => { q with pc := q.pc + 1 })

/-- Issue the instruction of a class and opcode: nothing when another instruction stands at the PC; PERMISSION past the
code (R110) and ILLEGAL_INSTRUCTION on an undefined class or opcode (R103) whichever instruction is asked for. -/
def State.issue (s : State) (u cls op : Nat) (f : Nat → State) : State :=
  match s.fetched u with
  | .idle => s
  | .past => s.faultHere u ePermission
  | .word w =>
    if !opcodeDefined (w % 16) (bits w 4 6) then s.faultHere u eIllegal
    else if w % 16 = cls ∧ bits w 4 6 = op then f w
    else s

/-- What an instruction does when its checks give no cause of a fault: `check` answers the code and the record's address
of the first cause in order (R76, R101, R140, R206). -/
def State.checked (s : State) (u : Nat) (check : Option (Nat × Nat)) (f : State) : State :=
  match check with
  | some e => s.faultAt u e.1 e.2
  | none => f

/-- The first cause among several checks. -/
def firstCause (cs : List (Option (Nat × Nat))) : Option (Nat × Nat) := cs.findSome? id

/-- A cause when a condition holds. -/
def cause (b : Bool) (code addr : Nat) : Option (Nat × Nat) := if b then some (code, addr) else none

/-! Cistern operands (R111). -/

/-- The local address of an offset of the allotment. -/
def Square.cisternAt (q : Square) (u off : Nat) : Nat := cisternAddr u (q.allotBase + off)

/-- The cistern-window address of an offset, as a record carries it. No window has an address for an offset that reaches past the square's
16 MiB; the record then carries the base plus the offset, modulo 2^44 (DESIGN CHOICE, LOG 84). -/
def Square.windowAddr (q : Square) (u off : Nat) : Nat := globalOf (q.cisternAt u off)

/-- Whether a footprint of `n` bytes from an offset stays in the allotment (R111). -/
def Square.fits (q : Square) (off n : Nat) : Bool := decide (off + n ≤ q.allotSize)

/-- The first byte of a footprint beyond the allotment, as a record carries it (R76). -/
def Square.beyond (q : Square) (u off : Nat) : Nat := q.windowAddr u (max off q.allotSize)

/-- Read bytes of the cistern by offset. -/
def State.cisternBytes (s : State) (u off n : Nat) : List Byte := s.bytes ((s.sq u).cisternAt u off) n

/-- Whether bytes of the cistern fail parity: the address of the first that does (R77, R291). -/
def State.cisternParity (s : State) (u off n : Nat) : Option Nat :=
  let a := (s.sq u).cisternAt u off
  ((s.parity.filter (fun e => decide (a ≤ e.1) && decide (e.1 < a + n) && decide (e.2 ≠ 0))).map Prod.fst).head?

/-- A PARITY fault of an instruction that reads the cistern: the home, which is the square, logs the record (R77,
R142). -/
def State.readCistern (s : State) (u off n : Nat) (f : List Byte → State) : State :=
  match s.cisternParity u off n with
  | some a => s.faultAt u eParity (globalOf a)
  | none => f (s.cisternBytes u off n)

/-- The check for parity of the failing bytes of several footprints: the lowest (R76, R101). -/
def State.parityCause (s : State) (u : Nat) (fs : List (Nat × Nat)) : Option (Nat × Nat) :=
  (fs.filterMap (fun f => s.cisternParity u f.1 f.2)).foldl (fun b a => match b with
    | none => some (eParity, globalOf a)
    | some c => some (eParity, min c.2 (globalOf a))) none

/-- The allotment check of a footprint (R111): its first byte beyond the limit. -/
def Square.footCause (q : Square) (u off n : Nat) : Option (Nat × Nat) := cause (!q.fits off n) eAllot (q.beyond u off)

/-- Write bytes of the cistern by offset. -/
def State.writeCistern (s : State) (u off : Nat) (bs : List Byte) : State := s.store ((s.sq u).cisternAt u off) bs

/-! Grid visiting order (R348). -/

/-- `morton_xy`. -/
def mortonXY : Nat → Nat → Nat × Nat
  | 0, _ => (0, 0)
  | f + 1, d =>
    let r := mortonXY f (d / 4)
    (2 * r.1 + d % 2, 2 * r.2 + d / 2 % 2)

/-- `hilbert_xy` from scale `s` on. -/
def hilbertFrom : Nat → Nat → Nat → Nat → Nat → Nat × Nat
  | 0, _, _, x, y => (x, y)
  | f + 1, s, t, x, y =>
    let rx := t / 2 % 2
    let ry := (t + rx) % 2
    let x1 := if ry = 0 then (if rx = 1 then s - 1 - y else y) else x
    let y1 := if ry = 0 then (if rx = 1 then s - 1 - x else x) else y
    hilbertFrom f (2 * s) (t / 4) (x1 + s * rx) (y1 + s * ry)

/-- The smallest k with 2^k at or above n. -/
def gridLog (n : Nat) : Nat := if n ≤ 1 then 0 else Nat.log2 (n - 1) + 1

/-- The tile of curve code `d`. -/
def curveXY (order k d : Nat) : Nat × Nat := if order = 1 then mortonXY k d else hilbertFrom k 1 d 0 0

/-- The tile at visit position `v`: codes are taken in turn from `d`, and those outside the grid are skipped. -/
def visitFrom (order k gx gy : Nat) : Nat → Nat → Nat → Nat × Nat
  | 0, _, _ => (0, 0)
  | f + 1, d, v =>
    let t := curveXY order k d
    if t.1 < gx ∧ t.2 < gy then (if v = 0 then t else visitFrom order k gx gy f (d + 1) (v - 1))
    else visitFrom order k gx gy f (d + 1) v

/-- The tile at a visit position of a grid (R348). -/
def visitXY (order gx gy v : Nat) : Nat × Nat :=
  if order = 0 then (v % gx, v / gx)
  else
    let k := gridLog (max gx gy)
    visitFrom order k gx gy (4 ^ k) 0 v

end Sys2Proof.Machine
end

