-- ==== Sys2Proof/Machine/Control.lean ====
section
/-! DEFINITION. The control core's own instructions (05): CT, SY and the ends of their waits, the stop of the other
squares of a faulted kernel, and the report of a square's end. -/

namespace Sys2Proof.Machine

/-! CT (R112 to R115). -/

/-- The fields of a CT instruction (R112). -/
def ctSD (w : Nat) : Nat := bits w 10 5
def ctSA (w : Nat) : Nat := bits w 15 5
def ctSB (w : Nat) : Nat := bits w 20 5
def ctI (w : Nat) : Bool := w.testBit 25
def ctImm (w : Nat) : Reg64 := BitVec.ofNat 64 (w / 2 ^ 64)

/-- The map of R112 holds: reserved bits 0, and SB = 0 when I = 1. -/
def ctFormOk (w : Nat) : Bool := bits w 26 38 == 0 && (!ctI w || ctSB w == 0)

/-- The second operand (R113). -/
def ctOp2 (q : Square) (w : Nat) : Reg64 := if ctI w then ctImm w else q.sreg (ctSB w)

/-- The index of the branch target: the address of the branch + 16 × IMM modulo 2^64 (R113). -/
def ctTarget (q : Square) (w : Nat) : Nat := (q.pc + (ctImm w).toNat) % 2 ^ 60

/-- A CT instruction of an opcode: R112's map, then a wait for the registers it names (R107). -/
def State.ctIssue (s : State) (u op : Nat) (extra : Nat → Bool) (regs : Nat → List Nat) (f : Nat → State) : State :=
  s.issue u 0 op (fun w =>
    if !(ctFormOk w && extra w) then s.faultHere u eIllegal
    else if (s.sq u).regsReady (regs w) then f w
    else s)

/-- Registers of a two-operand instruction. -/
def ctRegs3 (w : Nat) : List Nat := [ctSD w, ctSA w] ++ (if ctI w then [] else [ctSB w])

/-- sD = f sA op2, and on to the next instruction (R113). -/
def State.ctArith (s : State) (u op : Nat) (f : Reg64 → Reg64 → Reg64) : State :=
  s.ctIssue u op (fun _ => true) ctRegs3 (fun w =>
    (s.modSq u (fun q => q.setSreg (ctSD w) (f (q.sreg (ctSA w)) (ctOp2 q w)))).advance u)

/-- Go to the branch target of the instruction word `w`. -/
def State.branchTo (s : State) (u w : Nat) : State := s.modSq u (fun q => { q with pc := ctTarget q w })

/-- Branch to the target when sA compared with sB holds; I must be 0 (R113). -/
def State.ctBranch (s : State) (u op : Nat) (c : Reg64 → Reg64 → Bool) : State :=
  s.ctIssue u op (fun w => !ctI w) (fun w => [ctSA w, ctSB w]) (fun w =>
    if c ((s.sq u).sreg (ctSA w)) ((s.sq u).sreg (ctSB w)) then s.branchTo u w else s.advance u)

def execCtNop (sq : SquareId) (s : State) : Host.Outcome State Fault Refusal :=
  .next (s.ctIssue sq.val 0x00 (fun _ => true) (fun _ => []) (fun _ => s.advance sq.val))

def execCtMovi (sq : SquareId) (s : State) : Host.Outcome State Fault Refusal :=
  .next (s.ctIssue sq.val 0x01 (fun _ => true) (fun w => [ctSD w]) (fun w =>
    (s.modSq sq.val (fun q => q.setSreg (ctSD w) (ctImm w))).advance sq.val))

def execCtAdd (sq : SquareId) (s : State) : Host.Outcome State Fault Refusal := .next (s.ctArith sq.val 0x02 (· + ·))
def execCtSub (sq : SquareId) (s : State) : Host.Outcome State Fault Refusal := .next (s.ctArith sq.val 0x03 (· - ·))
def execCtMul (sq : SquareId) (s : State) : Host.Outcome State Fault Refusal := .next (s.ctArith sq.val 0x04 (· * ·))
def execCtAnd (sq : SquareId) (s : State) : Host.Outcome State Fault Refusal := .next (s.ctArith sq.val 0x05 (· &&& ·))
def execCtOr (sq : SquareId) (s : State) : Host.Outcome State Fault Refusal := .next (s.ctArith sq.val 0x06 (· ||| ·))
def execCtXor (sq : SquareId) (s : State) : Host.Outcome State Fault Refusal := .next (s.ctArith sq.val 0x07 (· ^^^ ·))

/-- The shift amount of a scalar shift: op2 mod 64 (R113). -/
def shiftBy (b : Reg64) : Nat := b.toNat % 64

def execCtShl (sq : SquareId) (s : State) : Host.Outcome State Fault Refusal :=
  .next (s.ctArith sq.val 0x08 (fun a b => a <<< shiftBy b))

def execCtSrl (sq : SquareId) (s : State) : Host.Outcome State Fault Refusal :=
  .next (s.ctArith sq.val 0x09 (fun a b => a >>> shiftBy b))

def execCtSra (sq : SquareId) (s : State) : Host.Outcome State Fault Refusal :=
  .next (s.ctArith sq.val 0x0A (fun a b => a.sshiftRight (shiftBy b)))

def execCtMin (sq : SquareId) (s : State) : Host.Outcome State Fault Refusal :=
  .next (s.ctArith sq.val 0x0B (fun a b => if a.toInt ≤ b.toInt then a else b))

def execCtMax (sq : SquareId) (s : State) : Host.Outcome State Fault Refusal :=
  .next (s.ctArith sq.val 0x0C (fun a b => if a.toInt ≤ b.toInt then b else a))

def execCtMinu (sq : SquareId) (s : State) : Host.Outcome State Fault Refusal :=
  .next (s.ctArith sq.val 0x0D (fun a b => if a.toNat ≤ b.toNat then a else b))

def execCtMaxu (sq : SquareId) (s : State) : Host.Outcome State Fault Refusal :=
  .next (s.ctArith sq.val 0x0E (fun a b => if a.toNat ≤ b.toNat then b else a))

def execCtBeq (sq : SquareId) (s : State) : Host.Outcome State Fault Refusal :=
  .next (s.ctBranch sq.val 0x10 (fun a b => a == b))

def execCtBne (sq : SquareId) (s : State) : Host.Outcome State Fault Refusal :=
  .next (s.ctBranch sq.val 0x11 (fun a b => a != b))

def execCtBlt (sq : SquareId) (s : State) : Host.Outcome State Fault Refusal :=
  .next (s.ctBranch sq.val 0x12 (fun a b => decide (a.toInt < b.toInt)))

def execCtBge (sq : SquareId) (s : State) : Host.Outcome State Fault Refusal :=
  .next (s.ctBranch sq.val 0x13 (fun a b => decide (b.toInt ≤ a.toInt)))

def execCtBltu (sq : SquareId) (s : State) : Host.Outcome State Fault Refusal :=
  .next (s.ctBranch sq.val 0x14 (fun a b => decide (a.toNat < b.toNat)))

def execCtBgeu (sq : SquareId) (s : State) : Host.Outcome State Fault Refusal :=
  .next (s.ctBranch sq.val 0x15 (fun a b => decide (b.toNat ≤ a.toNat)))

def execCtJmp (sq : SquareId) (s : State) : Host.Outcome State Fault Refusal :=
  .next (s.ctIssue sq.val 0x16 (fun _ => true) (fun _ => []) (fun w => s.branchTo sq.val w))

/-- sD = sD − 1, then a branch while the register is nonzero; s0 still reads 0 after the discarded write (R104, R113). -/
def execCtLoop (sq : SquareId) (s : State) : Host.Outcome State Fault Refusal :=
  .next (s.ctIssue sq.val 0x17 (fun _ => true) (fun w => [ctSD w]) (fun w =>
    let t := s.modSq sq.val (fun q => q.setSreg (ctSD w) (q.sreg (ctSD w) - 1))
    if (t.sq sq.val).sreg (ctSD w) ≠ 0 then t.branchTo sq.val w else t.advance sq.val))

/-- The next grid tile of a square: the square with sD, TILE and TILEXY set; `none` when no tile remains (R114, R348). -/
def Square.takeTile (q : Square) (sd : Nat) : Option Square :=
  if q.nextPos < q.gridX * q.gridY then
    let t := visitXY q.order q.gridX q.gridY q.nextPos
    let lin := BitVec.ofNat 64 (t.2 * q.gridX + t.1)
    some ({ q with nextPos := q.nextPos + q.setSize, tile := lin, tileXY := BitVec.ofNat 64 (t.1 + t.2 * 2 ^ 32) }.setSreg sd lin)
  else none

def execCtNext (sq : SquareId) (s : State) : Host.Outcome State Fault Refusal :=
  .next (s.ctIssue sq.val 0x18 (fun _ => true) (fun w => [ctSD w]) (fun w =>
    match (s.sq sq.val).takeTile (ctSD w) with
    | some q => (s.setSq sq.val q).advance sq.val
    | none => s.branchTo sq.val w))

/-- The special registers (R115): `none` on any other selector. TIME reads the module's time base: State holds no value of a region's replica,
which R435 keeps within 2.5 ns and R490 to R492 let stray (DESIGN CHOICE, LOG 81). -/
def State.specialReg (s : State) (u sel : Nat) : Option Reg64 :=
  let q := s.sq u
  match sel with
  | 0 => some (BitVec.ofNat 64 u)
  | 1 => some (BitVec.ofNat 64 q.kpart)
  | 2 => some (BitVec.ofNat 64 (q.gridX + q.gridY * 2 ^ 32))
  | 3 => some q.tile
  | 4 => some q.tileXY
  | 5 => some (BitVec.ofNat 64 q.allotSize)
  | 6 => some (BitVec.ofNat 64 (q.cbase + q.ccount * 2 ^ 8))
  | 7 => some (BitVec.ofNat 64 s.time)
  | 8 => some (BitVec.ofNat 64 q.flagsWord)
  | 9 => some (BitVec.ofNat 64 q.pump.lastTicket)
  | _ => none

def execCtRdsr (sq : SquareId) (s : State) : Host.Outcome State Fault Refusal :=
  .next (s.ctIssue sq.val 0x19 (fun w => (s.specialReg sq.val (ctImm w).toNat).isSome) (fun w => [ctSD w]) (fun w =>
    (s.modSq sq.val (fun q => q.setSreg (ctSD w) ((s.specialReg sq.val (ctImm w).toNat).getD 0))).advance sq.val))

/-- The square issues nothing more, and reports once every earlier instruction has completed (R143). -/
def execCtEnd (sq : SquareId) (s : State) : Host.Outcome State Fault Refusal :=
  .next (s.ctIssue sq.val 0x1A (fun _ => true) (fun _ => []) (fun _ => s.modSq sq.val (fun q => { q with stall := .ending })))

/-! Ends and stops. -/

/-- Whether no work of a square is outstanding: AT operations and pump descriptors (R142, R143). -/
def Square.drained (q : Square) : Bool := q.atOps.isEmpty && q.pump.queue.isEmpty && q.pump.cur.isNone

/-- Bytes whose content the manual leaves undefined take free values with valid parity (LOG 5). -/
def State.freeRange (s : State) (lo n : Nat) : State :=
  { s with
    mem := Table.putRange 0 s.mem lo ((upto n).map (fun i => Config.freeByte (s.freeCtr + i)))
    parity := Table.clear s.parity lo (lo + n)
    freeCtr := s.freeCtr + n }

/-- The working space that a command of attention leaves undefined on a square (R219). -/
def State.spoilSpace (s : State) (u : Nat) : State :=
  if s.launches.any (fun l => l.id == (s.sq u).launch && l.kind == .attention && l.attn.isSome) then
    s.freeRange (cisternAddr u (s.sq u).allotBase) (s.sq u).allotSize
  else s

/-- A square's report joins its launch, and the square leaves the head of its list (R143, R346). -/
def State.reportSquare (s : State) (u : Nat) : State :=
  let q := s.sq u
  let r : Report := ⟨u, q.fault, q.run == .stopped && q.fault.isNone, q.accSat, q.outSat⟩
  let s1 := (s.spoilSpace u).modLaunch q.launch (fun l => { l with reports := l.reports ++ [r] })
  let s2 := s1.modSq u (fun q => { q with run := .idle, stall := .none, atOps := [], pump := { q.pump with released := q.pump.lastTicket, lastDone := q.pump.lastTicket } })
  if (s.launches.any (fun l => l.id == q.launch && l.kind == .kernel)) then
    s2.trace 2 0x06 q.kpart u q.codeAddr (statusCode r.stopped [r] + 2 ^ 8 * q.flagsWord)
  else s2

/-- The parts that a row's blocks are divided into (R223). -/
def AttnDesc.parts (d : AttnDesc) : Nat := if d.op = 0 ∨ d.op = 1 then d.split else 1

/-- Row tiles of a record for each KV head. -/
def SeqRec.tiles (d : AttnDesc) (r : SeqRec) : Nat := (r.nq * d.qpg + 31) / 32

/-- The number of work items. -/
def Attn.itemCount (a : Attn) : Nat := a.recs.foldl (fun n r => n + a.desc.kvh * a.desc.parts * r.tiles a.desc) 0

/-- Whether all the work of an attention command is done. -/
def Attn.allDone (a : Attn) : Bool :=
  (a.items.filter (fun e => e.2.done)).length == a.itemCount && (!a.desc.ring || a.ring.step == a.ringd.n)

/-- Whether the work of a launch on a square of it is complete. A fused command is complete when all its work is. -/
def Launch.workDone (l : Launch) : Bool :=
  match l.kind with
  | .kernel => true
  | .attention => l.attn.any Attn.allDone && l.outstanding == 0
  | .lookup => l.look.any (fun k => k.reqs.all (fun r => r.written)) && l.outstanding == 0

/-- A stopped square reports when what it had issued is complete; a running one when CT.END's wait, or its fused
command, is complete (R142, R143, R320). -/
def State.endReport (s : State) (u : Nat) : State :=
  let q := s.sq u
  if s.stop.stopped then s
  else
    match q.run with
    | .idle => s
    | .stopped => if q.drained then s.reportSquare u else s
    | .running =>
      if q.stall = .ending ∧ q.drained ∧ (s.launch q.launch).all Launch.workDone then s.reportSquare u else s

def execSquareEndReport (sq : SquareId) (s : State) : Host.Outcome State Fault Refusal := .next (s.endReport sq.val)

/-- Whether a launch has a square that faulted, or is stopped as a whole (R142). -/
def State.launchFaulted (s : State) (l : Launch) : Bool :=
  l.stopAll || l.reports.any (fun r => r.fault.isSome) ||
    l.set.any (fun u => (s.sq u).launch == l.id && (s.sq u).run == .stopped && (s.sq u).fault.isSome)

def execKernelStop (sq : SquareId) (s : State) : Host.Outcome State Fault Refusal :=
  .next (match s.launch (s.sq sq.val).launch with
    | none => s
    | some l => if s.launchFaulted l && !s.stop.stopped then s.stopSquare sq.val else s)

/-! SY (R130 to R132, R307 to R310). -/

def sySR (w : Nat) : Nat := bits w 20 5
def syScope (w : Nat) : Nat := bits w 18 2
def syCond (w : Nat) : Nat := bits w 16 2
def syCI (w : Nat) : Nat := bits w 10 6
def syEng (w : Nat) : Nat := bits w 25 5

/-- Every bit of a word outside class, opcode and the listed fields (first bit, width) is 0 (R103). -/
def onlyFields (w : Nat) (fs : List (Nat × Nat)) : Bool :=
  w == fs.foldl (fun m f => m + bits w f.1 f.2 * 2 ^ f.1) (w % 2 ^ 10)

/-- An SY instruction: its fields in range, then its registers (R107, R130), then its counter (R132). -/
def State.syIssue (s : State) (u op : Nat) (ok : Nat → Bool) (reg ctr : Bool) (f : Nat → State) : State :=
  s.issue u 5 op (fun w =>
    if !ok w then s.faultHere u eIllegal
    else if ctr && decide ((s.sq u).ccount ≤ syCI w) then s.faultHere u eAllot
    else if reg && !(s.sq u).regsReady [sySR w] then s
    else f w)

/-- Whether a local address is a location of a scope of square u (R307). -/
def inScope (isM : Bool) (u scope a : Nat) : Bool :=
  if scope = 3 then true
  else
    match placeOf isM a with
    | .cistern v => if scope = 1 then v == u else v / 16 == u / 16
    | .well q => scope == 2 && q == u / 16
    | .reg =>
      let o := a - regBase
      decide (0x4000000 ≤ o ∧ o < 0x4010000) &&
        (if scope = 1 then (o - 0x4000000) / 0x200 == u else (o - 0x4000000) / 0x2000 == u / 16)
    | _ => false

/-- Whether a release at a scope still waits for an AT operation: an earlier read, or an earlier write or atomic to a
location of the scope (R308, R309). -/
def State.releaseWaits (s : State) (u scope : Nat) (o : AtOp) : Bool :=
  o.kind == .ld || o.rows.any (fun r => if s.isLocal r.addr then inScope s.isM u scope (r.addr % 2 ^ 44) else scope == 3)

def execSyRel (sq : SquareId) (s : State) : Host.Outcome State Fault Refusal :=
  .next (s.syIssue sq.val 0x00 (fun w => onlyFields w [(18, 2)] && syScope w != 0) false false (fun w =>
    if (s.sq sq.val).atOps.any (s.releaseWaits sq.val (syScope w)) then s else s.advance sq.val))

/-- An acquire of a square: quarter and device scope discard its near cache, and a fill under way is not installed
(R282, R310). -/
def State.acquire (s : State) (u scope : Nat) : State :=
  if scope < 2 then s
  else s.modSq u (fun q => { q with near := [], atOps := q.atOps.map (fun o => { o with fill := false }) })

def execSyAcq (sq : SquareId) (s : State) : Host.Outcome State Fault Refusal :=
  .next (s.syIssue sq.val 0x01 (fun w => onlyFields w [(18, 2)] && syScope w != 0) false false (fun w =>
    (s.acquire sq.val (syScope w)).advance sq.val))

def execSyFence (sq : SquareId) (s : State) : Host.Outcome State Fault Refusal :=
  .next (s.syIssue sq.val 0x02 (fun w => onlyFields w [(25, 5)] && syEng w != 0) false false (fun w =>
    s.modSq sq.val (fun q => { q with stall := .fence (syEng w) })))

/-- Whether the units named by a fence have completed: bit 2 the pump, bit 4 AT; MX, VX and FN complete as they issue
(R131, LOG 16). -/
def Square.fenceDone (q : Square) (mask : Nat) : Bool :=
  (!mask.testBit 2 || (q.pump.queue.isEmpty && q.pump.cur.isNone)) && (!mask.testBit 4 || q.atOps.isEmpty)

/-- Later instructions may issue again: the stalled instruction is done. -/
def State.resume (s : State) (u : Nat) : State := s.modSq u (fun q => { q with stall := .none, pc := q.pc + 1 })

/-- Whether a square is running and the module is not stopped. -/
def State.active (s : State) (u : Nat) : Bool := (s.sq u).run == .running && !s.stop.stopped

def execSyFencePass (sq : SquareId) (s : State) : Host.Outcome State Fault Refusal :=
  .next (match (s.sq sq.val).stall with
    | .fence m => if s.active sq.val && (s.sq sq.val).fenceDone m then s.resume sq.val else s
    | _ => s)

/-- The register address of a square counter (R133). -/
def squareCounterAddr (u c : Nat) : Nat := 0xF0004000000 + 0x200 * u + 8 * c

def execSyWait (sq : SquareId) (s : State) : Host.Outcome State Fault Refusal :=
  .next (s.syIssue sq.val 0x03 (fun w => onlyFields w [(20, 5), (18, 2), (16, 2), (10, 6)] && decide (syCond w < 2)) true true (fun w =>
    let q := s.sq sq.val
    let c := q.cbase + syCI w
    let v := q.sreg (sySR w)
    (s.modSq sq.val (fun q => { q with stall := .counter c (decide (syCond w = 1)) v (syScope w) })).trace 4 0x09 q.kpart sq.val
      (globalOf (squareCounterAddr sq.val c)) v.toNat))

/-- Whether a counter meets a condition against a value (R131, R353). -/
def counterMet (eq : Bool) (c v : Reg64) : Bool := if eq then c == v else decide (v.toNat ≤ c.toNat)

def execSyWaitMet (sq : SquareId) (s : State) : Host.Outcome State Fault Refusal :=
  .next (match (s.sq sq.val).stall with
    | .counter c eq v scope =>
      if s.active sq.val && counterMet eq (s.squareCounter sq.val c) v then
        ((s.acquire sq.val scope).resume sq.val).trace 4 0x0A (s.sq sq.val).kpart sq.val
          (globalOf (squareCounterAddr sq.val c)) v.toNat
      else s
    | _ => s)

def execSyCset (sq : SquareId) (s : State) : Host.Outcome State Fault Refusal :=
  .next (s.syIssue sq.val 0x04 (fun w => onlyFields w [(20, 5), (10, 6)]) true true (fun w =>
    let q := s.sq sq.val
    (s.setSquareCounter sq.val (q.cbase + syCI w) (q.sreg (sySR w))).advance sq.val))

def execSyCrd (sq : SquareId) (s : State) : Host.Outcome State Fault Refusal :=
  .next (s.syIssue sq.val 0x05 (fun w => onlyFields w [(20, 5), (10, 6)]) true true (fun w =>
    (s.modSq sq.val (fun q => q.setSreg (sySR w) (s.squareCounter sq.val (q.cbase + syCI w)))).advance sq.val))

end Sys2Proof.Machine
end

