-- ==== Sys2Proof/Machine/Matrix.lean ====
section
/-! DEFINITION. MX instructions: the cube array and its drain path (R52 to R77, R116 to R121). Element (r, n) of tile t
has key 1024 t + 32 r + n. -/

namespace Sys2Proof.Machine

/-! Elements. -/

/-- The rows or columns that a mask enables. -/
def maskBits (m : Nat) : List Nat := (upto 32).filter (fun i => m.testBit i)

def tileKey (t r n : Nat) : Nat := 1024 * t + 32 * r + n
def Square.elem (q : Square) (t r n : Nat) : Int := sint (Table.get 0 q.acc (tileKey t r n))

/-- Write one element of a tile, with valid parity. -/
def Square.setElem (q : Square) (t r n : Nat) (v : Int) : Square :=
  { q with acc := Table.set 0 q.acc (tileKey t r n) (ofI32 v), badTile := Table.set false q.badTile (tileKey t r n) false }

/-- Whether an enabled element of a tile fails parity. -/
def Square.badElems (q : Square) (t : Nat) (rows cols : Nat) : Bool :=
  q.badTile.any (fun e => decide (e.1 / 1024 = t) && rows.testBit (e.1 % 1024 / 32) && cols.testBit (e.1 % 32))

def fullMask : Nat := 0xFFFFFFFF

/-- i8 elements of bytes. -/
def i8s (bs : List Byte) : List Int := bs.map (fun b => b.toInt)

/-- i16 elements of bytes. -/
def i16s : List Byte → List Int
  | a :: b :: r => signed 16 (a.toNat + 256 * b.toNat) :: i16s r
  | _ => []

/-- i32 elements of bytes. -/
def i32s : List Byte → List Word
  | a :: b :: c :: d :: r => BitVec.ofNat 32 (ofBytes [a, b, c, d]) :: i32s r
  | _ => []

/-- u4 codes of bytes: the earlier element in bits 3:0 (R29). -/
def nibbles : List Byte → List Nat
  | [] => []
  | b :: r => b.toNat % 16 :: b.toNat / 16 :: nibbles r

/-- Entry c of a codebook slot (R38, R40). -/
def Square.codeEntry (q : Square) (slot c : Nat) : Int := (Table.get (0 : Byte) q.cbook (256 * slot + c)).toInt

/-! Issue. -/

def mxTile (w : Nat) : Nat := bits w 10 4
def mxRows (w : Nat) : Nat := bits w 64 32
def mxCols (w : Nat) : Nat := bits w 96 32

/-- The value of the register that a 5-bit field names, as an offset or stride. -/
def Square.off (q : Square) (w lo : Nat) : Nat := (q.sreg (bits w lo 5)).toNat

/-- An MX instruction: it waits for the registers it names (R107), and takes effect when no cause of R76 holds (R75). -/
def State.mxIssue (s : State) (u op : Nat) (regs : Nat → List Nat) (check : Nat → Option (Nat × Nat)) (f : Nat → State) : State :=
  s.issue u 1 op (fun w => if (s.sq u).regsReady (regs w) then s.checked u (check w) (f w) else s)

/-- The steps an instruction takes on the drain path, counted (R70, R121, R494). -/
def State.drainSteps (s : State) (u n : Nat) : State := s.count u 2 n

/-! MX.MMA. -/

def mmaMode (w : Nat) : Nat := bits w 14 3
def mmaWide (w : Nat) : Bool := w.testBit 17
def mmaBType (w : Nat) : Nat := bits w 18 2
def mmaClr (w : Nat) : Bool := w.testBit 20
def mmaDepth (w : Nat) : Nat := bits w 21 7
def mmaSlot (w : Nat) : Nat := bits w 28 7

/-- Bytes of one row of A and of one column of B (R55, R56). -/
def mmaRun (w : Nat) : Nat := if mmaWide w then 128 else 64
def mmaCol (w : Nat) : Nat := if mmaBType w = 1 then 32 else 64

/-- Order 1 of R76: R59, R65, R116. -/
def mmaFormOk (w : Nat) : Bool :=
  bits w 55 9 == 0 && decide (mmaMode w ≤ 5) && decide (mmaBType w ≤ 2) && decide (1 ≤ mmaDepth w ∧ mmaDepth w ≤ 64) &&
  (!mmaWide w || mmaMode w == 0 || mmaMode w == 3 || mmaMode w == 4) && (mmaBType w != 0 || mmaSlot w == 0)

/-- Depth values of row r of operand A (R55). -/
def State.mmaRowA (s : State) (u w r : Nat) : List Int :=
  let bs := s.cisternBytes u ((s.sq u).off w 35 + r * (s.sq u).off w 40) (mmaRun w)
  (if mmaWide w then i16s bs else i8s bs).take (mmaDepth w)

/-- The codes of column n of operand B (R56). -/
def State.mmaCodes (s : State) (u w n : Nat) : List Nat :=
  let bs := s.cisternBytes u ((s.sq u).off w 45 + n * (s.sq u).off w 50) (mmaCol w)
  (if mmaBType w = 1 then nibbles bs else bs.map (fun b => b.toNat)).take (mmaDepth w)

/-- Depth values of column n of operand B, expanded (R40). -/
def State.mmaColB (s : State) (u w n : Nat) : List Int :=
  if mmaBType w = 0 then (i8s (s.cisternBytes u ((s.sq u).off w 45 + n * (s.sq u).off w 50) (mmaCol w))).take (mmaDepth w)
  else (s.mmaCodes u w n).map ((s.sq u).codeEntry (mmaSlot w))

/-- The causes of R76 for MX.MMA, in order. Where one cause holds of both operands the record names A's address, and where cistern bytes and
a tile element or codebook entry both fail parity it names the cistern byte (DESIGN CHOICE, LOG 80). Parity is checked over what the
operation reads: the unmasked tile elements, none under CLR, and the codebook entries that the codes of unmasked columns name, below
DEPTH, whatever the row mask (DESIGN CHOICE, LOG 80). -/
def State.mmaCheck (s : State) (u w : Nat) : Option (Nat × Nat) :=
  let q := s.sq u
  let aoff := q.off w 35
  let astr := q.off w 40
  let boff := q.off w 45
  let bstr := q.off w 50
  let an := 31 * astr + mmaRun w
  let bn := 31 * bstr + mmaCol w
  let codes := mmaBType w ≠ 0 ∧ q.badCb ≠ [] ∧
    ((maskBits (mxCols w)).any (fun n => (s.mmaCodes u w n).any (fun c => Table.get false q.badCb (256 * mmaSlot w + c)))) = true
  firstCause [
    cause (!mmaFormOk w) eIllegal q.insAddr,
    cause (aoff % 32 != 0 || astr % 32 != 0) eAlign (q.windowAddr u aoff),
    cause (boff % 32 != 0 || bstr % 32 != 0) eAlign (q.windowAddr u boff),
    cause (decide (7 < mxTile w) || decide (63 < mmaSlot w)) eAllot q.insAddr,
    q.footCause u aoff an, q.footCause u boff bn,
    s.parityCause u [(aoff, an), (boff, bn)],
    cause ((!mmaClr w && q.badElems (mxTile w) (mxRows w) (mxCols w)) || decide codes) eParity q.insAddr]

/-- Sum of a list. -/
def sumI (xs : List Int) : Int := xs.foldl (· + ·) 0

/-- One element of a matrix instruction (R66, R67): its new value and whether it saturated. -/
def mmaElem (mode : Nat) (clr : Bool) (old : Int) (a b : List Int) : Int × Bool :=
  let z := fun (ident : Int) => if clr then ident else old
  let acc := fun (t : Int) =>
    let x := z 0 + t
    (satI32 x, decide (satI32 x ≠ x))
  match mode with
  | 0 => acc (sumI (List.zipWith (· * ·) a b))
  | 1 => acc (sumI (List.zipWith (fun x y => ((x - y).natAbs : Int)) a b))
  | 2 => acc (sumI (List.zipWith (fun x y => (x - y) * (x - y)) a b))
  | 3 => ((List.zipWith (· + ·) a b).foldl max (z (-2147483648)), false)
  | 4 => ((List.zipWith (· + ·) a b).foldl min (z 2147483647), false)
  | _ => acc (sumI (List.zipWith (fun x y => if x = y then 1 else 0) a b))

/-- The tile elements that a matrix instruction computes: (row, column), new value, saturation (R66). -/
def State.mmaResults (s : State) (u w : Nat) : List ((Nat × Nat) × (Int × Bool)) :=
  let q := s.sq u
  let cols := (maskBits (mxCols w)).map (fun n => (n, s.mmaColB u w n))
  ((maskBits (mxRows w)).map (fun r =>
    let a := s.mmaRowA u w r
    cols.map (fun c => ((r, c.1), mmaElem (mmaMode w) (mmaClr w) (q.elem (mxTile w) r c.1) a c.2)))).flatten

def execMxMma (sq : SquareId) (s : State) : Host.Outcome State Fault Refusal :=
  .next (s.mxIssue sq.val 0x00 (fun w => [bits w 35 5, bits w 40 5, bits w 45 5, bits w 50 5]) (s.mmaCheck sq.val) (fun w =>
    let rs := s.mmaResults sq.val w
    let t := s.modSq sq.val (fun q =>
      (rs.foldl (fun q e => q.setElem (mxTile w) e.1.1 e.1.2 e.2.1) q).orAcc (rs.any (fun e => e.2.2)))
    ((t.count sq.val 0 1).count sq.val 1 (if mmaWide w then 2 else 1)).advance sq.val))

/-! MX.FILL, MX.LDT, MX.STT, MX.TOV, MX.FROMV. -/

/-- The fields of the shared map that an operation does not name are reserved (R118). -/
def mxOnly (w : Nat) (fs : List (Nat × Nat)) : Bool := onlyFields w fs

def execMxFill (sq : SquareId) (s : State) : Host.Outcome State Fault Refusal :=
  .next (s.mxIssue sq.val 0x01 (fun w => [bits w 14 5])
    (fun w => firstCause [
      cause (!mxOnly w [(96, 32), (64, 32), (14, 5), (10, 4)]) eIllegal (s.sq sq.val).insAddr,
      cause (decide (7 < mxTile w)) eAllot (s.sq sq.val).insAddr])
    (fun w =>
      let v := ((s.sq sq.val).sreg (bits w 14 5)).setWidth 32
      let t := s.modSq sq.val (fun q =>
        (maskBits (mxRows w)).foldl (fun q r => (maskBits (mxCols w)).foldl (fun q n => q.setElem (mxTile w) r n (sint v)) q) q)
      (t.drainSteps sq.val 1).advance sq.val))

/-- The causes of R76 for MX.LDT and MX.STT (R62). The footprint runs from OFF to the end of row 31, and parity is checked over the
bytes of the 32 rows and not in the gaps between them (LOG 80). -/
def State.moveCheck (s : State) (u w : Nat) (load : Bool) : Option (Nat × Nat) :=
  let q := s.sq u
  let off := q.off w 14
  let str := q.off w 19
  firstCause [
    cause (!mxOnly w [(19, 5), (14, 5), (10, 4)]) eIllegal q.insAddr,
    cause (off % 32 != 0 || str % 32 != 0 || (decide (0 < str ∧ str < 128))) eAlign (q.windowAddr u off),
    cause (decide (7 < mxTile w)) eAllot q.insAddr,
    q.footCause u off (31 * str + 128),
    if load then s.parityCause u ((upto 32).map (fun r => (off + r * str, 128))) else none,
    cause (!load && q.badElems (mxTile w) fullMask fullMask) eParity q.insAddr]

def execMxLdt (sq : SquareId) (s : State) : Host.Outcome State Fault Refusal :=
  .next (s.mxIssue sq.val 0x02 (fun w => [bits w 14 5, bits w 19 5]) (fun w => s.moveCheck sq.val w true) (fun w =>
    let q := s.sq sq.val
    let vs := ((upto 32).map (fun r => i32s (s.cisternBytes sq.val (q.off w 14 + r * q.off w 19) 128))).flatten
    ((s.modSq sq.val (fun q => { q with
      acc := Table.setList 0 q.acc (1024 * mxTile w) vs
      badTile := Table.clear q.badTile (1024 * mxTile w) (1024 * mxTile w + 1024) })).drainSteps sq.val 2).advance sq.val))

/-- Put a row into a list of rows that a free key orders. -/
def insertRow (key : Nat → Nat) (r : Nat) (rs : List Nat) : List Nat :=
  match rs with
  | [] => [r]
  | x :: xs => if key r < key x then r :: x :: xs else x :: insertRow key r xs

/-- The order in which the 32 rows of an output are written. Rows that overlap leave the value of some row, and the manual
does not say which: their order is free (LOG 28). -/
def State.rowOrder (s : State) (stride run : Nat) : List Nat × State :=
  if stride < run then
    ((upto 32).foldr (insertRow (fun r => Config.freeIndex (s.freeCtr + r))) [], { s with freeCtr := s.freeCtr + 32 })
  else (upto 32, s)

/-- The bytes of row r of a tile. -/
def Square.tileRow (q : Square) (t r : Nat) : List Byte :=
  (((upto 32).map (fun n => toBytes 4 (Table.get (0 : Word) q.acc (tileKey t r n)).toNat))).flatten

def execMxStt (sq : SquareId) (s : State) : Host.Outcome State Fault Refusal :=
  .next (s.mxIssue sq.val 0x03 (fun w => [bits w 14 5, bits w 19 5]) (fun w => s.moveCheck sq.val w false) (fun w =>
    let q := s.sq sq.val
    let o := s.rowOrder (q.off w 19) 128
    let t := forAll o.1 (fun t r => t.writeCistern sq.val (q.off w 14 + r * q.off w 19) (q.tileRow (mxTile w) r)) o.2
    (t.drainSteps sq.val 2).advance sq.val))

/-- The causes of R76 for MX.TOV and MX.FROMV (R63). -/
def State.vectorCheck (s : State) (u w : Nat) (fromV : Bool) : Option (Nat × Nat) :=
  let q := s.sq u
  firstCause [
    cause (!mxOnly w [(24, 6), (10, 4)] || bits w 24 6 % 2 != 0) eIllegal q.insAddr,
    cause (decide (7 < mxTile w)) eAllot q.insAddr,
    cause (if fromV then q.badRegs (bits w 24 6) 2 else q.badElems (mxTile w) fullMask fullMask) eParity q.insAddr]

def execMxTov (sq : SquareId) (s : State) : Host.Outcome State Fault Refusal :=
  .next (s.mxIssue sq.val 0x05 (fun _ => []) (fun w => s.vectorCheck sq.val w false) (fun w =>
    let q := s.sq sq.val
    let ws := Table.getList 0 q.acc (1024 * mxTile w) 1024
    let t := s.modSq sq.val (fun q => (q.setLanes (bits w 24 6) (ws.take 512)).setLanes (bits w 24 6 + 1) (ws.drop 512))
    (t.drainSteps sq.val 2).advance sq.val))

def execMxFromv (sq : SquareId) (s : State) : Host.Outcome State Fault Refusal :=
  .next (s.mxIssue sq.val 0x06 (fun _ => []) (fun w => s.vectorCheck sq.val w true) (fun w =>
    let t := s.modSq sq.val (fun q => { q with
      acc := Table.setList 0 q.acc (1024 * mxTile w) (q.lanes (bits w 24 6) 512 ++ q.lanes (bits w 24 6 + 1) 512)
      badTile := Table.clear q.badTile (1024 * mxTile w) (1024 * mxTile w + 1024) })
    (t.drainSteps sq.val 2).advance sq.val))

/-! MX.RSC. -/

def rscType (w : Nat) : Nat := bits w 14 2
def rscStoch (w : Nat) : Bool := w.testBit 16
def rscWidth (w : Nat) : Nat := 2 ^ rscType w

/-- The register and lane of the uniform word of element (r, n) (R63, R117). -/
def rscLane (w r n : Nat) : Nat := 512 * (bits w 23 6 + r / 16) + 32 * (r % 16) + n

/-- The causes of R76 for MX.RSC (R117, R120). Which elements and lanes are checked for parity is the model's choice: the unmasked
tile elements, the row-scale lanes of unmasked rows, and the uniform words of unmasked elements (LOG 80). -/
def State.rscCheck (s : State) (u w : Nat) : Option (Nat × Nat) :=
  let q := s.sq u
  let off := q.off w 29
  let str := q.off w 34
  firstCause [
    cause (bits w 58 6 != 0 || rscType w == 3 || (if rscStoch w then bits w 23 6 % 2 != 0 else bits w 23 6 != 0)) eIllegal q.insAddr,
    cause (off % 32 != 0 || str % 32 != 0) eAlign (q.windowAddr u off),
    cause (decide (7 < mxTile w) || (maskBits (mxCols w)).any (fun n => decide (1023 < bits w 39 11 + n))) eAllot q.insAddr,
    q.footCause u off (31 * str + 32 * rscWidth w),
    cause (q.badElems (mxTile w) (mxRows w) (mxCols w) ||
      q.badLane.any (fun e => (maskBits (mxRows w)).any (fun r => e.1 == 512 * bits w 17 6 + r ||
        (rscStoch w && (maskBits (mxCols w)).any (fun n => e.1 == rscLane w r n))))) eParity q.insAddr]

/-- The saturated output of a type and whether it saturated (R47). -/
def satTo (type : Nat) (y : Int) : Int × Bool :=
  let z := if type = 0 then satI8 y else if type = 1 then satI16 y else satI32 y
  (z, decide (z ≠ y))

/-- One rescaled element (R46 to R48). -/
def Square.rscElem (q : Square) (w r n : Nat) : Int × Bool :=
  let sw := Scale.ofWord (Table.get 0 q.sfile (bits w 39 11 + n))
  let row := Scale.ofWord (q.lane (bits w 17 6) r)
  let sa : Scale := ⟨row.m, row.e - signed 8 (bits w 50 8)⟩
  let acc := q.elem (mxTile w) r n
  satTo (rscType w) (if rscStoch w then scaleMulSr acc sw sa (Table.get (0 : Word) q.vreg (rscLane w r n)).toNat else scaleMul acc sw sa)

def execMxRsc (sq : SquareId) (s : State) : Host.Outcome State Fault Refusal :=
  .next (s.mxIssue sq.val 0x04 (fun w => [bits w 29 5, bits w 34 5]) (s.rscCheck sq.val) (fun w =>
    let q := s.sq sq.val
    let o := s.rowOrder (q.off w 34) (32 * rscWidth w)
    let es := ((o.1.filter (fun r => (mxRows w).testBit r)).map (fun r => (maskBits (mxCols w)).map (fun n => (r, n, q.rscElem w r n)))).flatten
    let t := forAll es (fun t e =>
      t.writeCistern sq.val (q.off w 29 + e.1 * q.off w 34 + e.2.1 * rscWidth w) (toBytes (rscWidth w) (pattern 32 e.2.2.1))) o.2
    ((t.modSq sq.val (fun q => q.orOut (es.any (fun e => e.2.2.2)))).drainSteps sq.val 2).advance sq.val))

/-! MX.LDSF and MX.LDCB (R119, R120). -/

def execMxLdsf (sq : SquareId) (s : State) : Host.Outcome State Fault Refusal :=
  .next (s.mxIssue sq.val 0x07 (fun w => [bits w 14 5])
    (fun w =>
      let q := s.sq sq.val
      let off := q.off w 14
      let n := bits w 41 11
      firstCause [
        cause (!mxOnly w [(41, 11), (30, 11), (14, 5)] || n == 0 || decide (1024 < n)) eIllegal q.insAddr,
        cause (off % 32 != 0) eAlign (q.windowAddr sq.val off),
        cause (decide (1024 < bits w 30 11 + n)) eAllot q.insAddr,
        q.footCause sq.val off (4 * n),
        s.parityCause sq.val [(off, 4 * n)]])
    (fun w =>
      let ws := (i32s (s.cisternBytes sq.val ((s.sq sq.val).off w 14) (4 * bits w 41 11))).map (fun x => (Scale.ofWord x).toWord)
      ((s.modSq sq.val (fun q => { q with sfile := Table.setList 0 q.sfile (bits w 30 11) ws })).drainSteps sq.val
        ((bits w 41 11 + 63) / 64)).advance sq.val))

def execMxLdcb (sq : SquareId) (s : State) : Host.Outcome State Fault Refusal :=
  .next (s.mxIssue sq.val 0x08 (fun w => [bits w 14 5])
    (fun w =>
      let q := s.sq sq.val
      let off := q.off w 14
      let n := if w.testBit 59 then 256 else 16
      firstCause [
        cause (!mxOnly w [(59, 1), (52, 7), (14, 5)]) eIllegal q.insAddr,
        cause (off % 32 != 0) eAlign (q.windowAddr sq.val off),
        cause (decide (63 < bits w 52 7)) eAllot q.insAddr,
        q.footCause sq.val off n,
        s.parityCause sq.val [(off, n)]])
    (fun w =>
      let n := if w.testBit 59 then 256 else 16
      let k := 256 * bits w 52 7
      let bs := s.cisternBytes sq.val ((s.sq sq.val).off w 14) n
      ((s.modSq sq.val (fun q => { q with
        cbook := Table.setList 0 q.cbook k bs, badCb := Table.clear q.badCb k (k + n) })).drainSteps sq.val 1).advance sq.val))

end Sys2Proof.Machine
end

