-- ==== Sys2Proof/Machine/Vector.lean ====
section
/-! DEFINITION. VX instructions: the vector engine and its function tables (R78 to R101, R122, R123). -/

namespace Sys2Proof.Machine

/-! Fields (R122). -/

def vxVD (w : Nat) : Nat := bits w 10 6
def vxVA (w : Nat) : Nat := bits w 16 6
def vxVB (w : Nat) : Nat := bits w 22 6
def vxVC (w : Nat) : Nat := bits w 28 6
def vxVU (w : Nat) : Nat := bits w 34 6
def vxBSrc (w : Nat) : Nat := bits w 40 2
def vxSS (w : Nat) : Nat := bits w 42 5
def vxSR (w : Nat) : Nat := bits w 47 5
def vxWC (w : Nat) : Nat := bits w 52 3
def vxNReg (w : Nat) : Nat := bits w 55 7
def vxSH (w : Nat) : Nat := bits w 62 6
def vxSlot (w : Nat) : Nat := bits w 68 4
def vxEType (w : Nat) : Nat := bits w 72 2
def vxCnt (w : Nat) : Nat := bits w 74 10
def vxQMax (w : Nat) : Nat := if w.testBit 84 then 32767 else 127
def vxFlag (w : Nat) : Bool := w.testBit 85
def vxImm (w : Nat) : Word := BitVec.ofNat 32 (bits w 96 32)

abbrev fVD : Nat × Nat := (10, 6)
abbrev fVA : Nat × Nat := (16, 6)
abbrev fVC : Nat × Nat := (28, 6)
abbrev fVU : Nat × Nat := (34, 6)
abbrev fSS : Nat × Nat := (42, 5)
abbrev fSR : Nat × Nat := (47, 5)
abbrev fWC : Nat × Nat := (52, 3)
abbrev fNReg : Nat × Nat := (55, 7)
abbrev fSH : Nat × Nat := (62, 6)
abbrev fSlot : Nat × Nat := (68, 4)
abbrev fEType : Nat × Nat := (72, 2)
abbrev fCnt : Nat × Nat := (74, 10)
abbrev fQM : Nat × Nat := (84, 1)
abbrev fFlag : Nat × Nat := (85, 1)
abbrev fImm : Nat × Nat := (96, 32)

/-- The fields that operand B takes (R122, R123). -/
def bFields (w : Nat) : List (Nat × Nat) :=
  (40, 2) :: (match vxBSrc w with | 0 => [(22, 6)] | 1 => [fSS] | 2 => [fImm] | _ => [])

/-- Order 1 of R101 for the fields an opcode lists (R123): every other field is 0, and BSRC is not reserved. -/
def vxFormOk (w : Nat) (fs : List (Nat × Nat)) (b : Bool) : Bool :=
  onlyFields w (fs ++ if b then bFields w else []) && !(b && vxBSrc w == 3)

/-- The scalar registers that operand B takes. -/
def bRegs (w : Nat) : List Nat := if vxBSrc w = 1 then [vxSS w] else []

/-- The lanes of operand B: a scalar or immediate is the same in every lane (R122, R123). -/
def Square.bLanes (q : Square) (w : Nat) : List Word :=
  match vxBSrc w with
  | 0 => q.lanes (vxVB w) 512
  | 1 => List.replicate 512 ((q.sreg (vxSS w)).setWidth 32)
  | _ => List.replicate 512 (vxImm w)

/-- Whether a lane of the registers an operation reads fails parity. -/
def Square.badSources (q : Square) (w : Nat) (b : Bool) (vs : List (Nat × Nat)) : Bool :=
  vs.any (fun r => q.badRegs r.1 r.2) || (b && vxBSrc w == 0 && q.badRegs (vxVB w) 1)

/-- A VX instruction: it waits for its scalar registers (R107), and takes effect when no cause of R101 holds (R100). -/
def State.vxIssue (s : State) (u op : Nat) (regs : Nat → List Nat) (check : Nat → Option (Nat × Nat)) (f : Nat → State) : State :=
  s.issue u 2 op (fun w =>
    if (s.sq u).regsReady (regs w) then s.checked u (check w) (((f w).count u 3 1).advance u) else s)

/-- The checks of an operation that reads no cistern: order 1, then parity of what it reads. -/
def State.vxChecks (s : State) (u w : Nat) (fs : List (Nat × Nat)) (b extra bad : Bool) : Option (Nat × Nat) :=
  let q := s.sq u
  firstCause [cause (!(vxFormOk w fs b && extra)) eIllegal q.insAddr, cause bad eParity q.insAddr]

/-- The checks of an operation that reads every lane of its source registers. -/
def State.vxCheck (s : State) (u w : Nat) (fs : List (Nat × Nat)) (b extra : Bool) (vs : List (Nat × Nat)) : Option (Nat × Nat) :=
  s.vxChecks u w fs b extra ((s.sq u).badSources w b vs)

/-- Results written to VD, and OUT_SAT (R81). -/
def Square.putLanes (q : Square) (v : Nat) (rs : List (Word × Bool)) : Square :=
  (q.setLanes v (rs.map Prod.fst)).orOut (rs.any Prod.snd)

/-! Lane-wise operations (R81). -/

/-- A saturating result and whether it differs from the exact value. -/
def satLane (x : Int) : Word × Bool := (ofI32 (satI32 x), decide (satI32 x ≠ x))

/-- A result that sets no flag. -/
def plain (v : Word) : Word × Bool := (v, false)

/-- An operation of VA and operand B. -/
def State.vxBinary (s : State) (u op : Nat) (shift : Bool) (f : Nat → Word → Word → Word × Bool) : State :=
  s.vxIssue u op bRegs
    (fun w => s.vxCheck u w (if shift then [fVD, fVA, fSH] else [fVD, fVA]) true true [(vxVA w, 1)])
    (fun w => s.modSq u (fun q => q.putLanes (vxVD w) (List.zipWith (f (vxSH w)) (q.lanes (vxVA w) 512) (q.bLanes w))))

/-- An operation of VA alone, with a shift of 0 to 31 or none. -/
def State.vxUnary (s : State) (u op : Nat) (shift : Bool) (f : Nat → Word → Word × Bool) : State :=
  s.vxIssue u op (fun _ => [])
    (fun w => s.vxCheck u w (if shift then [fVD, fVA, fSH] else [fVD, fVA]) false (!shift || decide (vxSH w ≤ 31)) [(vxVA w, 1)])
    (fun w => s.modSq u (fun q => q.putLanes (vxVD w) ((q.lanes (vxVA w) 512).map (f (vxSH w)))))

/-- The lane value of a comparison. -/
def boolLane (b : Bool) : Word := if b then BitVec.allOnes 32 else 0

def execVxAdd (sq : SquareId) (s : State) : Host.Outcome State Fault Refusal :=
  .next (s.vxBinary sq.val 0x00 false (fun _ a b => satLane (sint a + sint b)))
def execVxSub (sq : SquareId) (s : State) : Host.Outcome State Fault Refusal :=
  .next (s.vxBinary sq.val 0x01 false (fun _ a b => satLane (sint a - sint b)))
def execVxMulsh (sq : SquareId) (s : State) : Host.Outcome State Fault Refusal :=
  .next (s.vxBinary sq.val 0x02 true (fun sh a b => satLane (rneShift (sint a * sint b) sh)))
def execVxRsh (sq : SquareId) (s : State) : Host.Outcome State Fault Refusal :=
  .next (s.vxUnary sq.val 0x03 true (fun sh a => plain (ofI32 (rneShift (sint a) sh))))
def execVxAbs (sq : SquareId) (s : State) : Host.Outcome State Fault Refusal :=
  .next (s.vxUnary sq.val 0x04 false (fun _ a => satLane ((sint a).natAbs : Int)))
def execVxNeg (sq : SquareId) (s : State) : Host.Outcome State Fault Refusal :=
  .next (s.vxUnary sq.val 0x05 false (fun _ a => satLane (-sint a)))
def execVxMin (sq : SquareId) (s : State) : Host.Outcome State Fault Refusal :=
  .next (s.vxBinary sq.val 0x06 false (fun _ a b => plain (if sint a ≤ sint b then a else b)))
def execVxMax (sq : SquareId) (s : State) : Host.Outcome State Fault Refusal :=
  .next (s.vxBinary sq.val 0x07 false (fun _ a b => plain (if sint a ≤ sint b then b else a)))
def execVxAnd (sq : SquareId) (s : State) : Host.Outcome State Fault Refusal :=
  .next (s.vxBinary sq.val 0x08 false (fun _ a b => plain (a &&& b)))
def execVxOr (sq : SquareId) (s : State) : Host.Outcome State Fault Refusal :=
  .next (s.vxBinary sq.val 0x09 false (fun _ a b => plain (a ||| b)))
def execVxXor (sq : SquareId) (s : State) : Host.Outcome State Fault Refusal :=
  .next (s.vxBinary sq.val 0x0A false (fun _ a b => plain (a ^^^ b)))
def execVxShl (sq : SquareId) (s : State) : Host.Outcome State Fault Refusal :=
  .next (s.vxUnary sq.val 0x0B true (fun sh a => plain (a <<< sh)))
def execVxSrl (sq : SquareId) (s : State) : Host.Outcome State Fault Refusal :=
  .next (s.vxUnary sq.val 0x0C true (fun sh a => plain (a >>> sh)))
def execVxSra (sq : SquareId) (s : State) : Host.Outcome State Fault Refusal :=
  .next (s.vxUnary sq.val 0x0D true (fun sh a => plain (a.sshiftRight sh)))
def execVxCmpeq (sq : SquareId) (s : State) : Host.Outcome State Fault Refusal :=
  .next (s.vxBinary sq.val 0x0E false (fun _ a b => plain (boolLane (a == b))))
def execVxCmplt (sq : SquareId) (s : State) : Host.Outcome State Fault Refusal :=
  .next (s.vxBinary sq.val 0x0F false (fun _ a b => plain (boolLane (decide (sint a < sint b)))))
def execVxCmple (sq : SquareId) (s : State) : Host.Outcome State Fault Refusal :=
  .next (s.vxBinary sq.val 0x10 false (fun _ a b => plain (boolLane (decide (sint a ≤ sint b)))))
def execVxMov (sq : SquareId) (s : State) : Host.Outcome State Fault Refusal :=
  .next (s.vxUnary sq.val 0x12 false (fun _ a => plain a))

/-- Lane-wise choice among three lists. -/
def selLanes : List Word → List Word → List Word → List Word
  | c :: cs, a :: as_, b :: bs => (if c ≠ 0 then a else b) :: selLanes cs as_ bs
  | _, _, _ => []

def execVxSel (sq : SquareId) (s : State) : Host.Outcome State Fault Refusal :=
  .next (s.vxIssue sq.val 0x11 bRegs
    (fun w => s.vxCheck sq.val w [fVD, fVA, fVC] true true [(vxVA w, 1), (vxVC w, 1)])
    (fun w => s.modSq sq.val (fun q =>
      q.setLanes (vxVD w) (selLanes (q.lanes (vxVC w) 512) (q.lanes (vxVA w) 512) (q.bLanes w)))))

def execVxIota (sq : SquareId) (s : State) : Host.Outcome State Fault Refusal :=
  .next (s.vxIssue sq.val 0x13 (fun _ => []) (fun w => s.vxCheck sq.val w [fVD] false true [])
    (fun w => s.modSq sq.val (fun q => q.mapLanes (vxVD w) (BitVec.ofNat 32))))

def execVxBcast (sq : SquareId) (s : State) : Host.Outcome State Fault Refusal :=
  .next (s.vxIssue sq.val 0x14 (fun w => [vxSS w]) (fun w => s.vxCheck sq.val w [fVD, fSS] false true [])
    (fun w => s.modSq sq.val (fun q => q.mapLanes (vxVD w) (fun _ => (q.sreg (vxSS w)).setWidth 32))))

def execVxTos (sq : SquareId) (s : State) : Host.Outcome State Fault Refusal :=
  .next (s.vxIssue sq.val 0x15 (fun w => [vxSR w])
    (fun w => s.vxChecks sq.val w [fVA, fSR, fCnt] false (decide (vxCnt w ≤ 511)) ((s.sq sq.val).badSpan (vxVA w) (vxCnt w) 1))
    (fun w => s.modSq sq.val (fun q => q.setSreg (vxSR w) ((q.lane (vxVA w) (vxCnt w)).signExtend 64))))

/-! VX.LD and VX.ST (R84). -/

/-- Bytes of an element type. -/
def elemSize (et : Nat) : Nat := if et = 3 then 4 else if et = 2 then 2 else 1

/-- Lane patterns from bytes: i8 and i16 sign-extended, u8 zero-extended (R84). -/
def loadLanes (et : Nat) (bs : List Byte) : List Word :=
  match et with
  | 0 => bs.map (fun b => b.signExtend 32)
  | 1 => bs.map (fun b => b.setWidth 32)
  | 2 => (i16s bs).map ofI32
  | _ => i32s bs

/-- A lane saturated to an element type (R84). -/
def storeLane (et : Nat) (v : Word) : Int :=
  match et with
  | 0 => satI8 (sint v)
  | 1 => clampI 0 255 (sint v)
  | 2 => satI16 (sint v)
  | _ => sint v

/-- The causes of R101 for a cistern access of `n` bytes. -/
def State.vxMemCheck (s : State) (u w : Nat) (fs : List (Nat × Nat)) (extra readOnly : Bool) (n : Nat) (load : Bool) (bad : Bool) : Option (Nat × Nat) :=
  let q := s.sq u
  let off := (q.sreg (vxSS w)).toNat
  firstCause [
    cause (!(vxFormOk w fs false && extra)) eIllegal q.insAddr,
    cause (off % 32 != 0) eAlign (q.windowAddr u off),
    cause readOnly ePermission q.insAddr,
    q.footCause u off n,
    if load then s.parityCause u [(off, n)] else none,
    cause bad eParity q.insAddr]

/-- CNT of VX.LD and VX.ST in range. -/
def cntOk (w : Nat) : Bool := decide (1 ≤ vxCnt w ∧ vxCnt w ≤ 512)

def execVxLd (sq : SquareId) (s : State) : Host.Outcome State Fault Refusal :=
  .next (s.vxIssue sq.val 0x16 (fun w => [vxSS w])
    (fun w => s.vxMemCheck sq.val w [fVD, fSS, fEType, fCnt] (cntOk w) false (vxCnt w * elemSize (vxEType w)) true false)
    (fun w =>
      let bs := s.cisternBytes sq.val ((s.sq sq.val).sreg (vxSS w)).toNat (vxCnt w * elemSize (vxEType w))
      s.modSq sq.val (fun q => q.setLanes (vxVD w) (loadLanes (vxEType w) bs ++ List.replicate (512 - vxCnt w) 0))))

def execVxSt (sq : SquareId) (s : State) : Host.Outcome State Fault Refusal :=
  .next (s.vxIssue sq.val 0x17 (fun w => [vxSS w])
    (fun w => s.vxMemCheck sq.val w [fVA, fSS, fEType, fCnt] (cntOk w) false (vxCnt w * elemSize (vxEType w)) false
      ((s.sq sq.val).badSpan (vxVA w) 0 (vxCnt w)))
    (fun w =>
      let q := s.sq sq.val
      let vs := q.lanes (vxVA w) (vxCnt w)
      let bs := (vs.map (fun v => toBytes (elemSize (vxEType w)) (pattern 32 (storeLane (vxEType w) v)))).flatten
      (s.writeCistern sq.val (q.sreg (vxSS w)).toNat bs).modSq sq.val (fun q =>
        q.orOut (vs.any (fun v => storeLane (vxEType w) v != sint v)))))

/-! Row reductions (R80, R85). -/

/-- Row width in lanes. -/
def rowWidth (wc : Nat) : Nat := 32 * 2 ^ wc

/-- W and NREG in the range of R80, with no register past v63. -/
def rowOk (va wc n : Nat) : Bool := decide (wc ≤ 4) && decide (1 ≤ n ∧ n ≤ 64) && decide (va + n ≤ 64)

/-- Element lists of the rows of a row operation: row g of `n` registers from `va` (R80). -/
def Square.rowsOf (q : Square) (va wc n : Nat) : List (List Word) :=
  (upto (512 / rowWidth wc)).map (fun g =>
    ((upto n).map (fun r => Table.getList 0 q.vreg (512 * (va + r) + g * rowWidth wc) (rowWidth wc))).flatten)

/-- One value for every lane of each row. -/
def spreadRows (wc : Nat) (vs : List Word) : List Word := (vs.map (fun v => List.replicate (rowWidth wc) v)).flatten

/-- Least or greatest of a list of integers by a choice of two. -/
def foldInts (f : Int → Int → Int) : List Int → Int
  | [] => 0
  | x :: r => r.foldl f x

/-- VX.RMAX, VX.RMIN and VX.RAMAX. -/
def State.vxReduce (s : State) (u op : Nat) (f : List Word → Word) : State :=
  s.vxIssue u op (fun _ => [])
    (fun w => s.vxCheck u w [fVD, fVA, fWC, fNReg] false (rowOk (vxVA w) (vxWC w) (vxNReg w)) [(vxVA w, vxNReg w)])
    (fun w => s.modSq u (fun q => q.setLanes (vxVD w) (spreadRows (vxWC w) ((q.rowsOf (vxVA w) (vxWC w) (vxNReg w)).map f))))

def execVxRmax (sq : SquareId) (s : State) : Host.Outcome State Fault Refusal :=
  .next (s.vxReduce sq.val 0x18 (fun r => ofI32 (foldInts max (r.map sint))))
def execVxRmin (sq : SquareId) (s : State) : Host.Outcome State Fault Refusal :=
  .next (s.vxReduce sq.val 0x19 (fun r => ofI32 (foldInts min (r.map sint))))
def execVxRamax (sq : SquareId) (s : State) : Host.Outcome State Fault Refusal :=
  .next (s.vxReduce sq.val 0x1A (fun r => ofI32 (foldInts max (r.map (fun v => ((sint v).natAbs : Int))))))

/-- The 64-bit value of a pair of lanes. -/
def pairInt (lo hi : Word) : Int := (hi ++ lo).toInt

/-- Clamp to i64 and say whether it acted (R85). -/
def satI64 (x : Int) : Int × Bool :=
  let y := clampI (-9223372036854775808) 9223372036854775807 x
  (y, decide (y ≠ x))

/-- Whether what VX.RSUM or VX.RSSQ reads fails parity: the row registers, and with ACC one lane of each row of the pair (R85). -/
def Square.badPair (q : Square) (w : Nat) : Bool :=
  q.badRegs (vxVA w) (vxNReg w) ||
    (vxFlag w && (upto (512 / rowWidth (vxWC w))).any (fun g =>
      q.badSpan (vxVD w) (g * rowWidth (vxWC w)) 1 || q.badSpan (vxVD w + 1) (g * rowWidth (vxWC w)) 1))

/-- VX.RSUM and VX.RSSQ: the pair of each row (R85). -/
def State.vxPair (s : State) (u op : Nat) (fs : List (Nat × Nat)) (extra : Nat → Bool) (f : Nat → Word → Int) : State :=
  s.vxIssue u op (fun _ => [])
    (fun w => s.vxChecks u w ([fVD, fVA, fWC, fNReg, fFlag] ++ fs) false
      (rowOk (vxVA w) (vxWC w) (vxNReg w) && vxVD w % 2 == 0 && extra w) ((s.sq u).badPair w))
    (fun w => s.modSq u (fun q =>
      let olds := (upto (512 / rowWidth (vxWC w))).map (fun g =>
        if vxFlag w then pairInt (q.lane (vxVD w) (g * rowWidth (vxWC w))) (q.lane (vxVD w + 1) (g * rowWidth (vxWC w))) else 0)
      let sums := (q.rowsOf (vxVA w) (vxWC w) (vxNReg w)).map (fun r => sumI (r.map (f w)))
      let rs := (List.zipWith (· + ·) olds sums).map satI64
      let q1 := q.setLanes (vxVD w) (spreadRows (vxWC w) (rs.map (fun r => ofI32 r.1)))
      (q1.setLanes (vxVD w + 1) (spreadRows (vxWC w) (rs.map (fun r => ofI32 (asr r.1 32))))).orOut (rs.any Prod.snd)))

def execVxRsum (sq : SquareId) (s : State) : Host.Outcome State Fault Refusal :=
  .next (s.vxPair sq.val 0x1B [] (fun _ => true) (fun _ v => sint v))
def execVxRssq (sq : SquareId) (s : State) : Host.Outcome State Fault Refusal :=
  .next (s.vxPair sq.val 0x1C [fSH] (fun w => decide (vxSH w ≤ 31)) (fun w v => rneShift (sint v) (vxSH w) * rneShift (sint v) (vxSH w)))

/-! Scale operations (R86, R87). -/

/-- The scale word of a result that may have set OUT_SAT. -/
def scaleLane (r : Scale × Bool) : Word × Bool := (r.1.toWord, r.2)

def execVxDsc (sq : SquareId) (s : State) : Host.Outcome State Fault Refusal :=
  .next (s.vxIssue sq.val 0x1D bRegs
    (fun w => s.vxCheck sq.val w [fVD, fVA, fQM] true true [(vxVA w, 1)])
    (fun w => s.modSq sq.val (fun q => q.putLanes (vxVD w)
      (List.zipWith (fun a b => scaleLane (deriveScale a.toNat (Scale.ofWord b) (vxQMax w))) (q.lanes (vxVA w) 512) (q.bLanes w)))))

/-- The quantised lanes of VX.QNT (R37, R49). -/
def qntLanes (qmax : Nat) (stoch : Bool) : List Word → List Word → List Word → List Word → List (Word × Bool)
  | x :: xs, b :: bs, c :: cs, v :: vs =>
    (let r := if stoch then quantizeSr (sint x) (Scale.ofWord b) (Scale.ofWord c) qmax v.toNat
              else quantize (sint x) (Scale.ofWord b) (Scale.ofWord c) qmax
     (ofI32 r.1, r.2)) :: qntLanes qmax stoch xs bs cs vs
  | _, _, _, _ => []

def execVxQnt (sq : SquareId) (s : State) : Host.Outcome State Fault Refusal :=
  .next (s.vxIssue sq.val 0x1E bRegs
    (fun w => s.vxCheck sq.val w ([fVD, fVA, fVC, fQM, fFlag] ++ if vxFlag w then [fVU] else []) true true
      ([(vxVA w, 1), (vxVC w, 1)] ++ if vxFlag w then [(vxVU w, 1)] else []))
    (fun w => s.modSq sq.val (fun q => q.putLanes (vxVD w)
      (qntLanes (vxQMax w) (vxFlag w) (q.lanes (vxVA w) 512) (q.bLanes w) (q.lanes (vxVC w) 512) (q.lanes (vxVU w) 512)))))

def execVxSmul (sq : SquareId) (s : State) : Host.Outcome State Fault Refusal :=
  .next (s.vxBinary sq.val 0x1F false (fun _ a b => scaleLane (smul (Scale.ofWord a) (Scale.ofWord b))))
def execVxSrcp (sq : SquareId) (s : State) : Host.Outcome State Fault Refusal :=
  .next (s.vxUnary sq.val 0x20 false (fun _ a => scaleLane (srcp (Scale.ofWord a))))
def execVxSc64 (sq : SquareId) (s : State) : Host.Outcome State Fault Refusal :=
  .next (s.vxIssue sq.val 0x21 (fun _ => [])
    (fun w => s.vxCheck sq.val w [fVD, fVA, fImm] false
      (vxVA w % 2 == 0 && decide (-128 ≤ sint (vxImm w) ∧ sint (vxImm w) ≤ 127)) [(vxVA w, 2)])
    (fun w => s.modSq sq.val (fun q => q.putLanes (vxVD w)
      (List.zipWith (fun lo hi => scaleLane (sc64 (pairInt lo hi) (sint (vxImm w)))) (q.lanes (vxVA w) 512) (q.lanes (vxVA w + 1) 512)))))

/-! Functions (R88 to R97). -/

/-- The key of the active bank of a user slot (R96). -/
def Square.activeBank (q : Square) (slot : Nat) : Nat := 2 * slot + Table.get 0 q.uactive slot

/-- The active table of a slot, built in or loaded (R89, R91, R96). -/
def Square.tableOf (q : Square) (slot : Nat) : FnTable :=
  if slot < 7 then builtinTable slot else Table.get {} q.utab (q.activeBank slot)

/-- One lane of VX.SFN (R88). -/
def Square.sfnLane (q : Square) (slot : Nat) (ish : Int) (v : Word) : Word × Bool :=
  let a := sfnArg (sint v) ish
  (ofI32 (userEval (q.tableOf slot) a.1), a.2)

/-- Whether a record that the arguments select fails parity. -/
def Square.badRecords (q : Square) (slot : Nat) (xs : List Int) : Bool :=
  q.badTab.any (fun e => e.1 / 1024 == q.activeBank slot && xs.any (fun x => (recordOf x).1 == e.1 % 1024))

/-- The pre-shifted arguments of the lanes of VX.SFN. -/
def Square.sfnArgs (q : Square) (w : Nat) : List Int :=
  (q.lanes (vxVA w) 512).map (fun v => (sfnArg (sint v) (signed 6 (vxSH w))).1)

/-- The arguments at which the lanes of VX.SRSQ read the table of slot 3: a lane of scale 0 reads none (R86). -/
def Square.srsqArgs (q : Square) (w : Nat) : List Int :=
  ((q.lanes (vxVA w) 512).filter (fun v => decide ((Scale.ofWord v).m ≠ 0))).map (fun v => srsqArg (Scale.ofWord v))

def execVxSrsq (sq : SquareId) (s : State) : Host.Outcome State Fault Refusal :=
  .next (s.vxIssue sq.val 0x22 (fun _ => [])
    (fun w =>
      let q := s.sq sq.val
      s.vxChecks sq.val w [fVD, fVA] false true
        (q.badRegs (vxVA w) 1 || (decide (q.badTab ≠ []) && q.badRecords 3 (q.srsqArgs w))))
    (fun w => s.modSq sq.val (fun q => q.putLanes (vxVD w)
      ((q.lanes (vxVA w) 512).map (fun v => scaleLane (srsq (Scale.ofWord v)))))))

def execVxSfn (sq : SquareId) (s : State) : Host.Outcome State Fault Refusal :=
  .next (s.vxIssue sq.val 0x23 (fun _ => [])
    (fun w =>
      let q := s.sq sq.val
      s.vxChecks sq.val w [fVD, fVA, fSlot, fSH] false (vxSlot w != 7)
        (q.badRegs (vxVA w) 1 || (decide (q.badTab ≠ []) && q.badRecords (vxSlot w) (q.sfnArgs w))))
    (fun w => s.modSq sq.val (fun q =>
      q.putLanes (vxVD w) ((q.lanes (vxVA w) 512).map (q.sfnLane (vxSlot w) (signed 6 (vxSH w)))))))

/-- Bytes of a table image (R92). -/
abbrev imageBytes : Nat := 6176

/-- Coefficient records of image words. -/
def coefsOf : List Word → List Coef
  | a :: b :: c :: r => ⟨a, b, c⟩ :: coefsOf r
  | _ => []

/-- A table from its image (R92). -/
def tableOfImage (bs : List Byte) : FnTable :=
  let h := ofBytes (bs.take 32)
  { omin := BitVec.ofNat 32 (bits h 32 32), omax := BitVec.ofNat 32 (bits h 64 32), brk := h.testBit 4
    dirn := bits h 2 2, dirp := bits h 0 2, recs := Table.setList {} [] 0 (coefsOf (i32s (bs.drop 32))) }

/-- The image of a table (R92). -/
def imageOfTable (t : FnTable) : List Byte :=
  toBytes 32 (t.dirp + 4 * t.dirn + 16 * bitN t.brk + t.omin.toNat * 2 ^ 32 + t.omax.toNat * 2 ^ 64) ++
    ((Table.getList {} t.recs 0 512).map (fun c => toBytes 4 c.c0.toNat ++ toBytes 4 c.c1.toNat ++ toBytes 4 c.c2.toNat)).flatten

/-- VX.TLD on a square: the idle bank takes the image; the bank switches on a pass or without CHK (R93, R96). -/
def Square.loadTable (q : Square) (w : Nat) (t : FnTable) : Square :=
  let slot := vxSlot w
  let idle := 1 - Table.get 0 q.uactive slot
  let r := seamCheck t
  let q1 := { q with
    utab := Table.set {} q.utab (2 * slot + idle) t
    badTab := Table.clear q.badTab (1024 * (2 * slot + idle)) (1024 * (2 * slot + idle + 1))
    uactive := if vxFlag w && r != 0 then q.uactive else Table.set 0 q.uactive slot idle }
  if vxFlag w then q1.setSreg (vxSR w) (BitVec.ofNat 64 r) else q1

def execVxTld (sq : SquareId) (s : State) : Host.Outcome State Fault Refusal :=
  .next (s.vxIssue sq.val 0x24 (fun w => [vxSS w, vxSR w])
    (fun w => s.vxMemCheck sq.val w ([fSS, fSlot, fFlag] ++ if vxFlag w then [fSR] else []) (vxSlot w != 7)
      (decide (vxSlot w < 7)) imageBytes true false)
    (fun w =>
      let t := tableOfImage (s.cisternBytes sq.val ((s.sq sq.val).sreg (vxSS w)).toNat imageBytes)
      s.modSq sq.val (fun q => q.loadTable w t)))

def execVxTst (sq : SquareId) (s : State) : Host.Outcome State Fault Refusal :=
  .next (s.vxIssue sq.val 0x25 (fun w => [vxSS w])
    (fun w => s.vxMemCheck sq.val w [fSS, fSlot] (vxSlot w != 7) false imageBytes false
      ((s.sq sq.val).badTab.any (fun e => e.1 / 1024 == (s.sq sq.val).activeBank (vxSlot w))))
    (fun w => s.writeCistern sq.val ((s.sq sq.val).sreg (vxSS w)).toNat (imageOfTable ((s.sq sq.val).tableOf (vxSlot w)))))

end Sys2Proof.Machine
end

