-- ==== Sys2Proof/Machine/Access.lean ====
section
/-! DEFINITION. Accesses as their homes perform them (R271, R293, R301, R317), the near caches (R279 to R282), and the
AT instructions with the ways their answers come back (R135 to R141). -/

namespace Sys2Proof.Machine

/-! One access of an agent to a local address. -/

/-- What a local access answers: bytes, an error response, or that the host must answer it. -/
inductive AccOut where
  | ok (bs : List Byte)
  | err (code : Nat)
  | host
deriving DecidableEq, Repr

/-- The partition number as the type of register writes. -/
def asPart (p : Nat) : PartId := ⟨p % 16, Nat.mod_lt p (by decide)⟩

/-- The register-space case, before its data crosses any bridge (R7, R269). -/
def State.regPerform (s : State) (unit part a : Nat) (k : AccessKind) : State × AccOut :=
  match k with
  | .load n =>
    match s.regRead unit part a n with
    | .error c => (s, .err c)
    | .ok bs => (s, .ok bs)
  | .store bs =>
    let r := s.regStore unit (asPart part) a bs
    (r.1, if r.2 = eOk then .ok [] else .err r.2)
  | .atom op n v =>
    let r := s.regAtomic unit part a n op v
    (r.1, match r.2 with | .error c => .err c | .ok old => .ok (toBytes n old))
  | .cas n v _ =>
    let r := s.regAtomic unit part a n 9 v
    (r.1, match r.2 with | .error c => .err c | .ok old => .ok (toBytes n old))

/-- The data of a register access that passes its checks crosses to the die of the register (R19). -/
def State.carryReg (s : State) (unit part a : Nat) (k : AccessKind) : State :=
  let x := accFor unit part a k false
  s.carryRegister unit a x.len x.op

/-- The register-space case (R7, R19, R269). -/
def State.regAccess (s : State) (unit part a : Nat) (k : AccessKind) : State × AccOut :=
  let r := s.regPerform unit part a k
  match r.2 with
  | .ok bs => (r.1.carryReg unit part a k, .ok bs)
  | o => (r.1, o)

/-- The memory case, once the checks have passed. -/
def State.memAccess (s : State) (a : Nat) (k : AccessKind) : State × AccOut :=
  match k with
  | .load n =>
    let r := s.homeRead a n
    (r.1, match r.2 with | .error c => .err c | .ok bs => .ok bs)
  | .store bs => (s.homeWrite a bs, .ok [])
  | .atom op n v =>
    let r := s.homeAtomic a n op v 0
    (r.1, match r.2 with | .error c => .err c | .ok old => .ok (toBytes n old))
  | .cas n v c =>
    let r := s.homeAtomic a n 9 v c
    (r.1, match r.2 with | .error c => .err c | .ok old => .ok (toBytes n old))

/-- An access to a local address at its home (R293): registers, host window (R533) or memory. -/
def State.localAccess (s : State) (unit part a : Nat) (k : AccessKind) (bulk : Bool) : State × AccOut :=
  match placeOf s.isM a with
  | .reg => s.regAccess unit part a k
  | .host =>
    let x := accFor unit part a k bulk
    let c := s.checkAcc x
    if c ≠ 0 then (s.refused x c, .err c)
    else
      match k with
      | .store bs => ((s.carryAcc x).hostPost part a bs, .ok [])
      | _ => (s.carryAcc x, .host)
  | _ =>
    let x := accFor unit part a k bulk
    let c := s.checkAcc x
    if c ≠ 0 then (s.refused x c, .err c) else (s.carryAcc x).memAccess a k

/-! Requests that leave the module. -/

/-- The reply that the acceptance of a record lets go, for who waits. -/
def replyOf (w : Waiter) (code : Nat) : Reply :=
  match w with
  | .atRow sq op row => .square sq op row code
  | .pumpRead sq _ => .pump sq code
  | .pumpWrite sq => .pump sq code
  | .pumpSignal sq => .pump sq code
  | .tableRead _ => .none
  | .far key => .far key code
  | .command id sq => .command id sq code
  | .tail id => .tail id
  | .core c => .out (.resp (unitCore c) code [])
  | .link _ t => .linkErr t code
  | .nobody => .none

/-- The transaction of an access to another module (R412). -/
def txnFor (k : AccessKind) : Txn :=
  match k with
  | .load n => { type := 2, len := n }
  | .store bs => { type := 1, len := bs.length, payload := bs }
  | .atom op n v => { type := 3, len := 16, aop := op, asz := if n = 4 then 2 else 3, payload := toBytes 8 (v % 2 ^ (8 * n)) ++ toBytes 8 0 }
  | .cas n v c =>
    if n = 16 then { type := 3, len := 32, aop := 9, asz := 1, payload := toBytes 16 v ++ toBytes 16 c }
    else { type := 3, len := 16, aop := 9, asz := if n = 4 then 2 else 3, payload := toBytes 8 (v % 2 ^ (8 * n)) ++ toBytes 8 (c % 2 ^ (8 * n)) }

/-- Send an access of the host window to the host (R533, R535). -/
def State.hostAccess (s : State) (unit part a : Nat) (k : AccessKind) (w : Waiter) : State :=
  match k with
  | .load n => s.hostRequest unit part a n k w
  | .store bs => s.hostPost part a bs
  | .atom _ n _ => s.hostRequest unit part a n k w
  | .cas n _ _ => s.hostRequest unit part a n k w

/-! Near caches. -/

/-- Take one free value: the state's counter picks it (LOG 5). -/
def State.takeFree (s : State) : Nat × State := (s.freeCtr, { s with freeCtr := s.freeCtr + 1 })

/-- Discard the lines of a square's near cache that a range touches (R281). -/
def State.dropNear (s : State) (u a n : Nat) : State :=
  s.modSq u (fun q => { q with near := dropLines q.near (a / 128 * 128) (a + n) })

/-- The lines of the set that a line belongs to (R279: 8 ways of 512 sets). -/
def nearSet (near : Table (List Byte)) (line : Nat) : List Nat := (near.map Prod.fst).filter (fun l => l % 512 == line % 512)

/-- Install a line; a full set loses one that is left open (LOG 15). -/
def State.installLine (s : State) (u line : Nat) (bs : List Byte) : State :=
  let set := nearSet (s.sq u).near line
  if set.length < 8 then s.modSq u (fun q => { q with near := Table.set [] q.near line bs })
  else
    let f := s.takeFree
    let out := set.getD (Config.nearVictim f.1 % 8) line
    f.2.modSq u (fun q => { q with near := Table.set [] (Table.erase q.near out) line bs })

/-- Whether a line may be held by a near cache: a well or reservoir line outside sealed regions (R279). -/
def State.cacheable (s : State) (u part a : Nat) : Bool :=
  (match placeOf s.isM a with | .well _ => true | .reservoir => true | _ => false) &&
  !s.inSealedRegion u part (a / 128 * 128) 128

/-- A read through a square's near cache (R280): a hit is served by the line, a miss goes to the home and may fill, after a retry too, but
not where a byte of the line still fails. A line that fails parity is discarded, and the home is read (R291). -/
def State.nearRead (s : State) (u part a n : Nat) (fill bulk : Bool) : State × AccOut :=
  let line := a / 128
  let s := if Table.get false (s.sq u).badNear line then
      s.modSq u (fun q => { q with near := Table.erase q.near line, badNear := Table.set false q.badNear line false })
    else s
  let held := Table.get [] (s.sq u).near line
  if held ≠ [] ∧ (a + n - 1) / 128 = line then
    (s.count u 11 1, .ok ((held.drop (a % 128)).take n))
  else
    let r := s.localAccess u part a (.load n) bulk
    match r.2 with
    | .ok bs =>
      if r.1.cacheable u part a then
        let t := r.1.count u 12 1
        (if fill && t.parityOf (128 * line) 128 != 2 then t.installLine u line (t.bytes (128 * line) 128) else t, .ok bs)
      else (r.1, .ok bs)
    | o => (r.1, o)

/-! AT operations in flight. -/

/-- Put a stage at an access of an operation. -/
def setStage (rows : List AtRow) (i : Nat) (st : AtStage) : List AtRow :=
  rows.mapIdx (fun j r => if j = i then { r with stage := st } else r)

/-- Whether an access has ended. -/
def AtStage.ended (t : AtStage) : Bool := match t with | .done => true | .failed _ _ => true | _ => false

/-- The code and the stamp of the failing row of lowest index (R138). -/
def firstFailed : List AtRow → Option (Nat × Nat)
  | [] => none
  | r :: rs => match r.stage with | .failed c t => some (c, t) | _ => firstFailed rs

/-- The registers that a completed operation writes (R135, R137). -/
def Square.writeResult (q : Square) (o : AtOp) (old : Nat) : Square :=
  if o.sd = 0 then q
  else if o.kind = .cas128 then
    (q.setSreg o.sd (BitVec.ofNat 64 old)).setSreg (o.sd + 1) (BitVec.ofNat 64 (old / 2 ^ 64))
  else if o.sgn then q.setSreg o.sd (BitVec.ofNat 64 (pattern 64 (signed (8 * o.size) old)))
  else q.setSreg o.sd (BitVec.ofNat 64 old)

/-- An access of an operation ends. When all have, the operation leaves the port; the square faults with the code of
the lowest failing row, naming the instruction (R138, R141). -/
def State.endRow (s : State) (u op row : Nat) (st : AtStage) (old : Nat) : State :=
  match (s.sq u).atOps.find? (fun o => o.id == op) with
  | none => s
  | some o =>
    let p := { o with rows := setStage o.rows row st }
    let s1 := s.modSq u (fun q =>
      { q with atOps := if p.rows.all (fun r => r.stage.ended) then q.atOps.filter (fun x => x.id != op)
                        else q.atOps.map (fun x => if x.id = op then p else x) })
    if p.rows.all (fun r => r.stage.ended) then
      match firstFailed p.rows with
      | some c => s1.faultSquareAt u c.1 o.iidx c.2
      | none => s1.modSq u (fun q => q.writeResult o old)
    else s1

/-- An access of an operation has been sent, or its error response waits for its record (R502). -/
def State.rowSent (s : State) (u op row : Nat) : State :=
  s.modSq u (fun q => { q with atOps := q.atOps.map (fun o => if o.id = op then { o with rows := setStage o.rows row .sent } else o) })

/-- Where an access lies, as far as order among accesses is concerned (R303, R318). -/
def State.sameHome (s : State) (a b : Nat) : Bool :=
  if s.isLocal a && s.isLocal b then
    placeOf s.isM (a % 2 ^ 44) == placeOf s.isM (b % 2 ^ 44) &&
      (placeOf s.isM (a % 2 ^ 44) != .reservoir || gateOf (a % 2 ^ 44) == gateOf (b % 2 ^ 44))
  else a / 2 ^ 44 == b / 2 ^ 44

/-- The address as order compares it: local addresses of both spellings are one (R267). -/
def State.canon (s : State) (g : Nat) : Nat := if s.isLocal g then globalOf g else g

/-- Whether an access of a square still has its place in home order before it: it waits for its home, or it was sent to the host window,
whose home performs it later. One to another module keeps its place in the stream. -/
def State.unplaced (s : State) (r : AtRow) : Bool :=
  r.stage == .waiting || (r.stage == .sent && s.isLocal r.addr && placeOf s.isM (r.addr % 2 ^ 44) == .host)

/-- Whether an earlier access of the square must be performed first: one to overlapping bytes (R303), or an earlier row
of the same AT.VATOM at the same home (R318). -/
def State.mustWait (s : State) (u op row : Nat) : Bool :=
  let os := (s.sq u).atOps
  match os.find? (fun o => o.id == op) with
  | none => true
  | some o =>
    match o.rows[row]? with
    | none => true
    | some r =>
      let a := s.canon r.addr
      (os.takeWhile (fun x => x.id != op)).any (fun x => x.rows.any (fun y =>
        s.unplaced y && decide (s.canon y.addr < a + o.size) && decide (a < s.canon y.addr + x.size))) ||
      (o.rows.take row).any (fun y => s.unplaced y && s.sameHome y.addr r.addr)

/-- Whether the square's own allotment refuses an access through its own window (R284). -/
def Square.ownWindowRefuses (q : Square) (u a n : Nat) : Bool :=
  let lo := cisternAddr u 0
  decide (lo ≤ a) && decide (a < lo + 0x1000000) &&
    (decide (a < lo + q.allotBase) || decide (lo + q.allotBase + q.allotSize < a + n))

/-- An access of an operation that its home refuses: its record, whose acceptance lets the error response go (R502). A stopped square logs
no record (R142). -/
def State.rowRefused (s : State) (u op row code addr : Nat) : State :=
  if (s.sq u).run = .stopped then s.endRow u op row (.failed code s.time) 0
  else (s.logErr u (s.sq u).kpart code addr (.square u op row code)).rowSent u op row

/-- Perform a local access of an AT operation. -/
def State.atLocal (s : State) (u : Nat) (o : AtOp) (row : Nat) (r : AtRow) : State :=
  let q := s.sq u
  let a := r.addr % 2 ^ 44
  let k := o.access r
  let x := if q.ownWindowRefuses u a o.size then (s, AccOut.err eAllot)
    else if o.kind = .ld then s.nearRead u q.kpart a o.size o.fill false
    else (s.dropNear u a o.size).localAccess u q.kpart a k false
  match x.2 with
  | .ok bs => x.1.endRow u o.id row .done (ofBytes bs)
  | .err c => x.1.rowRefused u o.id row c r.addr
  | .host => (x.1.hostAccess u q.kpart a k (.atRow u o.id row)).rowSent u o.id row

/-- Perform or send one access of an AT operation; a row of AT.VATOM beyond 2^56 is ADDR_UNMAPPED (R136, R138). -/
def State.atAccess (s : State) (u op row : Nat) : State :=
  match (s.sq u).atOps.find? (fun o => o.id == op) with
  | none => s
  | some o =>
    match o.rows[row]? with
    | none => s
    | some r =>
      if r.stage ≠ .waiting ∨ s.mustWait u op row = true then s
      else if 2 ^ 56 ≤ r.addr then s.rowRefused u op row eUnmapped (r.addr % 2 ^ 56)
      else if s.isLocal r.addr then s.atLocal u o row r
      else if s.linkRoom then
        let x := s.linkRequest u (s.sq u).kpart r.addr (txnFor (o.access r)) (.atRow u op row) (replyOf (.atRow u op row))
        if x.2 ≠ eOk ∧ (s.sq u).run = .stopped then x.1.endRow u op row (.failed x.2 s.time) 0 else x.1.rowSent u op row
      else s

/-! Accesses of host-class cores (R311). -/

/-- A FENCE of a host-class core: complete once every earlier access of the core has its answer (R308), until which it holds the core's
later accesses. One whose predecessor set has W is a device-scope release, and this is also what RVWMO asks of the others (LOG 72). An
acquire needs no more: a core's caches never hold what its homes have overwritten. -/
def State.fenceCore (s : State) (c : Nat) : State :=
  if (s.hart c).halted || s.stop.stopped then s
  else if s.coreWaits c then s.modHart c (fun h => { h with fencing := true })
  else (s.modHart c (fun h => { h with fencing := false })).emit (.resp (unitCore c) 0 [])

/-- Whether an earlier access of a core to some of these bytes has not been performed: one that awaits its second parity attempt, or that
the host must answer (R303). -/
def State.coreOverlaps (s : State) (c g n : Nat) : Bool :=
  let a := s.canon g
  let meets := fun (lo m : Nat) => decide (s.canon lo < a + n) && decide (a < s.canon lo + m)
  s.retries.any (fun r => match r.src with
    | .core k h x => k.val == c && meets h (accFor 0 0 h x false).len
    | .coreSync k h (.lr m) _ _ => k.val == c && meets h m
    | .coreSync k h (.sc m _) _ _ => k.val == c && meets h m
    | .coreSync k h (.amo _ m _) _ _ => k.val == c && meets h m
    | _ => false) ||
  s.hostReqs.any (fun r => r.waiter == .core c && meets (globalOf r.addr) r.len)

/-- Whether a range lies in memory that a core's caches hold: the wells and the reservoir (R311). -/
def State.coreCaches (s : State) (g : Nat) : Bool :=
  s.isLocal g && (match placeOf s.isM (g % 2 ^ 44) with | .well _ => true | .reservoir => true | _ => false)

/-- The lines that a range touches become written lines of a core's caches (R311, LOG 83). -/
def State.markDirty (s : State) (c a n : Nat) : State :=
  s.modHart c (fun h => { h with dirty :=
    (upto ((a + n - 1) / 128 - a / 128 + 1)).foldl (fun d i => Table.set false d (a / 128 + i) true) h.dirty })

/-- What a store or an atomic that a home has performed leaves in the caches of its core. -/
def State.cachedWrite (s : State) (c g : Nat) (k : AccessKind) : State :=
  match k with
  | .load _ => s
  | _ => if s.coreCaches g then s.markDirty c (g % 2 ^ 44) (accFor 0 0 g k false).len else s

/-- Perform or send an access of a core for its partition (R311, R375). -/
def State.coreDo (s : State) (c g : Nat) (k : AccessKind) : State :=
  let unit := unitCore c
  let part := (s.hart c).part
  if s.isLocal g then
    let x := s.localAccess unit part (g % 2 ^ 44) k false
    match x.2 with
    | .ok bs => (x.1.cachedWrite c g k).emit (.resp unit 0 bs)
    | .err e => x.1.logErr unit part e g (.out (.resp unit e []))
    | .host => x.1.hostAccess unit part (g % 2 ^ 44) k (.core c)
  else if s.linkRoom then (s.linkRequest unit part g (txnFor k) (.core c) (replyOf (.core c))).1
  else s

/-- Whether a core issues no access to a range now: it does not run, it waits or is stopped, or an earlier access to these bytes has not
been performed (R303, R311, R514). -/
def State.coreBlocked (s : State) (c g n : Nat) : Bool :=
  (s.hart c).halted || s.coreHolds (unitCore c) || s.coreOverlaps c g n

/-- An access of a host-class core (R311). -/
def State.coreAccess (s : State) (c g : Nat) (k : AccessKind) : State :=
  if s.coreBlocked c g (accFor 0 0 g k false).len then s else s.coreDo c g k

/-- The bytes that a load-reserve, store-conditional or AMO touches. -/
def syncSize (op : SyncOp) : Nat := match op with | .lr n => n | .sc n _ => n | .amo _ n _ => n

/-- The plain access that one stands for. -/
def syncAccess (op : SyncOp) : AccessKind :=
  match op with
  | .lr n => .load n
  | .sc n v => .store (toBytes n v)
  | .amo o n v => .atom o n v

/-- The reservations without those of a core. -/
def withoutCore (rs : List Reservation) (c : Nat) : List Reservation := rs.filter (fun r => r.core != c)

/-- Perform a load-reserve, store-conditional or AMO (R311). A load-reserve of wells or reservoir reserves its bytes; elsewhere it reserves
none. A store-conditional answers 0 and stores where its bytes are still reserved, and else answers 1; either way the core keeps no
reservation (LOG 88). -/
def State.syncDo (s : State) (c g : Nat) (op : SyncOp) : State :=
  match op with
  | .lr n =>
    let kept := withoutCore s.resv c
    State.coreDo { s with resv := if s.coreCaches g then ⟨c, g % 2 ^ 44, n⟩ :: kept else kept } c g (.load n)
  | .sc n v =>
    let t : State := { s with resv := withoutCore s.resv c }
    if s.coreCaches g && s.resv.any (fun r => r.core == c && decide (r.addr ≤ g % 2 ^ 44) && decide (g % 2 ^ 44 + n ≤ r.addr + r.size)) then
      let part := (s.hart c).part
      let x := t.localAccess (unitCore c) part (g % 2 ^ 44) (.store (toBytes n v)) false
      match x.2 with
      | .err e => x.1.logErr (unitCore c) part e g (.out (.resp (unitCore c) e []))
      | _ => (x.1.cachedWrite c g (.store (toBytes n v))).emit (.resp (unitCore c) 0 [0])
    else t.emit (.resp (unitCore c) 0 [1])
  | .amo o n v => s.coreDo c g (.atom o n v)

/-! Accesses of squares and cores at their homes. -/

/-- Whether a source asks for a plain load or store; a load-reserve and a store-conditional are a load and a store. -/
def State.isPlain (s : State) (src : AccessSource) : Bool :=
  match src with
  | .square u op _ =>
    match (s.sq u.val).atOps.find? (fun o => o.id == op) with
    | some o => o.kind == .ld || o.kind == .st
    | none => false
  | .core _ _ k => match k with | .load _ => true | .store _ => true | _ => false
  | .coreSync _ _ op _ _ => match op with | .amo _ _ _ => false | _ => true
  | .coreFence _ _ _ => true

/-- The bytes that an access reads, and where. -/
def readRange (g : Nat) (k : AccessKind) : Option (Nat × Nat) :=
  match k with
  | .load n => some (g, n)
  | .atom _ n _ => some (g, n)
  | .cas n _ _ => some (g, n)
  | .store _ => none

/-- The global address of an access and the bytes it reads, for the parity retry (R291). -/
def State.sourceRange (s : State) (src : AccessSource) : Option (Nat × Nat) :=
  match src with
  | .square u op row =>
    match (s.sq u.val).atOps.find? (fun o => o.id == op) with
    | some o =>
      if o.kind = .st then none
      else match o.rows[row]? with | some r => some (r.addr, o.size) | none => none
    | none => none
  | .core _ g k => readRange g k
  | .coreSync _ g op _ _ => readRange g (syncAccess op)
  | .coreFence _ _ _ => none

/-- Whether the first attempt of an access fails parity at a well or the reservoir (R291). -/
def State.failsFirst (s : State) (src : AccessSource) : Option Nat :=
  match s.sourceRange src with
  | none => none
  | some r =>
    let a := r.1 % 2 ^ 44
    let home := match placeOf s.isM a with | .well _ => true | .reservoir => true | _ => false
    if s.isLocal r.1 && home && decide (s.parityOf a r.2 ≠ 0) then some a else none

/-- Whether an access is not issued yet: an earlier one goes first, or its core issues none (R303, R311, R318, R514). -/
def State.sourceBlocked (s : State) (src : AccessSource) : Bool :=
  match src with
  | .square u op row => s.mustWait u.val op row
  | .core c g k => s.coreBlocked c.val g (accFor 0 0 g k false).len
  | .coreSync c g op _ _ => s.coreBlocked c.val g (syncSize op)
  | .coreFence _ _ _ => false

/-- Perform an access at its home, without a first look at parity. -/
def State.perform (s : State) (src : AccessSource) : State :=
  match src with
  | .square u op row => s.atAccess u.val op row
  | .core c g k => s.coreDo c.val g k
  | .coreSync c g op _ _ => s.syncDo c.val g op
  | .coreFence c _ _ => s.fenceCore c.val

/-- The core whose access is a release: it waits until the earlier ones have their answers (R308, R311). -/
def sourceReleases (src : AccessSource) : Option Nat :=
  match src with | .coreSync c _ _ _ rl => if rl then some c.val else none | _ => none

/-- The core whose access is an acquire: the later ones wait for its answer (R310, R311). -/
def sourceAcquires (src : AccessSource) : Option Nat :=
  match src with | .coreSync c _ _ aq _ => if aq then some c.val else none | _ => none

/-- A core holds its later accesses until the earlier ones have their answers. -/
def State.holdCore (s : State) (c : Option Nat) : State :=
  match c with
  | some k => s.modHart k (fun h => { h with fencing := true })
  | none => s

/-- Whether a release has to wait for earlier accesses of its core. -/
def State.releaseHeld (s : State) (src : AccessSource) : Bool := match (sourceReleases src) with | some c => s.coreWaits c | none => false

/-- An access reaches its home: bytes that fail parity are read again first (R291). One that must wait has no effect, and is given
again. -/
def State.homeStep (s : State) (src : AccessSource) (plain : Bool) : State :=
  if s.isPlain src != plain || s.retries.any (fun r => r.src == src) || s.sourceBlocked src then s
  else if s.releaseHeld src then s.holdCore (sourceReleases src)
  else
    match s.failsFirst src with
    | some a => State.holdCore { s with retries := s.retries ++ [⟨src, a⟩] } (sourceAcquires src)
    | none => (s.perform src).holdCore (sourceAcquires src)

def execHomeAccess (src : AccessSource) (s : State) : Host.Outcome State Fault Refusal := .next (s.homeStep src true)
def execHomeAtomic (src : AccessSource) (s : State) : Host.Outcome State Fault Refusal := .next (s.homeStep src false)

/-- The second attempt of the read at an index of the list: it succeeds and is counted, or answers PARITY (R291,
R292). -/
def execParityRetry (idx : Nat) (s : State) : Host.Outcome State Fault Refusal :=
  .next (match s.retries[idx]? with
    | none => s
    | some r => ({ s with retries := s.retries.eraseIdx idx } : State).perform r.src)

/-! AT instructions (R135 to R138). -/

def atSD (w : Nat) : Nat := bits w 10 5
def atSA (w : Nat) : Nat := bits w 15 5
def atSB (w : Nat) : Nat := bits w 20 5
def atSC (w : Nat) : Nat := bits w 25 5
def atSize (w : Nat) : Nat := 2 ^ bits w 30 2
def atAop (w : Nat) : Nat := bits w 33 4
def atVA (w : Nat) : Nat := bits w 37 6
def atWC (w : Nat) : Nat := bits w 43 3
def atCnt (w : Nat) : Nat := bits w 46 10

/-- sA + DISP modulo 2^64 (R136). -/
def Square.atAddr (q : Square) (w : Nat) : Nat := ((q.sreg (atSA w)).toNat + w / 2 ^ 64) % 2 ^ 64

abbrev atBase : List (Nat × Nat) := [(64, 64), (15, 5)]

/-- An AT instruction joins the operations in flight: its form (R103, R137), its alignment and its address (R140). -/
def State.atIssue (s : State) (u op : Nat) (form : Nat → Bool) (size : Nat → Nat) (regs : Nat → List Nat) (mk : Nat → Nat → AtOp) : State :=
  s.issue u 6 op (fun w =>
    let q := s.sq u
    let a := q.atAddr w
    if !form w then s.faultHere u eIllegal
    else if !q.regsReady (regs w) || decide (64 ≤ q.atOps.length) then s
    else if a % size w ≠ 0 then s.faultAt u eAlign (a % 2 ^ 56)
    else if 2 ^ 56 ≤ a then s.faultAt u eUnmapped (a % 2 ^ 56)
    else
      let o := mk w a
      let s1 := if o.kind = .ld then s
        else forAll o.rows (fun t r => if t.isLocal r.addr then t.dropNear u (r.addr % 2 ^ 44) o.size else t) s
      ((s1.modSq u (fun q => { q with atOps := q.atOps ++ [o], nextAt := q.nextAt + 1 })).count u 6 1).advance u)

/-- One access that waits for its home. -/
def oneRow (a operand : Nat) : List AtRow := [⟨a, operand, .waiting⟩]

def execAtLd (sq : SquareId) (s : State) : Host.Outcome State Fault Refusal :=
  .next (s.atIssue sq.val 0x00 (fun w => onlyFields w (atBase ++ [(32, 1), (30, 2), (10, 5)])) atSize (fun w => [atSA w, atSD w])
    (fun w a => ⟨(s.sq sq.val).nextAt, (s.sq sq.val).iidx, .ld, atSize w, 0, 0, atSD w, w.testBit 32, true, oneRow a 0⟩))

def execAtSt (sq : SquareId) (s : State) : Host.Outcome State Fault Refusal :=
  .next (s.atIssue sq.val 0x01 (fun w => onlyFields w (atBase ++ [(30, 2), (20, 5)])) atSize (fun w => [atSA w, atSB w])
    (fun w a => ⟨(s.sq sq.val).nextAt, (s.sq sq.val).iidx, .st, atSize w, 0, 0, 0, false, true,
      oneRow a ((s.sq sq.val).sreg (atSB w)).toNat⟩))

def execAtAtom (sq : SquareId) (s : State) : Host.Outcome State Fault Refusal :=
  .next (s.atIssue sq.val 0x02
    (fun w => onlyFields w (atBase ++ [(33, 4), (30, 2), (25, 5), (20, 5), (10, 5)]) && decide (4 ≤ atSize w) && decide (atAop w ≤ 9))
    atSize (fun w => [atSA w, atSB w, atSC w, atSD w])
    (fun w a => ⟨(s.sq sq.val).nextAt, (s.sq sq.val).iidx, .atom, atSize w, atAop w, ((s.sq sq.val).sreg (atSC w)).toNat, atSD w, false, true,
      oneRow a ((s.sq sq.val).sreg (atSB w)).toNat⟩))

/-- The 128-bit value of a register pair (R137). -/
def Square.pairReg (q : Square) (r : Nat) : Nat := (q.sreg r).toNat + (q.sreg (r + 1)).toNat * 2 ^ 64

def execAtCas128 (sq : SquareId) (s : State) : Host.Outcome State Fault Refusal :=
  .next (s.atIssue sq.val 0x03
    (fun w => onlyFields w (atBase ++ [(25, 5), (20, 5), (10, 5)]) && atSB w % 2 == 0 && atSC w % 2 == 0 && atSD w % 2 == 0)
    (fun _ => 16)
    (fun w => [atSA w, atSB w, atSB w + 1, atSC w, atSC w + 1] ++ if atSD w = 0 then [] else [atSD w, atSD w + 1])
    (fun w a => ⟨(s.sq sq.val).nextAt, (s.sq sq.val).iidx, .cas128, 16, 9, (s.sq sq.val).pairReg (atSC w), atSD w, false, true,
      oneRow a ((s.sq sq.val).pairReg (atSB w))⟩))

/-- The operand of row g of AT.VATOM (R138). -/
def Square.vatomOperand (q : Square) (w g : Nat) : Nat :=
  let l := g * rowWidth (atWC w)
  (q.lane (atVA w) l).toNat + if atSize w = 8 then (q.lane (atVA w + 1) l).toNat * 2 ^ 32 else 0

def execAtVatom (sq : SquareId) (s : State) : Host.Outcome State Fault Refusal :=
  .next (s.atIssue sq.val 0x04
    (fun w => onlyFields w (atBase ++ [(46, 10), (43, 3), (37, 6), (33, 4), (30, 2)]) && decide (4 ≤ atSize w) && decide (atAop w ≤ 7) &&
      decide (atWC w ≤ 4) && decide (1 ≤ atCnt w ∧ atCnt w ≤ 512 / rowWidth (atWC w)) && (atSize w != 8 || atVA w % 2 == 0))
    atSize (fun w => [atSA w])
    (fun w a => ⟨(s.sq sq.val).nextAt, (s.sq sq.val).iidx, .vatom, atSize w, atAop w, 0, 0, false, true,
      (upto (atCnt w)).map (fun g => ⟨a + g * atSize w, (s.sq sq.val).vatomOperand w g, .waiting⟩)⟩))

end Sys2Proof.Machine
end

