-- ==== Sys2Proof/Machine/Codec.lean ====
section
/-! DEFINITION. Compressed blocks: effective classes (R159), lossy blocks (R164 to R166), LOSSLESS blocks with their
tags and canonical codes (R167 to R171). -/

namespace Sys2Proof.Machine

/-! Classes. -/

/-- How a block is stored: class (0 RAW, 1 LOSSY2, 2 LOSSY4, 3 LOSSLESS), lossy element type, delta lag in bytes, and
the global address of its tag (R159). -/
structure BlockInfo where
  cls : Nat := 0
  elt : Nat := 0
  lag : Nat := 0
  tag : Nat := 0
deriving DecidableEq, Repr

/-- The delta lag in bytes (R150, R158). -/
def lagBytes (code : Nat) : Nat := if code = 3 then 4 else code

/-- Whether column `b mod ROWBLK` of block `b` is an outlier column (R159). -/
def Region.outlier (r : Region) (b : Nat) : Bool :=
  decide (r.rowblk ≠ 0) && decide (b % r.rowblk < 64) && r.omask.getLsbD (b % r.rowblk)

/-- The effective class of block `b` (R159). -/
def Region.effective (r : Region) (b : Nat) : Nat :=
  if r.isSealed then 0
  else if (r.codec = 1 ∨ r.codec = 2) ∧ (r.exact || r.outlier b) = true then 3
  else r.codec

/-- How the block at a local address is stored (R158, R159). -/
def localBlock (isM : Bool) (rs : List Region) (a : Nat) : BlockInfo :=
  match findRegion isM rs a with
  | none => {}
  | some r =>
    let b := (a - r.base) / 256
    { cls := r.effective b, elt := r.elt, lag := lagBytes r.dlag, tag := globalOf (r.tagbase + 4 * b) }

/-- Whether a class is lossy. -/
def lossyClass (c : Nat) : Bool := c == 1 || c == 2

/-- Whether stored bytes are copied unchanged between two blocks (R163). -/
def sameStorage (a b : BlockInfo) : Bool :=
  a.cls == b.cls && (!lossyClass a.cls || a.elt == b.elt) && (a.cls != 3 || a.lag == b.lag)

/-! Lossy blocks. -/

/-- Payload capacity in bits (R164). -/
def lossyBits (cls : Nat) : Nat := if cls = 1 then 760 else 248

/-- Stored bytes of a lossy block (R164). -/
def lossySize (cls : Nat) : Nat := if cls = 1 then 128 else 64

/-- The elements of 256 raw bytes (R164). -/
def blockElems (elt : Nat) (bs : List Byte) : List Int := if elt = 0 then i8s bs else i16s bs

/-- The raw bytes of elements (R164). -/
def elemBytes (elt : Nat) (xs : List Int) : List Byte :=
  xs.flatMap (fun x => if elt = 0 then toBytes 1 (pattern 8 x) else toBytes 2 (pattern 16 x))

/-- The smallest shift from `sh` on at which every element fits `lim` in magnitude (R165). -/
def fitShift (xs : List Int) (lim : Nat) : Nat → Nat → Nat
  | 0, sh => sh
  | f + 1, sh => if xs.all (fun x => decide ((rneShift x sh).natAbs ≤ lim)) then sh else fitShift xs lim f (sh + 1)

/-- Survivors at a shift (R165). -/
def survivors (xs : List Int) (sh : Nat) : Nat := (xs.filter (fun x => rneShift x sh != 0)).length

/-- The smallest shift from `sh` on at which two-bit codes of the survivors fit the payload (R165). -/
def squeezeShift (xs : List Int) (p : Nat) : Nat → Nat → Nat
  | 0, sh => sh
  | f + 1, sh => if survivors xs sh * 2 ≤ p then sh else squeezeShift xs p f (sh + 1)

/-- The width code of a width of 2, 4, 8 or 16 bits (R164). -/
def widthCode (w : Nat) : Nat := if w = 2 then 0 else if w = 4 then 1 else if w = 8 then 2 else 3

/-- The number whose bit i is the i-th flag. -/
def bitsToNat : List Bool → Nat
  | [] => 0
  | b :: r => bitN b + 2 * bitsToNat r

/-- Fields of `w` bits, the first one lowest. -/
def packFields (w : Nat) : List Nat → Nat
  | [] => 0
  | c :: r => c % 2 ^ w + 2 ^ w * packFields w r

/-- `pack` (R165) in the layout of R164. -/
def lossyPack (xs : List Int) (w sh p : Nat) : List Byte :=
  let codes := xs.map (fun x => rneShift x sh)
  toBytes 32 (bitsToNat (codes.map (· != 0))) ++ toBytes 1 (sh + 32 * widthCode w) ++
    toBytes (p / 8) (packFields w ((codes.filter (· != 0)).map (pattern w)))

/-- The widths from one on, in the order that R165 tries them; `eb` is the element width. -/
def lossyTry (xs : List Int) (eb p : Nat) : List Nat → List Byte
  | [] => lossyPack xs 2 (squeezeShift xs p 32 (fitShift xs 1 32 0)) p
  | w :: ws =>
    let sh := if w < eb then fitShift xs (2 ^ (w - 1) - 1) 32 0 else 0
    if survivors xs sh * w ≤ p then lossyPack xs w sh p else lossyTry xs eb p ws

/-- `lossy_encode` (R165) of 256 raw bytes. -/
def lossyEncode (cls elt : Nat) (bs : List Byte) : List Byte :=
  let xs := blockElems elt bs
  if elt = 0 then lossyTry xs 8 (lossyBits cls) [8, 4, 2] else lossyTry xs 16 (lossyBits cls) [16, 8, 4, 2]

/-- Decoded elements from element `i` on: `k` survivors have been read (R166). -/
def lossyElems (map payload w sh p : Nat) (sat : Int → Int) : Nat → Nat → Nat → List Int
  | 0, _, _ => []
  | n + 1, i, k =>
    if map.testBit i then
      let c := if p < (k + 1) * w then 0 else signed w (payload >>> (k * w))
      sat (c * (2 ^ sh : Nat)) :: lossyElems map payload w sh p sat n (i + 1) (k + 1)
    else 0 :: lossyElems map payload w sh p sat n (i + 1) k

/-- Decode a lossy block to 256 raw bytes (R166). -/
def lossyDecode (cls elt : Nat) (bs : List Byte) : List Byte :=
  let v := ofBytes bs
  let w := 2 * 2 ^ bits v 261 2
  let ne := if elt = 0 then 256 else 128
  elemBytes elt (lossyElems (v % 2 ^ 256) (bits v 264 (lossyBits cls)) w (bits v 256 5) (lossyBits cls)
    (if elt = 0 then satI8 else satI16) ne 0 0)

/-! Tags (R167). -/

def tagLen (t : Nat) : Nat := t % 512
def tagRaw (t : Nat) : Bool := t.testBit 9
def tagGen (t : Nat) : Nat := bits t 10 2

/-- Checks 1 and 2 of R167. -/
def tagLengthOk (t : Nat) : Bool := decide (1 ≤ tagLen t ∧ tagLen t ≤ 256) && (!tagRaw t || tagLen t == 256)

/-- Bytes of the slot that a tag's block is read as (R167). -/
def tagStored (t : Nat) : Nat := if tagRaw t then 256 else (tagLen t + 31) / 32 * 32

/-- The tag that is written for a length, raw flag and generation (R167). -/
def tagWord (len : Nat) (rawf : Bool) (gen : Nat) : Nat := len + 2 ^ 9 * bitN rawf + 2 ^ 10 * gen

/-! Canonical codes (R169). -/

/-- The code length of a symbol. -/
def codeLen (lens : List Nat) (j : Nat) : Nat := lens.getD j 0

/-- The number of symbols of a code length. -/
def lenCount (lens : List Nat) (l : Nat) : Nat := if l = 0 then 0 else (lens.filter (· == l)).length

/-- `next[l]` before any symbol takes a code. -/
def firstCode (lens : List Nat) : Nat → Nat
  | 0 => 0
  | l + 1 => (firstCode lens l + lenCount lens l) * 2

/-- `code_of[j]`. -/
def codeWord (lens : List Nat) (j : Nat) : Nat :=
  firstCode lens (codeLen lens j) + ((lens.take j).filter (· == codeLen lens j)).length

/-- Whether a table image is valid (R169). -/
def imageOk (lens : List Nat) : Bool :=
  lens.all (fun l => decide (l ≤ 15)) &&
    decide ((lens.filter (· != 0)).foldl (fun n l => n + 2 ^ (15 - l)) 0 ≤ 2 ^ 15)

/-- The bits of a symbol's code, most significant first (R170). -/
def codeBits (lens : List Nat) (j : Nat) : List Bool :=
  (upto (codeLen lens j)).map (fun i => (codeWord lens j).testBit (codeLen lens j - 1 - i))

/-! LOSSLESS blocks. -/

/-- Deltas of a block under a lag: byte minus the byte `lag` places earlier, or minus 0 (R168). -/
def deltas (lag : Nat) (xs : List Byte) : List Nat :=
  xs.mapIdx (fun i x => (x - (if lag = 0 ∨ i < lag then 0 else xs.getD (i - lag) 0)).toNat)

/-- Decoded bytes from the deltas, with what has been decoded so far, newest first (R168). -/
def undelta (lag : Nat) : List Nat → List Byte → List Byte
  | [], rev => rev.reverse
  | d :: ds, rev => undelta lag ds ((BitVec.ofNat 8 d + (if lag = 0 then 0 else rev.getD (lag - 1) 0)) :: rev)

/-- The zero deltas at the front. -/
def zeroRun : List Nat → Nat
  | 0 :: r => zeroRun r + 1
  | _ => 0

/-- The largest run length from 2 to `n` that has a code (R170). -/
def codedRun (lens : List Nat) : Nat → Option Nat
  | 0 => none
  | n + 1 => if n + 1 < 2 then none else if codeLen lens (254 + (n + 1)) ≠ 0 then some (n + 1) else codedRun lens n

/-- The bit stream of a block's deltas, or nothing when a delta has no code (R170). -/
def encodeDeltas (lens : List Nat) : Nat → List Nat → Option (List Bool)
  | 0, _ => some []
  | _ + 1, [] => some []
  | f + 1, d :: ds =>
    match (if d = 0 then codedRun lens (min (zeroRun (d :: ds)) 33) else none) with
    | some l => (encodeDeltas lens f ((d :: ds).drop l)).map (codeBits lens (254 + l) ++ ·)
    | none => if codeLen lens d = 0 then none else (encodeDeltas lens f ds).map (codeBits lens d ++ ·)

/-- `lossless_encode` (R170): the stored bytes of data and the tag. -/
def losslessEncode (bank : Option Bank) (lag : Nat) (xs : List Byte) : List Byte × Nat :=
  let raw := (xs, tagWord 256 true 0)
  match bank with
  | none => raw
  | some b =>
    match encodeDeltas b.lens 256 (deltas lag xs) with
    | none => raw
    | some bs =>
      let n := (bs.length + 7) / 8
      if 256 ≤ n then raw else (toBytes n (bitsToNat bs), tagWord n false b.gen)

/-- Pad stored bytes with zeros to whole granules of 32 bytes (R161). -/
def granules (bs : List Byte) : List Byte := bs ++ List.replicate ((32 - bs.length % 32) % 32) 0

/-- A bank's codes as length, code and symbol. -/
def codeTable (lens : List Nat) : List (Nat × Nat × Nat) :=
  ((upto 288).filter (fun j => codeLen lens j != 0)).map (fun j => (codeLen lens j, codeWord lens j, j))

/-- Read one symbol: the bits from the front form a code of at most 15 bits (R171). `l` bits of value `v` are read. -/
def readSymbol (table : List (Nat × Nat × Nat)) : Nat → Nat → Nat → List Bool → Option (Nat × List Bool)
  | 0, _, _, _ => none
  | _ + 1, _, _, [] => none
  | f + 1, l, v, b :: bs =>
    let w := 2 * v + bitN b
    match table.find? (fun e => e.1 == l + 1 && e.2.1 == w) with
    | some e => some (e.2.2, bs)
    | none => readSymbol table f (l + 1) w bs

/-- Read symbols until 256 deltas are out: `none` on the inconsistencies of R171. -/
def readDeltas (table : List (Nat × Nat × Nat)) : Nat → Nat → List Bool → Option (List Nat)
  | 0, _, _ => none
  | f + 1, out, bs =>
    if out = 256 then (if bs.length < 8 ∧ bs.all (fun b => !b) then some [] else none)
    else
      match readSymbol table 15 0 0 bs with
      | none => none
      | some r =>
        if r.1 < 256 then (readDeltas table f (out + 1) r.2).map (r.1 :: ·)
        else if 256 < out + (r.1 - 254) then none
        else (readDeltas table f (out + (r.1 - 254)) r.2).map (List.replicate (r.1 - 254) 0 ++ ·)

/-- The bits of bytes, least significant first (R170). -/
def byteBits (bs : List Byte) : List Bool := bs.flatMap (fun b => (upto 8).map (fun i => b.getLsbD i))

/-- Decode a LOSSLESS block read under a tag; `lens` is the table of its bank. `none` is CODEC_LENGTH (R171). -/
def losslessDecode (lens : List Nat) (tag lag : Nat) (stored : List Byte) : Option (List Byte) :=
  if tagRaw tag then some (stored.take 256)
  else (readDeltas (codeTable lens) 257 0 (byteBits (stored.take (tagLen tag)))).map (fun ds => undelta lag ds [])

/-! Banks. -/

/-- Whether a bank holds a generation for the check of R167 (R175). -/
def Bank.holds (b : Bank) (gen : Nat) : Bool := b.valid && !b.closed && b.gen == gen

/-- The bank that holds a generation: 0 or 1 (R175). -/
def Pump.bankOf (p : Pump) (gen : Nat) : Option Nat := if p.bank0.holds gen then some 0 else if p.bank1.holds gen then some 1 else none

/-- A bank by its number. -/
def Pump.bank (p : Pump) (i : Nat) : Bank := if i = 0 then p.bank0 else p.bank1

/-- Put a bank. -/
def Pump.setBank (p : Pump) (i : Nat) (b : Bank) : Pump := if i = 0 then { p with bank0 := b } else { p with bank1 := b }

/-- The bank that encodes: the newest valid one (R170, R172). -/
def Pump.encoder (p : Pump) : Option Bank :=
  if p.bank0.valid && p.bank0.newest then some p.bank0 else if p.bank1.valid && p.bank1.newest then some p.bank1 else none

/-- The check of a tag against the banks: OK, CODEC_LENGTH or CODEC_TABLE (R167). -/
def Pump.tagCode (p : Pump) (tag : Nat) : Nat :=
  if !tagLengthOk tag then eCodecLength
  else if !tagRaw tag && (p.bankOf (tagGen tag)).isNone then eCodecTable
  else eOk

/-- The code lengths that decode a tag's block. A bank closed since the block took its reference still decodes it
(R173, R174). -/
def Pump.lensFor (p : Pump) (tag : Nat) : List Nat :=
  if p.bank0.valid && p.bank0.gen == tagGen tag then p.bank0.lens
  else if p.bank1.valid && p.bank1.gen == tagGen tag then p.bank1.lens
  else []

end Sys2Proof.Machine
end

