-- ==== Sys2Proof/Machine/AttnMath.lean ====
section
/-! DEFINITION. The arithmetic of fused attention and the layout of KV pages (R207 to R210, R218 to R224, R234, R235). -/

namespace Sys2Proof.Machine

/-! Page formats. -/

/-- A page format's sizes (R207, R208). -/
structure PageFmt where
  tokens : Nat
  heads : Nat
  dim : Nat
  ku4 : Bool
  vu4 : Bool
deriving DecidableEq, Repr

/-- The format of an FMT value. -/
def pageFmt (fmt : Nat) : PageFmt :=
  ⟨16 * 2 ^ bits fmt 0 2, 2 ^ bits fmt 2 2, if fmt.testBit 4 then 128 else 64, fmt.testBit 5, fmt.testBit 6⟩

def PageFmt.dk (f : PageFmt) : Nat := if f.ku4 then f.dim / 2 else f.dim
def PageFmt.dv (f : PageFmt) : Nat := if f.vu4 then f.dim / 2 else f.dim
def PageFmt.ksc (f : PageFmt) : Nat := 64 + 4 * f.tokens
def PageFmt.vsc (f : PageFmt) : Nat := f.ksc + 4 * f.heads * f.tokens
def PageFmt.koff (f : PageFmt) : Nat := (f.vsc + 4 * f.heads * f.tokens + 255) / 256 * 256
def PageFmt.voff (f : PageFmt) : Nat := f.koff + f.heads * f.tokens * f.dk
def PageFmt.stop (f : PageFmt) : Nat := f.voff + f.heads * f.tokens * f.dv

/-- Whether a format is valid (R207, R208). -/
def fmtOk (fmt : Nat) : Bool := bits fmt 0 2 != 3 && decide ((pageFmt fmt).stop ≤ 32768)

/-- A scale word of bytes, normalised as it enters (R32). -/
def scaleAt (bs : List Byte) (off : Nat) : Scale := Scale.ofWord (BitVec.ofNat 32 (ofBytes (slice bs off 4)))

/-- The 16 entries of a codebook. -/
def expandCode (book : List Int) (c : Nat) : Int := book.getD c 0

/-- The key of token t of head h of a page (R208). -/
def PageFmt.key (f : PageFmt) (page : List Byte) (book : List Int) (h t : Nat) : List Int :=
  let bs := slice page (f.koff + (h * f.tokens + t) * f.dk) f.dk
  if f.ku4 then (nibbles bs).map (expandCode book) else i8s bs

/-- The value of token t of head h of a page (R208, R210). -/
def PageFmt.value (f : PageFmt) (page : List Byte) (book : List Int) (h t : Nat) : List Int :=
  if f.vu4 then
    (slice page (f.voff + (h * (f.tokens / 2) + t / 2) * f.dim) f.dim).map (fun b =>
      expandCode book (if t % 2 = 0 then b.toNat % 16 else b.toNat / 16))
  else i8s (slice page (f.voff + (h * f.tokens + t) * f.dim) f.dim)

/-- One token of a block as a head sees it. -/
structure Token where
  pos : Nat
  key : List Int
  ks : Scale
  value : List Int
  vs : Scale
deriving DecidableEq, Repr

/-- The tokens of head h of a page whose token 0 is at position `p0` (R208). -/
def PageFmt.tokensOf (f : PageFmt) (page : List Byte) (books : List Byte) (h p0 : Nat) : List Token :=
  let kb := i8s (books.take 16)
  let vb := i8s ((books.drop 16).take 16)
  (upto f.tokens).map (fun t =>
    ⟨p0 + t, f.key page kb h t, scaleAt page (f.ksc + 4 * (h * f.tokens + t)), f.value page vb h t,
      scaleAt page (f.vsc + 4 * (h * f.tokens + t))⟩)

/-! Helpers of R220. -/

/-- The dot product. -/
def dot : List Int → List Int → Int
  | x :: xs, y :: ys => x * y + dot xs ys
  | _, _ => 0

/-- The greatest of some integers, from a first one. -/
def maxInt (a : Int) (xs : List Int) : Int := xs.foldl max a

/-- The greatest magnitude. -/
def maxAbs (xs : List Int) : Nat := xs.foldl (fun m x => max m x.natAbs) 0

/-- `fold8`: one code for each pair of a weight and its scale, their common scale, and whether a clamp acted. A pair
whose weight or scale is 0, or that is outside the set and so given weight 0, is not live. -/
def fold8 (ws : List (Int × Scale)) : List Int × Scale × Bool :=
  let live := ws.filter (fun w => w.1 != 0 && w.2.m != 0)
  match live with
  | [] => (ws.map (fun _ => 0), Scale.zero, false)
  | l :: ls =>
    let e := maxInt l.2.e (ls.map (fun w => w.2.e))
    let z0 := ws.map (fun w => if w.1 != 0 && w.2.m != 0 then shiftAny (w.1 * (w.2.m : Nat)) (e - w.2.e) else 0)
    let k := bitLen (maxAbs z0) - 30
    let z := z0.map (fun x => rneShift x k)
    let sin : Scale := ⟨32768, e - 15 + k⟩
    let g := deriveScale (maxAbs z) sin 127
    let q := z.map (fun x => quantize x sin g.1 127)
    (q.map Prod.fst, g.1, g.2 || q.any Prod.snd)

/-- `clamp47` and whether it clamped (R222). -/
def clamp47 (x : Int) : Int × Bool :=
  let m : Int := ((2 ^ 47 - 1 : Nat) : Int)
  (clampI (-m) m x, decide (x > m ∨ x < -m))

/-- EXP2 of a difference of scores, bounded below as R222 says. -/
def expOf (x : Int) : Int := exp2 (max x (-2147483647))

/-! Scores and folds (R221 to R224). -/

/-- A query row: its codes and the scale that turns products into scores (`qk` of R221), with whether forming it
saturated. -/
structure QRow where
  q : List Int
  sq : Scale
  qk : Scale
  sat : Bool
deriving DecidableEq, Repr

/-- A query row from its bytes (R221). -/
def qrowOf (codes scale : List Byte) (qkscale : Word) : QRow :=
  let sq := scaleAt scale 0
  let p := smul sq (Scale.ofWord qkscale)
  ⟨i8s codes, sq, p.1, p.2⟩

/-- The score of a visible token and whether it clamped (R221). -/
def scoreOf (r : QRow) (t : Token) : Int × Bool :=
  let y := scaleMul (dot r.q t.key) t.ks ⟨r.qk.m, r.qk.e + 16⟩
  (satI32 y, decide (y ≠ satI32 y))

/-- The start state of a row (R222). -/
def RowState.empty (d : Nat) : RowState := ⟨-2147483648, 0, List.replicate d 0⟩

/-- The value-weighted sum of a block for each dimension. -/
def weighted (cs : List Int) (vs : List (List Int)) (d : Nat) : List Int :=
  (upto d).map (fun i => dot cs (vs.map (fun v => v.getD i 0)))

/-- Fold visible tokens with their scores into a row state (R222), with whether a clamp acted. -/
def foldBlock (st : RowState) (us : List (Token × Int)) (ogrid : Int) : RowState × Bool :=
  match us with
  | [] => (st, false)
  | u :: _ =>
    let mn := max st.m (maxInt u.2 (us.map Prod.snd))
    let alpha := expOf (st.m - mn)
    let p := us.map (fun x => expOf (x.2 - mn))
    let l := (rneShift ((st.l : Int) * alpha) 24 + p.foldl (· + ·) 0).toNat
    let c := fold8 (p.zip (us.map (fun x => x.1.vs)))
    let ob := weighted c.1 (us.map (fun x => x.1.value)) st.o.length
    let o := (st.o.zip ob).map (fun x => clamp47 (rneShift (x.1 * alpha) 24 + onGrid x.2 c.2.1 ogrid))
    (⟨mn, l, o.map Prod.fst⟩, c.2.2 || o.any Prod.snd)

/-- `merge` (R223). -/
def mergeRows (a b : RowState) : RowState × Bool :=
  let mn := max a.m b.m
  let aa := expOf (a.m - mn)
  let ab := expOf (b.m - mn)
  let l := (rneShift ((a.l : Int) * aa) 24 + rneShift ((b.l : Int) * ab) 24).toNat
  let o := (a.o.zip b.o).map (fun x => clamp47 (rneShift (x.1 * aa) 24 + rneShift (x.2 * ab) 24))
  (⟨mn, l, o.map Prod.fst⟩, o.any Prod.snd)

/-- A left fold of `merge` (R223). -/
def mergeAll : List RowState → RowState × Bool
  | [] => ({}, false)
  | a :: r => r.foldl (fun acc b => let x := mergeRows acc.1 b; (x.1, acc.2 || x.2)) (a, false)

/-- `finish` (R224): codes, row scale, and whether anything saturated. -/
def finishRow (st : RowState) (ogrid : Int) : List Int × Scale × Bool :=
  if st.l = 0 then (st.o.map (fun _ => 0), Scale.zero, false)
  else
    let a := sc64 (st.l : Int) 0
    let inv := srcp a.1
    let k := bitLen (maxAbs st.o) - 30
    let x := st.o.map (fun v => rneShift v k)
    let sin : Scale := ⟨inv.1.m, inv.1.e + ogrid + k⟩
    let sa := deriveScale (maxAbs x) sin 127
    let q := x.map (fun v => quantize v sin sa.1 127)
    (q.map Prod.fst, sa.1, a.2 || inv.2 || sa.2 || q.any Prod.snd)

/-- A row's state or statistics as bytes (R218). -/
def statBytes (st : RowState) : List Byte := toBytes 4 (pattern 32 st.m) ++ toBytes 4 0 ++ toBytes 8 st.l
def stateBytes (st : RowState) : List Byte := statBytes st ++ st.o.flatMap (fun v => toBytes 8 (pattern 64 v))

/-- A row state from its bytes (R218). -/
def stateOf (bs : List Byte) (d : Nat) : RowState :=
  ⟨signed 32 (ofBytes (slice bs 0 4)), ofBytes (slice bs 8 8), (upto d).map (fun i => signed 64 (ofBytes (slice bs (16 + 8 * i) 8)))⟩

/-! Stored scores (R236). -/

/-- A stored-score record of a row: the visible tokens' scores, `none` for an invisible token (R236). Where no token is
visible the manual states neither bm nor sc: they are the free values given (LOG 82). -/
def scoreRecord (ss : List (Option Int)) (freeBm freeSc : Nat) : List Byte × Bool :=
  let vis := ss.filterMap id
  match vis with
  | [] => (toBytes 4 freeBm ++ toBytes 4 freeSc ++ toBytes 24 0 ++ ss.map (fun _ => BitVec.ofInt 8 (-128)), false)
  | v :: r =>
    let bm := maxInt v r
    let grid : Scale := ⟨32768, -16⟩
    let sc := deriveScale (maxAbs (vis.map (· - bm))) grid 127
    let qs := ss.map (fun x => match x with | none => (-128, false) | some v => quantize (v - bm) grid sc.1 127)
    (toBytes 4 (pattern 32 bm) ++ toBytes 4 sc.1.toWord.toNat ++ toBytes 24 0 ++ qs.map (fun q => BitVec.ofInt 8 q.1),
      sc.2 || qs.any Prod.snd)

/-- The score that a stored record gives token t (R236). -/
def storedScore (bs : List Byte) (t : Nat) : Int :=
  signed 32 (ofBytes (slice bs 0 4)) + onGrid (signed 8 (ofBytes (slice bs (32 + t) 1))) (scaleAt bs 4) (-16)

/-! Backward pass (R234, R235). -/

/-- A row of the backward pass: its query, its output gradient, its output, and its statistics. -/
structure BRow where
  q : QRow
  dout : List Int
  sdo : Scale
  out : List Int
  so : Scale
  m : Int
  l : Nat
deriving DecidableEq, Repr

/-- 2^48 div l; the manual states no value for l = 0 (LOG 26). -/
def invSum (l : Nat) : Int := if l = 0 then Config.divByZero (2 ^ 48) else ((2 ^ 48 / l : Nat) : Int)

/-- `prob` and `ds` of one row and visible token with its score (R234), and whether anything clamped. -/
def gradOf (r : BRow) (t : Token) (s : Int) (eds : Int) : Int × Int × Bool :=
  let p := expOf (s - r.m)
  let prob := rneShift (p * invSum r.l) 24
  let sv := smul r.sdo t.vs
  let so := smul r.sdo r.so
  let dp := onGrid (dot r.dout t.value) sv.1 eds
  let dl := onGrid (dot r.dout r.out) so.1 eds
  let y := rneShift (prob * (dp - dl)) 24
  (prob, satI32 y, decide (y ≠ satI32 y) || sv.2 || so.2)

/-- One visible pair's gradients. -/
structure Grad where
  prob : Int
  ds : Int
deriving DecidableEq, Repr

/-- The contributions to one token's dV and dK (R235): per row its gradients, none where the token is invisible. -/
def tokenGrads (rows : List (BRow × Option Grad)) (d : Nat) (gscale : Word) (eds ek ev : Int) : List Int × List Int × Bool :=
  let cv := fold8 (rows.map (fun r => ((match r.2 with | none => 0 | some g => g.prob), r.1.sdo)))
  let ck := fold8 (rows.map (fun r => ((match r.2 with | none => 0 | some g => g.ds), r.1.q.sq)))
  let gk := smul ck.2.1 (Scale.ofWord gscale)
  ((weighted cv.1 (rows.map (fun r => r.1.dout)) d).map (fun x => onGrid x cv.2.1 (ev + 24)),
   (weighted ck.1 (rows.map (fun r => r.1.q.q)) d).map (fun x => onGrid x gk.1 (ek - eds)),
   cv.2.2 || ck.2.2 || gk.2)

/-- The contribution to one row's dQ (R235). -/
def rowGrad (toks : List (Token × Int)) (d : Nat) (gscale : Word) (eds eq : Int) : List Int × Bool :=
  let c := fold8 (toks.map (fun t => (t.2, t.1.ks)))
  let g := smul c.2.1 (Scale.ofWord gscale)
  ((weighted c.1 (toks.map (fun t => t.1.key)) d).map (fun x => onGrid x g.1 (eq - eds)), c.2.2 || g.2)

/-- A sum held as i64 (R235). -/
def wrap64 (x : Int) : Int := signed 64 (pattern 64 x)

end Sys2Proof.Machine
end

