-- ==== Sys2Proof/Machine/PumpUnit.lean ====
section
/-! DEFINITION. The pumps (06): PM.ENQ and PM.WAIT, the checks when a descriptor begins, its blocks, its signal and its
end, and the loading of decoding tables. -/

namespace Sys2Proof.Machine

/-! PM instructions (R124 to R127, R150, R151). -/

def pmSOFF (w : Nat) : Nat := bits w 10 5
def pmST (w : Nat) : Nat := bits w 15 5
def pmAll (w : Nat) : Bool := w.testBit 20

/-- A pump descriptor from its 64 bytes (R150). -/
def descOf (v : Nat) : Desc where
  op := bits v 0 4
  xp := bits v 6 2
  rcls := bits v 8 3
  relt := bits v 11 1
  rdlag := bits v 12 2
  sig := v.testBit 14
  sigsz := bits v 15 1
  src := bits v 64 56
  dst := bits v 128 56
  rows := bits v 208 24
  rowbytes := bits v 232 24
  sstride := bits v 256 32
  dstride := bits v 288 32
  sigval := BitVec.ofNat 64 (bits v 320 64)
  sigaddr := bits v 384 56
  rtag := bits v 448 56

/-- The ILLEGAL_INSTRUCTION causes of R151. -/
def State.descIllegal (s : State) (d : Desc) : Bool :=
  decide (1 < d.op) || d.xp == 3 || decide (3 < d.rcls) || d.rows == 0 || d.rowbytes == 0 || (d.op == 1 && d.xp != 0) ||
    (d.op == 0 && !s.isLocal d.src && !s.isLocal d.dst)

/-- The bytes of the signal word. -/
def Desc.sigBytes (d : Desc) : Nat := if d.sigsz = 1 then 8 else 4

/-- The ALIGN causes of R151. -/
def descMisaligned (d : Desc) : Bool :=
  (d.xp != 0 && (d.rows % 32 != 0 || d.rowbytes % (32 * d.xp) != 0)) || (d.sig && d.sigaddr % d.sigBytes != 0)

/-- Whether an AT operation in flight still has to write a byte of the descriptor (R306). -/
def State.descPending (s : State) (u a : Nat) : Bool :=
  (s.sq u).atOps.any (fun o => o.kind != .ld && o.rows.any (fun r =>
    !r.stage.ended && s.isLocal r.addr && decide (r.addr % 2 ^ 44 < a + 64) && decide (a < r.addr % 2 ^ 44 + o.size)))

/-- Read, check and append a descriptor (R125, R127, R140, R151). A descriptor that the allotment does not hold whole cannot be read,
so its own causes are not found, and bytes of it that fail parity are reported before the causes that they would decide (LOG 55). -/
def State.enqueue (s : State) (u off st : Nat) : State :=
  let q := s.sq u
  if q.fits off 64 && s.descPending u (q.cisternAt u off) then s
  else if !q.fits off 64 then
    if off % 32 ≠ 0 then s.faultAt u eAlign (q.windowAddr u off) else s.faultAt u eAllot (q.beyond u off)
  else
    s.readCistern u off 64 (fun bs =>
      let d := descOf (ofBytes bs)
      if s.descIllegal d then s.faultHere u eIllegal
      else if off % 32 ≠ 0 ∨ descMisaligned d = true then s.faultAt u eAlign (q.windowAddr u off)
      else if 32 ≤ q.pump.lastTicket - q.pump.released then s.faultHere u eQueue
      else
        let t := q.pump.lastTicket + 1
        (s.modSq u (fun q => { q with pump := { q.pump with
          lastTicket := t, queue := q.pump.queue ++ [{ d with ticket := t, iidx := q.iidx, coff := off }] } }.setSreg st
            (BitVec.ofNat 64 t))).advance u)

def execPmEnq (sq : SquareId) (s : State) : Host.Outcome State Fault Refusal :=
  .next (s.issue sq.val 3 0x00 (fun w =>
    if !onlyFields w [(10, 5), (15, 5)] then s.faultHere sq.val eIllegal
    else if !(s.sq sq.val).regsReady [pmSOFF w, pmST w] then s
    else s.enqueue sq.val ((s.sq sq.val).sreg (pmSOFF w)).toNat (pmST w)))

/-- The ticket that PM.WAIT names (R124, R126). -/
def Square.awaited (q : Square) (w : Nat) : Nat := if pmAll w then q.pump.lastTicket else (q.sreg (pmST w)).toNat

def execPmWait (sq : SquareId) (s : State) : Host.Outcome State Fault Refusal :=
  .next (s.issue sq.val 3 0x01 (fun w =>
    let q := s.sq sq.val
    if !(onlyFields w [(15, 5), (20, 1)] && (!pmAll w || pmST w == 0)) then s.faultHere sq.val eIllegal
    else if !q.regsReady [pmST w] then s
    else if q.pump.lastTicket < q.awaited w then s.faultHere sq.val eIllegal
    else s.modSq sq.val (fun q => { q with stall := .pmWait (q.awaited w) })))

def execPmWaitMet (sq : SquareId) (s : State) : Host.Outcome State Fault Refusal :=
  .next (match (s.sq sq.val).stall with
    | .pmWait t =>
      if s.active sq.val && decide (t ≤ (s.sq sq.val).pump.lastDone) then
        (s.modSq sq.val (fun q => { q with pump := { q.pump with released := max q.pump.released t } })).resume sq.val
      else s
    | _ => s)

/-! The sides of a descriptor. -/

/-- One side: base address, stride, rows and bytes per row, and whether it is local (R151 to R153). -/
structure Side where
  base : Nat
  stride : Nat
  n : Nat
  len : Nat
  loc : Bool
deriving DecidableEq, Repr

def State.srcSide (s : State) (d : Desc) : Side := ⟨d.src, d.sstride, d.rows, d.rowbytes, s.isLocal d.src⟩

/-- The destination: R153 gives a transposing move one row for each element of a source row. -/
def State.dstSide (s : State) (d : Desc) : Side :=
  if d.xp = 0 then ⟨d.dst, d.dstride, d.rows, d.rowbytes, s.isLocal d.dst⟩
  else ⟨d.dst, d.dstride, d.rowbytes / d.xp, d.rows * d.xp, s.isLocal d.dst⟩

/-- The sides that a descriptor touches: ZERO has no source. -/
def State.sidesOf (s : State) (d : Desc) : List Side := if d.op = 0 then [s.srcSide d, s.dstSide d] else [s.dstSide d]

/-- The address of row r of a side. It wraps modulo 2^56, and each row is local or remote by its own address (LOG 85). -/
def Side.row (x : Side) (r : Nat) : Nat := (x.base + r * x.stride) % 2 ^ 56

/-- Where the regions of a row may change: its first byte and each multiple of 256 inside it, as local addresses. -/
def rowPoints (a len : Nat) : List Nat :=
  a :: ((upto ((a + len - 1) / 256 - a / 256)).map (fun i => (a / 256 + 1 + i) * 256))

/-- The region entries that a local row touches, in order; `none` where it is in none. -/
def rowRegions (isM : Bool) (rs : List Region) (x : Side) (r : Nat) : List (Option Region) :=
  (rowPoints (x.row r % 2 ^ 44) x.len).map (findRegion isM rs)

/-- The first row of a side that a test fails, as the cause of an error. -/
def Side.firstRow (x : Side) (code : Nat) (bad : Nat → Bool) : Option (Nat × Nat) :=
  ((upto x.n).find? bad).map (fun r => (code, x.row r))

/-- Order 1 of R154. -/
def rowUndefined (isM : Bool) (rs : List Region) (x : Side) (r : Nat) : Bool :=
  x.loc && (rowRegions isM rs x r).any (fun e => e.any (fun g => decide (4 ≤ g.codec)))

/-- Order 2 of R154: both ranges lie in this module and overlap. -/
def sidesOverlap (a b : Side) : Bool :=
  let lo := a.base % 2 ^ 44
  let lo' := b.base % 2 ^ 44
  a.loc && b.loc && decide (lo < lo' + (b.n - 1) * b.stride + b.len) && decide (lo' < lo + (a.n - 1) * a.stride + a.len)

/-- Whether a region stores its blocks raw. -/
def Region.plain (g : Region) : Bool := g.isSealed || g.codec == 0

/-- Order 3 of R154 for one row. -/
def rowMisplaced (isM : Bool) (rs : List Region) (rcls : Nat) (x : Side) (r : Nat) : Bool :=
  let bad := x.row r % 256 != 0 || x.len % 256 != 0
  if x.loc then
    let es := rowRegions isM rs x r
    es.any (fun e => e.any (fun g => !g.plain)) && (bad || es.any (fun e => e != es.headD none))
  else rcls != 0 && bad

/-- Order 4 of R154: a sealed row (R182). -/
def rowSealed (isM : Bool) (rs : List Region) (x : Side) (r : Nat) : Bool :=
  x.loc && (rowRegions isM rs x r).any (fun e => e.any (·.isSealed))

/-- Order 5 of R154 for one row: the first byte of the own window beyond the allotment. -/
def Square.rowBeyond (q : Square) (u : Nat) (x : Side) (r : Nat) : Option (Nat × Nat) :=
  let a := x.row r % 2 ^ 44
  let win := cisternAddr u 0
  let lo := win + q.allotBase
  let hi := lo + q.allotSize
  if !x.loc || decide (a + x.len ≤ win) || decide (win + 0x1000000 ≤ a) then none
  else if max a win < lo then some (eAllot, globalOf (max a win))
  else if hi < min (a + x.len) (win + 0x1000000) then some (eAllot, globalOf (max a hi))
  else none

/-- How the block at a global address of a side is stored (R158, R159). -/
def State.blockAt (s : State) (rs : List Region) (d : Desc) (x : Side) (g : Nat) : BlockInfo :=
  if x.loc then localBlock s.isM rs (g % 2 ^ 44)
  else { cls := d.rcls, elt := d.relt, lag := lagBytes d.rdlag, tag := (d.rtag + 4 * ((g - x.base) / 256)) % 2 ^ 56 }

/-- The tag words of the LOSSLESS blocks of a row that lie in this module (R164, R167). -/
def State.rowTags (s : State) (rs : List Region) (d : Desc) (x : Side) (r : Nat) : List Nat :=
  ((upto ((x.len + 255) / 256)).map (fun i => s.blockAt rs d x (x.row r + 256 * i))).filterMap (fun b =>
    if b.cls = 3 ∧ s.isLocal b.tag = true then some b.tag else none)

/-- Order 5 of R154 for the tag words of a row. -/
def State.tagsBeyond (s : State) (u : Nat) (rs : List Region) (d : Desc) (x : Side) (r : Nat) : Option (Nat × Nat) :=
  (s.rowTags rs d x r).findSome? (fun t => (s.sq u).rowBeyond u ⟨t, 0, 1, 4, true⟩ 0)

/-- The checks of R154 in table order; the accesses of order 5 are those to the rows, their tag words and the signal word. -/
def State.descriptorCause (s : State) (u : Nat) (rs : List Region) (d : Desc) : Option (Nat × Nat) :=
  let xs := s.sidesOf d
  firstCause (
    xs.map (fun x => x.firstRow eIllegal (rowUndefined s.isM rs x)) ++
    [cause (d.op == 0 && sidesOverlap (s.srcSide d) (s.dstSide d)) ePermission d.dst] ++
    xs.map (fun x => x.firstRow eAlign (rowMisplaced s.isM rs d.rcls x)) ++
    (if d.rcls = 0 then [] else xs.map (fun x => x.firstRow ePermission (rowSealed s.isM rs x))) ++
    xs.map (fun x => (upto x.n).findSome? ((s.sq u).rowBeyond u x)) ++
    xs.map (fun x => (upto x.n).findSome? (s.tagsBeyond u rs d x)) ++
    [if d.sig then (s.sq u).rowBeyond u ⟨d.sigaddr, 0, 1, d.sigBytes, s.isLocal d.sigaddr⟩ 0 else none])

/-- An error of the descriptor in progress: its record, and the error response to the kernel when that is accepted
(R154, R155, R502). A stopped square logs none (R142). -/
def State.pumpFail (s : State) (u code addr : Nat) : State :=
  let stopped := (s.sq u).run == .stopped
  (if stopped then s else s.logErr u (s.sq u).kpart code addr (.pump u code)).modSq u (fun q =>
    { q with pump := { q.pump with cur := q.pump.cur.map (fun r => { r with err := if stopped then eAborted else code, todo := [] }) } })

/-- Change the descriptor in progress. -/
def State.modRun (s : State) (u : Nat) (f : PumpRun → PumpRun) : State :=
  s.modSq u (fun q => { q with pump := { q.pump with cur := q.pump.cur.map f } })

/-- The next descriptor begins (R146, R154, R160). A failing read of the region table is an error response like any
other. -/
def State.beginDescriptor (s : State) (u : Nat) : State :=
  let q := s.sq u
  match q.pump.queue with
  | [] => s
  | d :: rest =>
    if q.pump.cur.isSome || !s.active u then s
    else
      let t := (s.modSq u (fun q => { q with pump := { q.pump with queue := rest, cur := some { d := d, regions := [] } } })).trace 3 0x07
        q.kpart u d.ticket d.dst
      match s.readRegions u q.kpart with
      | .error e => t.pumpFail u e.1 (globalOf e.2)
      | .ok rs =>
        match s.descriptorCause u rs d with
        | some e => t.pumpFail u e.1 e.2
        | none => t.modRun u (fun r => { r with regions := rs })

def execPumpDescriptorBegin (sq : SquareId) (s : State) : Host.Outcome State Fault Refusal :=
  .next (s.beginDescriptor sq.val)

/-! Reads and writes of a pump. -/

/-- Pieces of a range that lie in one line of 128 bytes each. -/
def linePieces (a n : Nat) : List (Nat × Nat) :=
  (upto ((a + n - 1) / 128 - a / 128 + 1)).map (fun i =>
    let lo := max a ((a / 128 + i) * 128)
    (lo, min (a + n) ((a / 128 + i + 1) * 128) - lo))

/-- What a pump read gives: bytes, an error response with its address, or that the host must answer. -/
inductive ReadOut where
  | ok (bs : List Byte)
  | err (code addr : Nat)
  | host
deriving DecidableEq, Repr

/-- Read pieces of lines in turn through the near cache (R280). -/
def State.readPieces (s : State) (u part : Nat) (fill : Bool) : List (Nat × Nat) → List Byte → State × ReadOut
  | [], got => (s, .ok got)
  | p :: ps, got =>
    let r := s.nearRead u part p.1 p.2 fill true
    match r.2 with
    | .ok bs => r.1.readPieces u part fill ps (got ++ bs)
    | .err c => (r.1, .err c (globalOf p.1))
    | .host => (r.1, .host)

/-- A pump read of local bytes (R183, R280, R284). -/
def State.pumpRead (s : State) (u a n : Nat) (fill : Bool) : State × ReadOut :=
  let q := s.sq u
  if q.ownWindowRefuses u a n then (s, .err eAllot (globalOf a))
  else
    match placeOf s.isM a with
    | .well _ => s.readPieces u q.kpart fill (linePieces a n) []
    | .reservoir => s.readPieces u q.kpart fill (linePieces a n) []
    | _ =>
      let r := s.localAccess u q.kpart a (.load n) true
      match r.2 with
      | .ok bs => (r.1, .ok bs)
      | .err c => (r.1, .err c (globalOf a))
      | .host => (r.1, .host)

/-- The error response that a write of a pump would get, without performing it; 0 when it passes. -/
def State.writeCode (s : State) (u g n : Nat) : Nat :=
  let a := g % 2 ^ 44
  let q := s.sq u
  if !s.isLocal g then eOk
  else if q.ownWindowRefuses u a n then eAllot
  else
    match placeOf s.isM a with
    | .reg => s.regStoreCode u q.kpart a n
    | _ => s.checkAcc ⟨u, q.kpart, a, n, .write, true⟩

/-- The count map of one slot, padded (R413). -/
def countMap (n : Nat) : List Byte := toBytes 16 n

/-- The transaction of a write to another module (R412 to R414). -/
def putTxn (w : PumpWrite) : Txn :=
  if w.packed then
    { type := 1, blk := true, nb := 1, len := 16 + w.bytes.length, payload := countMap (w.bytes.length / 32) ++ w.bytes }
  else { type := 1, len := w.bytes.length, payload := w.bytes }

/-- The source's own refusal of a request of the pump ends the descriptor: its record, unless the square is stopped, is made already
(R142, R155). -/
def State.pumpUnsent (s : State) (u code : Nat) : State :=
  s.modRun u (fun x => { x with err := if (s.sq u).run = .stopped then eAborted else code, todo := [] })

/-- Perform one local write that has passed its checks, with its code; the pump's near cache loses the lines it touches (R281). -/
def State.pumpStore (s : State) (u : Nat) (w : PumpWrite) : State × Nat :=
  let r := (s.dropNear u (w.addr % 2 ^ 44) w.bytes.length).localAccess u (s.sq u).kpart (w.addr % 2 ^ 44) (.store w.bytes) true
  match r.2 with
  | .err c => (r.1.pumpFail u c w.addr, c)
  | _ => (r.1, eOk)

/-- Whether the descriptor in progress goes on: it has no error, or only finishes the block that it has begun to write (R156). -/
def PumpRun.goesOn (r : PumpRun) : Bool := r.err == 0 || r.err == eAborted

/-- Perform the parts of a block in order up to the first one that leaves the module, which is sent; those after it wait in `todo`
for its acknowledgement, so that none is written after an error (R155). -/
def State.pumpWrites (s : State) (u : Nat) : List PumpWrite → State
  | [] => s.modRun u (fun r => { r with todo := [] })
  | w :: ws =>
    if s.isLocal w.addr then
      let t := s.pumpStore u w
      if t.2 = eOk then t.1.pumpWrites u ws else t.1
    else if !s.linkRoom then s.modRun u (fun r => { r with todo := w :: ws })
    else
      let t := s.linkRequest u (s.sq u).kpart w.addr (putTxn w) (.pumpWrite u) (replyOf (.pumpWrite u))
      if t.2 = eOk then t.1.modRun u (fun r => { r with outstanding := r.outstanding + 1, todo := ws }) else t.1.pumpUnsent u t.2

/-- Whether the first write of a block has no room to be sent: the block is not begun yet, so that a stop abandons it (R156, R415). -/
def State.noRoomFor (s : State) (ws : List PumpWrite) : Bool :=
  match ws with | w :: _ => !s.isLocal w.addr && !s.linkRoom | [] => false

/-- Begin to write the parts of a block; when one of them fails its checks here nothing is written (R155). -/
def State.writeBlock (s : State) (u : Nat) (ws : List PumpWrite) : State :=
  match ws.find? (fun w => s.writeCode u w.addr w.bytes.length != eOk) with
  | some w => s.pumpFail u (s.writeCode u w.addr w.bytes.length) w.addr
  | none => s.pumpWrites u ws

/-- The writes of one raw block to a destination of a class (R161, R164, R170). -/
def encodeWrites (p : Pump) (i : BlockInfo) (g : Nat) (raw : List Byte) : List PumpWrite :=
  if i.cls = 0 then [⟨g, raw, false⟩]
  else if lossyClass i.cls then [⟨g, lossyEncode i.cls i.elt raw, true⟩]
  else
    let e := losslessEncode p.encoder i.lag raw
    [⟨g, granules e.1, true⟩, ⟨i.tag, toBytes 4 e.2, false⟩]

/-- The writes of stored bytes that are copied unchanged (R163). -/
def copyWrites (i : BlockInfo) (g tag : Nat) (stored : List Byte) : List PumpWrite :=
  if i.cls = 3 then [⟨g, stored, true⟩, ⟨i.tag, toBytes 4 (tag % 4096), false⟩] else [⟨g, stored, i.cls != 0⟩]

/-! Blocks. -/

/-- A piece of source that a block needs: its global address, the bytes read when raw, where in the decoded block the
wanted bytes start, how it is stored, and whether the stored bytes are wanted. -/
structure Piece where
  addr : Nat
  n : Nat
  off : Nat := 0
  info : BlockInfo
  copy : Bool := false
deriving DecidableEq, Repr

/-- The bytes of the current block of a plain descriptor: a row is cut at the multiples of 256 of its destination address, so that
every aligned granule of 32 bytes is written whole (R149, R302, LOG 73). -/
def State.blockLen (s : State) (r : PumpRun) : Nat :=
  min (r.d.rowbytes - r.off) (256 - ((s.dstSide r.d).row r.pos + r.off) % 256)

/-- The pieces of a plain row from `off` up to `stop`: blocks where the row is not raw, and otherwise bytes up to a multiple of 32
of the source address (R302), at most to the next multiple of 256. `dst` is how the destination block is stored. -/
def State.rowPieces (s : State) (r : PumpRun) (dst : BlockInfo) (stop : Nat) : Nat → Nat → List Piece
  | 0, _ => []
  | k + 1, off =>
    if stop ≤ off then []
    else
      let x := s.srcSide r.d
      let a := x.row r.pos + off
      let i := s.blockAt r.regions r.d x a
      if i.cls ≠ 0 then
        { addr := a, n := 256, info := i, copy := sameStorage i dst : Piece } :: s.rowPieces r dst stop k (off + 256)
      else
        let e := min (min r.d.rowbytes ((a - off + stop + 31) / 32 * 32 - (a - off))) (off + 256 - a % 256)
        { addr := a, n := e - off, info := i : Piece } :: s.rowPieces r dst stop k e

/-- The pieces of source of the current step, beyond the bytes already read. -/
def State.piecesOf (s : State) (r : PumpRun) : List Piece :=
  let d := r.d
  let x := s.srcSide d
  if d.op ≠ 0 then []
  else if d.xp = 0 then
    s.rowPieces r (s.blockAt r.regions d (s.dstSide d) ((s.dstSide d).row r.pos + r.off)) (r.off + s.blockLen r) 3 (r.off + r.carry.length)
  else
    let lo := r.pos % (d.rowbytes / d.seg) * d.seg
    (upto 32).map (fun k =>
      let a := x.row (32 * (r.pos / (d.rowbytes / d.seg)) + k)
      let i := s.blockAt r.regions d x (a + lo)
      if i.cls = 0 then { addr := a + lo, n := d.seg, info := i }
      else { addr := a + lo / 256 * 256, n := 256, off := lo % 256, info := i })

/-- The bytes that a piece reads at its source once its tag, if any, is known. -/
def Piece.stored (p : Piece) (tag : Nat) : Nat :=
  if p.info.cls = 0 then p.n else if p.info.cls = 3 then tagStored tag else lossySize p.info.cls

/-- The transaction of a read from another module (R412 to R414). -/
def Piece.getTxn (p : Piece) (tag : Nat) : Txn :=
  if p.info.cls = 0 then { type := 2, len := p.n }
  else { type := 2, blk := true, nb := 1, len := 16, payload := countMap (p.stored tag / 32) }

/-- The decoded bytes of a piece, or nothing on CODEC_LENGTH (R166, R171). -/
def Piece.decode (p : Piece) (q : Pump) (tag : Nat) (stored : List Byte) : Option (List Byte) :=
  if p.info.cls = 0 ∨ p.copy = true then some stored
  else if lossyClass p.info.cls then some (lossyDecode p.info.cls p.info.elt stored)
  else losslessDecode (q.lensFor tag) tag p.info.lag stored

/-- A piece has been read: it is decoded and joins the pieces gathered, or the descriptor ends with CODEC_LENGTH
(R155). -/
def State.takePiece (s : State) (u : Nat) (p : Piece) (tag : Nat) (stored : List Byte) : State :=
  match p.decode (s.sq u).pump tag stored with
  | none => s.pumpFail u eCodecLength p.addr
  | some bs => (s.count u 9 (p.stored tag)).modRun u (fun r => { r with fetch := .idle, gathered := r.gathered ++ [(tag, bs.drop p.off)] })

/-- A block that is to be decoded takes, or gives back, its reference to a bank (R174). -/
def State.useBank (s : State) (u : Nat) (p : Piece) (tag : Nat) (take : Bool) : State :=
  if p.info.cls ≠ 3 ∨ p.copy = true ∨ tagRaw tag = true then s
  else
    s.modSq u (fun q =>
      let i := if q.pump.bank0.valid && q.pump.bank0.gen == tagGen tag then 0 else 1
      let b := q.pump.bank i
      { q with pump := q.pump.setBank i { b with useCnt := if take then b.useCnt + 1 else b.useCnt - 1 } })

/-- Read the data of a piece: at once at a local home, or by a request whose answer is awaited. A block that is decoded holds its reference
to a bank meanwhile, and gives it back at the end (R174). -/
def State.fetchData (s : State) (u : Nat) (p : Piece) (tag : Nat) (fill : Bool) : State :=
  let wait := fun (t : State) => t.modRun u (fun r => { r with fetch := .waitData tag })
  if s.isLocal p.addr then
    let x := s.pumpRead u (p.addr % 2 ^ 44) (p.stored tag) fill
    match x.2 with
    | .ok bs => (x.1.takePiece u p tag bs).useBank u p tag false
    | .err c a => (x.1.pumpFail u c a).useBank u p tag false
    | .host => wait (x.1.hostAccess u (s.sq u).kpart (p.addr % 2 ^ 44) (.load (p.stored tag)) (.pumpRead u false))
  else if s.linkRoom then
    let x := s.linkRequest u (s.sq u).kpart p.addr (p.getTxn tag) (.pumpRead u false) (replyOf (.pumpRead u false))
    if x.2 = eOk then wait x.1 else (x.1.pumpUnsent u x.2).useBank u p tag false
  else s.modRun u (fun r => { r with fetch := if p.info.cls = 3 then .checked tag else .idle })

/-- A tag has been read: it is checked before any data is (R167), and a block that passes takes its reference to a bank (R174). -/
def State.checkTag (s : State) (u : Nat) (p : Piece) (tag : Nat) (fill : Bool) : State :=
  let c := (s.sq u).pump.tagCode tag
  if c ≠ eOk then s.pumpFail u c p.addr else (s.useBank u p tag true).fetchData u p tag fill

/-- Read the tag of a piece (R167, R414). -/
def State.fetchTag (s : State) (u : Nat) (p : Piece) (fill : Bool) : State :=
  let g := p.info.tag
  if s.isLocal g then
    let a := g % 2 ^ 44
    let x := if (s.sq u).ownWindowRefuses u a 4 then (s, AccOut.err eAllot) else s.localAccess u (s.sq u).kpart a (.load 4) true
    match x.2 with
    | .ok bs => x.1.checkTag u p (ofBytes bs) fill
    | .err c => x.1.pumpFail u c g
    | .host => (x.1.hostAccess u (s.sq u).kpart a (.load 4) (.pumpRead u true)).modRun u (fun r => { r with fetch := .waitTag })
  else if s.linkRoom then
    let x := s.linkRequest u (s.sq u).kpart g { type := 2, len := 4 } (.pumpRead u true) (replyOf (.pumpRead u true))
    if x.2 = eOk then x.1.modRun u (fun r => { r with fetch := .waitTag }) else x.1.pumpUnsent u x.2
  else s

/-- Go on with the reading of one piece. -/
def State.readPiece (s : State) (u : Nat) (p : Piece) (f : Fetch) (fill : Bool) : State :=
  match f with
  | .idle => if p.info.cls = 3 then s.fetchTag u p fill else s.fetchData u p 0 fill
  | .waitTag => s
  | .haveTag t => s.checkTag u p t fill
  | .checked t => s.fetchData u p t fill
  | .waitData _ => s
  | .haveData t bs => (s.takePiece u p t bs).useBank u p t false

/-- Whether a pump's source is small enough to fill the near cache (R280). -/
def Desc.fills (d : Desc) : Bool := decide (d.rows * d.rowbytes ≤ 65536)

/-- Read the pieces of a step in turn until all are gathered, one must be waited for, or an error ends it. -/
def State.gather (s : State) (u : Nat) : List Piece → State
  | [] => s
  | p :: ps =>
    match (s.sq u).pump.cur with
    | none => s
    | some r =>
      let t := s.readPiece u p r.fetch r.d.fills
      match (t.sq u).pump.cur with
      | none => t
      | some r' => if r'.err = 0 ∧ r'.gathered.length = r.gathered.length + 1 then t.gather u ps else t

/-- The source bytes of a plain step that are at hand: those read before, then the pieces gathered. -/
def PumpRun.sourceBytes (r : PumpRun) : List Byte := r.carry ++ r.gathered.flatMap Prod.snd

/-- The writes of a plain step (R152). -/
def State.plainWrites (s : State) (r : PumpRun) (p : Pump) : List PumpWrite :=
  let d := r.d
  let y := s.dstSide d
  let b := y.row r.pos + r.off
  let i := s.blockAt r.regions d y b
  if d.op ≠ 0 then encodeWrites p i b (List.replicate (s.blockLen r) 0)
  else if (s.piecesOf r).any (·.copy) then r.gathered.flatMap (fun g => copyWrites i b g.1 g.2)
  else encodeWrites p i b (r.sourceBytes.take (s.blockLen r))

/-- The key of byte `off` of destination row `c` among the bytes held (R153). -/
def holdKey (c off : Nat) : Nat := c * 2 ^ 30 + off

/-- Destination row `c` of an element block: the rows' elements of that column (R153). -/
def columnBytes (rows : List (List Byte)) (k xp : Nat) : List Byte := rows.flatMap (fun p => (p.drop (k * xp)).take xp)

/-- The writes of a transposing step, with the bytes of blocks not yet complete (R153). -/
def State.turnWrites (s : State) (r : PumpRun) (p : Pump) : List PumpWrite × Table Byte :=
  let d := r.d
  let y := s.dstSide d
  let nj := d.rowbytes / d.seg
  let off := 32 * (r.pos / nj) * d.xp
  let bo := off / 256 * 256
  (upto 32).foldl (fun acc k =>
    let c := 32 * (r.pos % nj) + k
    let out := columnBytes (r.gathered.map Prod.snd) k d.xp
    let i := s.blockAt r.regions d y (y.row c + bo)
    if i.cls = 0 then (acc.1 ++ [⟨y.row c + off, out, false⟩], acc.2)
    else
      let h := Table.setList 0 acc.2 (holdKey c off) out
      if (off + d.seg) % 256 = 0 then
        (acc.1 ++ encodeWrites p i (y.row c + bo) (Table.getList 0 h (holdKey c bo) 256), Table.clear h (holdKey c bo) (holdKey c (bo + 256)))
      else (acc.1, h)) ([], r.hold)

/-- Raw bytes that a step moves (R149). -/
def State.stepBytes (s : State) (r : PumpRun) : Nat := if r.d.xp = 0 then s.blockLen r else 32 * r.d.seg

/-- Where a descriptor stands after a step that leaves these bytes held. -/
def State.stepped (s : State) (r : PumpRun) (hold : Table Byte) (x : PumpRun) : PumpRun :=
  let n := s.blockLen r
  if r.d.xp ≠ 0 then { x with pos := x.pos + 1, gathered := [], hold := hold }
  else if r.d.rowbytes ≤ r.off + n then { x with pos := x.pos + 1, off := 0, gathered := [], carry := [] }
  else { x with off := r.off + n, gathered := [], carry := r.sourceBytes.drop n }

/-- The pieces of a step are gathered: write them, unless there is no room for the first write yet, and go on to the next step unless a
write failed. -/
def State.finishStep (s : State) (u : Nat) (r : PumpRun) : State :=
  let w := if r.d.xp = 0 then (s.plainWrites r (s.sq u).pump, r.hold) else s.turnWrites r (s.sq u).pump
  let t := s.writeBlock u w.1
  if s.noRoomFor w.1 then s
  else if (t.sq u).pump.cur.any (fun x => x.err != 0) then t
  else
    ((t.modRun u (s.stepped r w.2)).count u 8 (s.stepBytes r)).count u 10 ((w.1.map (fun x => x.bytes.length)).foldl (· + ·) 0)

/-- The remaining writes of a block go on once the one before them is acknowledged, on a stopped square too (R155, R156). -/
def State.resumeBlock (s : State) (u : Nat) (r : PumpRun) : State :=
  if r.outstanding ≠ 0 ∨ r.goesOn = false then s
  else
    let t := s.pumpWrites u r.todo
    t.modSq u (fun q => { q with pump := q.pump.onRun id })

/-- One step of the descriptor in progress: a block of at most 256 raw bytes, or an element block of a transposition (R149,
R152, R153). The next one begins when the writes of the last are acknowledged (R155). A global stop lets a block that has begun to be
written end, and no other begin (R514). -/
def State.pumpStep (s : State) (u : Nat) : State :=
  match (s.sq u).pump.cur with
  | none => s
  | some r =>
    if !r.todo.isEmpty then s.resumeBlock u r
    else if s.stop.stopped then s
    else if !s.active u || r.err != 0 || decide (r.d.steps ≤ r.pos) || r.outstanding != 0 then s
    else
      let ps := s.piecesOf r
      let t := s.gather u (ps.drop r.gathered.length)
      match (t.sq u).pump.cur with
      | none => t
      | some r' => if r'.err = 0 ∧ r'.gathered.length = ps.length then t.finishStep u r' else t

def execPumpBlock (sq : SquareId) (s : State) : Host.Outcome State Fault Refusal := .next (s.pumpStep sq.val)

/-! Signal and completion (R147). -/

/-- The SIGNAL of a descriptor to another module (R412). -/
def signalTxn (size val : Nat) : Txn :=
  { type := 4, len := 16, asz := if size = 8 then 3 else 2, payload := toBytes 8 (val % 2 ^ (8 * size)) ++ toBytes 8 0 }

/-- The signal atomic of the descriptor in progress. -/
def State.pumpSignal (s : State) (u : Nat) : State :=
  match (s.sq u).pump.cur with
  | none => s
  | some r =>
    let part := (s.sq u).kpart
    let g := r.d.sigaddr
    let n := r.d.sigBytes
    let val := r.d.sigval.toNat % 2 ^ (8 * n)
    if !s.active u || !r.written || !r.d.sig || r.sigSent then s
    else if s.isLocal g then
      let a := g % 2 ^ 44
      let x := if (s.sq u).ownWindowRefuses u a n then (s, AccOut.err eAllot)
        else (s.dropNear u a n).localAccess u part a (.atom 0 n val) false
      match x.2 with
      | .ok _ => x.1.modRun u (fun r => { r with sigSent := true, sigDone := true })
      | .err c => x.1.pumpFail u c g
      | .host => (x.1.hostAccess u part a (.atom 0 n val) (.pumpSignal u)).modRun u (fun r => { r with sigSent := true })
    else if s.linkRoom then
      let x := s.linkRequest u part g (signalTxn n val) (.pumpSignal u) (replyOf (.pumpSignal u))
      if x.2 = eOk then x.1.modRun u (fun r => { r with sigSent := true }) else x.1.pumpUnsent u x.2
    else s

def execPumpSignal (sq : SquareId) (s : State) : Host.Outcome State Fault Refusal := .next (s.pumpSignal sq.val)

/-- The descriptor in progress completes, on a stopped square too once nothing of it was left to issue (R156). -/
def State.endDescriptor (s : State) (u : Nat) : State :=
  match (s.sq u).pump.cur with
  | none => s
  | some r =>
    if (s.sq u).run != .idle && !s.stop.stopped && r.written && (!r.d.sig || r.sigDone) then
      (s.modSq u (fun q => { q with pump := { q.pump with cur := none, lastDone := r.d.ticket } })).countDescriptor u r.d.ticket eOk
    else s

def execPumpDescriptorComplete (sq : SquareId) (s : State) : Host.Outcome State Fault Refusal :=
  .next (s.endDescriptor sq.val)

/-! Decoding tables (R173). -/

/-- The image read of the load under way gives bytes or a code. -/
def Pump.tableGot (p : Pump) (r : List Byte ⊕ Nat) : Pump :=
  match r with
  | .inl bs => { p with tblSent := true, tblImage := some bs }
  | .inr c => { p with tblSent := true, tblCode := c }

/-- The pump reads the table image as an access of the square's owner (R173, step 5). -/
def State.readImage (s : State) (u : Nat) : State :=
  let p := (s.sq u).pump
  let g := p.tblSrc
  let set := fun (t : State) (r : List Byte ⊕ Nat) => t.modSq u (fun q => { q with pump := q.pump.tableGot r })
  if !p.tblBusy || p.tblSent || decide ((p.bank p.tblTgt).useCnt ≠ 0) || s.stop.stopped then s
  else if (s.owner u).eff = 0 then set s (.inr ePermission)
  else
    let part := (s.owner u).eff - 1
    if s.isLocal g then
      let x := s.localAccess u part (g % 2 ^ 44) (.load 288) true
      match x.2 with
      | .ok bs => set x.1 (.inl bs)
      | .err c => set (x.1.logErr u part c g) (.inr c)
      | .host => (x.1.hostAccess u part (g % 2 ^ 44) (.load 288) (.tableRead u)).modSq u (fun q => { q with pump := { q.pump with tblSent := true } })
    else if s.linkRoom then
      let x := s.linkRequest u part g { type := 2, len := 288 } (.tableRead u) (replyOf (.tableRead u))
      if x.2 = eOk then x.1.modSq u (fun q => { q with pump := { q.pump with tblSent := true } }) else set x.1 (.inr x.2)
    else s

def execTableImageRead (sq : SquareId) (s : State) : Host.Outcome State Fault Refusal := .next (s.readImage sq.val)

/-- The end of a load: the bank becomes valid and newest, or stays invalid (R173, steps 5 to 7). -/
def Pump.endLoad (p : Pump) : Pump :=
  let fail := fun (c : Nat) => { p.setBank p.tblTgt {} with
    tblBusy := false, tblDone := true, tblSent := false, tblImage := none, tblCode := 0, tblErr := c }
  match p.tblImage with
  | none => if p.tblCode = 0 then p else fail p.tblCode
  | some bs =>
    let lens := bs.map (·.toNat)
    if !imageOk lens then fail eIllegal
    else
      let o := p.bank (1 - p.tblTgt)
      let q := (p.setBank p.tblTgt { valid := true, newest := true, gen := p.tblLoad, lens := lens }).setBank (1 - p.tblTgt)
        { o with newest := false }
      { q with tblBusy := false, tblDone := true, tblSent := false, tblImage := none, tblErr := eOk }

def execTableLoadDone (sq : SquareId) (s : State) : Host.Outcome State Fault Refusal :=
  .next (if (s.sq sq.val).pump.tblBusy && !s.stop.stopped then s.modSq sq.val (fun q => { q with pump := q.pump.endLoad }) else s)

end Sys2Proof.Machine
end

