-- ==== Sys2Proof/Machine/Far.lean ====
section
/-! DEFINITION. Accesses of the dispatch hall and of launches to any global address (R339, R342, R343): a local one is
performed at once; one to another module or to host memory is sent, and the command that needs it finds its answer when
it is asked again. And how answers reach those who wait for them. -/

namespace Sys2Proof.Machine

/-- What an access finds: bytes, an error response with the stamp of its record if it is logged, or that the answer is not there
yet. -/
inductive FarOut where
  | ok (bs : List Byte)
  | err (code : Nat) (logged : Option Nat)
  | wait
deriving DecidableEq, Repr

/-- The far access of an owner that has been sent already. -/
def State.findFar (s : State) (o : FarOwner) (g : Nat) (k : AccessKind) : Option FarAccess :=
  s.far.find? (fun x => x.owner == o && x.addr == g && x.kind == k)

/-- Note a far access under the next key. -/
def State.noteFar (s : State) (o : FarOwner) (g : Nat) (k : AccessKind) : State :=
  { s with nextFar := s.nextFar + 1, far := s.far ++ [⟨s.nextFar, o, g, k, none, 0⟩] }

/-- The answer of a far access, with the stamp of the record of an error response. -/
def State.answerFar (s : State) (key code : Nat) (bs : List Byte) (stamp : Nat) : State :=
  { s with far := s.far.map (fun x => if x.key = key then { x with result := some (code, bs), stamp := stamp } else x) }

/-- Send a far access, or find its answer. A refusal, which is logged as it is made, is kept as an answer is (R142). -/
def State.farSend (s : State) (o : FarOwner) (unit part g : Nat) (k : AccessKind) (t : Txn) : State × FarOut :=
  match s.findFar o g k with
  | some x =>
    match x.result with
    | none => (s, .wait)
    | some r => (s, if r.1 = eOk then .ok r.2 else .err r.1 (some x.stamp))
  | none =>
    if s.isLocal g then ((s.hostAccess unit part (g % 2 ^ 44) k (.far s.nextFar)).noteFar o g k, .wait)
    else if s.linkRoom then
      let r := s.linkRequest unit part g t (.far s.nextFar) (fun _ => .none)
      if r.2 = eOk then (r.1.noteFar o g k, .wait) else ((r.1.noteFar o g k).answerFar s.nextFar r.2 [] s.time, .err r.2 (some s.time))
    else (s, .wait)

/-- An access to a global address. -/
def State.farAccess (s : State) (o : FarOwner) (unit part g : Nat) (k : AccessKind) (bulk : Bool) (t : Txn) : State × FarOut :=
  if s.isLocal g then
    let x := s.localAccess unit part (g % 2 ^ 44) k bulk
    match x.2 with
    | .ok bs => (x.1, .ok bs)
    | .err c => (x.1, .err c none)
    | .host => x.1.farSend o unit part g k t
  else s.farSend o unit part g k t

/-- Ranges of at most 12,288 bytes that a range is read in (R411). -/
def farPieces (g n : Nat) : List (Nat × Nat) :=
  (upto ((n + 12287) / 12288)).map (fun i => (g + 12288 * i, min 12288 (n - 12288 * i)))

/-- Read the pieces of a range in turn. -/
def State.readFarPieces (s : State) (o : FarOwner) (unit part : Nat) : List (Nat × Nat) → List Byte → State × FarOut
  | [], got => (s, .ok got)
  | p :: ps, got =>
    let r := s.farAccess o unit part p.1 (.load p.2) true { type := 2, len := p.2 }
    match r.2 with
    | .ok bs => r.1.readFarPieces o unit part ps (got ++ bs)
    | x => (r.1, x)

/-- Read a range of any length: whole when it is local, in pieces otherwise. -/
def State.readFar (s : State) (o : FarOwner) (unit part g n : Nat) : State × FarOut :=
  if s.isLocal g then s.farAccess o unit part g (.load n) true {} else s.readFarPieces o unit part (farPieces g n) []

/-- Read a range once: what a local read finds is kept with the answers of its owner until they are forgotten (R343). -/
def State.readOnce (s : State) (o : FarOwner) (unit part g n : Nat) : State × FarOut :=
  match s.findFar o g (.load n) with
  | some x =>
    match x.result with
    | none => (s, .wait)
    | some r => (s, if r.1 = eOk then .ok r.2 else .err r.1 (some x.stamp))
  | none =>
    let r := s.readFar o unit part g n
    match r.2 with
    | .ok bs => if s.isLocal g then ((r.1.noteFar o g (.load n)).answerFar r.1.nextFar eOk bs 0, r.2) else r
    | _ => r

/-- Whether a far access is the hall's own: of a context, or for a launch (R300). -/
def FarOwner.ofHall (o : FarOwner) : Bool := match o with | .hall _ => true | .launch _ => true | _ => false

/-- Whether an access of the hall is still without its answer, which holds its next release (R308, R312). -/
def State.hallAwaits (s : State) : Bool := s.far.any (fun x => x.owner.ofHall && x.result.isNone)

/-- A write of the hall, a status word or a sequence number, and whether it has been performed: it is a release, so that it waits for
every earlier access of the hall, and one to another module waits for its own acknowledgement (R308, R312). An error response is
logged and ends nothing. No write of a partition reset is made to the host window (R384). -/
def State.farWrite (s : State) (o : FarOwner) (unit part g : Nat) (bs : List Byte) : State × Bool :=
  if (s.part part).reset.resetting && s.isLocal g && placeOf s.isM (g % 2 ^ 44) == .host then (s, true)
  else if (s.findFar o g (.store bs)).isNone && s.hallAwaits then (s, false)
  else
    let r := s.farAccess o unit part g (.store bs) true (txnFor (.store bs))
    match r.2 with
    | .wait => (r.1, false)
    | .ok _ => (r.1, true)
    | .err c logged => (if logged.isSome then r.1 else r.1.logErr unit part c g, true)

/-- Whether a far access of an owner is still without its answer. -/
def State.farPending (s : State) (o : FarOwner) : Bool := s.far.any (fun x => x.owner == o && x.result.isNone)

/-- Whether a far access is one of a launch. -/
def FarOwner.ofLaunch (o : FarOwner) (id : Nat) : Bool :=
  match o with
  | .hall _ => false
  | .launch i => i == id
  | .square i _ => i == id
  | .item i _ => i == id
  | .request i _ => i == id
  | .reset _ => false
  | .bsc => false
  | .handover _ => false

/-- Whether a far access of a launch is still without its answer. -/
def State.launchPending (s : State) (id : Nat) : Bool := s.far.any (fun x => x.owner.ofLaunch id && x.result.isNone)

/-- Forget every far access of a launch. -/
def State.forgetLaunch (s : State) (id : Nat) : State := { s with far := s.far.filter (fun x => !x.owner.ofLaunch id) }

/-! Answers. -/

/-- The bytes of a pump's outstanding read arrive. -/
def Fetch.arrive (f : Fetch) (bs : List Byte) : Fetch :=
  match f with
  | .waitTag => .haveTag (ofBytes bs)
  | .waitData t => .haveData t bs
  | x => x

/-- A request of a pump has its answer. -/
def PumpRun.answered (r : PumpRun) (w : Waiter) : PumpRun :=
  match w with
  | .pumpWrite _ => { r with outstanding := r.outstanding - 1 }
  | .pumpRead _ _ => { r with fetch := .idle }
  | _ => r

/-- One request fewer of a launch is unanswered. -/
def State.launchAnswered (s : State) (id : Nat) : State := s.modLaunch id (fun l => { l with outstanding := l.outstanding - 1 })

/-- An answer without an error reaches who waits for it. -/
def State.deliverOk (s : State) (w : Waiter) (bs : List Byte) : State :=
  match w with
  | .atRow u op row => s.endRow u op row .done (ofBytes bs)
  | .pumpRead u _ => s.modSq u (fun q => { q with pump := q.pump.onRun (fun r => { r with fetch := r.fetch.arrive bs }) })
  | .pumpWrite u => s.modSq u (fun q => { q with pump := q.pump.onRun (fun r => r.answered w) })
  | .pumpSignal u => s.modRun u (fun r => { r with sigDone := true })
  | .tableRead u => s.modSq u (fun q => { q with pump := q.pump.tableGot (.inl bs) })
  | .far key => s.answerFar key eOk bs 0
  | .command id _ => s.launchAnswered id
  | .tail id => s.launchAnswered id
  | .core c => s.emit (.resp (unitCore c) eOk bs)
  | .link _ t => s.answerTxn t bs
  | .nobody => s

/-- The error response to a descriptor reaches the kernel: the square faults, naming the PM.ENQ, and the descriptor
ends; the pump waits for its other answers only (R141, R155, R156). -/
def State.pumpError (s : State) (u code stamp : Nat) : State :=
  match (s.sq u).pump.cur with
  | none => s
  | some r =>
    let t := s.modSq u (fun q => { q with pump := q.pump.onRun (fun x => { x with err := eAborted }) })
    if (s.sq u).run = .running then (t.countDescriptor u r.d.ticket code).faultSquareAt u code r.d.iidx stamp else t

/-- What the acceptance of an error record with a stamp lets go (R502). -/
def State.letGo (s : State) (r : Reply) (stamp : Nat) : State :=
  match r with
  | .none => s
  | .square u op row code => s.endRow u op row (.failed code stamp) 0
  | .pump u code => s.pumpError u code stamp
  | .hall _ => s
  | .far key code => s.answerFar key code [] stamp
  | .command id u code => (s.launchAnswered id).faultSquareAt u code 0 stamp
  | .tail id => s.launchAnswered id
  | .out o => s.emit o
  | .linkErr t code => s.sendResponse t 7 code []

/-- An error response to a request of a pump: the first one of a running square's descriptor is logged and stops it at its block;
one that follows it, or reaches a stopped square, is not (R142, R155). -/
def State.pumpRefused (s : State) (w : Waiter) (u unit part addr code : Nat) : State :=
  let stop := fun (t : State) (c : Nat) => t.modSq u (fun q => { q with pump := q.pump.onRun (fun r =>
    { r.answered w with todo := [], err := if r.err = 0 then c else r.err }) })
  if (s.sq u).run = .running then
    if (s.sq u).pump.cur.any (fun r => r.err == 0) then (stop s code).logErr unit part code addr (.pump u code) else stop s code
  else stop s eAborted

/-- An answer with an error: the requester's side logs it, and the error response follows the record's acceptance
(R416, R502, R534). A stopped square logs no record (R142). -/
def State.deliverErr (s : State) (w : Waiter) (unit part addr code : Nat) : State :=
  match w with
  | .pumpRead u _ => s.pumpRefused w u unit part addr code
  | .pumpWrite u => s.pumpRefused w u unit part addr code
  | .pumpSignal u => s.pumpRefused w u unit part addr code
  | .atRow u op row =>
    if (s.sq u).run = .running then s.logErr unit part code addr (.square u op row code) else s.endRow u op row (.failed code s.time) 0
  | .command id u =>
    if (s.sq u).run = .running ∧ (s.sq u).launch = id then s.logErr unit part code addr (.command id u code) else s.launchAnswered id
  | .tableRead u => (s.modSq u (fun q => { q with pump := q.pump.tableGot (.inr code) })).logErr unit part code addr
  | .link _ q => s.logErr unit part code addr (replyOf w code) q.srcm
  | _ => s.logErr unit part code addr (replyOf w code)

end Sys2Proof.Machine
end

