-- ==== Sys2Proof/Machine/Fused.lean ====
section
/-! DEFINITION. What the fused commands of attention and prefix lookup share (R219, R237, R238, R339): faults, reads,
writes and atomics of a command, and the outcome of reading its structures. -/

namespace Sys2Proof.Machine

/-- What the reading of a command's structures gives when it starts: its progress record, a fault (with the progress
record as far as it was read), or that an answer is not there yet. -/
inductive StartOut (α : Type) where
  | ok (a : α)
  | fault (a : Option α) (code addr : Nat) (logged : Option Nat)
  | wait

/-- A fault of a fused command on a square: IIDX is 0 (R219). So it is for an error response to a preload or code read of a kernel,
which no instruction makes (R110, R343): there it is the model's choice (LOG 74). `logged` is the stamp of the record, if there is
one. -/
def State.cmdFault (s : State) (u code addr : Nat) (logged : Option Nat) : State :=
  match logged with
  | some t => s.faultSquareAt u code 0 t
  | none => s.faultLogged u code 0 addr

/-- The launch that a square runs. -/
def State.launchOn (s : State) (u : Nat) : Option Launch := if s.active u then s.launch (s.sq u).launch else none

/-- Read bytes for a square of a command, as the work of an owner, and go on with them; an error response faults the square. -/
def State.cmdRead (s : State) (o : FarOwner) (l : Launch) (u g n : Nat) (f : State → List Byte → State) : State :=
  let r := s.readFar o u l.part g n
  match r.2 with
  | .ok bs => f r.1 bs
  | .err c logged => r.1.cmdFault u c g logged
  | .wait => r.1

/-- Read several ranges in turn. -/
def State.cmdReads (s : State) (o : FarOwner) (l : Launch) (u : Nat) (f : State → List (List Byte) → State) : List (Nat × Nat) → List (List Byte) → State
  | [], got => f s got
  | p :: ps, got =>
    let r := s.readFar o u l.part p.1 p.2
    match r.2 with
    | .ok bs => r.1.cmdReads o l u f ps (got ++ [bs])
    | .err c logged => r.1.cmdFault u c p.1 logged
    | .wait => r.1

/-- Whether the module can take `n` requests more (R415). -/
def State.roomFor (s : State) (n : Nat) : Bool := decide (s.links.reqs.length + n ≤ 32768)

/-- The error response that a write of a command would get here; 0 when it passes, or leaves the module. -/
def State.cmdCode (s : State) (u part g n : Nat) : Nat :=
  let a := g % 2 ^ 44
  if !s.isLocal g then s.linkCode (g / 2 ^ 44) part
  else
    match placeOf s.isM a with
    | .reg => s.regStoreCode u part a n
    | _ => s.checkAcc ⟨u, part, a, n, .write, true⟩

/-- Count one more unanswered request of a command. -/
def State.cmdSent (s : State) (id : Nat) : State := s.modLaunch id (fun l => { l with outstanding := l.outstanding + 1 })

/-- An access of a command that writes, sent to another module. -/
def State.cmdSend (s : State) (l : Launch) (u g : Nat) (t : Txn) : State :=
  let r := s.linkRequest u l.part g t (.command l.id u) (fun _ => .none)
  if r.2 = eOk then r.1.cmdSent l.id else r.1.faultSquare u r.2 0

/-- Write bytes of a command. -/
def State.cmdWrite (s : State) (l : Launch) (u g : Nat) (bs : List Byte) : State :=
  if s.isLocal g then
    let r := s.localAccess u l.part (g % 2 ^ 44) (.store bs) true
    match r.2 with
    | .err c => r.1.cmdFault u c g none
    | _ => r.1
  else s.cmdSend l u g (txnFor (.store bs))

/-- Write the parts of one row: when one of them fails its checks, none is written (R238). -/
def State.cmdWrites (s : State) (l : Launch) (u : Nat) (ws : List (Nat × List Byte)) : State :=
  match ws.find? (fun w => s.cmdCode u l.part w.1 w.2.length != eOk) with
  | some w => s.cmdFault u (s.cmdCode u l.part w.1 w.2.length) w.1 none
  | none => ws.foldl (fun t w => if (t.sq u).run = .running then t.cmdWrite l u w.1 w.2 else t) s

/-- A 64-bit atomic add of a command. -/
def State.cmdAdd (s : State) (l : Launch) (u g v : Nat) : State :=
  if s.isLocal g then
    let r := s.localAccess u l.part (g % 2 ^ 44) (.atom 0 8 v) false
    match r.2 with
    | .err c => r.1.cmdFault u c g none
    | .host => (r.1.hostAccess u l.part (g % 2 ^ 44) (.atom 0 8 v) (.command l.id u)).cmdSent l.id
    | .ok _ => r.1
  else s.cmdSend l u g (txnFor (.atom 0 8 v))

/-- A 64-bit atomic add that a launch makes as it ends: an error response is logged and changes nothing else (R233, R260). -/
def State.tailAdd (s : State) (l : Launch) (u g v : Nat) : State :=
  if s.isLocal g then
    let r := s.localAccess u l.part (g % 2 ^ 44) (.atom 0 8 v) false
    match r.2 with
    | .err c => r.1.logErr u l.part c g
    | .host => (r.1.hostAccess u l.part (g % 2 ^ 44) (.atom 0 8 v) (.tail l.id)).cmdSent l.id
    | .ok _ => r.1
  else
    let r := s.linkRequest u l.part g (txnFor (.atom 0 8 v)) (.tail l.id) (fun _ => .none)
    if r.2 = eOk then r.1.cmdSent l.id else r.1

/-- Atomic adds of a command in turn, until one faults. -/
def State.cmdAdds (s : State) (l : Launch) (u : Nat) (as : List (Nat × Nat)) : State :=
  as.foldl (fun t a => if (t.sq u).run = .running then t.cmdAdd l u a.1 a.2 else t) s

/-- A clamp of a command's arithmetic sets OUT_SAT of its square. -/
def State.cmdSat (s : State) (u : Nat) (sat : Bool) : State :=
  if sat then s.modSq u (fun q => { q with outSat := true }) else s

/-- A LOSSLESS block decoded as a pump does, or the code of what is wrong with it (R167, R171). -/
def losslessBlock (p : Pump) (lag tag : Nat) (stored : List Byte) : Except Nat (List Byte) :=
  if p.tagCode tag ≠ eOk then .error (p.tagCode tag)
  else
    match losslessDecode (p.lensFor tag) tag lag stored with
    | none => .error eCodecLength
    | some bs => .ok bs

/-- A LOSSLESS block as it stood in memory before: a block that was written since may be missed (R214). -/
def State.oldBlock (s : State) (mem : Table Byte) (p : Pump) (i : BlockInfo) (a : Nat) : Except Nat (List Byte) :=
  let t : State := { s with mem := mem }
  let tag := ofBytes (t.bytes (i.tag % 2 ^ 44) 4)
  losslessBlock p i.lag tag (t.bytes a (tagStored tag))

/-- Read one block at its home, decoding a compressed one as the square's pump does (R215): its bytes, or a code with its address.
`old` is memory as it stood when the page was there for the command: a LOSSLESS block that does not decode is taken from there (R214). -/
def State.readBlock (s : State) (u part : Nat) (rs : List Region) (old : Table Byte) (a : Nat) : State × Except (Nat × Nat) (List Byte) :=
  let i := localBlock s.isM rs a
  if i.cls ≠ 3 then
    let r := s.accRead ⟨u, part, a, if i.cls = 0 then 256 else lossySize i.cls, .read, true⟩
    match r.2 with
    | .error c => (r.1, .error (c, globalOf a))
    | .ok bs => (r.1, .ok (if lossyClass i.cls then lossyDecode i.cls i.elt bs else bs))
  else
    let r := s.accRead ⟨u, part, i.tag % 2 ^ 44, 4, .read, true⟩
    match r.2 with
    | .error c => (r.1, .error (c, i.tag))
    | .ok tb =>
      let tag := ofBytes tb
      let p := (r.1.sq u).pump
      let x := if p.tagCode tag = eOk then r.1.accRead ⟨u, part, a, tagStored tag, .read, true⟩ else (r.1, .ok [])
      match x.2 with
      | .error c => (x.1, .error (c, globalOf a))
      | .ok st =>
        match losslessBlock p i.lag tag st with
        | .ok bs => (x.1, .ok bs)
        | .error c =>
          match s.oldBlock old p i a with
          | .ok bs => (x.1, .ok bs)
          | .error _ => (x.1, .error (c, globalOf a))

/-- Read blocks in turn. -/
def State.readBlocks (s : State) (u part : Nat) (rs : List Region) (old : Table Byte) :
    Nat → Nat → List Byte → State × Except (Nat × Nat) (List Byte)
  | 0, _, got => (s, .ok got)
  | n + 1, a, got =>
    let r := s.readBlock u part rs old a
    match r.2 with
    | .error e => (r.1, .error e)
    | .ok bs => r.1.readBlocks u part rs old n (a + 256) (got ++ bs)

end Sys2Proof.Machine
end

