-- ==== Sys2Proof/Machine/Attention.lean ====
section
/-! DEFINITION. Fused attention (08): its descriptor, records and ring descriptor with their checks, the page walker,
the folds and merges, the rows it writes, the backward pass, and the ring protocol. -/

namespace Sys2Proof.Machine

/-! Structures (R216, R217, R229). -/

/-- An attention descriptor from its 128 bytes (R216). -/
def attnDescOf (v : Nat) : AttnDesc where
  op := bits v 0 4
  causal := v.testBit 4
  ring := v.testBit 5
  stats := v.testBit 6
  scores := v.testBit 7
  ssrc := v.testBit 8
  fmt := bits v 16 7
  qpg := bits v 24 8
  kvh := bits v 32 8
  split := bits v 40 8
  ogrid := signed 8 (bits v 48 8)
  qkscale := BitVec.ofNat 32 (bits v 64 32)
  layer := bits v 96 16
  batch := bits v 128 56
  nseq := bits v 192 16
  blen := bits v 224 32
  cbaddr := bits v 256 56
  ringd := bits v 320 56
  scaddr := bits v 384 56
  allotBase := bits v 448 12
  allotSize := bits v 460 13
  cbase := bits v 473 6
  ccount := bits v 479 7
  gscale := BitVec.ofNat 32 (bits v 512 32)
  eds := signed 8 (bits v 544 8)
  eq := signed 8 (bits v 552 8)
  ek := signed 8 (bits v 560 8)
  ev := signed 8 (bits v 568 8)

/-- Whether any of the listed fields (first bit, width) is nonzero. -/
def anySet (v : Nat) (fs : List (Nat × Nat)) : Bool := fs.any (fun f => bits v f.1 f.2 != 0)

/-- Reserved bits of an attention descriptor (R216). -/
def attnReserved (v : Nat) : Bool :=
  anySet v [(9, 7), (23, 1), (56, 8), (112, 16), (184, 8), (208, 16), (312, 8), (376, 8), (440, 8), (486, 26), (576, 448)]

/-- A sequence record from its 64 bytes and those of its companion (R217). -/
def seqRecOf (v c : Nat) : SeqRec where
  len := bits v 0 32
  qpos := bits v 32 32
  nq := bits v 64 16
  nbmax := bits v 96 32
  pt := bits v 128 56
  qaddr := bits v 192 56
  oaddr := bits v 256 56
  saddr := bits v 320 56
  qsaddr := bits v 384 56
  osaddr := bits v 448 56
  doaddr := bits c 0 56
  dosaddr := bits c 64 56
  dqaddr := bits c 128 56
  dkaddr := bits c 192 56
  dvaddr := bits c 256 56

/-- Reserved bits of a record and of a companion (R217). -/
def recReserved (v : Nat) : Bool := anySet v [(80, 16), (184, 8), (248, 8), (312, 8), (376, 8), (440, 8), (504, 8)]
def compReserved (c : Nat) : Bool := anySet c [(56, 8), (120, 8), (184, 8), (248, 8), (312, 200)]

/-- A ring descriptor from its 128 bytes (R229). -/
def ringDescOf (v : Nat) : RingDesc where
  n := bits v 0 10
  pos := bits v 10 10
  base := bits v 64 64
  nextSlot := bits v 128 56
  mySlot := bits v 192 56
  home := bits v 256 56
  nextC := bits v 320 56
  prevC := bits v 384 56
  npg := bits v 448 32
  gtab := bits v 512 56

/-- Reserved bits of a ring descriptor (R229). -/
def ringReserved (v : Nat) : Bool :=
  anySet v [(20, 44), (184, 8), (248, 8), (312, 8), (376, 8), (440, 8), (480, 32), (568, 456)]

/-! Checks at start (R237). -/

/-- A cause with its order in the table of R237. -/
structure Cause where
  order : Nat
  code : Nat
  addr : Nat
deriving DecidableEq, Repr

/-- One cause when it holds. -/
def causeIf (b : Bool) (order code addr : Nat) : List Cause := if b then [⟨order, code, addr⟩] else []

/-- The cause of lowest order, the first found among equals. -/
def lowestCause : List Cause → Option Cause
  | [] => none
  | c :: cs =>
    match lowestCause cs with
    | none => some c
    | some d => if d.order < c.order then some d else some c

/-- Whether an address names the reservoir of this module. -/
def State.namesReservoir (s : State) (g : Nat) : Bool := s.isLocal g && placeOf s.isM (g % 2 ^ 44) == .reservoir

/-- The causes of the descriptor alone. SCADDR is checked whenever SCORES or SSRC is set, also where the command does not use it
(LOG 86). -/
def State.attnCauses (s : State) (v addr : Nat) : List Cause :=
  let d := attnDescOf v
  let f := pageFmt d.fmt
  causeIf (decide (3 < d.op) || !fmtOk d.fmt || outside 1 32 d.qpg || outside 1 64 d.kvh ||
    (d.op != 3 && outside (if d.op = 2 then 2 else 1) 64 d.split) || d.nseq == 0 || decide (d.allotSize < 256) ||
    decide (64 < d.ccount) || d.kvh % f.heads != 0 || (d.ring && (d.split != 1 || d.op == 2)) ||
    (d.scores && (!d.ring || d.op != 0)) || (d.stats && d.op != 0) || d.blen % f.tokens != 0 || attnReserved v) 1 eIllegal addr ++
  causeIf (d.batch % 64 != 0) 2 eAlign d.batch ++
  causeIf (d.ring && d.ringd % 64 != 0) 2 eAlign d.ringd ++
  causeIf (decide (4096 < d.allotBase + d.allotSize) || (d.ring && decide (d.ccount < 2)) || decide (64 < d.cbase + d.ccount)) 3 eAllot addr ++
  causeIf ((d.scores || d.ssrc) && !s.namesReservoir d.scaddr) 4 ePermission d.scaddr

/-- The causes of a record and its companion at their addresses. -/
def recCauses (d : AttnDesc) (v c rec comp : Nat) : List Cause :=
  let r := seqRecOf v c
  let bwd := d.op == 3
  causeIf (recReserved v || r.nq == 0 || (d.blen != 0 && decide (d.blen < r.len))) 1 eIllegal rec ++
  causeIf (bwd && compReserved c) 1 eIllegal comp ++
  causeIf (r.qsaddr % 4 != 0) 2 eAlign r.qsaddr ++
  causeIf (r.osaddr % 4 != 0) 2 eAlign r.osaddr ++
  causeIf (bwd && r.dosaddr % 4 != 0) 2 eAlign r.dosaddr ++
  causeIf (r.saddr % 16 != 0) 2 eAlign r.saddr ++
  causeIf (bwd && r.dkaddr % 8 != 0) 2 eAlign r.dkaddr ++
  causeIf (bwd && r.dvaddr % 8 != 0) 2 eAlign r.dvaddr

/-- Page groups of a layer (R212). -/
def AttnDesc.ngrp (d : AttnDesc) : Nat := d.kvh / (pageFmt d.fmt).heads

/-- The causes of the ring descriptor. -/
def ringCauses (d : AttnDesc) (v : Nat) : List Cause :=
  let r := ringDescOf v
  causeIf (ringReserved v || outside 2 512 r.n || decide (r.n ≤ r.pos) || r.npg % d.ngrp != 0) 1 eIllegal d.ringd ++
  causeIf (d.op == 3 && r.gtab % 8 != 0) 2 eAlign r.gtab

/-- Cut a list of bytes into numbers of 64 bytes. -/
def recordsOf (bs : List Byte) (n : Nat) : List Nat := (upto n).map (fun j => ofBytes (slice bs (64 * j) 64))

/-- Read what a command needs when a condition holds. -/
def State.readIf (s : State) (l : Launch) (u : Nat) (b : Bool) (g n : Nat) : State × FarOut :=
  if b then s.readOnce (.square l.id u) u l.part g n else (s, .ok [])

/-- The checks of a started command once everything that can be read has been (R237, orders 1 to 4, then 6). -/
def State.attnVerdict (s : State) (l : Launch) (v : Nat) (recs comps ring : FarOut) : StartOut Attn :=
  let d := attnDescOf v
  let get := fun (x : FarOut) => match x with | .ok bs => bs | _ => []
  let rs := recordsOf (get recs) ((get recs).length / 64)
  let cs := recordsOf (get comps) ((get comps).length / 64)
  let ok := fmtOk d.fmt && d.kvh % (pageFmt d.fmt).heads == 0 && d.kvh != 0
  let rc := (upto rs.length).flatMap (fun j =>
    recCauses d (rs.getD j 0) (cs.getD j 0) ((d.batch + 64 * j) % 2 ^ 56) ((d.batch + 64 * (d.nseq + j)) % 2 ^ 56))
  let gc := if d.ring && ok then (match ring with | .ok (b :: bs) => ringCauses d (ofBytes (b :: bs)) | _ => []) else []
  let a : Attn := { desc := d, recs := (upto rs.length).map (fun j => seqRecOf (rs.getD j 0) (cs.getD j 0)), ringd := ringDescOf (ofBytes (get ring)), mem0 := s.mem }
  let keep := match ring with | .ok (_ :: _) => some a | _ => none
  match lowestCause (s.attnCauses v l.daddr ++ rc ++ gc) with
  | some c => .fault keep c.code c.addr none
  | none =>
    match recs, comps, ring with
    | .err c lg, _, _ => .fault keep c d.batch lg
    | _, .err c lg, _ => .fault keep c ((d.batch + 64 * d.nseq) % 2 ^ 56) lg
    | _, _, .err c lg => .fault keep c d.ringd lg
    | _, _, _ => .ok a

/-- A command of attention reads and checks its structures as it starts (R237, R559). -/
def State.attnStart (s : State) (l : Launch) (u : Nat) : State × StartOut Attn :=
  let r0 := s.readOnce (.square l.id u) u l.part l.daddr 128
  match r0.2 with
  | .wait => (r0.1, .wait)
  | .err c lg => (r0.1, .fault none c l.daddr lg)
  | .ok bs =>
    let v := ofBytes bs
    let d := attnDescOf v
    let r1 := r0.1.readIf l u (d.nseq != 0) d.batch (64 * d.nseq)
    let r2 := r1.1.readIf l u (d.nseq != 0 && d.op == 3) ((d.batch + 64 * d.nseq) % 2 ^ 56) (64 * d.nseq)
    let r3 := r2.1.readIf l u (d.ring && d.ringd % 64 == 0) d.ringd 128
    match r1.2, r2.2, r3.2 with
    | .wait, _, _ => (r3.1, .wait)
    | _, .wait, _ => (r3.1, .wait)
    | _, _, .wait => (r3.1, .wait)
    | _, _, _ => (r3.1, r3.1.attnVerdict l v r1.2 r2.2 r3.2)

/-! Work items. -/

/-- Query heads (R218). -/
def AttnDesc.nqh (d : AttnDesc) : Nat := d.kvh * d.qpg

/-- The key of a work item in the table of a command. -/
def itemKey (w : WorkItem) : Nat := ((w.record * 64 + w.head) * 64 + w.part) * 65536 + w.tile

/-- Whether a command has a work item. -/
def Attn.validItem (a : Attn) (w : WorkItem) : Bool :=
  decide (w.record < a.recs.length) && decide (w.head < a.desc.kvh) && decide (w.part < a.desc.parts) &&
    decide (w.tile < (a.recs.getD w.record {}).tiles a.desc)

def Attn.item (a : Attn) (w : WorkItem) : ItemState := Table.get {} a.items (itemKey w)

/-- The far accesses of a work item. -/
def itemOwner (l : Launch) (w : WorkItem) : FarOwner := .item l.id (itemKey w)

/-- Change a work item of a launch. -/
def State.modItem (s : State) (id : Nat) (w : WorkItem) (f : ItemState → ItemState) : State :=
  s.modLaunch id (fun l => { l with attn := l.attn.map (fun a => { a with items := Table.set {} a.items (itemKey w) (f (a.item w)) }) })

/-- A step of a work item is done: the item changes, and what it read elsewhere is forgotten, so that a later step reads it again at
its home (R327). -/
def State.itemDone (s : State) (l : Launch) (w : WorkItem) (f : ItemState → ItemState) : State :=
  (s.modItem l.id w f).forgetFar (itemOwner l w)

/-- The rows of a tile of KV head h: query token and query head, in the order of their work item. -/
def tileRows (d : AttnDesc) (r : SeqRec) (h tile : Nat) : List (Nat × Nat) :=
  (upto (min 32 (r.nq * d.qpg - 32 * tile))).map (fun k => ((32 * tile + k) / d.qpg, h * d.qpg + (32 * tile + k) % d.qpg))

/-- Pages of one group in a slab (R229). -/
def Attn.perGroup (a : Attn) : Nat := a.ringd.npg / a.desc.ngrp

/-- The first block of a part and how many it has (R223); under RING a part has every page of its group of every slab
(R230). -/
def Attn.blocks (a : Attn) (w : WorkItem) : Nat × Nat :=
  if a.desc.op = 2 then (0, 0)
  else if a.desc.ring then (0, a.ringd.n * a.perGroup)
  else
    let t := (pageFmt a.desc.fmt).tokens
    let nb := ((a.recs.getD w.record {}).len + t - 1) / t
    let lo := w.part * nb / a.desc.parts
    (lo, (w.part + 1) * nb / a.desc.parts - lo)

/-- How many blocks a work item may take now: under RING those of the slabs in hand (R231). -/
def Attn.available (a : Attn) (w : WorkItem) : Nat :=
  if a.desc.ring then (if a.ring.have_ then a.ring.step + 1 else a.ring.step) * a.perGroup else (a.blocks w).2

/-- Rows of a work item in their start state until the first fold (R222). -/
def ItemState.row (i : ItemState) (r d : Nat) : RowState := i.rows.getD r (RowState.empty d)

/-- Where the rows of a command lie: index i × NQH + hq (R218). -/
def rowIndex (d : AttnDesc) (r : Nat × Nat) : Nat := r.1 * d.nqh + r.2

/-- An address past a base. -/
def addr56 (base off : Nat) : Nat := (base + off) % 2 ^ 56

/-- Bytes of a partial state (R218). -/
def stateSize (dim : Nat) : Nat := 16 + 8 * dim

/-- The ranges that a work item reads for its rows: query codes and scale of each row, and for BWD its output gradient,
output and statistics (R218, R234). -/
def rowRanges (d : AttnDesc) (r : SeqRec) (x : Nat) : List (Nat × Nat) :=
  let n := (pageFmt d.fmt).dim
  [(addr56 r.qaddr (x * n), n), (addr56 r.qsaddr (4 * x), 4)] ++
    if d.op = 3 then [(addr56 r.doaddr (x * n), n), (addr56 r.dosaddr (4 * x), 4), (addr56 r.oaddr (x * n), n),
      (addr56 r.osaddr (4 * x), 4), (addr56 r.saddr (16 * x), 16)] else []

/-- The codebooks of a KV head (R216). -/
def bookRange (d : AttnDesc) (h : Nat) : List (Nat × Nat) :=
  let f := pageFmt d.fmt
  if f.ku4 || f.vu4 then [(addr56 d.cbaddr (32 * h), 32)] else []

/-- Everything that a work item reads beside its pages. -/
def Attn.inputRanges (a : Attn) (w : WorkItem) : List (Nat × Nat) :=
  let r := a.recs.getD w.record {}
  (tileRows a.desc r w.head w.tile).flatMap (fun x => rowRanges a.desc r (rowIndex a.desc x)) ++ bookRange a.desc w.head

/-- Inputs of one row. -/
def AttnDesc.perRow (d : AttnDesc) : Nat := if d.op = 3 then 7 else 2

/-! The walker (R212, R213, R215). -/

/-- The work item that a square of an attention launch works on. -/
def State.attnItem (s : State) (u : Nat) (w : WorkItem) (f : Launch → Attn → ItemState → State) : State :=
  match s.launchOn u with
  | none => s
  | some l =>
    match l.attn with
    | none => s
    | some a => if a.validItem w && !(a.item w).done then f l a (a.item w) else s

/-- The page of block `n` of a work item under RING (R229 to R231). -/
def Attn.slabPage (a : Attn) (h n : Nat) : Nat :=
  let t := n / a.perGroup
  let j := h / (pageFmt a.desc.fmt).heads * a.perGroup + n % a.perGroup
  let slab := if t = 0 then a.ringd.home else addr56 a.ringd.mySlot ((a.ringd.base + t - 1) % 2 * (a.ringd.npg * 32768))
  addr56 slab (32768 * j)

/-- Whether a page with a region of a lossy or undefined class starts there (R159, R215): the blocks of 256 bytes that hold the page's
bytes up to END are looked at, not the rest of its slot (LOG 86). -/
def pageRefused (isM : Bool) (rs : List Region) (page stop : Nat) : Bool :=
  (upto ((stop + 255) / 256)).any (fun i => let c := (localBlock isM rs (page + 256 * i)).cls; c != 0 && c != 3)

/-- Whether the raw bytes of a page are stored as they are. -/
def pageRaw (isM : Bool) (rs : List Region) (page stop : Nat) : Bool :=
  (upto ((stop + 255) / 256)).all (fun i => (localBlock isM rs (page + 256 * i)).cls == 0)

/-- Read the first `n` bytes of a page for a work item and go on with them. -/
def State.readPage (s : State) (l : Launch) (a : Attn) (u : Nat) (w : WorkItem) (g n : Nat) (f : State → List Byte → State) : State :=
  if !s.isLocal g then s.cmdRead (itemOwner l w) l u g n f
  else
    match s.readRegions u l.part with
    | .error e => s.cmdFault u e.1 (globalOf e.2) none
    | .ok rs =>
      let page := g % 2 ^ 44
      if pageRefused s.isM rs page (pageFmt a.desc.fmt).stop then s.cmdFault u ePermission g none
      else if pageRaw s.isM rs page n then s.cmdRead (itemOwner l w) l u g n f
      else
        let r := s.readBlocks u l.part rs a.mem0 ((n + 255) / 256) page []
        match r.2 with
        | .error e => r.1.cmdFault u e.1 e.2 none
        | .ok bs => f r.1 (bs.take n)

/-- Whether a page header is the one that a command expects (R209, R213). -/
def headerOk (d : AttnDesc) (g hdr : Nat) : Bool := bits hdr 24 16 == d.layer && bits hdr 40 8 == g && bits hdr 0 7 == d.fmt

/-- Read and check the header of a page; the block is then in hand. -/
def State.walkPage (s : State) (l : Launch) (a : Attn) (u : Nat) (w : WorkItem) (page : Nat) : State :=
  s.readPage l a u w page 64 (fun t bs =>
    let h := ofBytes bs
    if headerOk a.desc (w.head / (pageFmt a.desc.fmt).heads) h then
      t.itemDone l w (fun i => { i with walked := some (page, bits h 64 64, bits h 48 8) })
    else t.cmdFault u ePage page none)

/-- An entry as it stood when the command started, where this module's memory holds it. -/
def State.entryBefore (s : State) (a : Attn) (g e : Nat) : Nat :=
  match placeOf s.isM (g % 2 ^ 44) with
  | .well _ | .cistern _ | .reservoir => if s.isLocal g then ofBytes (Table.getList 0 a.mem0 (g % 2 ^ 44) 8) else e
  | _ => e

/-- Whether an entry names a page of wells or reservoir (R211, R213). -/
def State.entryValid (s : State) (e : Nat) : Bool := e.testBit 63 && inMemory s.isM (bits e 15 29 * 32768) 32768

/-- Whether the reading of a page would end the command with another code than PAGE_FAULT. -/
def State.pageFails (s : State) (l : Launch) (a : Attn) (u page : Nat) : Bool :=
  let stop := (pageFmt a.desc.fmt).stop
  match s.readRegions u l.part with
  | .error _ => false
  | .ok rs =>
    pageRefused s.isM rs page stop ||
      (match (s.readBlocks u l.part rs a.mem0 ((stop + 255) / 256) page []).2 with | .error _ => true | .ok _ => false)

/-- The entry that the walker uses: one written during the command is missed where its page would bring a fault other than PAGE_FAULT
(R214). -/
def State.entryUsed (s : State) (l : Launch) (a : Attn) (u g e : Nat) : Nat :=
  let old := s.entryBefore a g e
  if old ≠ e ∧ s.entryValid e = true ∧ s.pageFails l a u (bits e 15 29 * 32768) = true then old else e

/-- Read and check the entry of a block (R211 to R213). -/
def State.walkEntry (s : State) (l : Launch) (a : Attn) (u : Nat) (w : WorkItem) (b : Nat) : State :=
  let r := a.recs.getD w.record {}
  let ea := addr56 r.pt (8 * ((a.desc.layer * a.desc.ngrp + w.head / (pageFmt a.desc.fmt).heads) * r.nbmax + b))
  if r.nbmax ≤ b then s.cmdFault u ePage ea none
  else
    let x := s.farAccess (itemOwner l w) u l.part ea (.load 8) true { type := 2, len := 8 }
    match x.2 with
    | .wait => x.1
    | .err c lg => x.1.cmdFault u c ea lg
    | .ok bs =>
      let e := s.entryUsed l a u ea (ofBytes bs)
      if s.entryValid e then x.1.walkPage l a u w (globalOf (bits e 15 29 * 32768)) else x.1.cmdFault u ePage ea none

/-- The walker begins the next block of a work item; before the first one the rows' inputs are read. -/
def State.walkBlock (s : State) (u : Nat) (w : WorkItem) : State :=
  s.attnItem u w (fun l a i =>
    if i.walked.isSome || decide (a.available w ≤ i.next) then s
    else
      let go := fun (t : State) =>
        if a.desc.ring then t.walkPage l a u w (a.slabPage w.head i.next) else t.walkEntry l a u w ((a.blocks w).1 + i.next)
      if i.inputs = [] then s.cmdReads (itemOwner l w) l u (fun t got => go (t.modItem l.id w (fun x => { x with inputs := got }))) (a.inputRanges w) []
      else go s)

def execAttnWalkBlock (sq : SquareId) (item : WorkItem) (s : State) : Host.Outcome State Fault Refusal := .next (s.walkBlock sq.val item)

/-! Folding (R221, R222, R236). -/

/-- Whether key token t, at position p, is visible to query token i (R221). -/
def tokenVisible (d : AttnDesc) (r : SeqRec) (fill i t p : Nat) : Bool :=
  (d.ring || decide (p < r.len)) && (!d.causal || decide (p ≤ r.qpos + i)) && (!d.ring || decide (t < fill))

/-- The position of token 0 of a block (R221). -/
def Attn.firstPos (a : Attn) (w : WorkItem) (i : ItemState) : Nat :=
  if a.desc.ring then (i.walked.map (·.2.1)).getD 0 else ((a.blocks w).1 + i.next) * (pageFmt a.desc.fmt).tokens

/-- Visibility of each token of the block in hand to each row. -/
def Attn.visible (a : Attn) (w : WorkItem) (i : ItemState) : List (List Bool) :=
  let r := a.recs.getD w.record {}
  let fill := (i.walked.map (·.2.2)).getD 0
  (tileRows a.desc r w.head w.tile).map (fun x =>
    (upto (pageFmt a.desc.fmt).tokens).map (fun t => tokenVisible a.desc r fill x.1 t (a.firstPos w i + t)))

/-- A row's query. -/
def Attn.queryRow (a : Attn) (i : ItemState) (k : Nat) : QRow :=
  qrowOf (i.inputs.getD (a.desc.perRow * k) []) (i.inputs.getD (a.desc.perRow * k + 1) []) a.desc.qkscale

/-- The codebooks of a work item. -/
def Attn.books (a : Attn) (i : ItemState) : List Byte :=
  if (bookRange a.desc 0).isEmpty then [] else i.inputs.getD (i.inputs.length - 1) []

/-- The scores of a row: `none` for an invisible token; and whether one clamped. -/
def rowScores (q : QRow) (toks : List Token) (vis : List Bool) : List (Option Int) × Bool :=
  let xs := (toks.zip vis).map (fun x => if x.2 then some (scoreOf q x.1) else none)
  (xs.map (Option.map Prod.fst), xs.any (fun x => x.any Prod.snd))

/-- The visible tokens with their scores. -/
def scored (toks : List Token) (ss : List (Option Int)) : List (Token × Int) :=
  (toks.zip ss).filterMap (fun x => x.2.map (fun v => (x.1, v)))

/-- The block in hand is done. -/
def ItemState.step (i : ItemState) (rows : List RowState) : ItemState := { i with next := i.next + 1, walked := none, rows := rows }

/-- Which stored-score record a row of a block has: row number `k` of the tile (R236). -/
def Attn.scoreIndex (a : Attn) (w : WorkItem) (next k : Nat) : Nat :=
  let f := pageFmt a.desc.fmt
  let per := fun (r : SeqRec) => r.nq * a.desc.qpg * f.heads
  let base := (a.recs.take w.record).foldl (fun n r => n + per r) 0
  let nr := a.recs.foldl (fun n r => n + per r) 0
  let rr := 32 * w.tile + k
  let row := base + (rr / a.desc.qpg * f.heads + w.head % f.heads) * a.desc.qpg + rr % a.desc.qpg
  let j := w.head / f.heads * a.perGroup + next % a.perGroup
  (next / a.perGroup * a.ringd.npg + j) * nr + row

/-- Where the stored-score record of a row lies (R236). -/
def Attn.scoreAddr (a : Attn) (w : WorkItem) (next k : Nat) : Nat :=
  addr56 a.desc.scaddr ((32 + (pageFmt a.desc.fmt).tokens) * a.scoreIndex w next k)

/-- Write the stored-score records of a block's rows, when the command stores them (R236). -/
def State.storeScores (s : State) (l : Launch) (a : Attn) (u : Nat) (w : WorkItem) (next : Nat) (ss : List (List (Option Int))) : State :=
  if !a.desc.scores then s
  else
    (ss.zipIdx).foldl (fun t x =>
      if (t.sq u).run = .running then
        let r := scoreRecord x.1 (Config.emptyScore (a.item w).inputs (2 * a.scoreIndex w next x.2))
          (Config.emptyScore (a.item w).inputs (2 * a.scoreIndex w next x.2 + 1))
        (t.cmdSat u r.2).cmdWrite l u (a.scoreAddr w next x.2) r.1
      else t) s

/-- Fold the block in hand into the rows of a work item (R222). -/
def State.foldItem (s : State) (u : Nat) (w : WorkItem) : State :=
  s.attnItem u w (fun l a i =>
    match i.walked with
    | none => s
    | some b =>
      let f := pageFmt a.desc.fmt
      let vis := a.visible w i
      if a.desc.op ≠ 0 ∧ a.desc.op ≠ 1 then s
      else if vis.all (fun r => r.all (!·)) then
        (s.storeScores l a u w i.next (vis.map (fun r => r.map (fun _ => none)))).itemDone l w (fun x => x.step x.rows)
      else
        s.readPage l a u w b.1 f.stop (fun t page =>
          let toks := f.tokensOf page (a.books i) (w.head % f.heads) (a.firstPos w i)
          let out := (vis.zipIdx).map (fun v =>
            let q := a.queryRow i v.2
            let ss := rowScores q toks v.1
            let r := foldBlock (i.row v.2 f.dim) (scored toks ss.1) a.desc.ogrid
            (r.1, ss.1, (v.1.any id && (q.sat || ss.2)) || r.2))
          let t1 := t.storeScores l a u w i.next (out.map (fun o => o.2.1))
          (t1.cmdSat u (out.any (fun o => o.2.2))).itemDone l w (fun x => x.step (out.map Prod.fst))))

def execAttnFold (sq : SquareId) (item : WorkItem) (s : State) : Host.Outcome State Fault Refusal := .next (s.foldItem sq.val item)

/-! Merging (R223). -/

/-- The part `p` of the rows that a work item covers. -/
def partItem (w : WorkItem) (p : Nat) : WorkItem := { w with part := p }

/-- Whether a part of a row tile has folded all its blocks. -/
def Attn.partFolded (a : Attn) (w : WorkItem) : Bool := decide ((a.item w).next = (a.blocks w).2)

/-- Whether every part of a row tile has. -/
def Attn.allFolded (a : Attn) (w : WorkItem) : Bool := (upto a.desc.parts).all (fun p => a.partFolded (partItem w p))

/-- The parts of each row of a tile, merged in ascending order. -/
def Attn.mergedRows (a : Attn) (w : WorkItem) : List (RowState × Bool) :=
  let d := (pageFmt a.desc.fmt).dim
  (upto (tileRows a.desc (a.recs.getD w.record {}) w.head w.tile).length).map (fun k =>
    mergeAll ((upto a.desc.parts).map (fun p => (a.item (partItem w p)).row k d)))

/-- Set the merged rows of a tile: the other parts are done. -/
def State.setMerged (s : State) (l : Launch) (a : Attn) (u : Nat) (w : WorkItem) (rows : List (RowState × Bool)) : State :=
  ((upto (a.desc.parts - 1)).foldl (fun t p => t.modItem l.id (partItem w (p + 1)) (fun i => { i with done := true }))
    ((s.cmdSat u (rows.any Prod.snd)).itemDone l w (fun i => { i with rows := rows.map Prod.fst, merged := true })))

/-- The state arrays of each row of a tile that MERGE reads (R218). -/
def Attn.arrayRanges (a : Attn) (w : WorkItem) : List (Nat × Nat) :=
  let d := a.desc
  let r := a.recs.getD w.record {}
  let n := stateSize (pageFmt d.fmt).dim
  (tileRows d r w.head w.tile).flatMap (fun x =>
    (upto d.split).map (fun k => (addr56 r.saddr (k * (r.nq * d.nqh * n) + n * rowIndex d x), n)))

/-- Combine the parts of a row tile, or the state arrays of MERGE. -/
def State.mergeItem (s : State) (u : Nat) (w : WorkItem) : State :=
  s.attnItem u w (fun l a i =>
    if i.merged || w.part != 0 then s
    else if a.desc.op = 2 then
      s.cmdReads (itemOwner l w) l u (fun t got =>
        let d := (pageFmt a.desc.fmt).dim
        let n := a.desc.split
        t.setMerged l a u w ((upto (got.length / n)).map (fun k =>
          mergeAll (((got.drop (k * n)).take n).map (fun bs => stateOf bs d))))) (a.arrayRanges w) []
    else if a.desc.op < 2 && decide (1 < a.desc.parts) && a.allFolded w then s.setMerged l a u w (a.mergedRows w)
    else s)

def execAttnMerge (sq : SquareId) (item : WorkItem) (s : State) : Host.Outcome State Fault Refusal := .next (s.mergeItem sq.val item)

/-! Finishing (R224, R235, R238). -/

/-- Bytes of i8 codes. -/
def codeBytes (cs : List Int) : List Byte := cs.map (fun c => BitVec.ofInt 8 c)

/-- What a row of a finished work item writes, and whether that saturated (R218, R224, R235). -/
def Attn.rowOut (a : Attn) (r : SeqRec) (i : ItemState) (k x : Nat) : List (Nat × List Byte) × Bool :=
  let d := a.desc
  let n := (pageFmt d.fmt).dim
  let st := i.row k n
  match d.op with
  | 1 => ([(addr56 r.saddr (stateSize n * x), stateBytes st)], false)
  | 3 => ([(addr56 r.dqaddr (4 * (x * n)), ((i.dq.getD k (List.replicate n 0)).flatMap (fun v => toBytes 4 (pattern 32 (satI32 v)))))], false)
  | _ =>
    let o := finishRow st d.ogrid
    ([(addr56 r.oaddr (x * n), codeBytes o.1), (addr56 r.osaddr (4 * x), toBytes 4 o.2.1.toWord.toNat)] ++
      (if d.stats then [(addr56 r.saddr (16 * x), statBytes st)] else []), o.2.2)

/-- Whether the rows of a work item may be written. -/
def Attn.rowsReady (a : Attn) (w : WorkItem) (i : ItemState) : Bool :=
  w.part == 0 && (i.merged || (a.desc.op != 2 && a.desc.parts == 1 && a.partFolded w))

/-- Write the rows of a work item, each wholly or not at all. -/
def State.finishItem (s : State) (u : Nat) (w : WorkItem) : State :=
  s.attnItem u w (fun l a i =>
    if !a.rowsReady w i || !s.roomFor 96 then s
    else
      let r := a.recs.getD w.record {}
      let t := ((tileRows a.desc r w.head w.tile).zipIdx).foldl (fun (t : State) x =>
        if (t.sq u).run = .running then
          let o := a.rowOut r i x.2 (rowIndex a.desc x.1)
          (t.cmdSat u o.2).cmdWrites l u o.1
        else t) s
      if (t.sq u).run = .running then t.modItem l.id w (fun x => { x with done := true }) else t)

def execAttnFinish (sq : SquareId) (item : WorkItem) (s : State) : Host.Outcome State Fault Refusal := .next (s.finishItem sq.val item)

/-! The backward pass (R234 to R236). -/

/-- A row of the backward pass from its inputs. -/
def Attn.backRow (a : Attn) (i : ItemState) (k : Nat) : BRow :=
  let x := fun j => i.inputs.getD (7 * k + j) []
  ⟨a.queryRow i k, i8s (x 2), scaleAt (x 3) 0, i8s (x 4), scaleAt (x 5) 0, signed 32 (ofBytes (slice (x 6) 0 4)), ofBytes (slice (x 6) 8 8)⟩

/-- The scores that a block of the backward pass uses: recomputed, read from the stored-score area, or free where the
manual gives no stored record (SSRC without RING). -/
def State.backScores (s : State) (l : Launch) (a : Attn) (u : Nat) (w : WorkItem) (i : ItemState) (toks : List Token) (vis : List (List Bool))
    (f : State → List (List (Option Int)) → Bool → State) : State :=
  if !a.desc.ssrc then
    let xs := (vis.zipIdx).map (fun v =>
      let q := a.queryRow i v.2
      let r := rowScores q toks v.1
      (r.1, v.1.any id && (q.sat || r.2)))
    f s (xs.map Prod.fst) (xs.any Prod.snd)
  else if a.desc.ring then
    s.cmdReads (itemOwner l w) l u (fun t got =>
      f t ((vis.zip got).map (fun v => (v.1.zipIdx).map (fun b => if b.1 then some (storedScore v.2 b.2) else none))) false)
      ((upto vis.length).map (fun k => (a.scoreAddr w i.next k, 32 + (pageFmt a.desc.fmt).tokens))) []
  else
    let n := (pageFmt a.desc.fmt).tokens * ((a.blocks w).1 + i.next) * 32
    f s ((vis.zipIdx).map (fun v => (v.1.zipIdx).map (fun b =>
      if b.1 then some (signed 32 (Config.unstoredScore i.inputs (n + 32 * b.2 + v.2) % 2 ^ 32)) else none))) false

/-- Where the gradients of token 0 of the block in hand lie: areas of dK and dV with the element index of dimension 0
(R218, R235). -/
def State.gradBase (s : State) (l : Launch) (a : Attn) (u : Nat) (w : WorkItem) (i : ItemState) (f : State → Nat → Nat → Nat → State) : State :=
  let g := pageFmt a.desc.fmt
  let r := a.recs.getD w.record {}
  if a.desc.ring then
    let t := i.next / a.perGroup
    let n := (a.ringd.pos + a.ringd.n - t) % a.ringd.n
    let j := w.head / g.heads * a.perGroup + i.next % a.perGroup
    s.cmdRead (itemOwner l w) l u (addr56 a.ringd.gtab (16 * n)) 16 (fun x bs =>
      f x (ofBytes (slice bs 0 8) % 2 ^ 56) (ofBytes (slice bs 8 8) % 2 ^ 56) ((j * g.heads + w.head % g.heads) * g.tokens * g.dim))
  else f s r.dkaddr r.dvaddr ((w.head * r.nbmax * g.tokens + a.firstPos w i) * g.dim)

/-- The atomic adds of one token's gradients. -/
def gradAdds (base idx : Nat) (xs : List Int) : List (Nat × Nat) :=
  (xs.zipIdx).map (fun x => (addr56 base (8 * (idx + x.2)), pattern 64 x.1))

/-- Whether the block in hand has the room for its atomics on the links. -/
def Attn.adds (a : Attn) : Nat := 2 * (pageFmt a.desc.fmt).tokens * (pageFmt a.desc.fmt).dim

/-- The contributions of a block of a work item: for each token that a row sees its dV and dK terms, for each row its dQ
terms, and whether anything clamped. -/
structure BackSums where
  perTok : List (Nat × List Int × List Int × Bool)
  perRow : List (List Int × Bool)
  sat : Bool
deriving DecidableEq, Repr

/-- The contributions of a block whose tokens and scores are known (R234, R235). -/
def Attn.backSums (a : Attn) (i : ItemState) (toks : List Token) (ss : List (List (Option Int))) : BackSums :=
  let d := a.desc
  let n := (pageFmt d.fmt).dim
  let rows := (upto ss.length).map (a.backRow i)
  let gr := (rows.zip ss).map (fun x => (x.1, (toks.zip x.2).map (fun y => y.2.map (fun v => gradOf x.1 y.1 v d.eds))))
  let perTok := (toks.zipIdx).filterMap (fun x =>
    let col := gr.map (fun r => (r.1, (r.2.getD x.2 none).map (fun g => (⟨g.1, g.2.1⟩ : Grad))))
    if col.any (fun c => c.2.isSome) then some (x.2, tokenGrads col n d.gscale d.eds d.ek d.ev) else none)
  let perRow := gr.map (fun r => rowGrad ((toks.zip r.2).filterMap (fun y => y.2.map (fun g => (y.1, g.2.1)))) n d.gscale d.eds d.eq)
  ⟨perTok, perRow, gr.any (fun r => r.2.any (fun g => g.any (fun x => x.2.2))) || perTok.any (fun p => p.2.2.2) || perRow.any Prod.snd⟩

/-- The atomic adds of a block: areas of dV and dK with the element index of token 0. -/
def BackSums.adds (b : BackSums) (dk dv idx n : Nat) : List (Nat × Nat) :=
  b.perTok.flatMap (fun p => gradAdds dv (idx + p.1 * n) p.2.1 ++ gradAdds dk (idx + p.1 * n) p.2.2.1)

/-- The dQ sums of a work item after a block. -/
def BackSums.addRows (b : BackSums) (n : Nat) (dq : List (List Int)) : List (List Int) :=
  (b.perRow.zipIdx).map (fun p => ((dq.getD p.2 (List.replicate n 0)).zip p.1.1).map (fun y => wrap64 (y.1 + y.2)))

/-- Add the contributions of a block: those of the tokens to memory, those of the rows to the work item. -/
def State.addGrads (s : State) (l : Launch) (a : Attn) (u : Nat) (w : WorkItem) (i : ItemState) (toks : List Token) (ss : List (List (Option Int)))
    (sat : Bool) : State :=
  s.gradBase l a u w i (fun t dk dv idx =>
    let n := (pageFmt a.desc.fmt).dim
    let b := a.backSums i toks ss
    let t1 := (t.cmdAdds l u (b.adds dk dv idx n)).cmdSat u (sat || b.sat)
    if (t1.sq u).run = .running then
      t1.itemDone l w (fun x => { x with next := x.next + 1, walked := none, dq := b.addRows n x.dq })
    else t1)

/-- The backward pass of the block in hand. -/
def State.backItem (s : State) (u : Nat) (w : WorkItem) : State :=
  s.attnItem u w (fun l a i =>
    match i.walked with
    | none => s
    | some b =>
      let f := pageFmt a.desc.fmt
      let vis := a.visible w i
      if a.desc.op ≠ 3 then s
      else if vis.all (fun r => r.all (!·)) then s.modItem l.id w (fun x => { x with next := x.next + 1, walked := none })
      else if !s.roomFor a.adds then s
      else
        s.readPage l a u w b.1 f.stop (fun t page =>
          let toks := f.tokensOf page (a.books i) (w.head % f.heads) (a.firstPos w i)
          t.backScores l a u w i toks vis (fun t2 ss sat => t2.addGrads l a u w i toks ss sat)))

def execBwdAccumulate (sq : SquareId) (item : WorkItem) (s : State) : Host.Outcome State Fault Refusal := .next (s.backItem sq.val item)

/-! The ring (R229 to R233). -/

/-- The lead square of a launch (R219). -/
def Launch.lead (l : Launch) : Nat := l.set.foldl min (l.set.headD 0)

/-- A ring command that runs on its lead square. -/
def State.ringOf (s : State) (id : Nat) (f : Launch → Attn → Nat → State) : State :=
  match s.launch id with
  | none => s
  | some l =>
    match l.attn with
    | none => s
    | some a =>
      if a.desc.ring && s.active l.lead && (s.sq l.lead).launch == id && l.stage == .running then f l a l.lead else s

/-- Change the ring state of a launch. -/
def State.modRing (s : State) (id : Nat) (f : RingState → RingState) : State :=
  s.modLaunch id (fun l => { l with attn := l.attn.map (fun a => { a with ring := f a.ring }) })

/-- Counters DCNT and FCNT of a member (R229). -/
def State.dcnt (s : State) (a : Attn) (u : Nat) : Nat := (s.squareCounter u a.desc.cbase).toNat
def State.fcnt (s : State) (a : Attn) (u : Nat) : Nat := (s.squareCounter u (a.desc.cbase + 1)).toNat

/-- The descriptor of the forward at step t (R231, R232). It writes a remote slot under class RAW (LOG 86). -/
def Attn.forward (a : Attn) (t ticket : Nat) : Desc :=
  let r := a.ringd
  let slot := r.npg * 32768
  { ticket := ticket, sig := true, sigsz := 1, rows := r.npg, rowbytes := ((pageFmt a.desc.fmt).stop + 31) / 32 * 32
    src := if t = 0 then r.home else addr56 r.mySlot ((r.base + t - 1) % 2 * slot)
    dst := addr56 r.nextSlot ((r.base + t) % 2 * slot)
    sstride := 32768, dstride := 32768, sigval := 1, sigaddr := r.nextC }

/-- A wait of the protocol finds bit 63 set: the member ends with ABORTED (R233). -/
def State.ringAbort (s : State) (id u c poison : Nat) : State :=
  (s.faultLogged u eAborted 0 (globalOf (squareCounterAddr u c))).modRing id (fun r => { r with poisonFrom := poison })

/-- The slab of a step is in hand, with the ticket of its forward; the pages of the slab are there as they stand now (R214, R231). -/
def State.takeSlab (s : State) (id ticket : Nat) : State :=
  s.modLaunch id (fun l => { l with attn := l.attn.map (fun a => { a with ring := { a.ring with have_ := true, ticket := ticket }, mem0 := s.mem }) })

/-- The slab of the next step is in hand, and its forward is queued (R231). -/
def State.ringForward (s : State) (id : Nat) (a : Attn) (u t : Nat) : State :=
  let s1 := if t = 0 then s else s.acquire u 3
  if t + 2 ≤ a.ringd.n then
    let k := (s1.sq u).pump.lastTicket + 1
    (s1.modSq u (fun q => { q with pump := { q.pump with lastTicket := k, queue := q.pump.queue ++ [a.forward t k] } })).takeSlab id k
  else s1.takeSlab id 0

/-- The next step of the protocol, once its waits are met. -/
def State.ringStep (s : State) (id : Nat) : State :=
  s.ringOf id (fun _ a u =>
    let t := a.ring.step
    let d := s.dcnt a u
    let f := s.fcnt a u
    let k := a.ringd.base + t
    if a.ring.have_ || decide (a.ringd.n ≤ t) then s
    else if t ≠ 0 ∧ d < k then s
    else if t ≠ 0 ∧ d.testBit 63 = true then s.ringAbort id u a.desc.cbase 1
    else if t + 2 ≤ a.ringd.n ∧ 2 ≤ k ∧ f < k - 1 then s
    else if t + 2 ≤ a.ringd.n ∧ 2 ≤ k ∧ f.testBit 63 = true then s.ringAbort id u (a.desc.cbase + 1) 2
    else s.ringForward id a u t)

def execRingStep (launch : Nat) (s : State) : Host.Outcome State Fault Refusal := .next (s.ringStep launch)

/-- Whether every work item has folded the slab of the step. -/
def Attn.slabFolded (a : Attn) : Bool :=
  a.perGroup == 0 || (a.items.filter (fun e => decide ((a.ring.step + 1) * a.perGroup ≤ e.2.next))).length == a.itemCount

/-- The end of a step: the predecessor is credited (R231). -/
def State.ringCredit (s : State) (id : Nat) : State :=
  s.ringOf id (fun l a u =>
    if !a.ring.have_ || !a.slabFolded || decide ((s.sq u).pump.lastDone < a.ring.ticket) || !s.roomFor 1 then s
    else
      let t := if a.ring.step = 0 then s else s.cmdAdd l u a.ringd.prevC 1
      if (t.sq u).run = .running then t.modRing id (fun r => { r with step := r.step + 1, have_ := false }) else t)

def execRingCredit (launch : Nat) (s : State) : Host.Outcome State Fault Refusal := .next (s.ringCredit launch)

/-- Whether a command faults or is stopped. -/
def State.launchStopping (s : State) (l : Launch) : Bool :=
  l.aborted || s.launchFaulted l || l.set.any (fun u => (s.sq u).launch == l.id && (s.sq u).run == .stopped) || l.reports.any (·.stopped)

/-- Whether a launch still owes its neighbours the poison of R233. -/
def State.poisonDue (s : State) (l : Launch) : Bool :=
  l.attn.any (fun a => a.desc.ring && !a.ring.poisoned) && s.launchStopping l && l.stage == .running

/-- A member that faults or is stopped poisons its neighbours, but not the one the poison came from (R233). -/
def State.ringPoison (s : State) (id : Nat) : State :=
  match s.launch id with
  | none => s
  | some l =>
    match l.attn with
    | none => s
    | some a =>
      if !s.poisonDue l || s.stop.stopped || !s.roomFor 2 then s
      else
        let s1 := if a.ring.poisonFrom = 2 then s else s.tailAdd l l.lead a.ringd.nextC (2 ^ 63)
        let s2 := if a.ring.poisonFrom = 1 then s1 else s1.tailAdd l l.lead a.ringd.prevC (2 ^ 63)
        s2.modRing id (fun r => { r with poisoned := true })

def execRingPoison (launch : Nat) (s : State) : Host.Outcome State Fault Refusal := .next (s.ringPoison launch)

end Sys2Proof.Machine
end

