-- ==== Sys2Proof/Machine/BootUnit.lean ====
section
/-! DEFINITION. The commands of the boot mailbox and their end (16). -/

namespace Sys2Proof.Machine

/-- A mailbox command of partition p (R484, R486): nothing unless it is the running one; PERMISSION for a partition or a
phase that may not run it; a supply-loss stop abandons it. -/
def State.mailboxRun (s : State) (p op : Nat) (denied : Bool) (f : Nat → Nat → State × Nat) : State :=
  if !s.mailboxAt p op || decide (s.power.stoppedFor ≠ 0) then s
  else if denied then s.mailboxOutcome ePermission
  else
    let m := (s.part p).mbox
    let r := f m.runArg0.toNat m.runArg1.toNat
    r.1.mailboxOutcome r.2

def execFerase (p : PartId) (s : State) : Host.Outcome State Fault Refusal :=
  .next (s.mailboxRun p.val 1 (s.mailboxDenied p.val true) s.mbErase)

def execFwrite (p : PartId) (s : State) : Host.Outcome State Fault Refusal :=
  .next (s.mailboxRun p.val 2 (s.mailboxDenied p.val true) s.mbWrite)

def execFread (p : PartId) (s : State) : Host.Outcome State Fault Refusal :=
  .next (s.mailboxRun p.val 3 (s.mailboxDenied p.val true) s.mbRead)

def execCommit (p : PartId) (s : State) : Host.Outcome State Fault Refusal :=
  .next (s.mailboxRun p.val 4 (s.mailboxDenied p.val false) (fun _ _ => (s.mbCommit, eOk)))

/-- Any partition may ask for a report, but not in recovery (R484). -/
def execAttest (p : PartId) (s : State) : Host.Outcome State Fault Refusal :=
  .next (s.mailboxRun p.val 5 (s.boot.phase == 4) (fun a _ => s.mbAttest p.val a))

def execKeyload (p : PartId) (s : State) : Host.Outcome State Fault Refusal :=
  .next (s.mailboxRun p.val 6 (s.mailboxDenied p.val false) s.mbKeyload)

def execKeyclear (p : PartId) (s : State) : Host.Outcome State Fault Refusal :=
  .next (s.mailboxRun p.val 7 (s.mailboxDenied p.val false) (fun slot _ => s.mbKeyclear slot))

/-- REBOOT starts a cold reset. -/
def execReboot (p : PartId) (s : State) : Host.Outcome State Fault Refusal :=
  .next (if s.mailboxAt p.val 8 && decide (s.power.stoppedFor = 0) then
      (if s.mailboxDenied p.val true then s.mailboxOutcome ePermission else s.restart 2)
    else s)

/-- The running command ends; one with an undefined OP ends with ILLEGAL_INSTRUCTION (R484, R486). -/
def State.mailboxDone (s : State) : State :=
  match s.boot.running with
  | none => s
  | some p =>
    if s.boot.executed then s.endMailbox p s.boot.outcome
    else if outside 1 8 (s.part p).mbox.runOp then s.endMailbox p eIllegal
    else s

def execMailboxCommandDone (s : State) : Host.Outcome State Fault Refusal := .next s.mailboxDone

end Sys2Proof.Machine
end

