-- ==== Sys2Proof/Machine/FountainUnit.lean ====
section
/-! DEFINITION. FN instructions (R128, R187 to R201, R206, R565), and the module-wide reload and self-test (R198, R205). -/

namespace Sys2Proof.Machine

/-! Fields (R128). -/

def fnSA (w : Nat) : Nat := bits w 34 5
def fnSB (w : Nat) : Nat := bits w 39 5
def fnWC (w : Nat) : Nat := bits w 44 3
def fnNReg (w : Nat) : Nat := bits w 47 7
def fnM (w : Nat) : Bool := w.testBit 54

abbrev fnStream : List (Nat × Nat) := [(34, 5), (39, 5)]

/-- The new seed of FN.SEED: in per-lane mode every lane restarts, in positioned mode the lane states stay (R189). -/
def Fountain.newSeed (f : Fountain) (seed : Nat) : Fountain :=
  if f.mode = 1 then f.reseed seed
  else
    let g : Fountain := { f with seed := BitVec.ofNat 128 seed, lanes := [] }
    (upto 512).foldl (fun h l => h.setLane l (f.lane l)) g

/-- What an FN instruction finds of its fountain's parity (R199, R200): the fountain afterwards when it faults. In per-lane mode the failing
lanes restart; in positioned mode no state outlives the instruction, and the lane states that the fountain keeps are not read. -/
def Fountain.parityFault (f : Fountain) (draw : Bool) : Option Fountain :=
  if f.mode = 0 ∧ f.jready = false then some f
  else if f.mode = 0 ∧ f.badJump = true then some { f with jready := false }
  else if f.mode = 0 ∧ f.badStep = true then some { f with badStep := false }
  else if f.mode ≠ 0 ∧ f.badLane ≠ [] then some f.restartBad
  else if draw ∧ f.badExp2 = true then some f
  else none

/-- An FN instruction (R189, R206): `form` is order 1 of R140; a positioned instruction waits while a reload runs. -/
def State.fnIssue (s : State) (u op : Nat) (form : Nat → Bool) (usesState draw : Bool) (f : Nat → State) : State :=
  s.issue u 4 op (fun w =>
    let q := s.sq u
    let positioned := usesState && q.ftn.mode == 0
    if !form w then s.faultHere u eIllegal
    else if !(q.regsReady (if positioned || !usesState then [fnSA w, fnSB w] else [])) then s
    else if positioned && decide (2 ^ 32 ≤ (q.sreg (fnSA w)).toNat) then s.faultHere u eIllegal
    else if positioned && s.ftnG.busy && decide (s.ftnG.job % 2 = 1) then s
    else
      match (if usesState then q.ftn.parityFault draw else none) with
      | some g => (s.faultHere u eParity).modSq u (fun q => { q with ftn := g })
      | none => ((f w).count u 5 1).advance u)

/-- The 512 lane words of an instruction and the fountain afterwards (R187, R197). -/
def Square.fnWords (q : Square) (w n : Nat) : List Nat × Fountain :=
  if q.ftn.mode = 0 then (positionedWords q.ftn.seed.toNat (q.sreg (fnSA w)).toNat (q.sreg (fnSB w)).toNat n, q.ftn)
  else q.ftn.stepLanes

/-- FN.SEED writes no vector register, and its VD may hold any number (LOG 52). -/
def execFnSeed (sq : SquareId) (s : State) : Host.Outcome State Fault Refusal :=
  .next (s.fnIssue sq.val 0x00 (fun w => onlyFields w ((10, 6) :: fnStream)) false false (fun w =>
    s.modSq sq.val (fun q => { q with ftn := q.ftn.newSeed ((q.sreg (fnSB w)).toNat * 2 ^ 64 + (q.sreg (fnSA w)).toNat) })))

/-- A lane-wise FN instruction: one lane value for each word (R189). -/
def State.fnLanes (s : State) (u op : Nat) (form : Nat → Bool) (f : Nat → Nat → Word) : State :=
  s.fnIssue u op form true false (fun w =>
    s.modSq u (fun q =>
      let r := q.fnWords w 512
      ({ q with ftn := r.2 }).setLanes (vxVD w) (r.1.map (f w))))

def execFnUni (sq : SquareId) (s : State) : Host.Outcome State Fault Refusal :=
  .next (s.fnLanes sq.val 0x01 (fun w => onlyFields w (fVD :: fnStream)) (fun _ x => BitVec.ofNat 32 x))

/-- The keep mask of one word (R189). -/
def maskWord (imm x : Nat) : Word := boolLane (decide (x < imm) || decide (imm = 0xFFFFFFFF))

def execFnMask (sq : SquareId) (s : State) : Host.Outcome State Fault Refusal :=
  .next (s.fnLanes sq.val 0x02 (fun w => onlyFields w (fVD :: fImm :: fnStream)) (fun w x => maskWord (bits w 96 32) x))

/-- A bounded uniform integer (R189). -/
def initWord (b x : Nat) : Word := ofI32 (((x * (2 * b + 1)) / 2 ^ 32 : Nat) - (b : Int))

def execFnInit (sq : SquareId) (s : State) : Host.Outcome State Fault Refusal :=
  .next (s.fnLanes sq.val 0x03 (fun w => onlyFields w (fVD :: fImm :: fnStream) && decide (bits w 96 32 < 2 ^ 31))
    (fun w x => initWord (bits w 96 32) x))

/-- The first index at which the running sum exceeds `t` (R191). -/
def pickIndex (t : Int) : List Int → Int → Nat → Int
  | [], _, _ => -1
  | x :: r, c, j => if t < c + x then j else pickIndex t r (c + x) (j + 1)

/-- The first allowed index that holds the maximum (R191). -/
def firstMax (mx : Int) : List (Int × Bool) → Nat → Int
  | [], _ => -1
  | e :: r, j => if e.2 ∧ e.1 = mx then j else firstMax mx r (j + 1)

/-- `draw` of one row (R191): scores with what the mask allows, the temperature and the uniform word. -/
def drawRow (xs : List (Int × Bool)) (tau : Scale) (u : Nat) : Int :=
  match (xs.filter (·.2)).map Prod.fst with
  | [] => -1
  | a :: r =>
    let mx := r.foldl max a
    if tau.m = 0 then firstMax mx xs 0
    else
      let wt := xs.map (fun e => if e.2 then exp2 (max (shiftAny ((e.1 - mx) * (tau.m : Nat)) (-(tau.e + 1))) (-2147483647)) else 0)
      pickIndex (asr (u * sumI wt) 32) wt 0 0

/-- FN.DRAW's form (R128, R206). -/
def drawForm (w : Nat) : Bool :=
  onlyFields w (fVD :: fVA :: (22, 6) :: fVC :: (44, 3) :: (47, 7) :: (54, 1) :: fnStream) &&
  rowOk (vxVA w) (fnWC w) (fnNReg w) && (if fnM w then decide (vxVC w + fnNReg w ≤ 64) else vxVC w == 0)

/-- FN.DRAW (R191). A score, mask or temperature lane that fails parity in the vector registers is read as it is: no cause of R206 names
it (the model's choice, LOG 74). -/
def execFnDraw (sq : SquareId) (s : State) : Host.Outcome State Fault Refusal :=
  .next (s.fnIssue sq.val 0x04 drawForm true true (fun w =>
    s.modSq sq.val (fun q =>
      let n := rowWidth (fnWC w)
      let us := q.fnWords w (512 / n)
      let scores := q.rowsOf (vxVA w) (fnWC w) (fnNReg w)
      let masks := q.rowsOf (vxVC w) (fnWC w) (fnNReg w)
      let one := fun (g : Nat) =>
        let xs := (scores.getD g []).zip (masks.getD g [])
        ofI32 (drawRow (xs.map (fun e => (sint e.1, !fnM w || decide (e.2 ≠ 0)))) (Scale.ofWord (q.lane (vxVB w) (g * n)))
          (us.1.getD (if q.ftn.mode = 0 then g else g * n) 0))
      ({ q with ftn := us.2 }).setLanes (vxVD w) (spreadRows (fnWC w) ((upto (512 / n)).map one)))))

/-! The end of a reload or self-test. -/

/-- The reload of R205: read the parameters as an access of Partition 0, then check them in every fountain; the code, or nothing while
the host's answer is awaited (R533). A source on another module ends it with ADDR_UNMAPPED and no request, and an error response
leaves JREADY and FTN_STFAIL as they were: the manual says neither (LOG 74). -/
def State.reloadParams (s : State) : State × Option Nat :=
  let g := s.ftnG.jsrc
  if !s.isLocal g then (s.logErr unitBsc 0 eUnmapped g, some eUnmapped)
  else
    let r := s.readFar .bsc unitBsc 0 g 2048
    match r.2 with
    | .wait => (r.1, none)
    | .err c lg => (if lg.isSome then r.1 else r.1.logErr unitBsc 0 c g, some c)
    | .ok bs =>
      let good := jumpParamsOk 128 (2 ^ 32) bs
      (r.1.setChecked (fun _ => good) true, some (if good then eOk else eIllegal))

/-- The end of a reload or self-test: the reload first (R205). -/
def State.endFountainJob (s : State) : State :=
  let r := if s.ftnG.job % 2 = 1 then s.reloadParams else (s, some s.ftnG.err)
  match r.2 with
  | none => r.1
  | some c =>
    let t := (if 2 ≤ s.ftnG.job then r.1.setChecked selfTested false else r.1).forgetFar .bsc
    { t with ftnG := { t.ftnG with err := c, done := true, busy := false, job := 0 } }

def execFtnReloadDone (s : State) : Host.Outcome State Fault Refusal :=
  .next (if s.ftnG.busy then s.endFountainJob else s)

end Sys2Proof.Machine
end

