-- ==== Sys2Proof/Machine/HallUnit.lean ====
section
/-! DEFINITION. The dispatch hall (12): fetching entries, the dispatch instructions, completion, sealed ranges and
handles, and the destruction of queues. -/

namespace Sys2Proof.Machine

/-! Hall time and contexts. -/

/-- Change the context of a queue. -/
def State.modCtx (s : State) (q : Nat) (f : Ctx → Ctx) : State := s.modQueue q (fun x => { x with ctx := x.ctx.map f })

/-- A hall register; h0 reads 0 (R335). -/
def Ctx.reg (c : Ctx) (r : Nat) : Reg64 := if r = 0 then 0 else Table.get 0 c.regs r

/-- Write a hall register; h0 discards it (R335). -/
def Ctx.setReg (c : Ctx) (r : Nat) (v : Reg64) : Ctx := if r = 0 then c else { c with regs := Table.set 0 c.regs r v }

/-- What ends an entry. The first cause counts; a launch that fails while DSP.DONE waits is one (R357, R358). -/
def Ctx.endWith (c : Ctx) (code src stx addr : Nat) : Ctx :=
  if c.block = .ended ∧ (c.endSrc ≠ 0 ∨ c.doneStep ≠ 0) then c else { c with block := .ended, endCode := code, endSrc := src, endStx := stx, endAddr := addr }

/-- A hall fault: one record, and the entry ends, naming the instruction if one is concerned (R334, R339, R358). `logged` says
that the record exists already. -/
def State.hallFault (s : State) (q code addr : Nat) (insn : Option Nat) (logged : Bool) : State :=
  let t := if logged then s else s.logErr unitHall (s.queue q).part code addr (.hall q)
  t.modCtx q (fun c => c.endWith code 2 0 ((insn.map s.recordAddr).getD 0))

/-! Which context the hall works on (R336, R337, R377, R378). -/

/-- Whether every launch of a list has ended. -/
def State.launchesEnded (s : State) (ids : List Nat) : Bool :=
  ids.all (fun i => (s.launch i).all (fun l => l.stage == .ended))

/-- Whether the hall may work on a queue now: not in a stop, not in a reset of its partition, and only in service, since a module
that leaves Dormant starts its queues at the end (R385, R462, R515). -/
def State.hallFree (s : State) (q : Nat) : Bool :=
  (s.queue q).state == 2 && !s.stop.stopped && s.power.state == 0 && !(s.part (s.queue q).part).reset.resetting

/-- Whether what blocks a context is over, but for a counter and a synchronous launch, whose commands unblock it. -/
def State.unblocked (s : State) (q : Nat) (b : Block) : Bool :=
  match b with
  | .ready => true
  | .wait _ _ _ _ => false
  | .launch _ => false
  | .ends ids => s.launchesEnded ids
  | .answer => !s.farPending (.hall q)
  | .release => !s.hallAwaits
  | .ended => false

/-- Whether a queue has something for the hall to do: an entry to fetch, or a ready context (R337). -/
def State.queueReady (s : State) (q : Nat) : Bool :=
  s.hallFree q &&
  match (s.queue q).ctx with
  | none => (s.queue q).en && decide ((s.queue q).head < (s.queue q).tail) && !s.farPending (.hall q)
  | some c => s.unblocked q c.block

/-- The ready queues, in ascending order. -/
def State.readyQueues (s : State) : List Nat := (s.queues.map Prod.fst).filter s.queueReady

/-- The partition of a queue, for the arbitration. -/
def State.partOf (s : State) (q : Nat) : Nat := (s.queue q).part

/-- The ready queue of a partition whose turn it is: the first one in round-robin order from the last one served (R337). -/
def State.roundRobin (s : State) (rs : List Nat) (p : Nat) : Option Nat :=
  let mine := rs.filter (fun q => s.partOf q == p)
  let n := Table.get 0 s.hall.next p
  (mine.filter (fun q => decide (n ≤ q)) ++ mine.filter (fun q => decide (q < n))).head?

/-- When the turn of a ready queue began to wait. -/
def State.readySince (s : State) (q : Nat) : Nat :=
  let v := Table.get 0 s.hall.since q
  if v = 0 then s.time else v - 1

/-- The queue of a list that has been ready longest; of equal ones that of the lowest partition (R377). -/
def State.longestReady (s : State) (rs : List Nat) : Option Nat :=
  rs.foldl (fun b q => match b with
    | none => some q
    | some m =>
      if s.readySince q < s.readySince m ∨ (s.readySince q = s.readySince m ∧ s.partOf q < s.partOf m) then some q else some m) none

/-- The queue whose turn is next, with the arbitration after the choice: by the round of R377 while a partition of nonzero weight has a
ready context, served while its deficit is above 0; else the context that has been ready longest (R377, R378). -/
def State.hallChoice (s : State) : Option Nat × HallTurn :=
  let rs := s.readyQueues
  let h := s.hall
  if rs.any (fun q => s.hallWeight (s.partOf q) != 0) then
    let r := drrPick 10 s.hallWeight (fun p => (s.roundRobin rs p).map (fun q => (q, 1))) (drrFuel h.deficit 1) h.deficit h.visit h.fresh
    (r.1, { h with deficit := r.2.1, visit := r.2.2.1, fresh := r.2.2.2 })
  else (s.longestReady rs, h)

/-- The queue that the hall works on now, with the arbitration after the choice: the turn that runs goes on while its context is ready;
else a new turn begins, and the partition's round robin goes on behind it (R337). -/
def State.hallPick (s : State) : Option Nat × HallTurn :=
  match s.hall.cur.filter s.queueReady with
  | some q => (some q, s.hall)
  | none =>
    match s.hallChoice with
    | (some q, h) => (some q, { h with cur := some q, steps := 0, next := Table.set 0 h.next (s.partOf q) (q + 1) })
    | (none, h) => (none, h)

/-- Whether it is a queue's turn at the hall. -/
def State.hasTurn (s : State) (q : Nat) : Bool := s.hallPick.1 == some q

/-- The state with the turn that the hall gives. -/
def State.withTurn (s : State) : State := { s with hall := s.hallPick.2 }

/-- A partition without a ready context keeps no deficit above 0, and for each ready queue it is known since when it is ready (R377). -/
def State.settleHall (s : State) : State :=
  let rs := s.readyQueues
  let h := s.hall
  { s with hall := { h with
      deficit := settleDeficits (fun p => rs.any (fun q => s.partOf q == p)) h.deficit
      since := rs.foldl (fun t q => Table.set 0 t q (s.readySince q + 1)) [] } }

/-- The turn that runs ends: what is left of its context is a new request (R337). -/
def State.endTurn (s : State) : State :=
  match s.hall.cur with
  | none => s
  | some q => State.settleHall { s with hall := { s.hall with cur := none, steps := 0, since := Table.set 0 s.hall.since q 0 } }

/-- An instruction is done: the turn ends with a launch, after 16 other instructions, or when the context is not ready (R337). -/
def State.turnStep (s : State) (q : Nat) (launched : Bool) : State :=
  if launched || decide (15 ≤ s.hall.steps) || !s.queueReady q then s.endTurn
  else { s with hall := { s.hall with steps := s.hall.steps + 1 } }

/-- The context of a queue blocks on its instruction, which is tried again in a later turn (R336, R337). -/
def State.blockOn (s : State) (q : Nat) (b : Block) : State := (s.modCtx q (fun c => { c with block := b })).endTurn

/-! Sealed ranges as targets (R363). -/

/-- The range that holds a global address, if any. -/
def State.rangeAt (s : State) (g : Nat) : Option Nat :=
  if s.isLocal g then
    (s.seals.find? (fun e => decide (e.2.state ≠ 0) && decide (e.2.base ≤ g % 2 ^ 44) && decide (g % 2 ^ 44 < e.2.base + 4096 * e.2.pages))).map Prod.fst
  else none

/-- Whether a target lies in a retiring range. -/
def State.targetRetiring (s : State) (g : Nat) : Bool := (s.rangeAt g).any (fun n => decide ((s.seal n).state = 2))

/-- Pin the range that holds a target, for the entry of a queue. -/
def State.pinTarget (s : State) (q g : Nat) : State :=
  match s.rangeAt g with
  | none => s
  | some n =>
    let r := s.seal n
    (s.setSeal n { r with pins := r.pins + 1 }).modCtx q (fun c => { c with pins := c.pins ++ [n] })

/-- Release pins: a range freed since they were taken has none (R366). -/
def State.releasePins (s : State) (ns : List Nat) : State :=
  forAll ns (fun t n => let r := t.seal n; if r.state = 0 then t else t.setSeal n { r with pins := r.pins - 1 }) s

/-- A program handle (R364). -/
def State.handle (s : State) (p h : Nat) : Handle := Table.get {} s.handles (256 * p + h)

/-! Fetching an entry (R331 to R335). -/

/-- Reserved bits of a submission entry (R333). -/
def entryReserved (v : Nat) : Bool := bits v 56 8 != 0 || bits v 74 54 != 0 || bits v 184 8 != 0

/-- The code that ends an entry without running it, or 0 (R334, R363). -/
def State.entryCode (s : State) (p v : Nat) : Nat :=
  let hdl := v.testBit 72
  let h := s.handle p (bits v 64 8)
  if entryReserved v then eIllegal
  else if !hdl && bits v 0 56 % 16 != 0 then eAlign
  else if bits v 128 56 % 8 ≠ 0 then eAlign
  else if hdl && !h.valid then eIllegal
  else if s.targetRetiring (if hdl then h.addr else bits v 0 56) then ePermission
  else eOk

/-- The context of a fetched entry (R335). -/
def State.entryCtx (s : State) (p seq v : Nat) : Ctx where
  entry := seq
  pc := if v.testBit 72 then (s.handle p (bits v 64 8)).addr else bits v 0 56
  statAddr := bits v 128 56
  noInt := v.testBit 73
  regs := Table.set 0 (Table.setList 0 [] 1 ((upto 5).map (fun i => BitVec.ofNat 64 (bits v (192 + 64 * i) 64)))) 15 (BitVec.ofNat 64 seq)

/-- The address of entry c of a queue (R331). -/
def Queue.slot (x : Queue) (c : Nat) : Nat := (x.base + 64 * (c % 2 ^ x.log2n)) % 2 ^ 56

/-- The hall fetches the next entry of a queue whose turn it is; the fetch is part of the turn (R337, R377). -/
def State.fetchEntry (s : State) (q : Nat) : State :=
  let x := s.queue q
  if x.ctx.isSome || !s.hasTurn q then s
  else
    let a := x.slot x.head
    let r := s.withTurn.readFar (.hall q) unitHall x.part a 64
    let took := fun (t : State) (c : Ctx) =>
      ((((t.modQueue q (fun y => { y with head := x.head + 1, ctx := some c })).count unitHall 0 1).hallTime x.part 40).trace 0 0x01 x.part
        unitHall q (x.head + 1)).forgetFar (.hall q)
    match r.2 with
    | .wait => r.1.endTurn
    | .err c logged => ((took r.1 { entry := x.head + 1, fetched := false }).hallFault q c a none logged.isSome).endTurn
    | .ok bs =>
      let v := ofBytes bs
      let t := took r.1 (s.entryCtx x.part (x.head + 1) v)
      let c := s.entryCode x.part v
      if c ≠ eOk then (t.hallFault q c a none false).endTurn
      else t.pinTarget q (s.entryCtx x.part (x.head + 1) v).pc

def execEntryFetch (q : QueueId) (s : State) : Host.Outcome State Fault Refusal := .next (s.fetchEntry q.val)

/-! Dispatch instructions (R338, R339). -/

def dsHA (w : Nat) : Nat := bits w 8 4
def dsHB (w : Nat) : Nat := bits w 12 4
def dsHD (w : Nat) : Nat := bits w 16 4
def dsF (w i : Nat) : Bool := w.testBit (20 + i)
def dsCI (w : Nat) : Nat := bits w 24 8
def dsOff (w : Nat) : Int := signed 32 (bits w 32 32)
def dsImm (w : Nat) : Nat := w / 2 ^ 64

/-- Every bit outside the opcode and the listed fields is 0 (R10, R338). -/
def dsOnly (w : Nat) (fs : List (Nat × Nat)) : Bool := w == fs.foldl (fun m f => m + bits w f.1 f.2 * 2 ^ f.1) (w % 256)

abbrev fldHA : Nat × Nat := (8, 4)
abbrev fldHB : Nat × Nat := (12, 4)
abbrev fldHD : Nat × Nat := (16, 4)
abbrev fldCI : Nat × Nat := (24, 8)
abbrev fldOFF : Nat × Nat := (32, 32)
abbrev fldIMM : Nat × Nat := (64, 64)

/-- A branch or call target (R339). -/
def dsTarget (pc w : Nat) : Nat := (((pc : Int) + 16 * dsOff w) % ((2 ^ 56 : Nat) : Int)).toNat

/-- Hall time of an instruction that ends its entry (R336): of its kind, by its opcode; an undefined opcode is any other
instruction. -/
def hallCost (w : Nat) : Nat :=
  if w % 256 = 4 then 60 else if w % 256 = 0x12 ∨ w % 256 = 0x13 ∨ w % 256 = 0x14 then 100 else 10

/-- The instruction at the PC ends the entry, and with it the turn. -/
def State.hallStop (s : State) (q code addr : Nat) (c : Ctx) (logged : Bool) (ns : Nat := 10) : State :=
  (((s.forgetFar (.hall q)).hallTime (s.queue q).part ns).hallFault q code addr (some c.pc) logged).endTurn

/-- The instruction of an opcode at the PC of a queue's context: nothing when it is not the queue's turn or another
instruction stands there; an error response to the fetch and an undefined opcode end the entry (R337, R339). -/
def State.hallIssue (s : State) (q op : Nat) (f : Nat → Ctx → State → State) : State :=
  match (s.queue q).ctx with
  | none => s
  | some c =>
    if !s.hasTurn q then s
    else
      let r := s.withTurn.readFar (.hall q) unitHall (s.queue q).part c.pc 16
      match r.2 with
      | .wait => r.1.blockOn q .answer
      | .err e logged => ((r.1.forgetFar (.hall q)).hallFault q e c.pc (some c.pc) logged.isSome).endTurn
      | .ok bs =>
        let w := ofBytes bs
        if 0x14 < w % 256 then r.1.hallStop q eIllegal c.pc c false
        else if w % 256 = op then f w c r.1
        else s

/-- An instruction with the fields it uses (R338); a fault of its own names the instruction. -/
def State.hallOp (s : State) (q op : Nat) (fields : List (Nat × Nat)) (f : Nat → Ctx → State → State) : State :=
  s.hallIssue q op (fun w c t => if dsOnly w fields then f w c t else t.hallStop q eIllegal c.pc c false (hallCost w))

/-- The instruction is done: its hall time is charged, the next one follows, and the turn goes on or ends (R336, R337). -/
def State.hallNext (s : State) (q ns : Nat) (f : Ctx → Ctx) (launched : Bool := false) : State :=
  (((s.forgetFar (.hall q)).hallTime (s.queue q).part ns).modCtx q (fun c => f { c with pc := (c.pc + 16) % 2 ^ 56, block := .ready })).turnStep
    q launched

def execDspNop (q : QueueId) (s : State) : Host.Outcome State Fault Refusal :=
  .next (s.hallOp q.val 0x00 [] (fun _ _ t => t.hallNext q.val 10 id))

def execDspMovi (q : QueueId) (s : State) : Host.Outcome State Fault Refusal :=
  .next (s.hallOp q.val 0x08 [fldHD, fldIMM] (fun w _ t => t.hallNext q.val 10 (fun c => c.setReg (dsHD w) (BitVec.ofNat 64 (dsImm w)))))

def execDspAdd (q : QueueId) (s : State) : Host.Outcome State Fault Refusal :=
  .next (s.hallOp q.val 0x09 [fldHA, fldHB, fldHD, (20, 1), fldIMM] (fun w c t =>
    t.hallNext q.val 10 (fun d => d.setReg (dsHD w) (c.reg (dsHA w) + if dsF w 0 then BitVec.ofNat 64 (dsImm w) else c.reg (dsHB w)))))

/-- An access of an instruction at a 64-bit address: its alignment, its range, then the access (R339). -/
def State.hallAccess (s : State) (q : Nat) (c : Ctx) (a n : Nat) (k : AccessKind) (bulk : Bool) (txn : Txn) (f : List Byte → State → State) (ns : Nat := 10) :
    State :=
  if a % n ≠ 0 then s.hallStop q eAlign (a % 2 ^ 56) c false ns
  else if 2 ^ 56 ≤ a then s.hallStop q eUnmapped (a % 2 ^ 56) c false ns
  else
    let r := s.farAccess (.hall q) unitHall (s.queue q).part a k bulk txn
    match r.2 with
    | .wait => r.1.blockOn q .answer
    | .err e logged => r.1.hallStop q e a c logged.isSome ns
    | .ok bs => f bs r.1

/-- hA + IMM modulo 2^64. -/
def Ctx.hallAddr (c : Ctx) (w : Nat) : Nat := ((c.reg (dsHA w)).toNat + dsImm w) % 2 ^ 64

def execDspLd (q : QueueId) (s : State) : Host.Outcome State Fault Refusal :=
  .next (s.hallOp q.val 0x0A [fldHA, fldHD, fldIMM] (fun w c t =>
    t.hallAccess q.val c (c.hallAddr w) 8 (.load 8) false { type := 2, len := 8 } (fun bs u =>
      u.hallNext q.val 10 (fun d => d.setReg (dsHD w) (BitVec.ofNat 64 (ofBytes bs))))))

def execDspSt (q : QueueId) (s : State) : Host.Outcome State Fault Refusal :=
  .next (s.hallOp q.val 0x0B [fldHA, fldHB, fldIMM] (fun w c t =>
    let k := AccessKind.store (toBytes 8 (c.reg (dsHB w)).toNat)
    t.hallAccess q.val c (c.hallAddr w) 8 k false (txnFor k) (fun _ u => u.hallNext q.val 10 id)))

/-- The condition of DSP.BR; `none` when reserved (R339). -/
def brTaken (ci : Nat) (a b : Reg64) : Option Bool :=
  match ci with
  | 0 => some true
  | 1 => some (a == b)
  | 2 => some (a != b)
  | 3 => some (decide (a.toNat < b.toNat))
  | 4 => some (decide (b.toNat ≤ a.toNat))
  | _ => none

def execDspBr (q : QueueId) (s : State) : Host.Outcome State Fault Refusal :=
  .next (s.hallOp q.val 0x0C [fldHA, fldHB, fldCI, fldOFF] (fun w c t =>
    match brTaken (dsCI w) (c.reg (dsHA w)) (c.reg (dsHB w)) with
    | none => t.hallStop q.val eIllegal c.pc c false
    | some b => t.hallNext q.val 10 (fun d => if b then { d with pc := dsTarget c.pc w } else d)))

def execDspCall (q : QueueId) (s : State) : Host.Outcome State Fault Refusal :=
  .next (s.hallOp q.val 0x0D [fldCI, (20, 1), fldOFF] (fun w c t =>
    let h := t.handle (t.queue q.val).part (dsCI w)
    let g := if dsF w 0 then h.addr else dsTarget c.pc w
    if dsF w 0 && !h.valid then t.hallStop q.val eIllegal c.pc c false
    else if 8 ≤ c.stack.length then t.hallStop q.val eIllegal c.pc c false
    else if t.targetRetiring g then t.hallStop q.val ePermission c.pc c false
    else (t.hallNext q.val 10 (fun d => { d with pc := g, stack := d.pc :: d.stack })).pinTarget q.val g))

def execDspRet (q : QueueId) (s : State) : Host.Outcome State Fault Refusal :=
  .next (s.hallOp q.val 0x0E [] (fun _ c t =>
    match c.stack with
    | [] => t.hallStop q.val eIllegal c.pc c false
    | a :: r => t.hallNext q.val 10 (fun d => { d with pc := a, stack := r })))

def execDspSync (q : QueueId) (s : State) : Host.Outcome State Fault Refusal :=
  .next (s.hallOp q.val 0x07 [] (fun _ c t => if t.launchesEnded c.launches then t.hallNext q.val 10 id else t.blockOn q.val (.ends c.launches)))

/-- The latest launch of an entry with an index (R339). -/
def State.latestLaunch (s : State) (ids : List Nat) (stx : Nat) : Option Launch :=
  (ids.reverse.filterMap s.launch).find? (fun l => l.stx == stx)

def execDspStat (q : QueueId) (s : State) : Host.Outcome State Fault Refusal :=
  .next (s.hallOp q.val 0x10 [fldCI, fldHD] (fun w c t =>
    match t.latestLaunch c.launches (dsCI w) with
    | none => t.hallStop q.val eIllegal c.pc c false
    | some l => if l.stage = .ended then t.hallNext q.val 10 (fun d => d.setReg (dsHD w) l.status) else t.blockOn q.val (.ends [l.id])))

/-! Launches (R340, R341, R344, R559). -/

def lnSTX (w : Nat) : Nat := bits w 120 8
def lnDADDR (w : Nat) : Nat := bits w 64 56
def lnQMASK (w : Nat) : Nat := bits w 56 8
def lnSMASK (w : Nat) : Nat := bits w 40 16
def lnORDER (w : Nat) : Nat := bits w 38 2
def lnECNT (w : Nat) : Nat := bits w 21 8

/-- A grid that check 1 refuses (R344). -/
def badGrid (order gx gy : Nat) : Bool :=
  gx == 0 || gy == 0 || ((order == 1 || order == 2) && (decide (65536 < gx) || decide (65536 < gy)))

/-- The grid of a register. -/
def gridOfReg (v : Reg64) : Nat × Nat := (v.toNat % 2 ^ 32, v.toNat / 2 ^ 32)

/-- The causes of check 1 that concern the instruction itself (R344). -/
def launchIllegal (kernel : Bool) (c : Ctx) (w : Nat) : Bool :=
  let gr := w.testBit 32
  let g := gridOfReg (c.reg (dsHB w))
  w.testBit 20 || bits w 29 2 != 0 || lnQMASK w == 0 || lnSMASK w == 0 || lnORDER w == 3 ||
    (w.testBit 33 && lnDADDR w != 0) || (!w.testBit 37 && lnECNT w != 0) ||
    (if kernel then gr && badGrid (lnORDER w) g.1 g.2 else gr || w.testBit 31 || lnORDER w != 0)

/-- The descriptor address of a launch. -/
def launchDesc (c : Ctx) (w : Nat) : Nat := if w.testBit 33 then (c.reg (dsHA w)).toNat % 2 ^ 56 else lnDADDR w

/-- The launch that an instruction issues. -/
def State.launchOf (s : State) (q : Nat) (kind : LaunchKind) (w : Nat) (c : Ctx) : Launch where
  id := s.nextLaunch
  queue := q
  part := (s.queue q).part
  kind := kind
  iaddr := c.pc
  daddr := launchDesc c w
  stx := lnSTX w
  qmask := lnQMASK w
  smask := lnSMASK w
  order := lnORDER w
  async := w.testBit 37
  cont := w.testBit 36
  ksw := w.testBit 35
  fskip := w.testBit 34
  grid := if w.testBit 32 then some (c.reg (dsHB w)) else none
  arg7 := if w.testBit 31 then some (c.reg (dsHD w)) else none
  ecnt := lnECNT w
  statAddr := if c.statAddr % 8 = 0 then c.statAddr else 0

/-- Issue a launch; one that fails its checks ends with the cause and starts no square (R341, R344). -/
def State.issueLaunch (s : State) (q op : Nat) (kind : LaunchKind) : State :=
  s.hallIssue q op (fun w c t =>
    let l := t.launchOf q kind w c
    let bad := cause (launchIllegal (kind == .kernel) c w) eIllegal c.pc
    let off := cause (l.daddr % 64 != 0) eAlign l.daddr
    let add := fun (u : State) (m : Launch) =>
      ({ u with launches := u.launches ++ [m], nextLaunch := u.nextLaunch + 1 } : State).hallNext q 250 (fun d =>
        { d with launches := d.launches ++ [m.id], block := if m.async then .ready else .launch m.id }) true
    match firstCause [bad, off] with
    | none => add t l
    | some e => add (t.logErr unitHall l.part e.1 e.2) { l with stage := .running, status := BitVec.ofNat 64 e.1 })

def execDspLaunch (q : QueueId) (s : State) : Host.Outcome State Fault Refusal := .next (s.issueLaunch q.val 0x01 .kernel)
def execDspAttn (q : QueueId) (s : State) : Host.Outcome State Fault Refusal := .next (s.issueLaunch q.val 0x02 .attention)
def execDspPlook (q : QueueId) (s : State) : Host.Outcome State Fault Refusal := .next (s.issueLaunch q.val 0x03 .lookup)

/-! Bucket selection (R350). -/

/-- The first entry of a bucket table whose length is at least `n`: its descriptor address and length. -/
def firstBucket (n : Nat) : Nat → List Byte → Option (Nat × Nat)
  | 0, _ => none
  | k + 1, bs => if n ≤ ofBytes (bs.take 8) then some (ofBytes ((bs.drop 8).take 8), ofBytes (bs.take 8)) else firstBucket n k (bs.drop 16)

def execDspBucket (q : QueueId) (s : State) : Host.Outcome State Fault Refusal :=
  .next (s.hallOp q.val 0x04 [fldHA, fldHD, fldOFF, fldIMM] (fun w c t =>
    let d := dsHD w
    let a := dsImm w
    if d < 1 ∨ 14 < d then t.hallStop q.val eIllegal c.pc c false 60
    else
      t.hallAccess q.val c a 8 (.load 16) true { type := 2, len := 16 } (fun hb u =>
        let n := ofBytes (hb.take 4)
        if n < 1 ∨ 32 < n then u.hallStop q.val eIllegal c.pc c false 60
        else
          u.hallAccess q.val c (a + 16) 8 (.load (16 * n)) true { type := 2, len := 16 * n } (fun bs v =>
            match firstBucket (c.reg (dsHA w)).toNat n bs with
            | some e => v.hallNext q.val 60 (fun x => (x.setReg d (BitVec.ofNat 64 e.1)).setReg (d + 1) (BitVec.ofNat 64 e.2))
            | none => v.hallNext q.val 60 (fun x => { x with pc := dsTarget c.pc w })) 60) 60))

/-! Waits and signals (R351 to R354). -/

/-- The value of a wait or a signal: IMM, or hB when F2 = 1. -/
def Ctx.value (c : Ctx) (w : Nat) : Reg64 := if dsF w 2 then c.reg (dsHB w) else BitVec.ofNat 64 (dsImm w)

/-- The global address of a hall counter (R351). -/
def hallCounterAddr (c : Nat) : Nat := globalOf (0xF0001100000 + 8 * c)

/-- The square counter at an address: its number 64 u + c (R133, R353). -/
def State.squareCounterAt (s : State) (a : Nat) : Option Nat :=
  let l := a % 2 ^ 44
  if decide (a < 2 ^ 56) && s.isLocal a && decide (0xF0004000000 ≤ l ∧ l < 0xF0004010000) then some ((l - 0xF0004000000) / 8) else none

/-- Block a context on a counter, with its trace record. -/
def State.hallWait (s : State) (q : Nat) (hall : Bool) (ctr addr : Nat) (w : Nat) (c : Ctx) : State :=
  (s.hallNext q 10 (fun d => { d with block := .wait hall ctr (dsF w 1) (c.value w) })).trace 4 0x09 (s.queue q).part unitHall addr (c.value w).toNat

def execDspWait (q : QueueId) (s : State) : Host.Outcome State Fault Refusal :=
  .next (s.hallOp q.val 0x05 [fldHA, fldHB, fldCI, (20, 3), fldIMM] (fun w c t =>
    let p := (t.queue q.val).part
    if !dsF w 0 then t.hallWait q.val true (256 * p + dsCI w) (hallCounterAddr (256 * p + dsCI w)) w c
    else
      let a := (c.reg (dsHA w)).toNat
      if a % 8 ≠ 0 then t.hallStop q.val eAlign (a % 2 ^ 56) c false
      else
        match t.squareCounterAt a with
        | none => t.hallStop q.val eIllegal c.pc c false
        | some n =>
          match t.regRead unitHall p (a % 2 ^ 44) 8 with
          | .error e => t.hallStop q.val e a c false
          | .ok _ =>
            if t.squareOwnedBy (n / 64) p then t.hallWait q.val false n (globalOf (a % 2 ^ 44)) w c
            else t.hallStop q.val ePermission a c false))

/-- The counter that a context waits on. -/
def State.waitedCounter (s : State) (hall : Bool) (n : Nat) : Reg64 := if hall then s.hallCounter n else Table.get 0 s.sqCtr n

def execDspWaitMet (q : QueueId) (s : State) : Host.Outcome State Fault Refusal :=
  .next (match (s.queue q.val).ctx with
    | none => s
    | some c =>
      match c.block with
      | .wait hall n eq v =>
        if s.hallFree q.val && counterMet eq (s.waitedCounter hall n) v then
          (s.modCtx q.val (fun d => { d with block := .ready })).trace 4 0x0A (s.queue q.val).part unitHall
            (if hall then hallCounterAddr n else globalOf (0xF0004000000 + 8 * n)) v.toNat
        else s
      | _ => s)

/-- The command end (R322) for the launches of a context: they have ended, their writes to other modules are
acknowledged with their ends, and a read of the host window after them has completed when the partition has one. The
outcome says whether it is complete. -/
def State.commandEnd (s : State) (q : Nat) (c : Ctx) : State × Bool :=
  let p := (s.queue q).part
  let f := (s.part p).fn
  if !s.launchesEnded c.launches then (s, false)
  else if f.hsize = 0 ∨ f.busMaster = false ∨ (s.part p).reset.resetting = true then (s, true)
  else
    let r := s.farSend (.hall q) unitHall p (globalOf hostBase) (.load 4) {}
    match r.2 with
    | .wait => (r.1, false)
    | _ => (r.1, true)

/-- What a context waits for whose command end is not complete. -/
def State.endBlock (s : State) (c : Ctx) : Block := if s.launchesEnded c.launches then .answer else .ends c.launches

def execDspSignal (q : QueueId) (s : State) : Host.Outcome State Fault Refusal :=
  .next (s.hallOp q.val 0x06 [fldHA, fldHB, fldCI, (20, 3), fldIMM] (fun w c t =>
    let e := if dsF w 0 then t.commandEnd q.val c else (t, true)
    let v := c.value w
    if !e.2 then e.1.blockOn q.val (e.1.endBlock c)
    else if e.1.hallAwaits then e.1.blockOn q.val .release
    else if dsF w 1 then
      let n := 256 * (t.queue q.val).part + dsCI w
      (e.1.setHallCounter n (e.1.hallCounter n + v)).hallNext q.val 10 id
    else e.1.hallAccess q.val c (c.reg (dsHA w)).toNat 8 (.atom 0 8 v.toNat) false (signalTxn 8 v.toNat) (fun _ u => u.hallNext q.val 10 id)))

def execDspIrq (q : QueueId) (s : State) : Host.Outcome State Fault Refusal :=
  .next (s.hallOp q.val 0x11 [(20, 1)] (fun w c t =>
    let e := if dsF w 0 then t.commandEnd q.val c else (t, true)
    if e.2 then (e.1.raiseQueue q.val).hallNext q.val 10 id else e.1.blockOn q.val (e.1.endBlock c)))

/-! Completion (R356 to R359). -/

/-- Write a status area with the recorded address of the instruction concerned, or 0, and a stamp; whether it has been performed
(R356, R557). -/
def State.writeStatus (s : State) (q addr word insn stamp : Nat) : State × Bool :=
  if addr = 0 ∨ addr % 8 ≠ 0 then (s, true)
  else s.farWrite (.hall q) unitHall (s.queue q).part addr (toBytes 8 word ++ toBytes 8 insn ++ toBytes 8 stamp ++ toBytes 8 0)

/-- The trace of a completed entry: its record, and a second one that holds the status word (R508). -/
def State.traceEntry (s : State) (p q seq word : Nat) : State :=
  let t := s.trace 0 0x02 p unitHall q seq
  if (s.part p).trc.en.testBit 0 then (t.traceRaw p ⟨p, 0x02, p, unitHall, word, false, 0, 0⟩).traceCost 0 p else t

/-- Take launches out of the list. -/
def State.dropLaunches (s : State) (ids : List Nat) : State := { s with launches := s.launches.filter (fun l => !ids.contains l.id) }

/-- The status words of launches. -/
def State.statusWords (s : State) (ids : List Nat) : List Reg64 := (ids.filterMap s.launch).map (·.status)

/-- The entry has its completion word: steps 4 to 6 of R357. The launches of a queue that is being destroyed stay until its squares
leave their lists (R367). -/
def State.entryDone (s : State) (q : Nat) (c : Ctx) : State :=
  let x := s.queue q
  let s2 := s.traceEntry x.part q c.entry (entryStatus c (s.statusWords c.launches))
  let s3 := s2.modQueue q (fun y => { y with seq := c.entry, ctx := none, state := if y.state = 2 ∧ y.en = false then 1 else y.state })
  let s4 := if x.irq && !c.noInt then s3.raiseQueue q else s3
  (if x.state = 3 then s4.releasePins c.pins else (s4.releasePins c.pins).dropLaunches c.launches).forgetFar (.hall q)

/-- Step 4 of R357: the completion word, after the status area has been written (R312). -/
def State.writeCompletion (s : State) (q : Nat) (c : Ctx) : State :=
  let x := s.queue q
  let r := s.farWrite (.hall q) unitHall x.part x.cpl (toBytes 8 c.entry)
  if r.2 then r.1.entryDone q c else r.1

/-- Step 3 of R357 for an entry whose command end is complete, then step 4. -/
def State.completeEntry (s : State) (q : Nat) (c : Ctx) : State :=
  if c.doneStep = 2 then s.writeCompletion q c
  else
    let word := entryStatus c (s.statusWords c.launches)
    let r := if c.fetched then s.writeStatus q c.statAddr word c.endAddr c.doneAt else (s, true)
    if r.2 then ((r.1.forgetFar (.hall q)).modCtx q (fun d => { d with doneStep := 2 })).writeCompletion q { c with doneStep := 2 } else r.1

/-- An ended entry completes once its launches have ended and the record of its cause is accepted: the command end, then the writes
(R357, R358, R502). -/
def State.endEntry (s : State) (q : Nat) : State :=
  match (s.queue q).ctx with
  | none => s
  | some c =>
    if c.block != .ended || decide (c.endSrc = 3) || s.stop.stopped || s.replyHeld (.hall q) || s.farPending (.hall q) then s
    else if c.doneStep ≠ 0 then s.completeEntry q c
    else
      let e := s.commandEnd q c
      let d := { c with doneStep := 1, doneAt := s.time }
      if e.2 then ((e.1.forgetFar (.hall q)).modCtx q (fun _ => d)).completeEntry q d else e.1

def execEntryEnd (q : QueueId) (s : State) : Host.Outcome State Fault Refusal := .next (s.endEntry q.val)

/-- DSP.DONE: the entry completes as soon as R357 lets it. -/
def execDspDone (q : QueueId) (s : State) : Host.Outcome State Fault Refusal :=
  .next (s.hallOp q.val 0x0F [] (fun _ _ t => (t.hallNext q.val 10 (fun c => c.endWith eOk 0 0 0)).endEntry q.val))

/-! Seals and handles (R361 to R366). -/

/-- Whether every page of a range lies in an extent that a partition owns (R273). -/
def State.pagesOwned (s : State) (p base n : Nat) : Bool :=
  inMemory s.isM base (4096 * n) && (upto ((base + 4096 * n - 1) / 2 ^ 28 - base / 2 ^ 28 + 1)).all (fun i => s.extentOk p (base / 2 ^ 28 * 2 ^ 28 + i * 2 ^ 28))

/-- Free range numbers (R361). -/
def State.freeRanges (s : State) : List Nat := (upto 1024).filter (fun n => (s.seal n).state == 0)

def execDspSeal (q : QueueId) (s : State) : Host.Outcome State Fault Refusal :=
  .next (s.hallOp q.val 0x12 [fldHA, fldHB, fldHD] (fun w c t =>
    let p := (t.queue q.val).part
    let a := (c.reg (dsHA w)).toNat
    let n := (c.reg (dsHB w)).toNat
    let l := a % 2 ^ 44
    if a % 4096 ≠ 0 then t.hallStop q.val eAlign c.pc c false 100
    else if n = 0 ∨ 2 ^ 20 ≤ n then t.hallStop q.val eIllegal c.pc c false 100
    else if decide (2 ^ 56 ≤ a) || !t.isLocal a || !t.pagesOwned p l n || t.anySealed l (4096 * n) then t.hallStop q.val ePermission c.pc c false 100
    else if t.freeRanges.isEmpty then t.hallStop q.val eQueue c.pc c false 100
    else
      let f := t.takeFree
      let i := t.freeRanges.getD (Config.freeIndex f.1 % t.freeRanges.length) 0
      (f.2.setSeal i ⟨1, p, l, 0, n⟩).hallNext q.val 100 (fun d => d.setReg (dsHD w) (BitVec.ofNat 64 i))))

def execDspPublish (q : QueueId) (s : State) : Host.Outcome State Fault Refusal :=
  .next (s.hallOp q.val 0x13 [fldHA, fldCI] (fun w c t =>
    let p := (t.queue q.val).part
    let a := (c.reg (dsHA w)).toNat
    if a % 16 ≠ 0 then t.hallStop q.val eAlign c.pc c false 100
    else
      match (if a < 2 ^ 56 then t.rangeAt a else none) with
      | none => t.hallStop q.val ePermission c.pc c false 100
      | some n =>
        if (t.seal n).state = 1 ∧ (t.seal n).part = p then
          let h := t.handle p (dsCI w)
          ({ t with handles := Table.set {} t.handles (256 * p + dsCI w) ⟨true, a, n, (h.ver + 1) % 2 ^ 32⟩ } : State).hallNext q.val 100 id
        else t.hallStop q.val ePermission c.pc c false 100))

/-- Whether a handle of a partition names a range (R365). -/
def State.rangeNamed (s : State) (p n : Nat) : Bool := (upto 256).any (fun h => (s.handle p h).valid && (s.handle p h).range == n)

def execDspRetire (q : QueueId) (s : State) : Host.Outcome State Fault Refusal :=
  .next (s.hallOp q.val 0x14 [fldHA] (fun w c t =>
    let p := (t.queue q.val).part
    let n := (c.reg (dsHA w)).toNat
    let r := t.seal n
    if decide (1024 ≤ n) || decide (r.state ≠ 1) || decide (r.part ≠ p) || t.rangeNamed p n then t.hallStop q.val ePermission c.pc c false 100
    else (t.setSeal n { r with state := 2 }).hallNext q.val 100 id))

def execSealRangeFree (range : Fin 1024) (s : State) : Host.Outcome State Fault Refusal :=
  .next (if (s.seal range.val).state = 2 ∧ (s.seal range.val).pins = 0 then s.setSeal range.val {} else s)

/-! Destruction (R367, R368). -/

/-- Write the status area in hand of a destruction, and whether it has been performed. -/
def State.destroyArea (s : State) (q word : Nat) : State × Bool :=
  match (s.queue q).dwork with
  | none => (s, true)
  | some a =>
    let r := s.writeStatus q a.1 word 0 a.2
    if r.2 then ((r.1.forgetFar (.hall q)).modQueue q (fun y => { y with dwork := none }), true) else r

/-- Take a status area in hand, with the stamp of its completion. -/
def State.takeArea (s : State) (q addr : Nat) : State := s.modQueue q (fun y => { y with dwork := some (addr, s.time) })

/-- Write ABORTED into the status area of the running entry that is cut off (R367, step 5). -/
def State.abortRunning (s : State) (q : Nat) : State × Bool :=
  match (s.queue q).ctx with
  | none => (s, true)
  | some c =>
    if !c.fetched then (s, true)
    else (if (s.queue q).dwork.isSome then s else s.takeArea q c.statAddr).destroyArea q (entryStatus c (s.statusWords c.launches))

/-- Write ABORTED into the status area of unfetched entry c (R367, step 5). An entry whose read gets an error response has no
STATADDR. The read costs the hall time of a fetch (R336, R387; LOG 87). -/
def State.abortUnfetched (s : State) (q c : Nat) : State × Bool :=
  let x := s.queue q
  let word := eAborted + 3 * 2 ^ 24
  if x.dwork.isSome then s.destroyArea q word
  else
    let r := s.readFar (.hall q) unitHall x.part (x.slot c) 64
    match r.2 with
    | .ok bs => ((r.1.hallTime x.part 40).takeArea q (bits (ofBytes bs) 128 56)).destroyArea q word
    | .err e logged =>
      (((if logged.isSome then r.1 else r.1.logErr unitHall x.part e (x.slot c)).hallTime x.part 40).forgetFar (.hall q), true)
    | .wait => (r.1, false)

/-- Write `i` of step 5 of R367: the running entry's area, then those of the unfetched entries, then the completion word
of a queue that has one (LOG 87). -/
def State.destroyWrite (s : State) (q i : Nat) : State × Bool :=
  let x := s.queue q
  if i = 0 then s.abortRunning q
  else if i ≤ x.tail - x.head then s.abortUnfetched q (x.head + i - 1)
  else if x.cpl = 0 then (s, true)
  else s.farWrite (.hall q) unitHall x.part x.cpl (toBytes 8 x.tail)

/-- Go on with the writes of step 5, at most `n` of them, until one waits; whether all are done. -/
def State.destroyWrites (s : State) (q : Nat) : Nat → State × Bool
  | 0 => (s, true)
  | n + 1 =>
    let r := s.destroyWrite q (s.queue q).dstep
    if r.2 then (r.1.modQueue q (fun y => { y with dstep := y.dstep + 1 })).destroyWrites q n else r

/-- Whether an answer is still due to a queue's context. -/
def State.queueQuiet (s : State) (q : Nat) : Bool := !s.farPending (.hall q)

/-- Steps 6 and 7 of R367: the launches go, and with them the squares' places in their lists. -/
def State.closeQueue (s : State) (q : Nat) : State :=
  let x := s.queue q
  let pins := match x.ctx with | none => [] | some c => c.pins
  let ids := (s.launches.filter (fun l => l.queue == q)).map (·.id)
  let s3 := ((s.releasePins pins).dropLaunches ids).forgetFar (.hall q)
  (s3.modQueue q (fun y => { y with
    seq := x.tail, head := x.tail, ctx := none, state := 1, ddone := true, en := false, dstep := 0, dwork := none })).raiseQueue q

/-- Steps 5 to 7 of R367: what the context that was cut off had read is forgotten first. -/
def State.finishDestroy (s : State) (q : Nat) : State :=
  let x := s.queue q
  let s0 := if x.dstep = 0 ∧ x.dwork = none then s.forgetFar (.hall q) else s
  let r := s0.destroyWrites q (x.tail - x.head + 2 - x.dstep)
  if r.2 then r.1.closeQueue q else r.1

/-- A destruction ends when every launch of the queue has, when nothing of it is outstanding on the links, and when an
entry that had ended before has completed. -/
def State.endDestroy (s : State) (q : Nat) : State :=
  let x := s.queue q
  let own := match x.ctx with | none => true | some c => decide (c.endSrc = 3) && s.launchesEnded c.launches
  if x.state = 3 ∧ own = true ∧ (s.launchesOfQueue q).isEmpty = true ∧ s.queueQuiet q = true ∧ s.stop.stopped = false then s.finishDestroy q else s

def execDestroyComplete (q : QueueId) (s : State) : Host.Outcome State Fault Refusal := .next (s.endDestroy q.val)

end Sys2Proof.Machine
end

