-- ==== Sys2Proof/Machine/Links.lean ====
section
/-! DEFINITION. What the links receive (R398 to R440): flits, the transactions in their bodies, the checks of R427 and
what each transaction does, the precinct's control messages, and the timers of the links. -/

namespace Sys2Proof.Machine

/-! Flits (R399, R400). -/

/-- The 12 header bytes of a flit (R399). -/
def flitHeader (f : Flit) : List Byte :=
  flitHead f.seq.toNat f.ackSeq.toNat f.ch.val f.ft.val f.fho.val f.ackV f.crReq.toNat f.crRsp.toNat f.crCtl.toNat

/-- The 240 body bytes of a flit. -/
def flitBody (f : Flit) : List Byte := (f.body ++ List.replicate 240 0).take 240

/-- Whether a flit came whole: its CRC is correct and its frame decoded (R402). -/
def flitGood (f : Flit) : Bool := f.fecOk && crc32 (flitHeader f ++ flitBody f) == f.crc.toNat

/-! Acknowledgements, credits and replay (R402 to R404). -/

/-- An acknowledgement covers every flit up to the one it names (R403). -/
def Port.acked (p : Port) (a : Nat) : Port :=
  let k := p.replay.findIdx (fun x => x.seq == a)
  if k < p.replay.length then { p with replay := p.replay.drop (k + 1), replays := 0 } else p

/-- Credits that a flit returns (R399, R404). -/
def Port.credited (p : Port) (f : Flit) : Port :=
  { p with credReq := p.credReq + f.crReq.toNat, credRsp := p.credRsp + f.crRsp.toNat, credCtl := p.credCtl + f.crCtl.toNat }

/-- The acknowledgement and credits in a flit's header; what they let go leaves at once. -/
def State.takeHeader (s : State) (n : Nat) (f : Flit) (ack : Bool) : State :=
  (s.modPort n (fun p => ((if ack then p.acked f.ackSeq.toNat else p).credited f))).drainPort n

/-- A flit that acknowledges, and returns credits of one channel. -/
def State.sendIdle (s : State) (n ch k : Nat) : State :=
  s.emit (.idle n (s.port n).lastSeq (if ch = 0 then k else 0) (if ch = 1 then k else 0) (if ch = 2 then k else 0) (s.port n).txSeq)

/-- Return the credits of flits that leave the receive buffer (R404). -/
def State.freeFlits (s : State) (n ch k : Nat) : State := if k = 0 then s else s.sendIdle n ch k

/-- The first discard sends a NAK (R402). -/
def State.discardFlit (s : State) (n : Nat) : State :=
  if (s.port n).nakSent then s
  else ((s.modPort n (fun p => { p with nakSent := true })).emit (.nak n (s.port n).lastSeq (s.port n).txSeq)).count (unitPort n) 3 1

/-- A DATA or MARK flit at an UP port: accepted in order, or discarded (R402). -/
def State.acceptFlit (s : State) (n : Nat) (f : Flit) : State × Bool :=
  let p := s.port n
  if flitGood f && f.seq.toNat == p.rxSeq && f.ch.val != 3 then
    ((s.modPort n (fun p => { p with rxSeq := (p.rxSeq + 1) % 65536, rxAny := true, nakSent := false })).takeHeader n f f.ackV, true)
  else (s.discardFlit n, false)

/-- Send the replay buffer again, or leave UP after 8 replays that advanced nothing (R403). -/
def State.replayPort (s : State) (n : Nat) : State :=
  let p := s.port n
  if p.replay = [] then s
  else if 8 ≤ p.replays then s.leaveUp n 1
  else
    let fs := p.replay.map (fun f => { f with at_ := s.time, ack := p.lastSeq, ackV := p.rxAny })
    let t := s.setPort n { p with replay := fs, replays := p.replays + 1 }
    let u : State := { t with out := (fs.map (Out.flit n)).reverse ++ t.out }
    (u.count (unitPort n) 2 1).count (unitPort n) 0 (fs.filter (fun f => f.kind == 0)).length

/-! Transactions in the flits' bodies (R410 to R413). -/

/-- Payload bytes of each control message (R431). -/
def ctlLen (code : Nat) : Option Nat :=
  match code with
  | 2 => some 8
  | 3 => some 24
  | 4 => some 12
  | 5 => some 7
  | 6 => some 12
  | 7 => some 4
  | 8 => some 6
  | _ => none

/-- NB's range (R411). -/
def Txn.slotsOk (t : Txn) : Bool := if t.blk then decide (1 ≤ t.nb ∧ t.nb ≤ 64) else t.nb == 0

/-- Order 1 of R427: TYPE is defined, and LEN, NB and ASZ lie in their ranges (R411, R412, R431). -/
def Txn.inRange (t : Txn) : Bool :=
  t.slotsOk &&
  match t.type with
  | 1 => t.asz == 0 && decide (1 ≤ t.len ∧ t.len ≤ 12288)
  | 2 => t.asz == 0 && decide (t.len ≤ 12288)
  | 3 => t.asz != 0 && t.len == (if t.asz = 1 then 32 else 16)
  | 4 => t.asz != 0 && t.len == 16
  | 5 => t.asz == 0 && t.len == 0
  | 6 => t.asz == 0 && decide (t.len ≤ 12288)
  | 7 => t.asz == 0 && t.len == 0
  | 8 => t.asz == 0 && decide (t.len ≤ 12288) && (ctlLen t.code).all (· == t.len)
  | _ => false

/-- Read the transactions of a stretch of stream (R410): those that are whole, the bytes of one that is not, and one
that fails check 1 of R427, if any. -/
def parseStream : Nat → List Byte → List Txn × List Byte × Option Txn
  | 0, bs => ([], bs, none)
  | f + 1, bs =>
    match bs with
    | [] => ([], [], none)
    | b :: _ =>
      if b.toNat % 16 = 0 then ([], [], none)
      else if bs.length < 32 then ([], bs, none)
      else
        let h := ofBytes (bs.take 32)
        let t := Txn.ofHeader h
        if headerReserved h || !t.inRange then ([], [], some t)
        else
          let n := 32 + pad16 t.streamLen + 16
          if bs.length < n then ([], bs, none)
          else
            let r := parseStream f (bs.drop n)
            ({ t with raw := true, payload := slice bs 32 (n - 32) } :: r.1, r.2)

/-- Give flits of the buffer to the first transaction of a list. -/
def giveFirst (k : Nat) : List Txn → List Txn
  | [] => []
  | t :: r => { t with flits := t.flits + k } :: r

/-- Give a flit of the buffer to the last transaction of a list. -/
def giveLast : List Txn → List Txn
  | [] => []
  | [t] => [{ t with flits := t.flits + 1 }]
  | t :: r => t :: giveLast r

/-- What a port has received in part on a channel, and the flits it holds. -/
def Port.partialOf (p : Port) (ch : Nat) : List Byte × Nat :=
  if ch = 0 then (p.partialReq, p.flitsReq) else if ch = 1 then (p.partialRsp, p.flitsRsp) else (p.partialCtl, p.flitsCtl)

/-- Note what is received in part on a channel. -/
def Port.setPartial (p : Port) (ch : Nat) (bs : List Byte) (k : Nat) : Port :=
  if ch = 0 then { p with partialReq := bs, flitsReq := k }
  else if ch = 1 then { p with partialRsp := bs, flitsRsp := k }
  else { p with partialCtl := bs, flitsCtl := k }

/-- The received transactions of a channel. -/
def Port.received (p : Port) (ch : Nat) : List Txn := if ch = 0 then p.rxReq else if ch = 1 then p.rxRsp else p.rxCtl

/-- Change the received transactions of a channel. -/
def Port.setReceived (p : Port) (ch : Nat) (ts : List Txn) : Port :=
  if ch = 0 then { p with rxReq := ts } else if ch = 1 then { p with rxRsp := ts } else { p with rxCtl := ts }

/-- The stretch of stream that an accepted body continues or starts (R399, R410). -/
def stretch (p : Port) (f : Flit) : List Byte :=
  let have_ := (p.partialOf f.ch.val).1
  if have_ ≠ [] then have_ ++ flitBody f
  else if f.fho.val = 15 then [] else (flitBody f).drop (16 * f.fho.val)

/-- When each transaction came; the first one of channel 2 may have begun in an earlier flit, whose time counts (R433). -/
def stampArrival (first now : Nat) : List Txn → List Txn
  | [] => []
  | t :: r => { t with at_ := first } :: r.map (fun x => { x with at_ := now })

/-- The body of an accepted DATA flit (R402, R407, R410). A stream that can no longer be parsed makes the port retrain
(check 1 of R427). -/
def State.takeBody (s : State) (n : Nat) (f : Flit) : State :=
  let ch := f.ch.val
  let p := s.port n
  let r := parseStream 8 (stretch p f)
  let k := (p.partialOf ch).2
  let began := ch == 2 && !(p.partialOf 2).1.isEmpty
  let ts := giveFirst k (stampArrival (if began then p.ctlAt else s.time) s.time r.1)
  let done := if r.2.1 = [] then giveLast ts else ts
  let left := if r.2.1 = [] then 0 else if r.1 = [] then k + 1 else 1
  let s1 := s.modPort n (fun p => Port.setReceived { p.setPartial ch r.2.1 left with
    ctlAt := if ch = 2 ∧ (r.1 ≠ [] ∨ !began) then s.time else p.ctlAt } ch (p.received ch ++ done))
  match r.2.2 with
  | some t => ((s1.leaveUp n 1).logErr (unitPort n) 0 eIllegal (globalOf t.addr) .none t.srcm).count (unitPort n) 6 1
  | none => if r.1 = [] ∧ r.2.1 = [] then s1.sendIdle n ch (k + 1) else s1.sendIdle n ch 0

/-- A DATA flit arrives (R402). -/
def State.dataFlit (s : State) (n : Nat) (f : Flit) : State :=
  if (s.port n).state ≠ 2 ∨ f.ft ≠ 0 then s
  else
    let r := s.acceptFlit n f
    if r.2 then (r.1.count (unitPort n) 1 1).takeBody n f else r.1

def execDataFlit (port : PortId) (f : Flit) (s : State) : Host.Outcome State Fault Refusal := .next (s.dataFlit port.val f)

/-- An IDLE flit's acknowledgement and credits (R401, R404). -/
def execIdleFlit (port : PortId) (f : Flit) (s : State) : Host.Outcome State Fault Refusal :=
  .next (if (s.port port.val).state = 2 ∧ f.ft = 1 ∧ flitGood f = true then s.takeHeader port.val f f.ackV else s)

/-- A NAK names the last flit accepted, where its ACKV says that one was; the transmitter replays what follows it (R399, R402, R403). -/
def execNak (port : PortId) (f : Flit) (s : State) : Host.Outcome State Fault Refusal :=
  .next (if (s.port port.val).state = 2 ∧ f.ft = 2 ∧ flitGood f = true then (s.takeHeader port.val f f.ackV).replayPort port.val else s)

/-- The oldest uncovered flit has waited 2,500 ns (R403). -/
def execReplayTimeout (port : PortId) (s : State) : Host.Outcome State Fault Refusal :=
  .next (match (s.port port.val).replay with
    | [] => s
    | f :: _ => if (s.port port.val).state = 2 ∧ f.at_ + 2500 ≤ s.time then s.replayPort port.val else s)

/-- A lane fails, or errors take the port out of service (R397, R406, R407). -/
def execPortLeaveUp (port : PortId) (s : State) : Host.Outcome State Fault Refusal :=
  .next (if (s.port port.val).state = 2 then s.leaveUp port.val 1 else s)

/-! HELLO (R406, R408, R430, R431). -/

/-- Two masters of one precinct meet: both set CONFLICT, and the lower module number keeps the role (R430). -/
def Links.meet (l : Links) (h : HelloMsg) : Links :=
  if l.role = 1 ∧ h.role = 1 ∧ h.precid.toNat = l.precid then
    { l with conflict := true, role := if l.modnum ≤ h.modnum.toNat then 1 else 0 }
  else l

/-- A HELLO in training: the peer's fields, then UP, or LOOP. -/
def State.takeHello (s : State) (n : Nat) (h : HelloMsg) : State :=
  let loop := h.modnum.toNat == s.links.modnum && h.precid.toNat == s.links.precid
  let s1 := s.modPort n (fun p => { p with
    peerM := h.modnum.toNat, peerP := h.port.toNat % 128, peerPrec := h.precid.toNat, loop := loop })
  if loop then s1
  else
    let s2 := (s1.modLinks (fun l => l.meet h)).modPort n (fun p => { p with state := 2 })
    (s2.trace 6 0x0F 0 (unitPort n) (n + 256 * 2) 0).drainPort n

def execHello (port : PortId) (h : HelloMsg) (s : State) : Host.Outcome State Fault Refusal :=
  .next (if (s.port port.val).state = 1 then s.takeHello port.val h else s)

/-! Requests performed at their home (R413, R427). -/

/-- What an unblocked request does at its home (R412). -/
def Txn.access (t : Txn) : AccessKind :=
  let size := if t.asz = 1 then 16 else if t.asz = 2 then 4 else 8
  let w := if t.asz = 1 then 16 else 8
  match t.type with
  | 1 => .store (t.payload.take t.len)
  | 2 => .load t.len
  | 4 => .atom 0 size (ofBytes (slice t.payload 0 8))
  | _ => if t.aop = 9 then .cas size (ofBytes (slice t.payload 0 w)) (ofBytes (slice t.payload w w))
         else .atom t.aop size (ofBytes (slice t.payload 0 w))

/-- The slots of a block-mode request that hold granules: address and bytes (R413). -/
def Txn.slots (t : Txn) : List (Nat × Nat) :=
  ((t.payload.take t.nb).mapIdx (fun i c => (t.addr + 256 * i, 32 * c.toNat))).filter (fun e => e.2 != 0)

/-- Bytes of all the slots' granules. -/
def Txn.slotBytes (t : Txn) : Nat := t.slots.foldl (fun n e => n + e.2) 0

/-- Whether a block-mode request's count map and LEN are as R413 says, and the granules that it asks for fit a response. -/
def Txn.mapOk (t : Txn) : Bool :=
  (t.payload.take t.nb).all (fun c => decide (c.toNat ≤ 8)) && decide (t.slotBytes ≤ 12288) &&
  t.len == pad16 t.nb + (if t.type = 1 then t.slotBytes else 0)

/-- Send an ERR to the requester of a request once its record is accepted (R427, R502). -/
def State.refuseTxn (s : State) (n : Nat) (q : Txn) (code : Nat) : State :=
  s.logErr (unitPort n) q.dpart code (globalOf q.addr) (.linkErr q code) q.srcm

/-- Whether a slot lies in a sealed region of the partition (R182), or the code of the failing read of its table. -/
def State.slotsSealed (s : State) (n : Nat) (q : Txn) : Except Nat Bool :=
  match s.readRegions (unitPort n) q.dpart with
  | .error e => .error e.1
  | .ok rs => .ok ((upto q.nb).any (fun i =>
      [0, 255].any (fun k => (findRegion s.isM rs (q.addr + 256 * i + k)).any (·.isSealed))))

/-- Check 6 of R427; 0 when it passes. -/
def State.sixthCheck (s : State) (n : Nat) (q : Txn) : Nat :=
  if placeOf s.isM q.addr = .reg then
    match regAt ((q.addr - regBase) / 8 * 8) with
    | some (.sqCtr _ _) => eOk
    | _ => ePermission
  else if q.blk then
    match s.slotsSealed n q with
    | .error c => c
    | .ok b => if b then ePermission else eOk
  else eOk

/-- Read the slots of a block-mode GET in turn (R413). -/
def State.readSlots (s : State) (n : Nat) (q : Txn) : List (Nat × Nat) → List Byte → State × Except Nat (List Byte)
  | [], got => (s, .ok got)
  | e :: es, got =>
    let r := s.localAccess (unitPort n) q.dpart e.1 (.load e.2) true
    match r.2 with
    | .ok bs => r.1.readSlots n q es (got ++ bs)
    | .err c => (r.1, .error c)
    | .host => (r.1, .error eUnmapped)

/-- Write the slots of a block-mode PUT in turn (R413). -/
def State.writeSlots (s : State) (n : Nat) (q : Txn) : List (Nat × Nat) → List Byte → State
  | [], _ => s
  | e :: es, bs => ((s.localAccess (unitPort n) q.dpart e.1 (.store (bs.take e.2)) true).1).writeSlots n q es (bs.drop e.2)

/-- The home's checks of one slot. -/
def State.slotCode (s : State) (n : Nat) (q : Txn) (e : Nat × Nat) : Nat :=
  if placeOf s.isM e.1 = .reg then ePermission
  else s.checkAcc (accFor (unitPort n) q.dpart e.1 (if q.type = 1 then .store (List.replicate e.2 0) else .load e.2) true)

/-- A block-mode request (R413): every slot is checked before any is written. -/
def State.serveBlock (s : State) (n : Nat) (q : Txn) : State :=
  if q.addr % 256 ≠ 0 then s.refuseTxn n q eAlign
  else if !q.mapOk then s.refuseTxn n q eIllegal
  else
    match q.slots.find? (fun e => s.slotCode n q e != eOk) with
    | some e => s.refuseTxn n q (s.slotCode n q e)
    | none =>
      if q.type = 1 then (s.writeSlots n q q.slots (q.payload.drop (pad16 q.nb))).sendResponse q 5 0 []
      else if placeOf s.isM q.addr = .host then
        s.hostAccess (unitPort n) q.dpart q.addr (.load (256 * q.nb)) (.link n q)
      else
        let r := s.readSlots n q q.slots []
        match r.2 with
        | .ok bs => r.1.sendResponse q 6 0 bs
        | .error c => r.1.refuseTxn n q c

/-- Whether an ATOM or SIGNAL names an operation that exists at its size (R135, R412). -/
def Txn.atomOk (t : Txn) : Bool :=
  match t.type with
  | 3 => if t.asz = 1 then t.aop == 9 else decide (t.aop ≤ 9)
  | 4 => t.asz != 1
  | _ => true

/-- The code of a result that may be an error. -/
def exceptCode {α : Type} (x : Except Nat α) : Nat :=
  match x with
  | .error c => c
  | .ok _ => eOk

/-- The code of an ATOM or SIGNAL whose operation does not exist at its size: what orders 1 to 3 of R293 find first, else order 4. -/
def State.atomTypeCode (s : State) (n : Nat) (q : Txn) : Nat :=
  let size := if q.asz = 1 then 16 else if q.asz = 2 then 4 else 8
  let c :=
    if placeOf s.isM q.addr = .reg then exceptCode (s.regAtomic (unitPort n) q.dpart q.addr size 15 0).2
    else s.checkAcc (accFor (unitPort n) q.dpart q.addr (if q.asz = 1 then .cas 16 0 0 else .atom 0 size 0) true)
  if c = eUnmapped ∨ c = eAlign then c else eAtomic

/-- Checks 5 to 7 of R427, then the request is performed and answered. -/
def State.serveTxn (s : State) (n : Nat) (q : Txn) : State :=
  if (s.part q.dpart).reset.resetting then s.refuseTxn n q ePermission
  else if s.sixthCheck n q ≠ eOk then s.refuseTxn n q (s.sixthCheck n q)
  else if q.blk && decide (q.type ≤ 2) then s.serveBlock n q
  else if !q.atomOk then s.refuseTxn n q (s.atomTypeCode n q)
  else
    let r := s.localAccess (unitPort n) q.dpart q.addr q.access true
    match r.2 with
    | .ok bs => r.1.answerTxn q bs
    | .err c => r.1.refuseTxn n q c
    | .host => r.1.hostAccess (unitPort n) q.dpart q.addr q.access (.link n q)

/-- Whether an access to a local address starts a wake and waits for it (R461). -/
def State.mustWake (s : State) (a : Nat) : Bool :=
  decide (s.power.state ≠ 0) &&
  match placeOf s.isM a with
  | .well _ => true
  | .reservoir => true
  | .cistern _ => true
  | .reg => (regAt ((a - regBase) / 8 * 8)).any Reg.wakes
  | _ => false

/-- A request that is handed to its home, or held until full service (R461). -/
def State.serveOrHold (s : State) (n : Nat) (q : Txn) : State :=
  if s.mustWake q.addr then State.requestWake { s with held := s.held ++ [.link n q] } else s.serveTxn n q

/-! Responses (R415, R416, R421). -/

/-- Whether a response answers a request: the same TID and destination, or a transit module's ERR (R415, R421). -/
def answersReq (t : Txn) (r : LinkReq) : Bool :=
  r.tid == t.tid && (r.dstm == t.srcm ||
    (t.type == 7 && t.code == eUnreachable && t.spart == 0 && t.dpart == 0))

/-- The first request that waits for room. -/
def State.waitingReq (s : State) : Option LinkReq := s.links.reqs.find? (fun r => r.unsent.isSome)

/-- Issue the requests that wait, while there is room (R415). A refusal that a stopped square does not log reaches who waits at once
(R142). -/
def State.issueWaiting (s : State) : Nat → State
  | 0 => s
  | f + 1 =>
    match s.waitingReq with
    | none => s
    | some r =>
      if !s.linkRoom then s
      else
        let s1 := s.modLinks (fun l => { l with reqs := l.reqs.filter (fun x => x.tid != r.tid) })
        let x := s1.linkRequest r.unit r.part r.addr (r.unsent.getD {}) r.waiter (replyOf r.waiter)
        let quiet := x.2 ≠ eOk ∧ r.unit < 0x80 ∧ (s.sq r.unit).run = .stopped
        (if quiet then x.1.deliverErr r.waiter r.unit r.part r.addr x.2 else x.1).issueWaiting f

/-- A request has ended: it no longer counts, and another one may be issued. -/
def State.endRequest (s : State) (tid : Nat) : State :=
  let t := s.modLinks (fun l => { l with reqs := l.reqs.filter (fun x => x.tid != tid) })
  t.issueWaiting (t.links.reqs.filter (fun r => r.unsent.isSome)).length

/-- Whether an ERR carries a code that an error response can have (R15 to R17). -/
def Txn.errOk (t : Txn) : Bool := t.type != 7 || decide (1 ≤ t.code ∧ t.code ≤ 14)

/-- A response reaches its requester, its data over the bridges from the port's quarter (R19); one that no request waits for is late, and counted. An ERR with a code that no module reports is
dropped with a record, and its request stays outstanding (LOG 29). -/
def State.takeResponse (s : State) (n : Nat) (t : Txn) : State :=
  if !t.errOk then (s.logErr (unitPort n) t.dpart eIllegal (globalOf t.addr) .none t.srcm).count (unitPort n) 6 1
  else
    match s.links.reqs.find? (answersReq t) with
    | none => s.count (unitPort n) 7 1
    | some r =>
      let s1 := s.endRequest r.tid
      if t.type = 7 then s1.deliverErr r.waiter r.unit r.part r.addr t.code
      else (s1.carry (portDie n) (dieOfUnit r.unit) t.payload.length).deliverOk r.waiter t.payload

/-! Control messages (R431 to R440). -/

/-- A TREQ is answered with the time its flit came and, as the answer leaves, the time of that (R433). -/
def State.takeTreq (s : State) (n : Nat) (t : Txn) : State :=
  s.sendCtl n 3 (slice t.payload 0 8 ++ toBytes 8 t.at_ ++ toBytes 8 s.time)

/-- Half of a number of nanoseconds (R433). -/
def half (x : Int) : Int := if x % 2 = 0 then x / 2 else x / 2 + (if Config.halfUp x then 1 else 0)

/-- The lock after an exchange (R434): 8 exchanges in a row within 4 ns set it, an offset above 1 µs clears it. What the module leads or
trails its parent by it sheds or gains at 200 ppm (R436; LOG 35). -/
def Links.steer (l : Links) (offset delay : Int) (now : Nat) : Links :=
  let near := decide (offset.natAbs ≤ 4)
  let far := decide (1000 < offset.natAbs)
  let k := if near then l.exchanges + 1 else 0
  { l with
    offset := offset, delay := pattern 16 delay, exchanges := k, lastExchange := now, loaded := true
    tlock := !far && (l.tlock || decide (8 ≤ k))
    slew := offset, slewAcc := 0 }

/-- A TRESP from the parent: offset and delay of the stamps where the flits passed the ports, and the steps the time base takes (R433,
R434). A step moves the times that the links wait from along with it. -/
def State.takeTresp (s : State) (n : Nat) (t : Txn) : State :=
  if n ≠ s.links.parentPort then s
  else
    let t1 : Int := (ofBytes (slice t.payload 0 8) : Nat)
    let t2 : Int := (ofBytes (slice t.payload 8 8) : Nat)
    let t3 : Int := (ofBytes (slice t.payload 16 8) : Nat)
    let t4 : Int := (t.at_ : Nat)
    let offset := half ((t1 - t2) + (t4 - t3))
    let delay := half ((t4 - t1) - (t3 - t2))
    let first := !s.links.loaded
    let s1 := s.modLinks (fun l => l.steer offset delay s.time)
    let shift := fun (x : Nat) => ((x : Int) - offset).toNat
    if first || (!s1.links.tlock && decide (offset < -1000)) then
      (s1.advanceTo (shift s.time)).modLinks (fun l => { l with
        lastExchange := shift s.time, t1 := shift l.t1, slew := 0
        reqs := l.reqs.map (fun r => { r with sent := shift r.sent }), gap := l.gap.map (fun h => { h with at_ := shift h.at_ }) })
    else s1

/-- Send the parent an EACK when every child has answered (R438). -/
def State.answerEpoch (s : State) : State :=
  let l := s.links
  if l.inProg ∧ l.role ≠ 1 ∧ l.epochWait = [] then
    s.sendCtl l.parentPort 5 (toBytes 4 l.epoch ++ toBytes 2 l.epochCount ++
      toBytes 1 (bitN (l.epochOk && l.armed && l.epochArm == l.epoch)))
  else s

/-- EPREP from the parent (R438). -/
def State.takeEprep (s : State) (n : Nat) (t : Txn) : State :=
  if n ≠ s.links.parentPort ∨ s.links.role = 1 then s
  else
    let s1 := s.modLinks (fun l => { l with
      inProg := true, epoch := ofBytes (slice t.payload 0 4), epochTc := ofBytes (slice t.payload 4 8)
      epochCount := 1, epochOk := true, epochWait := s.childPorts, committed := false })
    (s1.toChildren 4 (t.payload.take 12)).answerEpoch

/-- EACK from a child that has not answered yet (R438). -/
def State.takeEack (s : State) (n : Nat) (t : Txn) : State :=
  let l := s.links
  if l.inProg && l.epochWait.contains n && l.epoch == ofBytes (slice t.payload 0 4) then
    let s1 := s.modLinks (fun l => { l with
      epochWait := l.epochWait.filter (· != n)
      epochCount := l.epochCount + ofBytes (slice t.payload 4 2)
      epochOk := l.epochOk && ofBytes (slice t.payload 6 1) == 1 })
    if l.role = 1 then s1.settleEpoch else s1.answerEpoch
  else s

/-- Flip the active bank (R438). -/
def State.flipEpoch (s : State) (late : Bool) : State :=
  let e := s.links.epoch % 2 ^ 24
  (s.modLinks (fun l => { l with
    active := 1 - l.active, epochCur := e, armed := false, inProg := false, committed := false, late := l.late || late })).trace
    6 0x10 0 unitReset e 0

/-- ECOMMIT from the parent (R438). -/
def State.takeEcommit (s : State) (n : Nat) (t : Txn) : State :=
  let l := s.links
  if n = l.parentPort ∧ l.role ≠ 1 ∧ l.inProg ∧ l.epoch = ofBytes (slice t.payload 0 4) then
    let s1 := (s.toChildren 6 (t.payload.take 12)).modLinks (fun l => { l with epochTc := ofBytes (slice t.payload 4 8) })
    if s.time < s1.links.epochTc then s1.modLinks (fun l => { l with committed := true })
    else s1.flipEpoch (decide (s1.links.epochTc < s.time))
  else s

/-- The epoch ends without a flip (R438). -/
def State.abandonEpoch (s : State) : State :=
  s.modLinks (fun l => { l with inProg := false, abandoned := true, committed := false })

/-- EABANDON from the parent (R438). -/
def State.takeEabandon (s : State) (n : Nat) (t : Txn) : State :=
  let l := s.links
  if n = l.parentPort ∧ l.role ≠ 1 ∧ l.inProg ∧ l.epoch = ofBytes (slice t.payload 0 4) then
    (s.toChildren 7 (t.payload.take 4)).abandonEpoch
  else s

/-- STOPREQ from a child: the owner stops, another module passes it upward (R440, R513). -/
def State.takeStopreq (s : State) (n : Nat) (t : Txn) : State :=
  if (s.port n).child then s.triggerStop (ofBytes (slice t.payload 0 4) % 2 ^ 31) 4 (ofBytes (slice t.payload 4 2)) else s

/-- A control message (R431). -/
def State.takeControl (s : State) (n : Nat) (t : Txn) : State :=
  match t.code with
  | 2 => s.takeTreq n t
  | 3 => s.takeTresp n t
  | 4 => s.takeEprep n t
  | 5 => s.takeEack n t
  | 6 => s.takeEcommit n t
  | 7 => s.takeEabandon n t
  | 8 => s.takeStopreq n t
  | _ => s

/-! Streams (R417) and checks 2 to 4 of R427. -/

/-- The key of the counter of a received stream. -/
def Txn.streamOf (t : Txn) : Nat := streamKey t.srcm t.spart t.dpart t.ch

/-- What a received transaction decrypts to under its pair's key and a counter; `none` where the tag fails (R426). -/
def State.openTxn (s : State) (t : Txn) (cr : Crypt) : Option (List Byte) :=
  (s.linkKey t.srcm t.dpart t.spart).bind (fun k => t.openWith k cr.ctr)

/-- The transaction as its decryption gives it (R426). -/
def Txn.opened (t : Txn) (plain : List Byte) (ctr : Nat) : Txn :=
  { t with raw := false, payload := (plain ++ List.replicate t.streamLen 0).take t.streamLen, ctr := ctr }

/-- The transaction as this module opens it. -/
def State.opened (s : State) (t : Txn) (cr : Crypt) : Txn := t.opened ((s.openTxn t cr).getD []) cr.ctr

/-- Whether check 3 of R427 passes: the pair and its key are there, and a control message comes from the link peer under the Partition 0
pair (R431). -/
def State.pairChecked (s : State) (n : Nat) (t : Txn) : Bool :=
  s.paired t.srcm t.dpart t.spart && (t.type != 8 || (t.srcm == (s.port n).peerM && t.spart == 0 && t.dpart == 0))

/-- Drop a transaction that failed one of checks 2 to 4 (R427). -/
def State.dropTxn (s : State) (n : Nat) (t : Txn) (code addr : Nat) : State :=
  ((s.freeFlits n t.ch t.flits).logErr (unitPort n) t.dpart code addr .none t.srcm).count (unitPort n) 6 1

/-- Hand a transaction on (R417): its counter is the last one of its stream, its flits are freed, and it takes effect. -/
def State.handOn (s : State) (n : Nat) (t : Txn) (cr : Crypt) (plain : List Byte) : State :=
  let s1 := (s.modLinks (fun l => { l with recvCtr := Table.set 0 l.recvCtr t.streamOf cr.ctr })).freeFlits n t.ch t.flits
  let q := t.opened plain cr.ctr
  if q.type ≤ 4 then s1.serveOrHold n q else if q.type = 8 then s1.takeControl n q else s1.takeResponse n q

/-- Hand on what a stream holds and no gap keeps (R417); a counter that has passed is a replay. -/
def State.handHeld (s : State) (k : Nat) : Nat → State
  | 0 => s
  | f + 1 =>
    let last := Table.get 0 s.links.recvCtr k
    match s.links.gap.find? (fun h => h.txn.streamOf == k && decide (h.cr.ctr ≤ last + 1)) with
    | none => s
    | some h =>
      let s1 := s.modLinks (fun l => { l with gap := l.gap.erase h })
      (if h.cr.ctr = last + 1 then s1.handOn h.port h.txn h.cr h.plain
       else s1.dropTxn h.port h.txn ePermission (globalOf h.txn.addr)).handHeld k f

/-- The port after its choice of what it serves next on a channel, with that transaction's place (R377, R423). -/
def State.inbound (s : State) (n ch : Nat) : Option Nat × Port :=
  (s.port n).serveNext s.links.modnum s.linkWeight ((s.port n).received ch)

/-- The transaction that a port serves next on a channel, the ones that stay, and the port without it. -/
def State.takeInbound (s : State) (n ch : Nat) : Option (Txn × Port) :=
  match s.inbound n ch with
  | (some i, p) => ((p.received ch)[i]?).map (fun t => (t, p.setReceived ch ((p.received ch).eraseIdx i)))
  | (none, _) => none

/-- The transaction that a port serves next on a channel is processed by the command that names its type: checks 2 to
4 of R427, then it is handed on, or held ahead of a gap. Nothing is handed on while the module is stopped and its resume has not begun
(R514, R518). -/
def State.arriveOn (s : State) (n ch : Nat) (mine : Txn → Bool) (cr : Crypt) : State :=
  match s.takeInbound n ch with
  | none => s
  | some (t, p) =>
    if s.linksHeld || decide (t.hptr < t.hops) || !mine t then s
    else
      let s1 := s.setPort n p
      let last := Table.get 0 s.links.recvCtr t.streamOf
      if t.dstm ≠ s.links.modnum then s1.dropTxn n t eUnreachable (t.dstm * 2 ^ 44 + t.addr)
      else if !s.pairChecked n t then s1.dropTxn n t ePermission (globalOf t.addr)
      else
        match s.openTxn t cr with
        | none => s1.dropTxn n t ePermission (globalOf t.addr)
        | some plain =>
          if cr.ctr ≤ last then s1.dropTxn n t ePermission (globalOf t.addr)
          else if cr.ctr = last + 1 then (s1.handOn n t cr plain).handHeld t.streamOf s1.links.gap.length
          else s1.modLinks (fun l => { l with gap := l.gap ++ [⟨n, s.time, t, cr, plain⟩] })

/-- The transaction is looked for on its own channel, and then on the others: no check of R427 refuses one that came on another
channel (LOG 29). -/
def State.arrive (s : State) (n ch : Nat) (mine : Txn → Bool) (cr : Crypt) : State :=
  (s.arriveOn n (([ch, 0, 1, 2].find? (fun c => (s.takeInbound n c).any (fun x => mine x.1))).getD ch) mine cr).settleStop

/-- A transaction of a type. -/
def isType (k : Nat) (t : Txn) : Bool := t.type == k

/-- A control message of a code (R431); one of a code that R431 does not list does nothing, and leaves with STOPREQ's command (LOG 29). -/
def isControl (c : Nat) (t : Txn) : Bool := t.type == 8 && (t.code == c || (c == 8 && outside 2 8 t.code))

def execPut (port : PortId) (cr : Crypt) (s : State) : Host.Outcome State Fault Refusal := .next (s.arrive port.val 0 (isType 1) cr)
def execGet (port : PortId) (cr : Crypt) (s : State) : Host.Outcome State Fault Refusal := .next (s.arrive port.val 0 (isType 2) cr)
def execAtom (port : PortId) (cr : Crypt) (s : State) : Host.Outcome State Fault Refusal := .next (s.arrive port.val 0 (isType 3) cr)
def execSignal (port : PortId) (cr : Crypt) (s : State) : Host.Outcome State Fault Refusal := .next (s.arrive port.val 0 (isType 4) cr)
def execAck (port : PortId) (cr : Crypt) (s : State) : Host.Outcome State Fault Refusal := .next (s.arrive port.val 1 (isType 5) cr)
def execData (port : PortId) (cr : Crypt) (s : State) : Host.Outcome State Fault Refusal := .next (s.arrive port.val 1 (isType 6) cr)
def execErr (port : PortId) (cr : Crypt) (s : State) : Host.Outcome State Fault Refusal := .next (s.arrive port.val 1 (isType 7) cr)
def execTreq (port : PortId) (cr : Crypt) (s : State) : Host.Outcome State Fault Refusal := .next (s.arrive port.val 2 (isControl 2) cr)
def execTresp (port : PortId) (cr : Crypt) (s : State) : Host.Outcome State Fault Refusal := .next (s.arrive port.val 2 (isControl 3) cr)
def execEprep (port : PortId) (cr : Crypt) (s : State) : Host.Outcome State Fault Refusal := .next (s.arrive port.val 2 (isControl 4) cr)
def execEack (port : PortId) (cr : Crypt) (s : State) : Host.Outcome State Fault Refusal := .next (s.arrive port.val 2 (isControl 5) cr)
def execEcommit (port : PortId) (cr : Crypt) (s : State) : Host.Outcome State Fault Refusal := .next (s.arrive port.val 2 (isControl 6) cr)
def execEabandon (port : PortId) (cr : Crypt) (s : State) : Host.Outcome State Fault Refusal := .next (s.arrive port.val 2 (isControl 7) cr)
def execStopreq (port : PortId) (cr : Crypt) (s : State) : Host.Outcome State Fault Refusal := .next (s.arrive port.val 2 (isControl 8) cr)

/-! Transit (R421). -/

/-- The ERR of a request that cannot go on, under the Partition 0 pair with its source when there is one. -/
def State.transitErr (s : State) (t : Txn) : Reply :=
  if t.ch ≠ 0 then .none
  else if s.paired t.srcm 0 0 then .linkErr { t with dpart := 0, spart := 0 } eUnreachable
  else .none

/-- Forward the transaction that a port serves next on a channel on its next hop, over the bridges to that port's quarter, or drop it (R19,
R421, R428). -/
def State.forward (s : State) (n ch : Nat) : State :=
  match s.takeInbound n ch with
  | none => s
  | some (t, p) =>
    if s.linksHeld || decide (t.hops ≤ t.hptr) then s
    else
      let s1 := (s.setPort n p).freeFlits n ch t.flits
      match s.pickPort (s.hopPorts (hopOf t.route t.hptr)) with
      | some m => (s1.carry (portDie n) (portDie m) t.streamLen).toPort m { t with hptr := t.hptr + 1, flits := 0 }
      | none => s1.logErr (unitPort n) t.dpart eUnreachable (t.dstm * 2 ^ 44 + t.addr) (s.transitErr t) t.srcm

def execTransitForward (port : PortId) (ch : Fin 2) (s : State) : Host.Outcome State Fault Refusal :=
  .next (s.forward port.val ch.val).settleStop

/-! Timers of the links (R416, R417, R433, R434, R438, R516). -/

/-- A request unanswered within the link timeout ends with LINK_TIMEOUT (R416). -/
def State.timeOut (s : State) (tid : Nat) : State :=
  match s.links.reqs.find? (fun r => r.tid == tid) with
  | none => s
  | some r =>
    if s.stop.stopped ∨ s.time < r.sent + s.links.timeout * 100000 then s
    else (s.endRequest tid).deliverErr r.waiter r.unit r.part r.addr eTimeout

def execLinkTimeoutExpiry (tid : BitVec 16) (s : State) : Host.Outcome State Fault Refusal := .next (s.timeOut tid.toNat)

/-- The held transaction of a stream with the lowest counter. -/
def lowestHeld (k : Nat) (hs : List HeldTxn) : Option HeldTxn :=
  (hs.filter (fun h => h.txn.streamOf == k)).foldl (fun b h => match b with
    | none => some h
    | some x => if h.cr.ctr < x.cr.ctr then some h else some x) none

/-- A gap that has stayed open too long is closed: what it misses is lost, one record is logged, and what was held
is handed on (R417). -/
def State.closeGap (s : State) (k : Nat) : State :=
  match s.links.gap.find? (fun h => h.txn.streamOf == k), lowestHeld k s.links.gap with
  | some f, some h =>
    if s.stop.stopped ∨ s.time < f.at_ + s.links.timeout * 25000 then s
    else
      let s1 := (s.logErr (unitPort h.port) h.txn.dpart eTimeout (globalOf h.txn.addr) .none h.txn.srcm).count (unitPort h.port) 8 1
      (s1.modLinks (fun l => { l with recvCtr := Table.set 0 l.recvCtr k (h.cr.ctr - 1) })).handHeld k s.links.gap.length
  | _, _ => s

def execGapTimeout (stream : StreamId) (s : State) : Host.Outcome State Fault Refusal :=
  .next (s.closeGap (streamKey stream.srcm stream.spart stream.dpart stream.ch))

/-- Every 125 µs a module with a parent sends TREQ (R433). -/
def execTimeExchange (s : State) : Host.Outcome State Fault Refusal :=
  .next (let l := s.links
    if l.parentPort < 96 ∧ s.stop.stopped = false ∧ (l.t1 = 0 ∨ l.t1 + 125000 ≤ s.time) then
      (s.modLinks (fun l => { l with t1 := s.time })).sendCtl l.parentPort 2 (toBytes 8 s.time)
    else s)

/-- 5 ms without an exchange clear TLOCK (R434). -/
def execTlockTimeout (s : State) : Host.Outcome State Fault Refusal :=
  .next (if s.links.parent ≠ 0x7F ∧ s.links.tlock ∧ s.links.lastExchange + 5000000 ≤ s.time then
      s.modLinks (fun l => { l with tlock := false, exchanges := 0 })
    else s)

/-- Tc arrives (R438): a committed module flips; a master without its count abandons. -/
def execEpochCommitTime (s : State) : Host.Outcome State Fault Refusal :=
  .next (let l := s.links
    if l.inProg = false ∨ s.time < l.epochTc then s
    else if l.committed then s.flipEpoch false
    else if l.role = 1 then (s.toChildren 7 (toBytes 4 l.epoch)).abandonEpoch
    else s)

/-- An ECOMMIT or EABANDON that the parent's port has received waits for the end of a stop (R438, R519). -/
def State.epochHeld (s : State) : Bool :=
  ((s.port s.links.parentPort).rxCtl ++ s.links.gap.map (·.txn)).any (fun t => isControl 6 t || isControl 7 t)

/-- Neither message came by Tc + 10 ms (R438). -/
def execEpochAbandonTimeout (s : State) : Host.Outcome State Fault Refusal :=
  .next (if s.links.inProg ∧ s.links.committed = false ∧ s.epochHeld = false ∧ s.links.epochTc + 10000000 ≤ s.time then s.abandonEpoch else s)

/-! MARK flits (R439, R440, R518). -/

/-- The identity a MARK carries in body bytes 0 to 3. -/
def markId (f : Flit) : Nat := ofBytes (slice (flitBody f) 0 4)

/-- A MARK or resume MARK flit, accepted in order like a DATA flit. -/
def State.markFlit (s : State) (n : Nat) (f : Flit) (resume : Bool) (act : State → State) : State :=
  if (s.port n).state ≠ 2 ∨ f.ft ≠ 3 ∨ decide (2 ^ 31 ≤ markId f) ≠ resume then s
  else
    let r := s.acceptFlit n f
    if r.2 then act (r.1.sendIdle n 0 0) else r.1

/-- The first MARK makes the module stop (R439). -/
def execMark (port : PortId) (f : Flit) (s : State) : Host.Outcome State Fault Refusal :=
  .next (s.markFlit port.val f false (fun t => if t.stop.stopped then t else t.enterStop (markId f) 3))

/-- A resume MARK of the stop ends it here too (R518). -/
def execResumeMark (port : PortId) (f : Flit) (s : State) : Host.Outcome State Fault Refusal :=
  .next (s.markFlit port.val f true (fun t => if t.stop.stopped && t.stop.id == markId f - 2 ^ 31 then t.leaveStop else t))

end Sys2Proof.Machine
end

