-- ==== Sys2Proof/Machine/Prefix.lean ====
section
/-! DEFINITION. The prefix-lookup command (09): the block hash, the probe window, pinning and verifying, committing,
and the result word. -/

namespace Sys2Proof.Machine

/-! The block hash (R248, R249). -/

/-- Rotate left. -/
def rotl64 (x : Reg64) (r : Nat) : Reg64 := (x <<< r) ||| (x >>> (64 - r))

/-- The hash of one block (R248). -/
def blockHash (prev : Reg64) (toks : List Nat) (t : Nat) (key : Reg64) : Reg64 :=
  let x := toks.foldl (fun (x : Reg64) v => rotl64 x 13 ^^^ BitVec.ofNat 64 v) 0
  let z0 := prev ^^^ key ^^^ x ^^^ (BitVec.ofNat 64 t <<< 56)
  let z1 := (z0 ^^^ (z0 >>> 31)) * 0x9B5C3A2FE4D17A6B
  let z2 := z1 ^^^ (z1 >>> 29)
  if z2.toNat < 2 then z2 + 2 else z2

/-- The chained hashes of the next `n` blocks (R249). -/
def chainHashes (t : Nat) (key : Reg64) : Nat → Reg64 → List Nat → List Reg64
  | 0, _, _ => []
  | n + 1, prev, toks =>
    let h := blockHash prev (toks.take t) t key
    h :: chainHashes t key n h (toks.drop t)

/-! Structures and checks (R253, R254, R259). -/

/-- A lookup descriptor from its 64 bytes (R253). -/
def lookupOf (v : Nat) : Lookup where
  fmt := bits v 32 7
  ngrp := bits v 40 8
  layers := bits v 48 16
  nreq := bits v 64 16
  req := bits v 80 56

/-- A request record from its 64 bytes (R254). -/
def lookReqOf (v : Nat) : LookReq where
  ntok := bits v 160 32
  tok := bits v 192 56
  nbmax := bits v 288 32
  pt := bits v 320 56
  bref := bits v 384 56
  result := bits v 448 56

/-- The causes of the descriptor (R259). An NGRP of 65 to 255 is refused as one of 0 is (R253; LOG 86). -/
def State.lookCauses (s : State) (v addr part : Nat) : List Cause :=
  let k := lookupOf v
  let p := s.part part
  causeIf (bits v 0 4 != 0 || !fmtOk k.fmt || k.layers == 0 || outside 1 64 k.ngrp || k.nreq == 0 || anySet v [(4, 28), (39, 1), (136, 376)])
    1 eIllegal addr ++
  causeIf (k.req % 64 != 0) 2 eAlign k.req ++
  causeIf (p.pfxLog2n != 0 && !inMemory s.isM p.pfxBase (64 * 2 ^ p.pfxLog2n)) 3 ePermission (globalOf p.pfxBase)

/-- The causes of a request record (R259). -/
def reqCauses (v addr : Nat) : List Cause :=
  let r := lookReqOf v
  causeIf (anySet v [(0, 160), (248, 40), (376, 8), (440, 8), (504, 8)]) 1 eIllegal addr ++
  causeIf (r.result % 8 != 0) 2 eAlign r.result ++
  causeIf (r.bref % 8 != 0) 2 eAlign r.bref ++
  causeIf (r.pt % 8 != 0) 2 eAlign r.pt ++
  causeIf (r.tok % 4 != 0) 2 eAlign r.tok

/-- The verdict on a lookup's structures (R259, causes 1 to 3, then 5). -/
def State.lookVerdict (s : State) (l : Launch) (v : Nat) (reqs : FarOut) : StartOut Lookup :=
  let k := lookupOf v
  let bs := match reqs with | .ok bs => bs | _ => []
  let rs := recordsOf bs (bs.length / 64)
  match lowestCause (s.lookCauses v l.daddr l.part ++ rs.zipIdx.flatMap (fun x => reqCauses x.1 (addr56 k.req (64 * x.2)))) with
  | some c => .fault none c.code c.addr none
  | none =>
    match reqs with
    | .err c lg => .fault none c k.req lg
    | _ => .ok { k with reqs := rs.map lookReqOf }

/-- A lookup reads and checks its structures as it starts (R259, R559). -/
def State.lookStart (s : State) (l : Launch) (u : Nat) : State × StartOut Lookup :=
  let r0 := s.readOnce (.square l.id u) u l.part l.daddr 64
  match r0.2 with
  | .wait => (r0.1, .wait)
  | .err c lg => (r0.1, .fault none c l.daddr lg)
  | .ok bs =>
    let v := ofBytes bs
    let r1 := r0.1.readIf l u ((lookupOf v).nreq != 0) (lookupOf v).req (64 * (lookupOf v).nreq)
    match r1.2 with
    | .wait => (r1.1, .wait)
    | x => (r1.1, r1.1.lookVerdict l v x)

/-! Requests. -/

/-- A request that a square of a lookup serves, and that is not finished. -/
def State.lookItem (s : State) (u req : Nat) (f : Launch → Lookup → LookReq → State) : State :=
  match s.launchOn u with
  | none => s
  | some l =>
    match l.look with
    | none => s
    | some k =>
      match k.reqs[req]? with
      | none => s
      | some r => if req % (s.sq u).setSize = (s.sq u).rank ∧ r.written = false then f l k r else s

/-- Change a request of a launch. -/
def State.modReq (s : State) (id req : Nat) (f : LookReq → LookReq) : State :=
  s.modLaunch id (fun l => { l with look := l.look.map (fun k => { k with reqs := k.reqs.modify req f }) })

/-- Tokens of a block (R253). -/
def Lookup.tokens (k : Lookup) : Nat := (pageFmt k.fmt).tokens

/-- Blocks of a request (R255). -/
def Lookup.blockCount (k : Lookup) (r : LookReq) : Nat := min (r.ntok / k.tokens) r.nbmax

/-- Little-endian 32-bit numbers of bytes. -/
def words32 (bs : List Byte) : Nat → List Nat
  | 0 => []
  | n + 1 => ofBytes (bs.take 4) :: words32 (bs.drop 4) n

/-- What the slot of a node says of a probe (R251, R252). -/
inductive ProbeOut where
  | empty
  | skip
  | hit (brec : Nat)
deriving DecidableEq, Repr

/-- A node against the hash, the previous hash and the block sought (R252). -/
def probeNode (v : Nat) (h prev : Reg64) (b : Nat) : ProbeOut :=
  if bits v 0 64 = 0 then .empty
  else if bits v 0 64 = h.toNat ∧ bits v 64 64 = prev.toNat ∧ bits v 416 32 = b then .hit (bits v 128 56)
  else .skip

/-- Scan a probe window of `n` more slots from slot i on (R252): the candidate's address and record, or the failing read
with its address. -/
def State.scanWindow (s : State) (u part : Nat) (h prev : Reg64) (b : Nat) : Nat → Nat → State × Except (Nat × Nat) (Option (Nat × Nat))
  | 0, _ => (s, .ok none)
  | n + 1, i =>
    let p := s.part part
    let a := p.pfxBase + 64 * ((h.toNat + i) % 2 ^ p.pfxLog2n)
    let r := s.accRead ⟨u, part, a, 64, .read, true⟩
    match r.2 with
    | .error c => (r.1, .error (c, globalOf a))
    | .ok bs =>
      match probeNode (ofBytes bs) h prev b with
      | .empty => (r.1, .ok none)
      | .hit brec => (r.1, .ok (some (a, brec)))
      | .skip => r.1.scanWindow u part h prev b n (i + 1)

/-- The candidate of R252 for block b; a tree that is disabled has none (R250). -/
def State.probe (s : State) (u part : Nat) (r : LookReq) (b : Nat) : State × Except (Nat × Nat) (Option (Nat × Nat)) :=
  let p := s.part part
  if p.pfxLog2n = 0 then (s, .ok none)
  else s.scanWindow u part (r.hashes.getD b 0) (if b = 0 then 0 else r.hashes.getD (b - 1) 0) b p.pfxProbe 0

/-- Hash the blocks of a request, then probe for its next block (R255, R256). -/
def State.lookRequest (s : State) (u req : Nat) : State :=
  s.lookItem u req (fun l k r =>
    let nb := k.blockCount r
    if !r.hashed && nb == 0 then s.modReq l.id req (fun x => { x with hashed := true })
    else if !r.hashed then
      s.cmdRead (.request l.id req) l u r.tok (4 * (nb * k.tokens)) (fun t bs =>
        let ws := words32 bs (nb * k.tokens)
        (t.forgetFar (.request l.id req)).modReq l.id req (fun x => { x with
          hashed := true, toks := ws, hashes := chainHashes k.tokens (t.part l.part).pfxKey nb 0 ws }))
    else if r.stop.isSome || decide (nb ≤ r.probe) || decide (r.committed + 8 ≤ r.probe) || r.cands.any (fun c => c.2.isNone) then s
    else
      let x := s.probe u l.part r r.probe
      match x.2 with
      | .error e => x.1.cmdFault u e.1 e.2 none
      | .ok c => x.1.modReq l.id req (fun y => { y with probe := r.probe + 1, cands := r.cands ++ [(r.probe, c)] }))

def execLookupRequest (sq : SquareId) (req : Nat) (s : State) : Host.Outcome State Fault Refusal := .next (s.lookRequest sq.val req)

/-- A request stops: it takes no further pin (R255, R256). -/
def State.stopReq (s : State) (id req code : Nat) : State :=
  (s.forgetFar (.request id req)).modReq id req (fun r => { r with stop := some code, cands := [] })

/-- Give a pin back (R255): an atomic add of 2^64 − 1. -/
def State.undoPin (s : State) (l : Launch) (u brec : Nat) : State := s.cmdAdd l u brec (2 ^ 64 - 1)

/-- Give back the pin of a command that has faulted (R260). -/
def State.dropPin (s : State) (l : Launch) (u brec : Nat) : State := s.tailAdd l u brec (2 ^ 64 - 1)

/-- Whether a record's header is the one a lookup expects (R239, R255). -/
def recordOk (k : Lookup) (hdr : Nat) : Bool := bits hdr 80 16 == k.layers && bits hdr 72 8 == k.ngrp && bits hdr 64 7 == k.fmt

/-- Whether the page of entry (0, 0) holds a block's tokens (R209, R255). -/
def pageMatches (k : Lookup) (b : Nat) (toks : List Nat) (page : List Byte) : Bool :=
  let h := ofBytes (page.take 64)
  let t := k.tokens
  bits h 24 16 == 0 && bits h 40 8 == 0 && bits h 0 7 == k.fmt && bits h 64 64 == b * t && bits h 48 8 == t &&
    words32 (page.drop 64) t == (toks.drop (b * t)).take t

/-- A pinned block fails: its pin is given back and the request stops, or the command faults (R255, R259). -/
def State.failPin (s : State) (l : Launch) (u req brec code addr : Nat) (logged : Option Nat) : State :=
  (((s.cmdFault u code addr logged).dropPin l u brec).forgetFar (.request l.id req)).modReq l.id req (fun r => { r with cands := [] })

/-- Verify the block of a record that is pinned (R255). -/
def State.verifyPin (s : State) (l : Launch) (k : Lookup) (r : LookReq) (u req b node brec : Nat) : State :=
  let x := s.readFar (.request l.id req) u l.part brec 72
  match x.2 with
  | .wait => x.1
  | .err c lg => x.1.failPin l u req brec c brec lg
  | .ok bs =>
    let e := ofBytes (slice bs 64 8)
    let page := bits e 15 29 * 32768
    if !recordOk k (ofBytes (bs.take 64)) then (x.1.undoPin l u brec).stopReq l.id req 3
    else if !e.testBit 63 then x.1.failPin l u req brec ePage (addr56 brec 64) none
    else
      match x.1.readRegions u l.part with
      | .error f => x.1.failPin l u req brec f.1 (globalOf f.2) none
      | .ok rs =>
        let y := x.1.readBlocks u l.part rs x.1.mem 2 page []
        match y.2 with
        | .error f => y.1.failPin l u req brec f.1 f.2 none
        | .ok pb =>
          if pageMatches k b r.toks pb then
            ((y.1.acquire u 3).forgetFar (.request l.id req)).modReq l.id req (fun z => { z with cands := z.cands.tail, pins := z.pins ++ [(b, brec, node)] })
          else (y.1.undoPin l u brec).stopReq l.id req 3

/-- A count word from its REFS and its bits 34:32: reserved bits are written 0 (R11, R239). -/
def countWord (refs rest : Nat) : Nat := refs + 2 ^ 32 * rest

/-- Pin the first block that has been probed: the loop of compare-swaps on its count word (R239, R255). REFS
of 2^32 - 1 becomes 0, with no carry (LOG 86). -/
def State.pinBlock (s : State) (u req : Nat) : State :=
  s.lookItem u req (fun l k r =>
    match r.cands with
    | [] => s
    | (b, c) :: _ =>
      match c with
      | none => s.stopReq l.id req 1
      | some (node, brec) =>
        if brec = 0 then s.stopReq l.id req 2
        else if !s.roomFor 4 then s
        else
          let x := s.farAccess (.request l.id req) u l.part brec (.load 8) true { type := 2, len := 8 }
          match x.2 with
          | .wait => x.1
          | .err e lg => x.1.cmdFault u e brec lg
          | .ok bs =>
            let old := ofBytes bs
            let st := bits old 32 2
            if st = 1 then x.1.stopReq l.id req 2
            else if st ≠ 0 then x.1.stopReq l.id req 4
            else
              let k' := AccessKind.cas 8 (countWord ((old + 1) % 2 ^ 32) (bits old 32 3)) old
              let y := x.1.farAccess (.request l.id req) u l.part brec k' false (txnFor k')
              match y.2 with
              | .wait => y.1
              | .err e lg => y.1.cmdFault u e brec lg
              | .ok got => if ofBytes got = old then y.1.verifyPin l k r u req b node brec else y.1.forgetFar (.request l.id req))

def execLookupBlockPin (sq : SquareId) (req : Nat) (s : State) : Host.Outcome State Fault Refusal := .next (s.pinBlock sq.val req)

/-! Commits (R255, R256). -/

/-- The address of the page-table entry of a record's entry i for block b (R212, R239). -/
def LookReq.entryAddr (r : LookReq) (b i : Nat) : Nat := addr56 r.pt (8 * (i * r.nbmax + b))

/-- A record entry as it is written into a page table: VALID and the page, with SHARED set; reserved bits are written 0 (R11, R211,
R241, R255). -/
def sharedEntry (e : Nat) : Nat := 2 ^ 63 * bitN (e.testBit 63) + 2 ^ 62 + bits e 15 29 * 2 ^ 15

/-- Entries written by one command at most (LOG 18). -/
def commitChunk : Nat := 4096

/-- Withdraw the entries already written for a block (R255). -/
def State.withdraw (s : State) (l : Launch) (u : Nat) (r : LookReq) (b : Nat) : State :=
  (upto r.wrote).foldl (fun t i => if (t.sq u).run = .running then t.cmdWrite l u (r.entryAddr b i) (toBytes 8 0) else t) s

/-- Write the next entries of a block, and after the last one its block array entry and the node's stamp. The pin is kept until the
block array entry is written: one on another module is when its write is acknowledged (R260). -/
def State.writeEntries (s : State) (l : Launch) (u req : Nat) (r : LookReq) (b brec node : Nat) (es : List Nat) : State :=
  let now := (es.drop r.wrote).take commitChunk
  let t := now.zipIdx.foldl (fun t x =>
    if (t.sq u).run = .running then t.cmdWrite l u (r.entryAddr b (r.wrote + x.2)) (toBytes 8 (sharedEntry x.1)) else t) s
  let t0 := t.modReq l.id req (fun x => { x with wrote := r.wrote + now.length })
  if (t.sq u).run ≠ .running ∨ r.wrote + now.length < es.length then t0
  else
    let k' := AccessKind.store (toBytes 8 brec)
    let x := t0.farAccess (.request l.id req) u l.part (addr56 r.bref (8 * b)) k' true (txnFor k')
    match x.2 with
    | .wait => x.1
    | .err c lg => x.1.cmdFault u c (addr56 r.bref (8 * b)) lg
    | .ok _ =>
      ((x.1.forgetFar (.request l.id req)).modReq l.id req (fun x => { x with pins := x.pins.tail, committed := b + 1, wrote := 0 })).cmdWrite l u
        (globalOf (node + 56)) (toBytes 8 x.1.time)

/-- Commit the lowest block that is pinned. -/
def State.commitBlock (s : State) (u req : Nat) : State :=
  s.lookItem u req (fun l k r =>
    match r.pins with
    | [] => s
    | (b, brec, node) :: _ =>
      if !s.roomFor (commitChunk + 2) then s
      else
        s.cmdRead (.request l.id req) l u (addr56 brec 64) (8 * (k.layers * k.ngrp)) (fun t bs =>
          let es := (upto (k.layers * k.ngrp)).map (fun i => ofBytes (slice bs (8 * i) 8))
          match es.findIdx? (fun e => !e.testBit 63) with
          | some i => (t.withdraw l u r b).cmdFault u ePage (addr56 brec (64 + 8 * i)) none
          | none => t.writeEntries l u req r b brec node es))

def execLookupBlockCommit (sq : SquareId) (req : Nat) (s : State) : Host.Outcome State Fault Refusal := .next (s.commitBlock sq.val req)

/-- The result word after every commit of a request (R256, R257). -/
def State.lookResult (s : State) (u req : Nat) : State :=
  s.lookItem u req (fun l k r =>
    let done := r.stop.isSome || (r.hashed && decide (r.committed = k.blockCount r))
    if !done || !r.pins.isEmpty || !s.roomFor 1 then s
    else
      let t := s.cmdWrite l u r.result (toBytes 8 (r.committed + r.stop.getD 0 * 2 ^ 32))
      if (t.sq u).run = .running then t.modReq l.id req (fun x => { x with written := true }) else t)

def execLookupResult (sq : SquareId) (req : Nat) (s : State) : Host.Outcome State Fault Refusal := .next (s.lookResult sq.val req)

/-! Pins left when a command ends (R260). -/

/-- The record that a request's compare-swap pinned elsewhere before the command stopped. -/
def State.strayPins (s : State) (id : Nat) : List Nat :=
  s.far.filterMap (fun x =>
    match x.owner, x.kind, x.result with
    | .request i _, .cas _ _ old, some (c, bs) => if i = id ∧ c = eOk ∧ ofBytes bs = old then some x.addr else none
    | _, _, _ => none)

/-- Whether the write of a block array entry elsewhere was acknowledged: the request committed its block (R260). -/
def State.bindDone (s : State) (id req : Nat) (r : LookReq) (b : Nat) : Bool :=
  s.far.any (fun x => x.owner == .request id req && x.addr == addr56 r.bref (8 * b) && x.result.any (fun y => y.1 == eOk) &&
    (match x.kind with | .store _ => true | _ => false))

/-- The pins of a launch without a block array entry. -/
def State.openPins (s : State) (l : Launch) : List Nat :=
  (l.look.map (fun k => k.reqs.zipIdx.flatMap (fun r => (r.1.pins.filter (fun p => !s.bindDone l.id r.2 r.1 p.1)).map (fun p => p.2.1)))).getD [] ++
    s.strayPins l.id

/-- Undo every such pin (R260). -/
def State.undoPins (s : State) (l : Launch) : State :=
  let t := (s.openPins l).foldl (fun t g => t.dropPin l l.lead g) s
  (t.forgetLaunch l.id).modLaunch l.id (fun m => { m with look := m.look.map (fun k => { k with reqs := k.reqs.map (fun r => { r with pins := [] }) }) })

end Sys2Proof.Machine
end

