-- ==== Sys2Proof/Machine/Launch.lean ====
section
/-! DEFINITION. The start and the end of a launch (12): which squares it takes, its checks, the kernel descriptor, what
each square holds when it starts, and what its end leaves (R341 to R347, R355). -/

namespace Sys2Proof.Machine

/-! The squares of a launch (R341, R345, R346). -/

/-- The product of QMASK and SMASK, less the squares of fenced quarters under FSKIP (R341, R347). -/
def State.candidates (s : State) (l : Launch) : List Nat :=
  (upto 128).filter (fun u => l.qmask.testBit (u / 16) && l.smask.testBit (u % 16) && !(l.fskip && (s.fence (u / 16)).fenced))

/-- Whether a launch stands in the list of a square: it names it and has not had its report (R345, R346). A launch that the
destruction of its queue has ended stays until step 6 (R367). -/
def State.holdsSquare (s : State) (l : Launch) (u : Nat) : Bool :=
  match l.stage with
  | .issued => (s.candidates l).contains u
  | .running => l.set.contains u && (l.closing || !l.reports.any (fun r => r.sq == u))
  | .ended => l.closing && l.set.contains u

/-- Whether a launch stands at the head of the list of every square it names. -/
def State.atHead (s : State) (l : Launch) (us : List Nat) : Bool :=
  (s.launches.takeWhile (fun m => m.id != l.id)).all (fun m => us.all (fun u => !s.holdsSquare m u))

/-- Checks 4 and 5 of R344. -/
def State.setCause (s : State) (l : Launch) (us : List Nat) : Option (Nat × Nat) :=
  firstCause [cause (us.any (fun u => !s.squareOwnedBy u l.part)) ePermission l.iaddr,
    cause (us.isEmpty || us.any (fun u => (s.fence (u / 16)).fenced)) eUnmapped l.iaddr]

/-! Kernel descriptors (R342, R344). -/

/-- A kernel descriptor (R342). -/
structure KernelDesc where
  code : Nat
  codelen : Nat
  allotBase : Nat
  allotSize : Nat
  ccount : Nat
  cbase : Nat
  seedld : Bool
  gridX : Nat
  gridY : Nat
  sfaddr : Nat
  sfbase : Nat
  sfcnt : Nat
  cbaddr : Nat
  cbslot : Nat
  cbcnt : Nat
  seed : Nat
  args : List Reg64
deriving DecidableEq, Repr

/-- A kernel descriptor from its 128 bytes, with GRID and ARG7 replaced as the launch directs (R340, R342). -/
def kernelDescOf (l : Launch) (v : Nat) : KernelDesc where
  code := bits v 0 56
  codelen := bits v 64 17
  allotBase := bits v 81 12
  allotSize := bits v 93 13
  ccount := bits v 106 7
  cbase := bits v 113 6
  seedld := v.testBit 119
  gridX := match l.grid with | some g => (gridOfReg g).1 | none => bits v 128 32
  gridY := match l.grid with | some g => (gridOfReg g).2 | none => bits v 160 32
  sfaddr := bits v 192 56
  sfbase := bits v 248 10
  sfcnt := bits v 258 11
  cbaddr := bits v 272 56
  cbslot := bits v 328 6
  cbcnt := bits v 334 7
  seed := bits v 384 128
  args := (upto 7).map (fun i => BitVec.ofNat 64 (bits v (512 + 64 * i) 64)) ++ [l.arg7.getD (BitVec.ofNat 64 (bits v 960 64))]

/-- Reserved bits of a kernel descriptor (R342). -/
def kernelReserved (v : Nat) : Bool := anySet v [(56, 8), (120, 8), (269, 3), (341, 43)]

/-- Checks 1 to 3 of R344 that concern descriptor fields. -/
def kernelCause (l : Launch) (v : Nat) : Option (Nat × Nat) :=
  let d := kernelDescOf l v
  firstCause [
    cause (kernelReserved v || badGrid l.order d.gridX d.gridY || d.codelen % 16 != 0 || outside 16 65536 d.codelen || d.allotSize == 0 ||
      decide (64 < d.ccount)) eIllegal l.iaddr,
    cause (d.code % 16 != 0) eAlign d.code,
    cause (d.sfaddr % 4 != 0) eAlign d.sfaddr,
    cause (d.cbaddr % 32 != 0) eAlign d.cbaddr,
    cause (decide (4096 < d.allotBase + d.allotSize) || decide (64 < d.cbase + d.ccount) || decide (1024 < d.sfbase + d.sfcnt) ||
      decide (64 < d.cbslot + d.cbcnt)) eAllot l.daddr]

/-! Starting. -/

/-- A launch that fails a check starts no square (R344). -/
def State.failLaunch (s : State) (id code : Nat) : State :=
  s.modLaunch id (fun l => { l with stage := .running, set := [], status := BitVec.ofNat 64 code })

/-- A square that a launch takes: its flags are clear, its pump's tickets start anew, its near cache is discarded
(R50, R108, R282). -/
def Square.takeLaunch (q : Square) (l : Launch) (rank n : Nat) : Square :=
  { q with
    run := .running, stall := .ending, launch := l.id, kpart := l.part, codeAddr := 0, code := [], pc := 0
    rank := rank, setSize := n, accSat := false, outSat := false, fault := none, atOps := [], near := []
    pump := { q.pump with queue := [], cur := none, lastTicket := 0, lastDone := 0, released := 0 } }

/-- The fountain at kernel start (R201). -/
def Fountain.start (f : Fountain) (seedld : Bool) (seed : Nat) : Fountain :=
  let g := { f with mode := f.ctlMode }
  if seedld then { g.reseed seed with badLane := [] } else g

/-- A square at the start of a kernel (R34, R41, R61, R79, R108, R111, R132, R348). -/
def Square.startKernel (q : Square) (l : Launch) (d : KernelDesc) (rank n : Nat) : Square :=
  { q.takeLaunch l rank n with
    stall := .none, codeAddr := d.code, sregs := Table.setList 0 [] 1 d.args
    allotBase := 4096 * d.allotBase, allotSize := 4096 * d.allotSize, cbase := d.cbase, ccount := d.ccount
    gridX := d.gridX, gridY := d.gridY, order := l.order, nextPos := rank
    tile := BitVec.allOnes 64, tileXY := BitVec.allOnes 64
    acc := [], vreg := [], sfile := [], cbook := [], utab := [], uactive := []
    badTile := [], badLane := [], badCb := [], badTab := Table.clear q.badTab 16384 32768
    ftn := q.ftn.start d.seedld d.seed }

/-- Scale words as they enter the scale file (R32, R108). -/
def normalWords (bs : List Byte) (n : Nat) : List Word := (words32 bs n).map (fun w => (Scale.ofWord (BitVec.ofNat 32 w)).toWord)

/-- The instructions of a code range. -/
def codeOfBytes (bs : List Byte) (n : Nat) : List Code := (upto n).map (fun i => BitVec.ofNat 128 (ofBytes (slice bs (16 * i) 16)))

/-- A preload or code read of a square: an error response ends its kernel (R110, R343). -/
def State.squareLoad (s : State) (l : Launch) (u g n : Nat) (f : Square → List Byte → Square) : State :=
  if n = 0 ∨ (s.sq u).run ≠ .running then s
  else s.cmdRead (.square l.id u) l u g n (fun t bs => t.modSq u (fun q => f q bs))

/-- The preloads of a square and its code read (R110, R343). -/
def State.squareLoads (s : State) (l : Launch) (d : KernelDesc) (u : Nat) : State :=
  let s1 := s.squareLoad l u d.sfaddr (4 * d.sfcnt) (fun q bs => { q with sfile := Table.setList 0 q.sfile d.sfbase (normalWords bs d.sfcnt) })
  let s2 := s1.squareLoad l u d.cbaddr (256 * d.cbcnt) (fun q bs => { q with cbook := Table.setList 0 q.cbook (256 * d.cbslot) bs })
  s2.squareLoad l u d.code d.codelen (fun q bs => { q with code := codeOfBytes bs (d.codelen / 16) })

/-- The launch of a kernel reaches a square. -/
def State.startSquare (s : State) (l : Launch) (d : KernelDesc) (n : Nat) (x : Nat × Nat) : State :=
  let t := ((s.modSq x.1 (fun q => q.startKernel l d x.2 n)).count x.1 13 1).trace 2 0x05 l.part x.1 d.code 0
  (t.squareLoads l d x.1).forgetFar (.square l.id x.1)

/-- A launch has started: it is counted, traced, and keeps its set (R341, R359, R508). -/
def State.launchStarted (s : State) (l : Launch) (us : List Nat) : State :=
  (((s.modLaunch l.id (fun m => { m with stage := .running, set := us })).modCtx l.queue (fun c => { c with nlaunch := c.nlaunch + 1 })).count
    unitHall 1 1).trace 1 0x03 l.part unitHall l.daddr (l.stx + 256 * l.queue)

/-- Ranges that the squares of a kernel read before their first instruction. -/
def KernelDesc.ranges (d : KernelDesc) : List (Nat × Nat) :=
  [(d.sfaddr, 4 * d.sfcnt), (d.cbaddr, 256 * d.cbcnt), (d.code, d.codelen)].filter (fun r => decide (r.2 ≠ 0))

/-- A square asks for those that lie elsewhere; whether every answer is there. -/
def State.prefetch (s : State) (l : Launch) (u : Nat) (rs : List (Nat × Nat)) : State × Bool :=
  rs.foldl (fun acc r =>
    if acc.1.isLocal r.1 && placeOf acc.1.isM (r.1 % 2 ^ 44) != .host then acc
    else
      let x := acc.1.readFar (.square l.id u) u l.part r.1 r.2
      match x.2 with
      | .wait => (x.1, false)
      | _ => (x.1, acc.2)) (s, true)

/-- Every square of a set asks for its ranges that lie elsewhere (R343); whether every answer is there. -/
def State.prefetchAll (s : State) (l : Launch) (us : List Nat) (rs : List (Nat × Nat)) : State × Bool :=
  us.foldl (fun acc u => let x := acc.1.prefetch l u rs; (x.1, acc.2 && x.2)) (s, true)

/-- The first cause of R344 at a launch's start, with whether its record exists: the descriptor's own causes (checks 1 to 3) come
before those of the set (checks 4 and 5), an error response to the descriptor read after them (check 6). -/
def launchCause (desc set : Option (Nat × Nat)) (read : FarOut) (daddr : Nat) : Option ((Nat × Nat) × Bool) :=
  match desc, set, read with
  | some e, _, _ => some (e, false)
  | none, some e, _ => some (e, false)
  | none, none, .err c lg => some ((c, daddr), lg.isSome)
  | _, _, _ => none

/-- Start a kernel on its set: the descriptor is read once, also where the start waits for other reads, and every check of this moment is made, and the first cause in table order is
reported (R343, R344, R346). -/
def State.startKernel (s : State) (l : Launch) (us : List Nat) : State :=
  let r := s.readOnce (.launch l.id) unitHall l.part l.daddr 128
  let v := match r.2 with | .ok bs => ofBytes bs | _ => 0
  if r.2 = .wait then r.1
  else
    match launchCause (if r.2 matches .ok _ then kernelCause l v else none) (s.setCause l us) r.2 l.daddr with
    | some (e, logged) => (if logged then r.1 else r.1.logErr unitHall l.part e.1 e.2).failLaunch l.id e.1
    | none =>
      let d := kernelDescOf l v
      let x := r.1.prefetchAll l us d.ranges
      if !x.2 then x.1
      else us.zipIdx.foldl (fun t u => t.startSquare l d us.length u) ((x.1.launchStarted l us).forgetFar (.launch l.id))

/-- Take the squares of a fused command, with the working space and the counters of attention (R219); each counts one more command
(R494). -/
def State.takeSquares (s : State) (l : Launch) (us : List Nat) (d : AttnDesc) : State :=
  us.zipIdx.foldl (fun t u =>
    ((t.count u.1 13 1).modSq u.1 (fun q => { q.takeLaunch l u.2 us.length with
      allotBase := 4096 * d.allotBase, allotSize := 4096 * d.allotSize, cbase := d.cbase, ccount := d.ccount })).spoilSpace u.1) s

/-- Start a command of attention, which checks its structures on its squares (R237, R559). The lead square reads them, so that a cause
found there is a fault of that square: the manual does not say which square of the set it is (LOG 74). -/
def State.startAttention (s : State) (l : Launch) (us : List Nat) : State :=
  let r := s.attnStart l (us.headD 0)
  match r.2 with
  | .wait => r.1
  | .ok a => (((r.1.launchStarted l us).modLaunch l.id (fun m => { m with attn := some a })).takeSquares l us a.desc).forgetLaunch l.id
  | .fault keep c a logged =>
    (((r.1.launchStarted l us).modLaunch l.id (fun m => { m with attn := keep })).takeSquares l us {}).cmdFault (us.headD 0) c a logged

/-- Start a prefix lookup, which checks its structures on its squares (R259, R559): the lead square, as in attention (LOG 74). -/
def State.startLookup (s : State) (l : Launch) (us : List Nat) : State :=
  let r := s.lookStart l (us.headD 0)
  match r.2 with
  | .wait => r.1
  | .ok k => (((r.1.launchStarted l us).modLaunch l.id (fun m => { m with look := some k })).takeSquares l us {}).forgetLaunch l.id
  | .fault _ c a logged => ((r.1.launchStarted l us).takeSquares l us {}).cmdFault (us.headD 0) c a logged

/-- A launch at the head of every list is checked and starts; one whose set holds a square that is handed over waits
(R344, R346, R374). None starts outside service: a module that leaves Dormant starts its queues at the end (R462). -/
def State.startLaunch (s : State) (id : Nat) : State :=
  match s.launch id with
  | none => s
  | some l =>
    let us := s.candidates l
    if l.stage != .issued || s.stop.stopped || s.power.state != 0 || !s.atHead l us || us.any (fun u => (s.owner u).busy) then s
    else
      match l.kind with
      | .kernel => s.startKernel l us
      | k =>
        match s.setCause l us with
        | some e => (s.logErr unitHall l.part e.1 e.2).failLaunch id e.1
        | none => if k = .attention then s.startAttention l us else s.startLookup l us

def execLaunchStart (launch : Nat) (s : State) : Host.Outcome State Fault Refusal := .next (s.startLaunch launch)

/-! Ending. -/

/-- The status word of a launch that ends (R144, R344). -/
def Launch.endWord (l : Launch) : Reg64 :=
  if l.set = [] ∧ l.aborted = false then l.status else BitVec.ofNat 64 (statusWord l.aborted l.reports)

/-- Whether a status word ends an entry whose launch has CONT = 0 (R358). -/
def stopsEntry (w : Reg64) : Bool := codeOf w != eOk && codeOf w != eSaturated

/-- What the end of a launch changes in its entry: its context goes on, or is ended (R341, R358). -/
def Ctx.launchEnded (c : Ctx) (l : Launch) (w : Reg64) (iaddr : Nat) : Ctx :=
  let d := if c.block = .launch l.id then { c with block := .ready } else c
  if c.launches.contains l.id && stopsEntry w && !l.cont then d.endWith (codeOf w) 1 l.stx iaddr else d

/-- Whether a far access is the write of a launch's status word. -/
def FarAccess.writesStatus (x : FarAccess) (id : Nat) : Bool :=
  x.owner == .launch id && (match x.kind with | .store _ => true | _ => false)

/-- Whether a later launch of the same entry and index has written its kernel status word already, or sent it: the status area keeps the
word of the latest one (R356). -/
def State.statusTaken (s : State) (l : Launch) : Bool :=
  (((s.queue l.queue).ctx.map (·.launches)).getD []).any (fun i =>
    (s.launch i).any (fun m => decide (l.id < m.id) && m.stx == l.stx && m.ksw &&
      (m.stage == .ended || s.far.any (fun x => x.writesStatus m.id))))

/-- The kernel status word of a launch that ends, and whether it has been performed (R312, R356). -/
def State.writeKernelStatus (s : State) (l : Launch) (w : Reg64) : State × Bool :=
  if l.ksw && l.statAddr != 0 && !s.statusTaken l then
    s.farWrite (.launch l.id) unitHall l.part (addr56 l.statAddr (32 + 8 * l.stx)) (toBytes 8 w.toNat)
  else (s, true)

/-- The counter of an asynchronous launch (R355). -/
def State.signalEnd (s : State) (l : Launch) : State :=
  let c := 256 * l.part + l.ecnt
  if l.async then s.setHallCounter c (s.hallCounter c + 1) else s

/-- Every square has reported: the kernel status word is written, and the launch ends. Its signal is a release (R312). -/
def State.finishLaunch (s : State) (l : Launch) : State :=
  let w := l.endWord
  let r := s.writeKernelStatus l w
  if !r.2 || (l.async && r.1.hallAwaits) then r.1
  else
    let s1 := ((r.1.signalEnd l).modLaunch l.id (fun m => { m with stage := .ended, status := w })).trace 1 0x04 l.part unitHall l.daddr w.toNat
    (s1.modCtx l.queue (fun c => c.launchEnded l w (s.recordAddr l.iaddr))).forgetLaunch l.id

/-- Whether an access of a launch elsewhere is still unanswered (R367). The write of its status word is its end's own. -/
def State.endPending (s : State) (l : Launch) : Bool :=
  s.far.any (fun x => x.owner.ofLaunch l.id && x.result.isNone && !x.writesStatus l.id)

/-- Whether every square of a launch has reported, and nothing that it sent is unanswered. -/
def Launch.reported (l : Launch) : Bool :=
  l.stage == .running && l.set.all (fun u => l.reports.any (fun r => r.sq == u)) && l.outstanding == 0

/-- Whether a launch has nothing left to do but to end. -/
def State.readyToEnd (s : State) (l : Launch) : Bool :=
  l.reported && !s.poisonDue l && !s.endPending l && (s.openPins l).isEmpty

/-- Whether step 4 of R367 is complete for the queue of a launch that its destruction has ended: nothing that the queue sent is
unanswered. -/
def State.linksQuiet (s : State) (l : Launch) : Bool :=
  !l.closing || (s.queueQuiet l.queue && (s.launches.filter (fun m => m.queue == l.queue && m.stage != .ended)).all s.readyToEnd)

/-- The end of a launch; a fused command first gives back its pins and tells its ring (R233, R260, R355). -/
def State.endLaunch (s : State) (id : Nat) : State :=
  match s.launch id with
  | none => s
  | some l =>
    if !l.reported || s.stop.stopped || s.poisonDue l || s.endPending l then s
    else if !(s.openPins l).isEmpty then (if s.roomFor (s.openPins l).length then s.undoPins l else s)
    else if !s.linksQuiet l then s
    else s.finishLaunch l

def execLaunchEnd (launch : Nat) (s : State) : Host.Outcome State Fault Refusal := .next (s.endLaunch launch)

end Sys2Proof.Machine
end

