-- ==== Sys2Proof/Machine/Partition.lean ====
section
/-! DEFINITION. Events of quarters, squares, cores, interrupts and partition resets (10, 13). -/

namespace Sys2Proof.Machine

/-! Scrubs and fences (R276, R294 to R298, R458). -/

def execScrubComplete (extent : Fin 10240) (s : State) : Host.Outcome State Fault Refusal :=
  .next (let e := s.extent extent.val; if e.scrub then s.setExtent extent.val { e with scrub := false } else s)

/-- The bridge timeout of R294 does not advance in a global stop, so that it ends none (R516). -/
def execBridgeTimeout (q : QuarterId) (s : State) : Host.Outcome State Fault Refusal :=
  .next (if s.stop.stopped then s else s.beginFence q.val 3)

def execPhaseFault (q : QuarterId) (s : State) : Host.Outcome State Fault Refusal :=
  .next ((s.modDie q.val (fun d => { d with phflt := true })).beginFence q.val 2)

def execFenceComplete (q : QuarterId) (s : State) : Host.Outcome State Fault Refusal := .next (s.endFence q.val)

def execRestoreDone (q : QuarterId) (selfTest : Bool) (s : State) : Host.Outcome State Fault Refusal :=
  .next (s.endRestore q.val selfTest)

/-! Squares and cores (R373, R375). -/

/-- Step 3 of a handover up to the restore (R373): save, clear, discard and scrub. -/
def State.scrubSquare (s : State) (u : Nat) : State :=
  let o := s.owner u
  let s1 := if o.eff = 0 then s else s.saveFountain u (o.eff - 1)
  let s2 := ((((s1.clearFountain u).clearSquareCounters u).clearBanks u).discardNear u).zeroCistern u
  s2.setOwner u { s2.owner u with cleaned := true }

/-- The restore of a fountain's record in the area of partition p, as an access of the square for p, wherever the area lies, the host
window included (R202, R533, R558), and whether it has ended. -/
def State.restoreContext (s : State) (u p : Nat) : State × Bool :=
  if (s.part p).ctxEn then
    let x := contextAcc (s.part p) p u .read
    let r := s.readFar (.handover u) u p (globalOf x.addr) x.len
    match r.2 with
    | .wait => (r.1, false)
    | .ok bs => (r.1.takeRecord u bs, true)
    | .err c lg => (if lg.isSome then r.1 else r.1.logAccess x c, true)
  else (s, true)

/-- Step 4 of a handover: the square belongs to the owner it moved to, and a further handover starts when the stored fields differ. -/
def State.endHandover (s : State) (u : Nat) : State :=
  let o := s.owner u
  (s.forgetFar (.handover u)).setOwner u
    { o with eff := o.moveTo, busy := decide ((o.valid, o.owner) ≠ o.moved), cleaned := false, moveTo := ownerEff o, moved := (o.valid, o.owner) }

/-- Steps 3 and 4 of a handover (R373): BUSY stays set until an answer from elsewhere that the restore waits for has come. -/
def State.cleanHandover (s : State) (u : Nat) : State :=
  let t := if (s.owner u).cleaned then s else s.scrubSquare u
  let p := (s.owner u).moveTo
  if p = 0 then t.endHandover u
  else
    let r := t.restoreContext u (p - 1)
    if r.2 then r.1.endHandover u else r.1

def execHandoverClean (sq : SquareId) (s : State) : Host.Outcome State Fault Refusal :=
  .next (if s.handoverReady sq.val then s.cleanHandover sq.val else s)

def execCoreHalt (core : CoreId) (s : State) : Host.Outcome State Fault Refusal :=
  .next (let h := s.hart core.val
    if !h.run && !h.halted && !s.coreWaits core.val then s.modHart core.val (fun h => { h with halted := true }) else s)

/-! Interrupts (R380, R382, R388). -/

/-- The interval of a target ends: a merged message is sent, and a new interval begins with it. One that was raised while MSI-X Enable was
set waits for the enable if it has been cleared since (R380, R382). -/
def State.endInterval (s : State) (p : Nat) (t : IntTarget) : State :=
  let x := s.part p
  match x.moderation.find? (fun e => e.target == t) with
  | none => s
  | some e =>
    if s.time < e.until_ ∨ x.reset.resetting = true ∨ x.reset.holdDone = true ∨ (e.pending && intDiscarded t x.fn) = true then s
    else
      let s1 := s.modPart p (fun y => { y with moderation := y.moderation.filter (fun m => m.target != t) })
      if e.pending then s1.raiseInt p t e.regUnit e.regAddr else s1

def execInterruptModerationExpiry (p : PartId) (target : IntTarget) (s : State) : Host.Outcome State Fault Refusal :=
  .next (s.endInterval p.val target)

/-- Send the messages of a function that wait for an enable or a mask to be lifted: a reset-done that is held first
(R380, R388). A vector whose interval runs keeps its message for the end of it (R382). -/
def State.flushMsix (s : State) (p : Nat) : State :=
  let x := s.part p
  let open_ := fun v => x.fn.msixEn && !x.fn.fmask && Table.get false x.fn.unmasked v
  if x.reset.resetting then s
  else if x.reset.holdDone && !open_ x.rdVec then s
  else
    let s1 := if x.reset.holdDone then
        (s.modPart p (fun y => { y with reset := { y.reset with holdDone := false }, fn := { y.fn with pend := Table.set false y.fn.pend x.rdVec false } })).sendModerated p (.msix x.rdVec) unitReset
          (0xF0002000300 + 8 * p)
      else s
    forAll (((s1.part p).fn.pend.map Prod.fst).filter open_) (fun t v =>
      let t1 := t.modPart p (fun y => { y with fn := { y.fn with pend := Table.set false y.fn.pend v false } })
      if moderated (t1.part p).moderation (.msix v) t1.time then
        t1.modPart p (fun y => { y with moderation := markPending y.moderation (.msix v) })
      else t1.sendModerated p (.msix v) unitReset 0) s1

/-- Whether the port answers configuration requests by a function (R523, R525): in RECOVERY and SERVICE, a warm reset included. -/
def State.portConfigures (s : State) : Bool := decide (3 ≤ s.boot.phase) && !s.power.perst

/-- Whether the functions of SERVICE are there: those with MSI-X and SR-IOV (R523). -/
def State.inService (s : State) : Bool := s.portConfigures && s.boot.phase == 3

/-- Whether a function is present (R383, R522, R523): in RECOVERY, the physical function alone. -/
def State.functionPresent (s : State) (p : Nat) : Bool :=
  if p = 0 then s.portConfigures else s.inService && s.vfEnable && decide (p ≤ s.numVfs)

def execMsixUnmask (fn : PartId) (ev : MsixEvent) (s : State) : Host.Outcome State Fault Refusal :=
  .next (if !s.functionPresent fn.val || !s.inService then s
    else
      (s.modPart fn.val (fun x => { x with fn := match ev with
        | .enable => { x.fn with msixEn := true }
        | .functionUnmask => { x.fn with fmask := false }
        | .vectorUnmask v => { x.fn with unmasked := Table.set false x.fn.unmasked v.val true }
        | .vectorMask v => { x.fn with unmasked := Table.set false x.fn.unmasked v.val false } })).flushMsix fn.val)

/-! Partition resets (R383 to R390). -/

def execFunctionLevelReset (fn : PartId) (s : State) : Host.Outcome State Fault Refusal :=
  .next (if s.functionPresent fn.val then s.functionReset fn.val else s)

def execVfEnableClear (vfEnable : Bool) (numVfs : PartId) (s : State) : Host.Outcome State Fault Refusal :=
  .next (if s.inService then s.setVfs vfEnable numVfs.val else s)

/-- Whether a queue's destruction has entries to end: it runs, or it rests with entries that it has not fetched (R329, R367). -/
def Queue.owesEnd (x : Queue) : Bool := x.bound && (x.state == 2 || (x.state == 1 && decide (x.head < x.tail)))

/-- Step 2: every queue of p is destroyed, and the launches and the mailbox command of p end (R385, R484). -/
def State.destroyWork (s : State) (p : Nat) : State :=
  let r := (s.part p).reset
  if !r.resetting || r.stage != 1 then s
  else
    let s1 := forAll (upto 256) (fun t q => if (t.queue q).part = p ∧ (t.queue q).owesEnd = true then t.beginDestroy q else t) s
    let s2 := forAll ((s1.launches.filter (fun l => l.part == p && l.stage != .ended)).map (·.id)) State.abortLaunch s1
    ((s2.abortMailbox p).modPart p (fun x => { x with reset := { x.reset with stage := 2 } })).traceStep p 2

def execPartitionReset (p : PartId) (s : State) : Host.Outcome State Fault Refusal := .next (s.destroyWork p.val)

/-- Whether step 2 is complete, and p's cores have halted (R384, R385). -/
def State.workDestroyed (s : State) (p : Nat) : Bool :=
  (s.part p).reset.resetting && (s.part p).reset.stage == 2 &&
    s.harts.all (fun e => !e.2.valid || e.2.part != p || e.2.halted) &&
    (upto 256).all (fun q => !((s.queue q).bound && (s.queue q).part == p && decide (2 ≤ (s.queue q).state || (s.queue q).ctx.isSome))) &&
    s.launches.all (fun l => l.part != p || l.stage == .ended)

/-- Step 3 on one square. -/
def State.resetSquare (s : State) (u : Nat) : State :=
  ((((s.clearFountain u).clearSquareCounters u).clearBanks u).discardNear u).zeroCistern u

/-- The count word of a tree-held record after step 4: REFS falls by one, TREE clears, and REFS = 0 is DEAD (R385). -/
def releaseWord (w : Nat) : Nat :=
  let refs := w % 2 ^ 32 - 1
  countWord refs (if refs = 0 then 2 else bits w 32 2)

/-- The compare-swap of step 4 on a record's count word, wherever it lies, as an access of p: whether the slot is done. -/
def State.releaseRecord (s : State) (p brec : Nat) : State × Bool :=
  let fail := fun (t : State) (c : Nat) (lg : Option Nat) =>
    ((if lg.isSome then t else t.logErr unitReset p c brec).forgetFar (.reset p), true)
  let w := s.farAccess (.reset p) unitReset p brec (.load 8) true { type := 2, len := 8 }
  match w.2 with
  | .wait => (w.1, false)
  | .err c lg => fail w.1 c lg
  | .ok ws =>
    let old := ofBytes ws
    if !old.testBit 34 then (w.1.forgetFar (.reset p), true)
    else
      let k := AccessKind.cas 8 (releaseWord old) old
      let x := w.1.farAccess (.reset p) unitReset p brec k false (txnFor k)
      match x.2 with
      | .wait => (x.1, false)
      | .err c lg => fail x.1 c lg
      | .ok got => (x.1.forgetFar (.reset p), decide (ofBytes got = old))

/-- Step 4 for one slot of the tree, as accesses of p (R558): whether it is done. -/
def State.releaseSlot (s : State) (p k : Nat) : State × Bool :=
  let a := (s.part p).pfxBase + 64 * k
  let r := s.accRead ⟨unitReset, p, a, 64, .read, true⟩
  match r.2 with
  | .error c => (r.1.logErr unitReset p c (globalOf a), true)
  | .ok bs =>
    let v := ofBytes bs
    let brec := bits v 128 56
    if bits v 0 64 < 2 ∨ brec = 0 then (r.1, true) else r.1.releaseRecord p brec

/-- Step 4: the walk over `n` more slots of p's tree, until an answer from elsewhere is awaited. -/
def State.walkTree (s : State) (p : Nat) : Nat → State × Bool
  | 0 => (s, true)
  | n + 1 =>
    let r := s.releaseSlot p (s.part p).reset.walk
    if r.2 then (r.1.modPart p (fun x => { x with reset := { x.reset with walk := x.reset.walk + 1 } })).walkTree p n else r

/-- Slots of p's tree that step 4 has still to visit. -/
def State.slotsLeft (s : State) (p : Nat) : Nat :=
  let x := s.part p
  if x.pfxLog2n = 0 then 0 else 2 ^ x.pfxLog2n - x.reset.walk

/-- The registers of p's tree after its reset (R265, R385): PROBE reads 0, as at reset, and not the 1 that a written 0 is stored as
(R250; LOG 86). -/
def State.clearTree (s : State) (p : Nat) : State :=
  s.modPart p (fun y => { y with pfxBase := 0, pfxProbe := 0, pfxLog2n := 0, pfxKey := 0 })

/-- Step 5: hall counters, ranges, handles and queues of p (R385). A range retires: it becomes free once nothing pins it (R365,
R366). -/
def State.resetHall (s : State) (p : Nat) : State :=
  let s1 : State := { s with
    hallCtr := Table.clear s.hallCtr (256 * p) (256 * p + 256)
    seals := s.seals.map (fun e => if e.2.part = p ∧ e.2.state ≠ 0 then (e.1, { e.2 with state := 2 }) else e)
    handles := s.handles.map (fun e => if 256 * p ≤ e.1 ∧ e.1 < 256 * p + 256 then (e.1, { e.2 with valid := false }) else e) }
  forAll (upto 256) (fun t q => if (t.queue q).bound ∧ (t.queue q).part = p then t.setQueue q { bound := true, part := p, state := 1 } else t) s1

/-- A change of a square's entry that came before step 3 starts its handover now (R390). -/
def State.startHeldHandover (s : State) (p u : Nat) : State :=
  let o := s.owner u
  if o.eff = p + 1 ∧ o.busy = false ∧ ownerEff o ≠ p + 1 ∧ (s.fence (u / 16)).fenced = false then
    s.setOwner u { o with busy := true, moveTo := ownerEff o, moved := (o.valid, o.owner) }
  else s

/-- Step 3: every square of p's allotment, and p's context records; then the handovers that waited for it (R390). -/
def State.resetSquares (s : State) (p : Nat) : State :=
  let s1 := forAll ((upto 128).filter (fun u => s.squareOwnedBy u p && !(s.fence (u / 16)).fenced)) State.resetSquare s
  forAll (upto 128) (fun t u => t.startHeldHandover p u)
    (((s1.invalidateContexts p).modPart p (fun x => { x with reset := { x.reset with stage := 3, walk := 0 } })).traceStep p 3)

/-- Steps 5 and 6. -/
def State.endReset (s : State) (p : Nat) : State :=
  let s2 := ((((s.clearTree p).traceStep p 4).resetHall p).traceStep p 5)
  let s3 := (s2.modPart p (fun x => { x with reset := { x.reset with resetting := false, done := true, stage := 0, walk := 0 } })).traceStep p 6
  (s3.raiseResetDone p).continuePfReset

/-- Steps 3 to 6, once the work of p is destroyed. -/
def State.finishReset (s : State) (p : Nat) : State :=
  if s.stop.stopped || !(s.workDestroyed p || ((s.part p).reset.resetting && (s.part p).reset.stage == 3)) then s
  else
    let s1 := if (s.part p).reset.stage = 3 then s else s.resetSquares p
    let r := s1.walkTree p (s1.slotsLeft p)
    if r.2 then r.1.endReset p else r.1

def execPartitionResetComplete (p : PartId) (s : State) : Host.Outcome State Fault Refusal := .next (s.finishReset p.val)

end Sys2Proof.Machine
end

