-- ==== Sys2Proof/Machine/HostPort.lean ====
section
/-! DEFINITION. The host port and the SMBus (18): requests and completions of the host, configuration requests, and the
accesses that a wake has held (R461, R462). -/

namespace Sys2Proof.Machine

/-! Requests of the host (R522 to R530). -/

/-- Whether the port's functions take memory requests (R523): in RECOVERY and SERVICE, outside warm resets (R392). -/
def State.portPresents (s : State) : Bool := s.portConfigures && !s.boot.warming

/-- A request that no function takes: Unsupported Request when it is non-posted, dropped when it is posted. -/
def State.unsupported (s : State) (p : Nat) (write : Bool) (tag : Nat) : State :=
  if write then s else (s.emit (.hostCpl p tag 1 [])).count (unitHost p) 2 1

/-- The local address of a host request (R526, R528). -/
def State.hostAddr (s : State) (r : HostRequest) : Nat :=
  match r.bar with | .bar2 => (s.part r.fn.val).fn.haper + r.off | _ => regBase + r.off

/-- What a host request does. -/
def hostKind (r : HostRequest) : AccessKind := if r.write then .store r.bytes else .load r.len

/-- The bytes of a host request. -/
def requestSize (r : HostRequest) : Nat := if r.write then r.bytes.length else r.len

/-! BAR4: the MSI-X table and the Pending Bit Array (R526). An entry is the message address, the message data and the Mask bit (bit 96), as
PCI Express lays it out (LOG 89). -/

/-- An entry of the MSI-X table. -/
def Function.entry (f : Function) (v : Nat) : Nat :=
  (Table.get 0 f.msixAddr v).toNat + 2 ^ 64 * Table.get 0 f.msixData v + 2 ^ 96 * bitN (!Table.get false f.unmasked v)

/-- An entry takes a value. -/
def Function.setEntry (f : Function) (v x : Nat) : Function :=
  { f with
    msixAddr := Table.set 0 f.msixAddr v (BitVec.ofNat 64 (bits x 2 62 * 4))
    msixData := Table.set 0 f.msixData v (bits x 64 32)
    unmasked := Table.set false f.unmasked v (!x.testBit 96) }

/-- The byte at an offset of BAR4. -/
def Function.bar4Byte (f : Function) (i : Nat) : Byte :=
  if i < 0x8000 then BitVec.ofNat 8 (f.entry (i / 16) / 2 ^ (8 * (i % 16)))
  else if i < 0x8100 then BitVec.ofNat 8 ((upto 8).foldl (fun n k => n + bitN (Table.get false f.pend (8 * (i - 0x8000) + k)) * 2 ^ k) 0)
  else 0

/-- A byte written at an offset of BAR4: the Pending Bit Array takes none. -/
def Function.writeBar4 (f : Function) (i : Nat) (b : Byte) : Function :=
  if i < 0x8000 then f.setEntry (i / 16) (ofBytes ((toBytes 16 (f.entry (i / 16))).set (i % 16) b)) else f

/-- A host request through BAR4; a vector that it unmasks sends what it holds (R380). -/
def State.bar4Perform (s : State) (r : HostRequest) : State :=
  let p := r.fn.val
  if r.write then
    (s.modPart p (fun x => { x with fn := r.bytes.zipIdx.foldl (fun f e => f.writeBar4 (r.off + e.2) e.1) x.fn })).flushMsix p
  else s.emit (.hostCpl p r.tag 0 ((upto r.len).map (fun i => (s.part p).fn.bar4Byte (r.off + i))))

/-- The bit of Uncorrectable Error Status that an error response sets: Unsupported Request (20) or Completer Abort (15) (R530, LOG 89). -/
def aerBit (code : Nat) : Nat := if code = eUnmapped then 20 else 15

/-- The access of a host request, with the endings of R530. -/
def State.hostPerform (s : State) (r : HostRequest) : State :=
  let p := r.fn.val
  let a := s.hostAddr r
  if r.bar = .bar4 then s.bar4Perform r
  else
    let x := if r.bar = .bar2 ∧ hostBase ≤ a then (s, AccOut.err eUnmapped) else s.localAccess (unitHost p) p a (hostKind r) true
    match x.2 with
    | .ok bs => if r.write then x.1 else x.1.emit (.hostCpl p r.tag 0 bs)
    | .err c =>
      let t := x.1.modPart p (fun y => { y with fn := { y.fn with aer := Nat.lor y.fn.aer (2 ^ aerBit c) } })
      if r.write then t.logErr (unitHost p) p c (globalOf a)
      else
        let u := t.logErr (unitHost p) p c (globalOf a) (.out (.hostCpl p r.tag (if c = eUnmapped then 1 else 4) []))
        if c = eUnmapped then u.count (unitHost p) 2 1 else u
    | .host => x.1

/-- The size of a BAR as a power of 2 (R526). -/
def Function.barBits (f : Function) (b : HostBar) : Nat := match b with | .bar0 => 28 | .bar2 => f.bar2 | .bar4 => 16

/-- Whether a request lies in a BAR of its function, with memory space enabled (R522, R526). -/
def barTakes (f : Function) (r : HostRequest) : Bool := f.memSpace && !f.d3 && decide (r.off + requestSize r ≤ 2 ^ f.barBits r.bar)

/-- Whether the recovery function takes a request (R523, R524). -/
def recoveryTakes (r : HostRequest) : Bool :=
  r.fn.val == 0 && r.bar == .bar0 && decide (0x3000000 ≤ r.off ∧ r.off + requestSize r ≤ 0x4000000)

/-- Whether a host request starts a wake and waits for it (R461). -/
def State.hostWakes (s : State) (r : HostRequest) : Bool :=
  match r.bar with
  | .bar0 => s.mustWake (s.hostAddr r)
  | .bar2 => decide (s.hostAddr r < hostBase) && s.mustWake (s.hostAddr r)
  | .bar4 => false

/-- A host memory request (R324, R384, R392, R461, R523 to R530). -/
def State.hostMem (s : State) (r : HostRequest) : State :=
  let p := r.fn.val
  let x := s.part p
  if !s.portPresents || !s.functionPresent p || !barTakes x.fn r || x.reset.resetting ||
      (s.boot.phase == 4 && !recoveryTakes r) then s.unsupported p r.write r.tag
  else if s.hostWakes r || (r.write && s.heldBehind (unitHost p)) then State.requestWake { s with held := s.held ++ [.host r] }
  else s.hostPerform r

def execHostMemRequest (r : HostRequest) (s : State) : Host.Outcome State Fault Refusal := .next (s.hostMem r)

/-- An AtomicOp of the host is never completed otherwise (R522). -/
def execHostAtomicop (fn : PartId) (tag : Nat) (s : State) : Host.Outcome State Fault Refusal :=
  .next (s.unsupported fn.val false tag)

/-! Configuration requests (R521, R523, R525, R526, R532). -/

/-- Vendor and device identities (R523). -/
def State.deviceId (s : State) (p : Nat) : Nat :=
  0x1F9E + 2 ^ 16 * (if s.boot.phase = 4 then 0x0C71 else if p = 0 then 0x0C70 else 0x0C72)

/-- A new BAR2 size clears the APBASE bits below it (R526, R532). -/
def Function.resize (f : Function) (k : Nat) : Function := { f with bar2 := k, haper := f.haper / 2 ^ k * 2 ^ k }

/-- A Resizable BAR write: of the physical function, or of all virtual functions together (R526). -/
def State.resizeBar2 (s : State) (p k : Nat) : State :=
  if k < 28 ∨ 42 < k then s
  else forAll ((upto 16).filter (fun q => (q == 0) == (p == 0))) (fun t q => t.modPart q (fun x => { x with fn := x.fn.resize k })) s

/-- What a configuration write changes. Of the error bits, it clears those it names. -/
def State.configWrite (s : State) (p : Nat) (c : ConfigReq) : State :=
  let fn := fun (f : Function → Function) => s.modPart p (fun x => { x with fn := f x.fn })
  match c with
  | .readId => s
  | .readSerial => s
  | .read _ => s
  | .maxPayload n => fn (fun f => { f with mps := n })
  | .maxReadRequest n => fn (fun f => { f with mrrs := n })
  | .aerClear m => fn (fun f => { f with aer := Nat.xor f.aer (Nat.land f.aer m) })
  | .powerState d => fn (fun f => { f with d3 := d })
  | .memorySpace on => fn (fun f => { f with memSpace := on })
  | .busMaster on => fn (fun f => { f with busMaster := on })
  | .msixEnable on => if s.inService then (fn (fun f => { f with msixEn := on })).flushMsix p else s
  | .functionMask on => if s.inService then (fn (fun f => { f with fmask := on })).flushMsix p else s
  | .atomicEnable on => fn (fun f => { f with atomicEn := on })
  | .numVfs n en => if p = 0 ∧ s.inService = true then s.setVfs en n.val else s
  | .bar2Size k => if s.inService then s.resizeBar2 p k else s

/-- Whether a capability is present in a function's configuration space (R521, R523). SR-IOV and both Resizable BARs are the physical
function's; the recovery function has no MSI-X table and no BAR to resize (LOG 89). -/
def State.hasCapability (s : State) (p : Nat) (c : Capability) : Bool :=
  match c with
  | .ari | .aer | .atomicRequester | .powerManagement | .serialNumber => true
  | .msix => s.inService
  | .sriov => p == 0
  | .resizableBar | .vfResizableBar => p == 0 && s.inService
  | _ => false

/-- What a configuration read of a field gives. Rates count from 2.5 GT/s (bit 0) to 128 GT/s (bit 6), widths are their sum, and the
power states are bits 0 and 3 (R521, R523, R526). -/
def State.configField (s : State) (p : Nat) (c : ConfigField) : Nat :=
  let f := (s.part p).fn
  let vf := fun (n : Nat) => if p = 0 ∧ s.inService = true then n else 0
  match c with
  | .capability k => bitN (s.hasCapability p k)
  | .totalVfs => vf 15
  | .initialVfs => vf 15
  | .firstVfOffset => vf 1
  | .vfStride => vf 1
  | .vfDeviceId => vf 0x0C72
  | .numVfs => vf s.numVfs
  | .vfEnable => vf (bitN s.vfEnable)
  | .maxPayloadSupported => 2
  | .maxPayload => f.mps
  | .maxReadRequest => f.mrrs
  | .rates => 127
  | .widths => 7
  | .flitMode => 1
  | .tagBits => 14
  | .msixTableSize => if s.inService then 2048 else 0
  | .barBits b => if s.inService || b == .bar0 then f.barBits b else 0
  | .powerStates => 9
  | .powerState => if f.d3 then 3 else 0
  | .memorySpace => bitN f.memSpace
  | .busMaster => bitN f.busMaster
  | .msixEnable => bitN f.msixEn
  | .functionMask => bitN f.fmask
  | .atomicEnable => bitN f.atomicEn
  | .aerUncorrectable => f.aer

/-- What a configuration request reads. -/
def State.configRead (s : State) (p : Nat) (c : ConfigReq) : Nat :=
  match c with
  | .readId => s.deviceId p
  | .readSerial => s.boot.serialLo.toNat
  | .read f => s.configField p f
  | _ => 0

/-- A configuration request (R523). -/
def State.config (s : State) (p : Nat) (c : ConfigReq) : State :=
  if s.boot.phase < 3 then s.emit (.config p 2 0)
  else if !s.functionPresent p then s.emit (.config p 1 0)
  else (s.configWrite p c).emit (.config p 0 (s.configRead p c))

def execConfigRequest (fn : PartId) (c : ConfigReq) (s : State) : Host.Outcome State Fault Refusal := .next (s.config fn.val c)

/-! Completions of the host window (R534). -/

/-- What a completion ends a request with (R534): bytes, or the code of the error response. -/
def hostOutcome (c : HostCompletion) : Except Nat (List Byte) :=
  match c with
  | .success bs => .ok bs
  | .unsupportedRequest => .error eUnmapped
  | .completerAbort => .error ePermission
  | .requestRetry => .error ePermission
  | .poisoned => .error eParity

/-- A request of a host access has its completion. -/
def HostReq.answered (r : HostReq) (tag : Nat) (x : Except Nat (List Byte)) : HostReq :=
  let n := (r.tags.find? (fun e => e.tag == tag)).getD ⟨tag, 0, 0⟩
  let q := { r with tags := r.tags.filter (fun e => e.tag != tag) }
  match x with
  | .ok bs => { q with got := Table.set [] q.got n.off ((bs ++ List.replicate n.len 0).take n.len) }
  | .error _ => { q with failed := true, waiter := .nobody }

/-- Whether a host access waits for nothing more: all its completions have come, or those of the requests sent before it failed. -/
def HostReq.ended (r : HostReq) : Bool := r.tags.isEmpty && (r.failed || r.sent == r.len)

/-- A request to the host has its completion, or none in time: the first error ends the whole access, with its record and error response;
the bytes are delivered once all have come (R534). A tag that is free again lets the next request go (R521). -/
def State.endHostReq (s : State) (tag : Nat) (x : Except Nat (List Byte)) : State :=
  let i := s.hostReqs.findIdx (fun r => r.tags.any (fun e => e.tag == tag))
  match s.hostReqs[i]? with
  | none => s
  | some r =>
    let q := r.answered tag x
    let t : State := { s with hostReqs := if q.ended then s.hostReqs.eraseIdx i else s.hostReqs.set i q }
    let u := match x with
      | .error c => if r.failed then t else t.deliverErr r.waiter r.unit r.part (globalOf r.addr) c
      | .ok _ => if q.ended && !q.failed then t.deliverOk r.waiter (q.got.flatMap Prod.snd) else t
    u.sendHost

def execHostWindowCompletion (tag : Nat) (c : HostCompletion) (s : State) : Host.Outcome State Fault Refusal :=
  .next (s.endHostReq tag (hostOutcome c))

def execHostCompletionTimeout (tag : Nat) (s : State) : Host.Outcome State Fault Refusal :=
  .next (s.endHostReq tag (.error eTimeout))

/-! SMBus (R536, R537). -/

/-- The bytes of a command code. -/
def State.smbusValue (s : State) (code : Nat) : Option (List Byte) :=
  match code with
  | 0 => some (toBytes 8 (s.regValue .ident 0))
  | 1 => some (toBytes 8 (s.regValue (.serial false) 0) ++ toBytes 8 (s.regValue (.serial true) 0))
  | 2 => some (toBytes 8 (s.regValue (.bootInfo 0) 0))
  | 3 => some (toBytes 8 (s.regValue (.pwr 0x00) 0))
  | 4 => some (toBytes 8 (s.regValue (.pwr 0x28) 0))
  | 5 => some (toBytes 8 (s.regValue (.pwr 0x20) 0))
  | 6 => some (toBytes 8 (s.regValue (.pwr 0x18) 0))
  | 7 => some ((upto 10).map (fun d => toBytes 8 (s.regValue (.pwr (0x80 + 8 * d)) 0))).flatten
  | 8 => some (toBytes 8 (s.regValue (.lnk 0) 0))
  | 9 => some (toBytes 8 (s.regValue .fenceSts 0))
  | _ => none

/-- One byte more of a Packet Error Check: CRC-8 of polynomial x^8 + x^2 + x + 1 (LOG 89). -/
def pecStep (crc : Nat) (b : Byte) : Nat :=
  (upto 8).foldl (fun c _ => if c.testBit 7 then Nat.xor (2 * c % 256) 7 else 2 * c) (Nat.xor crc b.toNat)

/-- The Packet Error Check of a Block Read: over the address with the write bit, the command, the address with the read bit, the count and
the bytes. -/
def pecOf (addr code : Nat) (bs : List Byte) : List Byte :=
  toBytes 1 ((toBytes 1 (2 * addr) ++ toBytes 1 code ++ toBytes 1 (2 * addr + 1) ++ toBytes 1 bs.length ++ bs).foldl pecStep 0)

/-- The module's SMBus address: 0x58 and the value of its two straps (R536). -/
def State.smbusAddr (s : State) : Nat := 0x58 + s.power.smbAddr % 4

/-- An SMBus transaction: from 20 ms after input power became good a Block Read of a listed code is answered, with its Packet Error Check
where the reader takes it, and anything else to this address is NACKed. -/
def State.smbus (s : State) (t : SmbusTransaction) : State :=
  if !s.power.gates || decide (s.power.age < 20000000) || t.addr.toNat != s.smbusAddr then s
  else
    match t.kind with
    | .write _ => s.emit (.smbus false [])
    | .blockRead code =>
      match s.smbusValue code.toNat with
      | some bs => s.emit (.smbus true (if t.pec then bs ++ pecOf t.addr.toNat code.toNat bs else bs))
      | none => s.emit (.smbus false [])

def execSmbusBlockRead (t : SmbusTransaction) (s : State) : Host.Outcome State Fault Refusal := .next (s.smbus t)

/-! Full service (R461, R462). -/

/-- Perform an access that a wake held. -/
def State.performHeld (s : State) (h : Held) : State :=
  match h with
  | .host r => if (s.part r.fn.val).reset.resetting then s.unsupported r.fn.val r.write r.tag else s.hostPerform r
  | .link n t => s.serveTxn n t
  | .reg o w => s.performWrite o w

/-- 1.2 ms, within 1 µs, after the wake started: STATE is SERVICE, and the accesses held are performed in order. -/
def State.fullService (s : State) : State :=
  forAll s.held State.performHeld (State.wakeUp { s with held := [] })

def execFullService (s : State) : Host.Outcome State Fault Refusal :=
  .next (if s.power.state = 3 ∧ s.power.wakeAt.any (fun t => decide (t + 1199000 ≤ s.time)) = true then s.fullService else s)

end Sys2Proof.Machine
end

