-- ==== Sys2Proof/Machine/Observe.lean ====
section
/-! DEFINITION. Snapshots at their tick, and records on their way to the error log and to the trace rings (R495 to
R513). -/

namespace Sys2Proof.Machine

/-! Snapshots (R495 to R497). -/

/-- Whether a unit was powered when the time base reached the tick. -/
def SnapHold.has (h : SnapHold) (u : Nat) : Bool := h.units.contains u

/-- A shadow bank after a latch: units without power at the tick keep their shadows (R497). -/
def SnapHold.latch (h : SnapHold) (old : Table Reg64) : Table Reg64 :=
  (old.filter (fun e => !h.has (e.1 / 256))).foldl (fun t e => Table.set 0 t e.1 e.2) (h.ctr.filter (fun e => h.has (e.1 / 256)))

/-- The clearing and the age that the latched units' uncounted counters count from (LOG 19). -/
def SnapHold.ages (h : SnapHold) (old : Table (Nat × Nat)) : Table (Nat × Nat) :=
  h.units.foldl (fun t u => Table.set (0, 0) t u (h.epoch, h.age)) old

/-- The units that latched a tick, among those that latched the one before. -/
def SnapHold.valid (h : SnapHold) (before : Nat → Bool) : Table Bool :=
  (h.units.filter before).foldl (fun t u => Table.set false t u true) []

/-- A snapshot is complete: DONE sets and BUSY clears (R496). -/
def Snap.finish (n : Snap) : Snap := { n with busy := false, done := true, uv := n.uvNext }

/-- The next tick of an armed snapshot is latched (R495). -/
def Snap.latchTick (n : Snap) : Snap :=
  if !n.busy then n
  else if !n.latched0 then
    match n.held0 with
    | none => n
    | some h =>
      let m := { n with bank0 := h.latch n.bank0, age0 := h.ages n.age0, uvNext := h.valid (fun _ => true), latched0 := true }
      if m.armEnd = 0 then m.finish else m
  else
    match n.held1 with
    | none => n
    | some h => ({ n with bank1 := h.latch n.bank1, age1 := h.ages n.age1, uvNext := h.valid (Table.get false n.uvNext) } : Snap).finish

def execSnapshotTick (s : State) : Host.Outcome State Fault Refusal := .next (s.modSnap Snap.latchTick)

/-! The error log (R502 to R506, R513). -/

/-- A record arrives at the log: it is queued, or dropped when 256 wait, which holds no response back (R502). -/
def State.recordArrives (s : State) (idx : Nat) : State :=
  match s.elog.transit[idx]? with
  | none => s
  | some r =>
    let s1 := s.modElog (fun e => { e with transit := e.transit.eraseIdx idx })
    if 256 ≤ s.elog.queue.length then
      ((s1.modElog (fun e => { e with drop := min (e.drop + 1) 4294967295 })).count unitElog 1 1).letGo r.reply r.stamp
    else s1.modElog (fun e => { e with queue := e.queue ++ [r] })

def execErrorRecordArrive (idx : Nat) (s : State) : Host.Outcome State Fault Refusal := .next (s.recordArrives idx)

/-- The store with one more record, and at most the last 8,192 (R503). -/
def storeRecord (store : List ErrRecord) (r : ErrRecord) : List ErrRecord :=
  (store ++ [r]).drop (store.length + 1 - 8192)

/-- The log accepts a record (R502): it gets its SEQ, enters the store, and is offered to its rings; it may trigger a
stop (R513); then the response that waits for it goes. -/
def State.acceptRecord (s : State) (r : ErrRecord) (rest : List ErrRecord) : State :=
  let n := s.elog.next % 2 ^ 32
  let a := { r with seq := n, reply := .none }
  let s1 := (s.modElog (fun e => { e with queue := rest, next := e.next + 1, store := storeRecord e.store a })).count unitElog 0 1
  let s2 := (if r.part = 0 then s1 else s1.offerRing r.part a).offerRing 0 a
  let s3 := s2.trace 7 0x12 r.part unitElog n r.code
  let s4 := if s3.elog.stopMask.testBit r.code then s3.triggerStop (n % 2 ^ 31) 2 s3.links.modnum else s3
  s4.letGo r.reply r.stamp

def execErrorRecordAccept (s : State) : Host.Outcome State Fault Refusal :=
  .next (match s.elog.queue with
    | [] => s
    | r :: rest => s.acceptRecord r rest)

/-! Trace (R509, R510). -/

/-- A record of a unit reaches the collector, after the unit's earlier records of the ring. -/
def State.traceArrives (s : State) (idx : Nat) : State :=
  match s.trcQ[idx]? with
  | none => s
  | some r =>
    if (s.trcQ.take idx).any (fun x => x.unit == r.unit && x.ring == r.ring) then s
    else State.collect { s with trcQ := s.trcQ.eraseIdx idx } r

def execTraceRecord (idx : Nat) (s : State) : Host.Outcome State Fault Refusal := .next (s.traceArrives idx)

end Sys2Proof.Machine
end

