-- ==== Sys2Proof/Machine/PowerUnit.lean ====
section
/-! DEFINITION. Events of the supply, of the power controller and of the time-base replicas (15, 17, 19). -/

namespace Sys2Proof.Machine

/-- Whether a timer started at `t` has run for `n` ns. -/
def State.elapsed (s : State) (t : Option Nat) (n : Nat) : Bool := t.any (fun x => decide (x + n ≤ s.time))

/-- The time of an event that starts a timer, unless it runs already. -/
def startTimer (t : Option Nat) (now : Nat) : Option Nat := some (t.getD now)

/-! The input bus (R442, R445). -/

/-- The comparator detects the bus below 44 V: SAG becomes active and the controller evaluates (R442). Without input power the bus alone
changes. -/
def State.sagAt (s : State) (mv : Nat) : State :=
  (s.modPower (fun w => { w with
    busMv := mv, sag := true, sagSince := startTimer w.sagSince s.time, inRangeSince := none, aboveSince := none, overSince := none })).evaluate

def execSagDetect (mv : Nat) (s : State) : Host.Outcome State Fault Refusal :=
  .next (if 44000 ≤ mv then s else if s.power.gates then s.sagAt mv else s.modPower (fun w => { w with busMv := mv }))

def execSagHoldExpiry (s : State) : Host.Outcome State Fault Refusal :=
  .next (if s.power.sag && s.elapsed s.power.aboveSince 1000000 then (s.modPower (fun w => { w with sag := false })).evaluate else s)

def execBusRecovery (mv : Nat) (s : State) : Host.Outcome State Fault Refusal :=
  .next (if 44000 ≤ mv ∧ mv ≤ 60000 then
      s.modPower (fun w => { w with
        busMv := mv, sagSince := none, overSince := none
        inRangeSince := startTimer w.inRangeSince s.time, aboveSince := startTimer w.aboveSince s.time })
    else s)

def execBusOvervoltage (mv : Nat) (s : State) : Host.Outcome State Fault Refusal :=
  .next (if 60000 < mv then
      s.modPower (fun w => { w with
        busMv := mv, sagSince := none, inRangeSince := none
        overSince := startTimer w.overSince s.time, aboveSince := startTimer w.aboveSince s.time })
    else s)

def execSupplyLossStop (mv : Nat) (s : State) : Host.Outcome State Fault Refusal :=
  .next (if 40000 ≤ mv then s else if s.power.gates then (s.sagAt mv).supplyStop false else s.modPower (fun w => { w with busMv := mv }))

def execSagDurationExpiry (s : State) : Host.Outcome State Fault Refusal :=
  .next (if s.elapsed s.power.sagSince 10000000 then s.supplyStop false else s)

def execOvervoltageExpiry (s : State) : Host.Outcome State Fault Refusal :=
  .next (if s.power.gates && s.elapsed s.power.overSince 1000000 then s.supplyStop false else s)

/-- One cause of a stop has ended: the cold reset, once the other one has ended too (R445, R455). -/
def State.stopEnds (s : State) (cause : Nat) : State :=
  if s.power.stoppedFor = cause then s.restart 2
  else if s.power.stoppedFor = 3 then s.modPower (fun w => { w with stoppedFor := 3 - cause })
  else s

def execSupplyRecoveryExpiry (s : State) : Host.Outcome State Fault Refusal :=
  .next (if s.elapsed s.power.inRangeSince 100000000 then s.stopEnds 1 else s)

/-- What outlives the gates' power: the flash, the anti-rollback counter, the commands that wait and the pins (R445, R466). -/
def State.unpowered (s : State) (mv : Nat) : State :=
  { State.reset with
    pending := s.pending, out := s.out, freeCtr := s.freeCtr, isM := s.isM, ctrEpoch := s.ctrEpoch
    power := { ven := s.power.ven, perst := s.power.perst, brakePin := s.power.brakePin, pinMstr := s.power.pinMstr, pinSmb := s.power.pinSmb, busMv := mv }
    boot := { flash := s.boot.flash, counter := s.boot.counter, erasedA := s.boot.erasedA, erasedB := s.boot.erasedB, badFlash := s.boot.badFlash } }

/-- The gates have lost power, which cuts an erase or a programming of the flash short (R445, R486). -/
def State.powerOff (s : State) (mv : Nat) : State := s.interruptFlash.unpowered mv

def execGatePowerLoss (mv : Nat) (s : State) : Host.Outcome State Fault Refusal :=
  .next (if 36000 ≤ mv then s else if s.power.gates then s.powerOff mv else s.modPower (fun w => { w with busMv := mv }))

/-! PWR_BRAKE_N (R443). -/

def execBrakeAssert (s : State) : Host.Outcome State Fault Refusal :=
  .next (if s.power.gates then (s.modPower (fun w => { w with brakePin := true, brake := true })).evaluate
    else s.modPower (fun w => { w with brakePin := true }))

def execBrakeRelease (s : State) : Host.Outcome State Fault Refusal :=
  .next (if s.power.gates then (s.modPower (fun w => { w with brakePin := false, brake := false })).evaluate
    else s.modPower (fun w => { w with brakePin := false }))

/-! Telemetry, temperature and the controller (R446, R455, R457). -/

def execTelemetrySample (t : Telemetry) (s : State) : Host.Outcome State Fault Refusal :=
  .next (if s.power.gates && decide (s.power.lastSample + 50000 ≤ s.time) && s.withinRamp t then s.sample t else s)

def execThermalRecovery (s : State) : Host.Outcome State Fault Refusal :=
  .next (if s.power.tmax < 70 then s.stopEnds 2 else s)

def execControllerEvaluation (s : State) : Host.Outcome State Fault Refusal :=
  .next (if s.power.gates && decide (s.power.lastEval + 1000 ≤ s.time) then s.evaluate else s)

def execDormantEntryDone (s : State) : Host.Outcome State Fault Refusal :=
  .next (if s.power.state = 1 then s.enterDormant else s)

/-! Time-base replicas (R490, R491). -/

def execReplicaLoad (r : RegionId) (s : State) : Host.Outcome State Fault Refusal :=
  .next (if s.replica r.val = 1 then { s with replicas := Table.set 0 s.replicas r.val (2 + s.time + 2000) } else s)

def execResyncWindowExpiry (r : RegionId) (s : State) : Host.Outcome State Fault Refusal :=
  .next (if 2 ≤ s.replica r.val ∧ s.replica r.val ≤ 2 + s.time then { s with replicas := Table.set 0 s.replicas r.val 0 } else s)

/-! Input power and resets of the module (R391, R476, R540, R541, R545). -/

def execVenMate (s : State) : Host.Outcome State Fault Refusal := .next (s.modPower (fun w => { w with ven := true }))

/-- Input power becomes good: the time base and the counters start from 0, the SMBus address is sampled, every replica starts, and so does
the start-up sequence, whose step 1 samples STRAP_MSTR (R476, R489, R493, R545). -/
def State.powerOn (s : State) : State :=
  State.beginStart (State.clearCounters { s with
    time := 0
    replicas := (upto 22).map (fun r => (r, 1))
    power := { s.power with
      good := true, gates := true, age := 0, smbAddr := s.power.pinSmb, brake := s.power.brakePin
      sagSince := none, inRangeSince := none, aboveSince := none, overSince := none
      dies := Table.set {} (Table.set {} s.power.dies 8 { core := 750 }) 9 { core := 750 } }
    links := { s.links with ports := portsOff } }) 0

def execInputPowerGood (s : State) : Host.Outcome State Fault Refusal :=
  .next (if s.power.ven && !s.power.gates && decide (44000 ≤ s.power.busMv ∧ s.power.busMv ≤ 60000) then s.powerOn else s)

def execVenBreak (s : State) : Host.Outcome State Fault Refusal :=
  .next (let t := s.modPower (fun w => { w with ven := false }); if s.power.gates then t.powerOff s.power.busMv else t)

def execPerstNAssert (s : State) : Host.Outcome State Fault Refusal :=
  .next (let t := s.modPower (fun w => { w with perst := true })
    if s.power.gates && !s.power.perst then t.restart 3 else t)

def execPerstNRelease (s : State) : Host.Outcome State Fault Refusal :=
  .next (let t := s.modPower (fun w => { w with perst := false })
    if s.power.gates && s.power.perst then t.beginStart 3 else t)

def execStartUpDone (s : State) : Host.Outcome State Fault Refusal :=
  .next (if s.boot.starting && s.power.gates then s.startUp else s)

def execWarmResetDone (s : State) : Host.Outcome State Fault Refusal := .next s.endWarm

end Sys2Proof.Machine
end

