-- ==== Sys2Proof/Machine/RegCommands.lean ====
section
/-! DEFINITION. The commands that are writes of one register: its offset of the register space, then the checks and the
effect that every write of it has (R6 to R9, R269). -/

namespace Sys2Proof.Machine

/-- A write of PMP_TBL_CTL (R172, R173). -/
def execPmpTblLoad (sq : SquareId) (w : RegWrite) (s : State) : Host.Outcome State Fault Refusal :=
  .next (s.registerCommand (0x5000000 + 0x100 * sq.val + 0x10) w)

/-- A write of FTN_GCTL, RELOAD (R205). -/
def execFtnReload (w : RegWrite) (s : State) : Host.Outcome State Fault Refusal :=
  .next (s.registerCommand (0x5200000) w)

/-- A write of FTN_GCTL, SELFTEST (R198, R205). -/
def execFtnSelftest (w : RegWrite) (s : State) : Host.Outcome State Fault Refusal :=
  .next (s.registerCommand (0x5200000) w)

/-- A write of PTN_XTENT_n (R274, R275). -/
def execPtnXtentWrite (n : Fin 1280) (w : RegWrite) (s : State) : Host.Outcome State Fault Refusal :=
  .next (s.registerCommand (0x5A00000 + 8 * n.val) w)

/-- A write of PTN_QFENCE_CTL, FENCE (R294, R295, R299). -/
def execFence (w : RegWrite) (s : State) : Host.Outcome State Fault Refusal :=
  .next (s.registerCommand (0x5A02800) w)

/-- A write of PTN_QFENCE_CTL, RESTORE (R298, R299). -/
def execRestore (w : RegWrite) (s : State) : Host.Outcome State Fault Refusal :=
  .next (s.registerCommand (0x5A02800) w)

/-- A write of DSP_QBIND (R330). -/
def execQueueBind (q : QueueId) (w : RegWrite) (s : State) : Host.Outcome State Fault Refusal :=
  .next (s.registerCommand (0x1000000 + 0x1000 * q.val) w)

/-- A write of DSP_QTAIL (R331). -/
def execDoorbell (q : QueueId) (w : RegWrite) (s : State) : Host.Outcome State Fault Refusal :=
  .next (s.registerCommand (0x1000000 + 0x1000 * q.val + 0x18) w)

/-- A write of DSP_QCTL, EN (R332). -/
def execQueueEnable (q : QueueId) (w : RegWrite) (s : State) : Host.Outcome State Fault Refusal :=
  .next (s.registerCommand (0x1000000 + 0x1000 * q.val + 0x38) w)

/-- A write of DSP_QCTL, DESTROY (R367). -/
def execDestroy (q : QueueId) (w : RegWrite) (s : State) : Host.Outcome State Fault Refusal :=
  .next (s.registerCommand (0x1000000 + 0x1000 * q.val + 0x38) w)

/-- A write of PTN_SQOWN_n (R372, R373). -/
def execHandover (n : Fin 16) (w : RegWrite) (s : State) : Host.Outcome State Fault Refusal :=
  .next (s.registerCommand (0x2000000 + 8 * n.val) w)

/-- A write of PTN_HART_n (R375). -/
def execPtnHartWrite (core : CoreId) (w : RegWrite) (s : State) : Host.Outcome State Fault Refusal :=
  .next (s.registerCommand (0x2000800 + 8 * core.val) w)

/-- A write of PTN_RST_CTL, PRST (R383). -/
def execPrst (w : RegWrite) (s : State) : Host.Outcome State Fault Refusal :=
  .next (s.registerCommand (0x2000400) w)

/-- A write of PTN_RST_CTL, WARM (R392, R394). -/
def execWarm (w : RegWrite) (s : State) : Host.Outcome State Fault Refusal :=
  .next (s.registerCommand (0x2000400) w)

/-- A write of PTN_RST_CTL, COLD (R391, R394). -/
def execCold (w : RegWrite) (s : State) : Host.Outcome State Fault Refusal :=
  .next (s.registerCommand (0x2000400) w)

/-- A write of PWR_CTL, ENTER (R459, R464). -/
def execEnter (w : RegWrite) (s : State) : Host.Outcome State Fault Refusal :=
  .next (s.registerCommand (0x6000008) w)

/-- A write of PWR_CTL, WAKE (R461, R464). -/
def execWake (w : RegWrite) (s : State) : Host.Outcome State Fault Refusal :=
  .next (s.registerCommand (0x6000008) w)

/-- A write of LNK_ID (R429). -/
def execLnkIdWrite (w : RegWrite) (s : State) : Host.Outcome State Fault Refusal :=
  .next (s.registerCommand (0x8000000) w)

/-- A write of LNK_TIME (R434). -/
def execLnkTimeWrite (w : RegWrite) (s : State) : Host.Outcome State Fault Refusal :=
  .next (s.registerCommand (0x8000018) w)

/-- A write of LNK_EPOCH_GO (R438). -/
def execLnkEpochGo (w : RegWrite) (s : State) : Host.Outcome State Fault Refusal :=
  .next (s.registerCommand (0x8000028) w)

/-- A write of OBS_STOP_CTL, GO (R513). -/
def execObsStopGo (w : RegWrite) (s : State) : Host.Outcome State Fault Refusal :=
  .next (s.registerCommand (0x7000300) w)

/-- A write of OBS_STOP_CTL, RESUME (R518). -/
def execObsStopResume (w : RegWrite) (s : State) : Host.Outcome State Fault Refusal :=
  .next (s.registerCommand (0x7000300) w)

/-- A write of OBS_SNAP_CTL (R496). -/
def execSnapshotArm (w : RegWrite) (s : State) : Host.Outcome State Fault Refusal :=
  .next (s.registerCommand (0x7000020) w)

/-- A write of OBS_ELOG_RING_p (R563). -/
def execObsElogRingWrite (p : PartId) (w : RegWrite) (s : State) : Host.Outcome State Fault Refusal :=
  .next (s.registerCommand (0x7001000 + 0x40 * p.val) w)

/-- A write of OBS_TRC_RING_p (R564). -/
def execObsTrcRingWrite (p : PartId) (w : RegWrite) (s : State) : Host.Outcome State Fault Refusal :=
  .next (s.registerCommand (0x7002000 + 0x40 * p.val) w)

/-- A write of OBS_TRC_MARK_p (R512). -/
def execObsTrcMark (p : PartId) (w : RegWrite) (s : State) : Host.Outcome State Fault Refusal :=
  .next (s.registerCommand (0x7002000 + 0x40 * p.val + 0x28) w)

/-- A write of LNK_PORT_n (R408). -/
def execLnkPortWrite (port : PortId) (w : RegWrite) (s : State) : Host.Outcome State Fault Refusal :=
  .next (s.registerCommand (0x8001000 + 8 * port.val) w)

/-- A write of a register at an offset of the register space (R6, R269). -/
def execRegisterWrite (reg : Nat) (w : RegWrite) (s : State) : Host.Outcome State Fault Refusal :=
  .next (s.registerCommand (reg) w)

end Sys2Proof.Machine
end

