-- ==== Sys2Proof/Machine/Dispatch.lean ====
section
/-! DEFINITION. The one arm of each command. -/

namespace Sys2Proof.Machine

def exec (i : Instr) (s : State) : Host.Outcome State Fault Refusal :=
  match i with
  | .ctNop sq => Sys2Proof.Machine.execCtNop sq s
  | .ctMovi sq => Sys2Proof.Machine.execCtMovi sq s
  | .ctAdd sq => Sys2Proof.Machine.execCtAdd sq s
  | .ctSub sq => Sys2Proof.Machine.execCtSub sq s
  | .ctMul sq => Sys2Proof.Machine.execCtMul sq s
  | .ctAnd sq => Sys2Proof.Machine.execCtAnd sq s
  | .ctOr sq => Sys2Proof.Machine.execCtOr sq s
  | .ctXor sq => Sys2Proof.Machine.execCtXor sq s
  | .ctShl sq => Sys2Proof.Machine.execCtShl sq s
  | .ctSrl sq => Sys2Proof.Machine.execCtSrl sq s
  | .ctSra sq => Sys2Proof.Machine.execCtSra sq s
  | .ctMin sq => Sys2Proof.Machine.execCtMin sq s
  | .ctMax sq => Sys2Proof.Machine.execCtMax sq s
  | .ctMinu sq => Sys2Proof.Machine.execCtMinu sq s
  | .ctMaxu sq => Sys2Proof.Machine.execCtMaxu sq s
  | .ctBeq sq => Sys2Proof.Machine.execCtBeq sq s
  | .ctBne sq => Sys2Proof.Machine.execCtBne sq s
  | .ctBlt sq => Sys2Proof.Machine.execCtBlt sq s
  | .ctBge sq => Sys2Proof.Machine.execCtBge sq s
  | .ctBltu sq => Sys2Proof.Machine.execCtBltu sq s
  | .ctBgeu sq => Sys2Proof.Machine.execCtBgeu sq s
  | .ctJmp sq => Sys2Proof.Machine.execCtJmp sq s
  | .ctLoop sq => Sys2Proof.Machine.execCtLoop sq s
  | .ctNext sq => Sys2Proof.Machine.execCtNext sq s
  | .ctRdsr sq => Sys2Proof.Machine.execCtRdsr sq s
  | .ctEnd sq => Sys2Proof.Machine.execCtEnd sq s
  | .squareEndReport sq => Sys2Proof.Machine.execSquareEndReport sq s
  | .mxMma sq => Sys2Proof.Machine.execMxMma sq s
  | .mxFill sq => Sys2Proof.Machine.execMxFill sq s
  | .mxLdt sq => Sys2Proof.Machine.execMxLdt sq s
  | .mxStt sq => Sys2Proof.Machine.execMxStt sq s
  | .mxRsc sq => Sys2Proof.Machine.execMxRsc sq s
  | .mxTov sq => Sys2Proof.Machine.execMxTov sq s
  | .mxFromv sq => Sys2Proof.Machine.execMxFromv sq s
  | .mxLdsf sq => Sys2Proof.Machine.execMxLdsf sq s
  | .mxLdcb sq => Sys2Proof.Machine.execMxLdcb sq s
  | .vxAdd sq => Sys2Proof.Machine.execVxAdd sq s
  | .vxSub sq => Sys2Proof.Machine.execVxSub sq s
  | .vxMulsh sq => Sys2Proof.Machine.execVxMulsh sq s
  | .vxRsh sq => Sys2Proof.Machine.execVxRsh sq s
  | .vxAbs sq => Sys2Proof.Machine.execVxAbs sq s
  | .vxNeg sq => Sys2Proof.Machine.execVxNeg sq s
  | .vxMin sq => Sys2Proof.Machine.execVxMin sq s
  | .vxMax sq => Sys2Proof.Machine.execVxMax sq s
  | .vxAnd sq => Sys2Proof.Machine.execVxAnd sq s
  | .vxOr sq => Sys2Proof.Machine.execVxOr sq s
  | .vxXor sq => Sys2Proof.Machine.execVxXor sq s
  | .vxShl sq => Sys2Proof.Machine.execVxShl sq s
  | .vxSrl sq => Sys2Proof.Machine.execVxSrl sq s
  | .vxSra sq => Sys2Proof.Machine.execVxSra sq s
  | .vxCmpeq sq => Sys2Proof.Machine.execVxCmpeq sq s
  | .vxCmplt sq => Sys2Proof.Machine.execVxCmplt sq s
  | .vxCmple sq => Sys2Proof.Machine.execVxCmple sq s
  | .vxSel sq => Sys2Proof.Machine.execVxSel sq s
  | .vxMov sq => Sys2Proof.Machine.execVxMov sq s
  | .vxIota sq => Sys2Proof.Machine.execVxIota sq s
  | .vxBcast sq => Sys2Proof.Machine.execVxBcast sq s
  | .vxTos sq => Sys2Proof.Machine.execVxTos sq s
  | .vxLd sq => Sys2Proof.Machine.execVxLd sq s
  | .vxSt sq => Sys2Proof.Machine.execVxSt sq s
  | .vxRmax sq => Sys2Proof.Machine.execVxRmax sq s
  | .vxRmin sq => Sys2Proof.Machine.execVxRmin sq s
  | .vxRamax sq => Sys2Proof.Machine.execVxRamax sq s
  | .vxRsum sq => Sys2Proof.Machine.execVxRsum sq s
  | .vxRssq sq => Sys2Proof.Machine.execVxRssq sq s
  | .vxDsc sq => Sys2Proof.Machine.execVxDsc sq s
  | .vxQnt sq => Sys2Proof.Machine.execVxQnt sq s
  | .vxSmul sq => Sys2Proof.Machine.execVxSmul sq s
  | .vxSrcp sq => Sys2Proof.Machine.execVxSrcp sq s
  | .vxSc64 sq => Sys2Proof.Machine.execVxSc64 sq s
  | .vxSrsq sq => Sys2Proof.Machine.execVxSrsq sq s
  | .vxSfn sq => Sys2Proof.Machine.execVxSfn sq s
  | .vxTld sq => Sys2Proof.Machine.execVxTld sq s
  | .vxTst sq => Sys2Proof.Machine.execVxTst sq s
  | .pmEnq sq => Sys2Proof.Machine.execPmEnq sq s
  | .pmWait sq => Sys2Proof.Machine.execPmWait sq s
  | .pmWaitMet sq => Sys2Proof.Machine.execPmWaitMet sq s
  | .fnSeed sq => Sys2Proof.Machine.execFnSeed sq s
  | .fnUni sq => Sys2Proof.Machine.execFnUni sq s
  | .fnMask sq => Sys2Proof.Machine.execFnMask sq s
  | .fnInit sq => Sys2Proof.Machine.execFnInit sq s
  | .fnDraw sq => Sys2Proof.Machine.execFnDraw sq s
  | .syRel sq => Sys2Proof.Machine.execSyRel sq s
  | .syAcq sq => Sys2Proof.Machine.execSyAcq sq s
  | .syFence sq => Sys2Proof.Machine.execSyFence sq s
  | .syFencePass sq => Sys2Proof.Machine.execSyFencePass sq s
  | .syWait sq => Sys2Proof.Machine.execSyWait sq s
  | .syWaitMet sq => Sys2Proof.Machine.execSyWaitMet sq s
  | .syCset sq => Sys2Proof.Machine.execSyCset sq s
  | .syCrd sq => Sys2Proof.Machine.execSyCrd sq s
  | .atLd sq => Sys2Proof.Machine.execAtLd sq s
  | .atSt sq => Sys2Proof.Machine.execAtSt sq s
  | .atAtom sq => Sys2Proof.Machine.execAtAtom sq s
  | .atCas128 sq => Sys2Proof.Machine.execAtCas128 sq s
  | .atVatom sq => Sys2Proof.Machine.execAtVatom sq s
  | .kernelStop sq => Sys2Proof.Machine.execKernelStop sq s
  | .pumpDescriptorBegin sq => Sys2Proof.Machine.execPumpDescriptorBegin sq s
  | .pumpBlock sq => Sys2Proof.Machine.execPumpBlock sq s
  | .pumpSignal sq => Sys2Proof.Machine.execPumpSignal sq s
  | .pumpDescriptorComplete sq => Sys2Proof.Machine.execPumpDescriptorComplete sq s
  | .pmpTblLoad sq w => Sys2Proof.Machine.execPmpTblLoad sq w s
  | .tableImageRead sq => Sys2Proof.Machine.execTableImageRead sq s
  | .tableLoadDone sq => Sys2Proof.Machine.execTableLoadDone sq s
  | .ftnReload w => Sys2Proof.Machine.execFtnReload w s
  | .ftnSelftest w => Sys2Proof.Machine.execFtnSelftest w s
  | .ftnReloadDone => Sys2Proof.Machine.execFtnReloadDone s
  | .launchStart launch => Sys2Proof.Machine.execLaunchStart launch s
  | .launchEnd launch => Sys2Proof.Machine.execLaunchEnd launch s
  | .attnWalkBlock sq item => Sys2Proof.Machine.execAttnWalkBlock sq item s
  | .attnFold sq item => Sys2Proof.Machine.execAttnFold sq item s
  | .attnMerge sq item => Sys2Proof.Machine.execAttnMerge sq item s
  | .attnFinish sq item => Sys2Proof.Machine.execAttnFinish sq item s
  | .bwdAccumulate sq item => Sys2Proof.Machine.execBwdAccumulate sq item s
  | .ringStep launch => Sys2Proof.Machine.execRingStep launch s
  | .ringCredit launch => Sys2Proof.Machine.execRingCredit launch s
  | .ringPoison launch => Sys2Proof.Machine.execRingPoison launch s
  | .lookupRequest sq req => Sys2Proof.Machine.execLookupRequest sq req s
  | .lookupBlockPin sq req => Sys2Proof.Machine.execLookupBlockPin sq req s
  | .lookupBlockCommit sq req => Sys2Proof.Machine.execLookupBlockCommit sq req s
  | .lookupResult sq req => Sys2Proof.Machine.execLookupResult sq req s
  | .homeAccess src => Sys2Proof.Machine.execHomeAccess src s
  | .homeAtomic src => Sys2Proof.Machine.execHomeAtomic src s
  | .parityRetry idx => Sys2Proof.Machine.execParityRetry idx s
  | .ptnXtentWrite n w => Sys2Proof.Machine.execPtnXtentWrite n w s
  | .scrubComplete extent => Sys2Proof.Machine.execScrubComplete extent s
  | .fence w => Sys2Proof.Machine.execFence w s
  | .bridgeTimeout q => Sys2Proof.Machine.execBridgeTimeout q s
  | .phaseFault q => Sys2Proof.Machine.execPhaseFault q s
  | .restore w => Sys2Proof.Machine.execRestore w s
  | .queueBind q w => Sys2Proof.Machine.execQueueBind q w s
  | .doorbell q w => Sys2Proof.Machine.execDoorbell q w s
  | .queueEnable q w => Sys2Proof.Machine.execQueueEnable q w s
  | .destroy q w => Sys2Proof.Machine.execDestroy q w s
  | .destroyComplete q => Sys2Proof.Machine.execDestroyComplete q s
  | .entryFetch q => Sys2Proof.Machine.execEntryFetch q s
  | .entryEnd q => Sys2Proof.Machine.execEntryEnd q s
  | .dspNop q => Sys2Proof.Machine.execDspNop q s
  | .dspLaunch q => Sys2Proof.Machine.execDspLaunch q s
  | .dspAttn q => Sys2Proof.Machine.execDspAttn q s
  | .dspPlook q => Sys2Proof.Machine.execDspPlook q s
  | .dspBucket q => Sys2Proof.Machine.execDspBucket q s
  | .dspWait q => Sys2Proof.Machine.execDspWait q s
  | .dspWaitMet q => Sys2Proof.Machine.execDspWaitMet q s
  | .dspSignal q => Sys2Proof.Machine.execDspSignal q s
  | .dspSync q => Sys2Proof.Machine.execDspSync q s
  | .dspMovi q => Sys2Proof.Machine.execDspMovi q s
  | .dspAdd q => Sys2Proof.Machine.execDspAdd q s
  | .dspLd q => Sys2Proof.Machine.execDspLd q s
  | .dspSt q => Sys2Proof.Machine.execDspSt q s
  | .dspBr q => Sys2Proof.Machine.execDspBr q s
  | .dspCall q => Sys2Proof.Machine.execDspCall q s
  | .dspRet q => Sys2Proof.Machine.execDspRet q s
  | .dspDone q => Sys2Proof.Machine.execDspDone q s
  | .dspStat q => Sys2Proof.Machine.execDspStat q s
  | .dspIrq q => Sys2Proof.Machine.execDspIrq q s
  | .dspSeal q => Sys2Proof.Machine.execDspSeal q s
  | .dspPublish q => Sys2Proof.Machine.execDspPublish q s
  | .dspRetire q => Sys2Proof.Machine.execDspRetire q s
  | .sealRangeFree range => Sys2Proof.Machine.execSealRangeFree range s
  | .handover n w => Sys2Proof.Machine.execHandover n w s
  | .handoverClean sq => Sys2Proof.Machine.execHandoverClean sq s
  | .ptnHartWrite core w => Sys2Proof.Machine.execPtnHartWrite core w s
  | .coreHalt core => Sys2Proof.Machine.execCoreHalt core s
  | .interruptModerationExpiry p target => Sys2Proof.Machine.execInterruptModerationExpiry p target s
  | .msixUnmask fn ev => Sys2Proof.Machine.execMsixUnmask fn ev s
  | .prst w => Sys2Proof.Machine.execPrst w s
  | .functionLevelReset fn => Sys2Proof.Machine.execFunctionLevelReset fn s
  | .vfEnableClear vfEnable numVfs => Sys2Proof.Machine.execVfEnableClear vfEnable numVfs s
  | .partitionReset p => Sys2Proof.Machine.execPartitionReset p s
  | .partitionResetComplete p => Sys2Proof.Machine.execPartitionResetComplete p s
  | .warm w => Sys2Proof.Machine.execWarm w s
  | .cold w => Sys2Proof.Machine.execCold w s
  | .perstNAssert => Sys2Proof.Machine.execPerstNAssert s
  | .perstNRelease => Sys2Proof.Machine.execPerstNRelease s
  | .venMate => Sys2Proof.Machine.execVenMate s
  | .inputPowerGood => Sys2Proof.Machine.execInputPowerGood s
  | .venBreak => Sys2Proof.Machine.execVenBreak s
  | .sagDetect mv => Sys2Proof.Machine.execSagDetect mv s
  | .sagHoldExpiry => Sys2Proof.Machine.execSagHoldExpiry s
  | .brakeAssert => Sys2Proof.Machine.execBrakeAssert s
  | .brakeRelease => Sys2Proof.Machine.execBrakeRelease s
  | .supplyLossStop mv => Sys2Proof.Machine.execSupplyLossStop mv s
  | .sagDurationExpiry => Sys2Proof.Machine.execSagDurationExpiry s
  | .overvoltageExpiry => Sys2Proof.Machine.execOvervoltageExpiry s
  | .supplyRecoveryExpiry => Sys2Proof.Machine.execSupplyRecoveryExpiry s
  | .gatePowerLoss mv => Sys2Proof.Machine.execGatePowerLoss mv s
  | .telemetrySample t => Sys2Proof.Machine.execTelemetrySample t s
  | .thermalRecovery => Sys2Proof.Machine.execThermalRecovery s
  | .controllerEvaluation => Sys2Proof.Machine.execControllerEvaluation s
  | .enter w => Sys2Proof.Machine.execEnter w s
  | .dormantEntryDone => Sys2Proof.Machine.execDormantEntryDone s
  | .wake w => Sys2Proof.Machine.execWake w s
  | .fullService => Sys2Proof.Machine.execFullService s
  | .replicaLoad r => Sys2Proof.Machine.execReplicaLoad r s
  | .resyncWindowExpiry r => Sys2Proof.Machine.execResyncWindowExpiry r s
  | .ferase p => Sys2Proof.Machine.execFerase p s
  | .fwrite p => Sys2Proof.Machine.execFwrite p s
  | .fread p => Sys2Proof.Machine.execFread p s
  | .commit p => Sys2Proof.Machine.execCommit p s
  | .attest p => Sys2Proof.Machine.execAttest p s
  | .keyload p => Sys2Proof.Machine.execKeyload p s
  | .keyclear p => Sys2Proof.Machine.execKeyclear p s
  | .reboot p => Sys2Proof.Machine.execReboot p s
  | .mailboxCommandDone => Sys2Proof.Machine.execMailboxCommandDone s
  | .dataFlit port f => Sys2Proof.Machine.execDataFlit port f s
  | .idleFlit port f => Sys2Proof.Machine.execIdleFlit port f s
  | .nak port f => Sys2Proof.Machine.execNak port f s
  | .replayTimeout port => Sys2Proof.Machine.execReplayTimeout port s
  | .portLeaveUp port => Sys2Proof.Machine.execPortLeaveUp port s
  | .hello port h => Sys2Proof.Machine.execHello port h s
  | .put port cr => Sys2Proof.Machine.execPut port cr s
  | .get port cr => Sys2Proof.Machine.execGet port cr s
  | .atom port cr => Sys2Proof.Machine.execAtom port cr s
  | .signal port cr => Sys2Proof.Machine.execSignal port cr s
  | .ack port cr => Sys2Proof.Machine.execAck port cr s
  | .data port cr => Sys2Proof.Machine.execData port cr s
  | .err port cr => Sys2Proof.Machine.execErr port cr s
  | .transitForward port ch => Sys2Proof.Machine.execTransitForward port ch s
  | .linkTimeoutExpiry tid => Sys2Proof.Machine.execLinkTimeoutExpiry tid s
  | .gapTimeout stream => Sys2Proof.Machine.execGapTimeout stream s
  | .timeExchange => Sys2Proof.Machine.execTimeExchange s
  | .treq port cr => Sys2Proof.Machine.execTreq port cr s
  | .tresp port cr => Sys2Proof.Machine.execTresp port cr s
  | .tlockTimeout => Sys2Proof.Machine.execTlockTimeout s
  | .lnkIdWrite w => Sys2Proof.Machine.execLnkIdWrite w s
  | .lnkTimeWrite w => Sys2Proof.Machine.execLnkTimeWrite w s
  | .lnkEpochGo w => Sys2Proof.Machine.execLnkEpochGo w s
  | .eprep port cr => Sys2Proof.Machine.execEprep port cr s
  | .eack port cr => Sys2Proof.Machine.execEack port cr s
  | .ecommit port cr => Sys2Proof.Machine.execEcommit port cr s
  | .eabandon port cr => Sys2Proof.Machine.execEabandon port cr s
  | .epochCommitTime => Sys2Proof.Machine.execEpochCommitTime s
  | .epochAbandonTimeout => Sys2Proof.Machine.execEpochAbandonTimeout s
  | .stopreq port cr => Sys2Proof.Machine.execStopreq port cr s
  | .mark port f => Sys2Proof.Machine.execMark port f s
  | .resumeMark port f => Sys2Proof.Machine.execResumeMark port f s
  | .obsStopGo w => Sys2Proof.Machine.execObsStopGo w s
  | .obsStopResume w => Sys2Proof.Machine.execObsStopResume w s
  | .snapshotArm w => Sys2Proof.Machine.execSnapshotArm w s
  | .snapshotTick => Sys2Proof.Machine.execSnapshotTick s
  | .errorRecordArrive idx => Sys2Proof.Machine.execErrorRecordArrive idx s
  | .errorRecordAccept => Sys2Proof.Machine.execErrorRecordAccept s
  | .obsElogRingWrite p w => Sys2Proof.Machine.execObsElogRingWrite p w s
  | .traceRecord idx => Sys2Proof.Machine.execTraceRecord idx s
  | .obsTrcRingWrite p w => Sys2Proof.Machine.execObsTrcRingWrite p w s
  | .obsTrcMark p w => Sys2Proof.Machine.execObsTrcMark p w s
  | .hostMemRequest r => Sys2Proof.Machine.execHostMemRequest r s
  | .hostAtomicop fn tag => Sys2Proof.Machine.execHostAtomicop fn tag s
  | .configRequest fn c => Sys2Proof.Machine.execConfigRequest fn c s
  | .hostWindowCompletion tag c => Sys2Proof.Machine.execHostWindowCompletion tag c s
  | .smbusBlockRead t => Sys2Proof.Machine.execSmbusBlockRead t s
  | .registerWrite reg w => Sys2Proof.Machine.execRegisterWrite reg w s
  | .lnkPortWrite port w => Sys2Proof.Machine.execLnkPortWrite port w s
  | .fenceComplete q => Sys2Proof.Machine.execFenceComplete q s
  | .restoreDone q selfTest => Sys2Proof.Machine.execRestoreDone q selfTest s
  | .startUpDone => Sys2Proof.Machine.execStartUpDone s
  | .warmResetDone => Sys2Proof.Machine.execWarmResetDone s
  | .hostCompletionTimeout tag => Sys2Proof.Machine.execHostCompletionTimeout tag s
  | .busRecovery mv => Sys2Proof.Machine.execBusRecovery mv s
  | .busOvervoltage mv => Sys2Proof.Machine.execBusOvervoltage mv s

end Sys2Proof.Machine
end

