-- ==== Sys2Proof/Machine/Tick.lean ====
section
/-! DEFINITION. What a nanosecond without a command does (LOG 2): the time base and the counters of nanoseconds go on, and so does a
start-up (R434, R476, R489, R494). -/

namespace Sys2Proof.Machine

/-- The time base goes on by one nanosecond; every 5,000th gives a nanosecond back, or adds one, while it is steered at 200 ppm
(R434). -/
def State.steerTick (s : State) : State :=
  let l := s.links
  if l.slew = 0 then s.advanceTo (s.time + 1)
  else if l.slewAcc < 4999 then
    State.advanceTo { s with links := { l with slewAcc := l.slewAcc + 1 } } (s.time + 1)
  else
    let t : State := { s with links := { l with slewAcc := 0, slew := if 0 < l.slew then l.slew - 1 else l.slew + 1 } }
    if 0 < l.slew then t else t.advanceTo (s.time + 2)

/-- One nanosecond passes while no command waits (LOG 2). Without input power nothing runs (R489, R541). -/
def tick (s : State) : State :=
  if !s.power.gates then s
  else ((s.countTime.steerTick.modPower (fun w => { w with age := w.age + 1 })).startTick).settleHall

end Sys2Proof.Machine
end

