-- ==== Sys2Proof/Safety.lean ====
section
/-! DEFINITION. What a safe state of the module is, in the terms that claims use: memory in its canonical form, what a
command leaves alone, when an instruction of a square stands ready, and what the manual promises of the data that it
fixes without printing. -/

namespace Sys2Proof.Machine

/-- Memory is in its canonical form: addresses strictly rising, none holding what an unlisted address reads as. -/
def Memory.wf (m : List Host.Cell) : Bool := Table.wf 0 m

/-! What a command leaves alone. -/

/-- Every byte of wells, cisterns and reservoir reads as before. -/
def sameMemory (s t : State) : Prop := ∀ a, t.byte a = s.byte a

/-- Every byte outside the `n` bytes from address `a` reads as before. -/
def sameMemoryBut (s t : State) (a n : Nat) : Prop := ∀ b, b < a ∨ a + n ≤ b → t.byte b = s.byte b

/-- Only the table of squares differs, and in it only square `u`. -/
def onlySquare (s t : State) (u : Nat) : Prop :=
  t = { s with squares := t.squares } ∧ (∀ v, v ≠ u → t.sq v = s.sq v) ∧ sameMemory s t

/-- Besides its PC and its scalar registers a square is unchanged. -/
def scalarOnly (q r : Square) : Prop := r = { q with pc := r.pc, sregs := r.sregs }

/-- No error-log record was made and nothing left the module. -/
def silent (s t : State) : Prop := t.elog = s.elog ∧ t.out = s.out

/-! Instructions of squares. -/

/-- Word `w` of a class and opcode stands at the PC of a square that may issue it (R102, R105). -/
def standsAt (s : State) (u : SquareId) (cls op w : Nat) : Prop :=
  s.fetched u.val = .word w ∧ w % 16 = cls ∧ bits w 4 6 = op

/-- A CT instruction is ready: its map holds and its registers are written (R107, R112). -/
def ctReady (s : State) (u : SquareId) (op w : Nat) : Prop :=
  standsAt s u 0 op w ∧ ctFormOk w = true ∧ (s.sq u.val).regsReady (ctRegs3 w) = true

/-- The next state of an instruction that writes scalar register `r` and goes on in sequence (R104). -/
def scalarWritten (s t : State) (u : SquareId) (r : Nat) (v : Reg64) : Prop :=
  onlySquare s t u.val ∧ scalarOnly (s.sq u.val) (t.sq u.val) ∧ (t.sq u.val).pc = (s.sq u.val).pc + 1 ∧
    ∀ k, (t.sq u.val).sreg k = if k = r ∧ r ≠ 0 then v else (s.sq u.val).sreg k

/-- Square `u` has faulted with one record of the code and address, and nothing else of it or of memory changed (R141,
R142). -/
def faultedAt (s t : State) (u : SquareId) (code addr : Nat) : Prop :=
  (∃ e : ErrRecord, t.elog.transit = s.elog.transit ++ [e] ∧ e.code = code ∧ e.unit = u.val ∧
    e.part = (s.sq u.val).kpart ∧ e.addr = s.recordAddr addr ∧ e.stamp = s.time) ∧
  (t.sq u.val).run = .stopped ∧ (t.sq u.val).fault = some ⟨code, (s.sq u.val).pc % 4096, s.time⟩ ∧
  (t.sq u.val).sregs = (s.sq u.val).sregs ∧ (t.sq u.val).vreg = (s.sq u.val).vreg ∧ (t.sq u.val).acc = (s.sq u.val).acc ∧
  t.sqCtr = s.sqCtr ∧ sameMemory s t

/-! The data of R90 and R196 that the manual fixes without printing (LOG 7): what it promises of them. `builtinTable`, `builtinEval` and
`polyOf` are held to these promises by their definitions; as propositions they stand here for a claim that takes one as a premise. -/

/-- Every built-in table passes the seam check with its directions (R89, R90). -/
def builtinSeamsPass : Prop := ∀ slot < 7, seamCheck (builtinTable slot) = 0

/-- The value on the output grid of the function of a built-in slot, at a real argument (R89, R562). -/
def builtinExact (slot : Nat) (t y : ℝ) : Prop :=
  match slot with
  | 0 => y = 2 ^ 24 * Real.rpow 2 t
  | 1 => y = 2 ^ 16 * Real.logb 2 t
  | 2 => y = 2 ^ 24 / t
  | 3 => y = 2 ^ 24 / Real.sqrt t
  | 4 => y = 2 ^ 30 / (1 + Real.exp (-t))
  | 5 => y = 2 ^ 30 * Real.tanh t
  | _ => y = 2 ^ 16 * t * (ProbabilityTheory.gaussianReal 0 1 (Set.Iic t)).toReal

/-- Away from its limits a built-in result lies within 4 units, or 2^-11 of the magnitude, of the rounded exact value (R562), wherever
the fitted table does (LOG 7). -/
def builtinAccurate : Prop :=
  ∀ slot < 7, ∀ x : Int, x.natAbs ≤ 2147483647 → builtinLimit slot x = none →
    nearExact slot x (userEval (fitTable slot) x) = true →
    ∃ (y : ℝ) (e : Int), builtinExact slot ((x : ℝ) / 2 ^ 16) y ∧ |y - (e : ℝ)| ≤ 1 / 2 ∧
      ((builtinEval slot x - e).natAbs ≤ 4 ∨ 2 ^ 11 * (builtinEval slot x - e).natAbs ≤ e.natAbs)

/-- The polynomials of the 512 lanes are distinct (R196). -/
def lanePolysDistinct : Prop := ∀ l < 512, ∀ m < 512, polyOf l = polyOf m → l = m

end Sys2Proof.Machine
end

