-- ==== Sys2Proof/Certificates/Slice0/Obligations.lean ====
section
/-! DEFINITION. The statements that the provers settle: each one is a definition `Obligations.<Name> : Prop`, and its
docstring says which rules of the manual it formalises. -/

open Sys2Proof Sys2Proof.Machine
/-! The queue of commands and memory as a whole. -/

/-- A step runs the command at the front of the queue with the queue's rest. -/
def Obligations.StepRunsFrontCommand : Prop :=
  ∀ (c : Instr) (r : List Instr) (s : State), step { s with pending := c :: r } = exec c { s with pending := r }

/-- The time base after one tick: 1 ns later; every 5,000th tick under steering gives the nanosecond back or adds one (R434: 200 ppm). -/
def tickedTime (s : State) : Nat :=
  if s.links.slew = 0 ∨ s.links.slewAcc < 4999 then s.time + 1 else if 0 < s.links.slew then s.time else s.time + 2

/-- The counters of nanoseconds after a tick (R494): a running square counts it, and once more where it waits in SY.WAIT or PM.WAIT, a core
that is not halted counts it, and no other counter moves. -/
def nanosecondsCounted (s t : State) : Prop :=
  (Table.wf {} s.squares = true → ∀ u, u < 128 →
    Table.get 0 t.ctr (256 * u + 14) = Table.get 0 s.ctr (256 * u + 14) + (if (s.sq u).run = .running then 1 else 0) ∧
    Table.get 0 t.ctr (256 * u + 15) = Table.get 0 s.ctr (256 * u + 15) +
      (if (s.sq u).run = .running ∧ (s.sq u).stall.waits = true then 1 else 0)) ∧
  (Table.wf {} s.harts = true → ∀ c, c < 48 →
    Table.get 0 t.ctr (256 * unitCore c + 1) = Table.get 0 s.ctr (256 * unitCore c + 1) + (if (s.hart c).halted = true then 0 else 1)) ∧
  ∀ k, k % 256 ≠ 1 → k % 256 ≠ 14 → k % 256 ≠ 15 → Table.get 0 t.ctr k = Table.get 0 s.ctr k

/-- On an empty queue a nanosecond passes (R489; that it does so on an empty queue is the model's choice, LOG 2), and none without input
power. The time base goes on by 1 ns, or as its steering says while it is steered (R434, LOG 35). A snapshot that is armed for a time now
reached holds the counters as they stand, so that it counts the events stamped below its tick (R495). While no start-up is under way
nothing else changes but the steering's own count, the counters of nanoseconds, the ages of the counters and of the input power, and
what the hall knows of how long each queue has been ready (R377). -/
def Obligations.IdleStepTicksTimeBase : Prop :=
  (∀ s : State, s.pending = [] → s.power.gates = false → step s = .next s) ∧
  (∀ s : State, s.pending = [] → s.power.gates = true → s.boot.starting = false → s.time < 2 ^ 64 →
    ∃ t, step s = .next t ∧ t.time = tickedTime s % 2 ^ 64 ∧
    t = { s with time := t.time, snap := t.snap, ctr := t.ctr, ctrAge := s.ctrAge + 1
                 power := { s.power with age := s.power.age + 1 }
                 hall := { s.hall with deficit := t.hall.deficit, since := t.hall.since }
                 links := { s.links with slew := t.links.slew, slewAcc := t.links.slewAcc } } ∧
    nanosecondsCounted s t ∧
    t.links.slew = (if s.links.slew = 0 ∨ s.links.slewAcc < 4999 then s.links.slew
                    else if 0 < s.links.slew then s.links.slew - 1 else s.links.slew + 1) ∧
    t.links.slewAcc = (if s.links.slew = 0 then s.links.slewAcc
                       else if s.links.slewAcc < 4999 then s.links.slewAcc + 1 else 0) ∧
    (s.snap.busy = true ∧ s.snap.held0 = none ∧ s.time < s.snap.armT ∧ s.snap.armT ≤ tickedTime s →
      ∃ h, t.snap.held0 = some h ∧ h.ctr = s.countTime.counters ∧ h.units = s.poweredUnits) ∧
    (s.snap.busy = true ∧ s.snap.held1 = none ∧ s.time < s.snap.armEnd ∧ s.snap.armEnd ≤ tickedTime s →
      ∃ h, t.snap.held1 = some h ∧ h.ctr = s.countTime.counters ∧ h.units = s.poweredUnits) ∧
    (s.snap.busy = false → t.snap = s.snap))

/-- No command touches the queue of the commands that wait behind it. -/
def Obligations.CommandsLeaveQueueAlone : Prop :=
  ∀ (c : Instr) (s t : State), exec c s = .next t → t.pending = s.pending

/-- Every command, and a tick, keeps memory in its canonical form: after any step the list of bytes rises strictly in
address and lists no byte that equals what an unlisted address reads as. -/
def Obligations.StepKeepsMemoryCanonical : Prop :=
  ∀ s t : State, Memory.wf s.mem = true → step s = .next t → Memory.wf t.mem = true
/-! Control core: CT and SY (05). -/

/-- The scalar operations of R113: command, opcode, and the result for sA and op2. -/
def scalarRules (u : SquareId) : List (Instr × Nat × (Reg64 → Reg64 → Reg64)) :=
  [(.ctMovi u, 0x01, fun _ b => b),
   (.ctAdd u, 0x02, fun a b => BitVec.ofNat 64 (a.toNat + b.toNat)),
   (.ctSub u, 0x03, fun a b => BitVec.ofInt 64 (a.toInt - b.toInt)),
   (.ctMul u, 0x04, fun a b => BitVec.ofInt 64 (a.toInt * b.toInt)),
   (.ctAnd u, 0x05, fun a b => a &&& b),
   (.ctOr u, 0x06, fun a b => a ||| b),
   (.ctXor u, 0x07, fun a b => a ^^^ b),
   (.ctShl u, 0x08, fun a b => BitVec.ofNat 64 (a.toNat * 2 ^ (b.toNat % 64))),
   (.ctSrl u, 0x09, fun a b => BitVec.ofNat 64 (a.toNat / 2 ^ (b.toNat % 64))),
   (.ctSra u, 0x0A, fun a b => BitVec.ofInt 64 (a.toInt / (2 ^ (b.toNat % 64) : Nat))),
   (.ctMin u, 0x0B, fun a b => BitVec.ofInt 64 (min a.toInt b.toInt)),
   (.ctMax u, 0x0C, fun a b => BitVec.ofInt 64 (max a.toInt b.toInt)),
   (.ctMinu u, 0x0D, fun a b => BitVec.ofNat 64 (min a.toNat b.toNat)),
   (.ctMaxu u, 0x0E, fun a b => BitVec.ofNat 64 (max a.toNat b.toNat))]

/-- Every scalar operation of R113 completes: sD takes its result modulo 2^64 (nothing when D is 0, R104), the PC goes on
in sequence, and nothing else of the square, of another square or of memory changes. op2 is IMM when I = 1 and sB
otherwise; CT.MOVI takes IMM whatever I is. -/
def Obligations.ScalarArithmeticWritesDestination : Prop :=
  ∀ (s : State) (u : SquareId) (w : Nat) (r : Instr × Nat × (Reg64 → Reg64 → Reg64)),
    r ∈ scalarRules u → ctReady s u r.2.1 w →
    ∃ t, exec r.1 s = .next t ∧
      scalarWritten s t u (ctSD w)
        (r.2.2 ((s.sq u.val).sreg (ctSA w))
          (if ctI w = true ∨ r.2.1 = 0x01 then BitVec.ofNat 64 (w / 2 ^ 64) else (s.sq u.val).sreg (ctSB w)))

/-- The conditions under which the branches of R113 go to their target: command, opcode, condition on sA and sB. -/
def branchRules (u : SquareId) : List (Instr × Nat × (Reg64 → Reg64 → Bool)) :=
  [(.ctBeq u, 0x10, fun a b => decide (a.toNat = b.toNat)),
   (.ctBne u, 0x11, fun a b => decide (a.toNat ≠ b.toNat)),
   (.ctBlt u, 0x12, fun a b => decide (a.toInt < b.toInt)),
   (.ctBge u, 0x13, fun a b => decide (a.toInt ≥ b.toInt)),
   (.ctBltu u, 0x14, fun a b => decide (a.toNat < b.toNat)),
   (.ctBgeu u, 0x15, fun a b => decide (a.toNat ≥ b.toNat)),
   (.ctJmp u, 0x16, fun _ _ => true)]

/-- The address of the instruction that a square issues next, modulo 2^64, is the branch's address + 16 × IMM. -/
def branched (q r : Square) (w : Nat) : Prop :=
  (r.codeAddr + 16 * r.pc) % 2 ^ 64 = (q.codeAddr + 16 * q.pc + 16 * (BitVec.ofNat 64 (w / 2 ^ 64)).toNat) % 2 ^ 64

/-- Every branch of R113 completes: it goes to the branch's address + 16 × IMM when its condition holds and on in sequence
otherwise, and changes nothing but the PC. -/
def Obligations.BranchesChooseNextInstruction : Prop :=
  ∀ (s : State) (u : SquareId) (w : Nat) (r : Instr × Nat × (Reg64 → Reg64 → Bool)),
    r ∈ branchRules u → ctReady s u r.2.1 w → (r.2.1 = 0x16 ∨ ctI w = false) →
    ∃ t, exec r.1 s = .next t ∧ onlySquare s t u.val ∧ t.sq u.val = { s.sq u.val with pc := (t.sq u.val).pc } ∧
      (if r.2.2 ((s.sq u.val).sreg (ctSA w)) ((s.sq u.val).sreg (ctSB w)) = true then branched (s.sq u.val) (t.sq u.val) w
       else (t.sq u.val).pc = (s.sq u.val).pc + 1)

/-- CT.LOOP takes 1 from sD and branches while sD is nonzero; s0 still reads 0 after its discarded write (R104). CT.NOP
changes nothing but the PC. -/
def loopCountsDownAndNopAdvances : Prop :=
  (∀ (s : State) (u : SquareId) (w : Nat), ctReady s u 0x17 w →
    ∃ t, exec (.ctLoop u) s = .next t ∧ onlySquare s t u.val ∧ scalarOnly (s.sq u.val) (t.sq u.val) ∧
      (∀ k, (t.sq u.val).sreg k = if k = ctSD w ∧ ctSD w ≠ 0 then (s.sq u.val).sreg k - 1 else (s.sq u.val).sreg k) ∧
      (if (t.sq u.val).sreg (ctSD w) ≠ 0 then branched (s.sq u.val) (t.sq u.val) w
       else (t.sq u.val).pc = (s.sq u.val).pc + 1)) ∧
  (∀ (s : State) (u : SquareId) (w : Nat), ctReady s u 0x00 w →
    ∃ t, exec (.ctNop u) s = .next t ∧ onlySquare s t u.val ∧
      t.sq u.val = { s.sq u.val with pc := (s.sq u.val).pc + 1 })

/-- CT.NEXT (R114): while a tile of the square's share remains, sD and TILE receive its linear index y × GRID_X + x and
TILEXY its place, the square's share moves on by the size of the set, and execution goes on in sequence; when none
remains, nothing but the PC changes and execution branches. -/
def nextTakesGridTile : Prop :=
  ∀ (s : State) (u : SquareId) (w : Nat), ctReady s u 0x18 w →
    let q := s.sq u.val
    let p := visitXY q.order q.gridX q.gridY q.nextPos
    ∃ t, exec (.ctNext u) s = .next t ∧ onlySquare s t u.val ∧
      (if q.nextPos < q.gridX * q.gridY then
        (t.sq u.val).tile = BitVec.ofNat 64 (p.2 * q.gridX + p.1) ∧
        (t.sq u.val).tileXY = BitVec.ofNat 64 (p.1 + p.2 * 2 ^ 32) ∧
        (∀ k, (t.sq u.val).sreg k =
          if k = ctSD w ∧ ctSD w ≠ 0 then BitVec.ofNat 64 (p.2 * q.gridX + p.1) else q.sreg k) ∧
        (t.sq u.val).nextPos = q.nextPos + q.setSize ∧ (t.sq u.val).pc = q.pc + 1
       else branched q (t.sq u.val) w ∧ t.sq u.val = { q with pc := (t.sq u.val).pc })

/-- The special registers of R115. -/
def specialRules (s : State) (u : SquareId) : List (Nat × Reg64) :=
  let q := s.sq u.val
  [(0, BitVec.ofNat 64 u.val), (1, BitVec.ofNat 64 q.kpart), (2, BitVec.ofNat 64 (q.gridX + q.gridY * 2 ^ 32)),
   (3, q.tile), (4, q.tileXY), (5, BitVec.ofNat 64 q.allotSize), (6, BitVec.ofNat 64 (q.cbase + q.ccount * 2 ^ 8)),
   (7, BitVec.ofNat 64 s.time), (8, BitVec.ofNat 64 ((if q.accSat then 1 else 0) + (if q.outSat then 2 else 0))),
   (9, BitVec.ofNat 64 q.pump.lastTicket)]

/-- CT.RDSR reads the special registers of the table of R115; any other selector faults with ILLEGAL_INSTRUCTION. That TIME reads exactly
the module's time base is the model's choice (LOG 81). -/
def specialRegistersRead : Prop :=
  ∀ (s : State) (u : SquareId) (w : Nat), ctReady s u 0x19 w →
    (∀ r ∈ specialRules s u, (BitVec.ofNat 64 (w / 2 ^ 64)).toNat = r.1 →
      ∃ t, exec (.ctRdsr u) s = .next t ∧ scalarWritten s t u (ctSD w) r.2) ∧
    (9 < (BitVec.ofNat 64 (w / 2 ^ 64)).toNat →
      ∃ t, exec (.ctRdsr u) s = .next t ∧ faultedAt s t u 12 (s.sq u.val).insAddr)

/-- CT.END lets the square issue nothing more (R143); once nothing of the square is outstanding, it reports its flags and
that it did not fault, and is idle. A square of a kernel in which another square faulted is stopped without a record: its
AT operations lose their results and its pump the descriptors that it has not begun (R142). -/
def squaresEndAndStop : Prop :=
  (∀ (s : State) (u : SquareId) (w : Nat), ctReady s u 0x1A w →
    ∃ t, exec (.ctEnd u) s = .next t ∧ onlySquare s t u.val ∧ t.sq u.val = { s.sq u.val with stall := .ending } ∧
      t.fetched u.val = .idle) ∧
  (∀ (s : State) (u : SquareId) (l : Launch), s.stop.stopped = false → s.launch (s.sq u.val).launch = some l →
    (∀ k ∈ s.launches, k.id = l.id → k = l) → l.kind = .kernel → (s.sq u.val).run = .running → (s.sq u.val).stall = .ending → (s.sq u.val).drained = true →
    ∃ t, exec (.squareEndReport u) s = .next t ∧ (t.sq u.val).run = .idle ∧ t.elog = s.elog ∧ sameMemory s t ∧
      t.launch l.id = some { l with reports := l.reports ++
        [⟨u.val, (s.sq u.val).fault, false, (s.sq u.val).accSat, (s.sq u.val).outSat⟩] } ∧
      ∀ v, v ≠ u.val → t.sq v = s.sq v) ∧
  (∀ (s : State) (u : SquareId) (l : Launch), s.stop.stopped = false → s.launch (s.sq u.val).launch = some l →
    s.launchFaulted l = true → (s.sq u.val).run = .running →
    ∃ t, exec (.kernelStop u) s = .next t ∧ (t.sq u.val).run = .stopped ∧ (t.sq u.val).fault = (s.sq u.val).fault ∧
      t.elog = s.elog ∧ (t.sq u.val).pump.queue = [] ∧ (∀ o ∈ (t.sq u.val).atOps, o.sd = 0) ∧
      (t.sq u.val).atOps.length = (s.sq u.val).atOps.length ∧ sameMemory s t ∧ ∀ v, v ≠ u.val → t.sq v = s.sq v)

/-- Counter `c` of square `u` as the counter instructions name it: relative to CBASE. -/
def counterNamed (s : State) (u : SquareId) (w : Nat) : Nat := (s.sq u.val).cbase + bits w 10 6

/-- An SY instruction is ready: only the fields it names are set, and its register is written (R107, R130). -/
def syReady (s : State) (u : SquareId) (op w : Nat) (fs : List (Nat × Nat)) : Prop :=
  standsAt s u 5 op w ∧ onlyFields w fs = true ∧ (s.sq u.val).regsReady [bits w 20 5] = true

/-- SY.CSET writes the counter, SY.CRD reads it into SR (R131). SY.WAIT stalls the square; the stall ends once the counter
is at or above the value, or equal to it as COND says, and an acquire at quarter or device scope then discards the near
cache. A CI at or above CCOUNT faults with ALLOT_OVERFLOW (R132). -/
def counterInstructionsWork : Prop :=
  (∀ (s : State) (u : SquareId) (w : Nat), syReady s u 0x04 w [(20, 5), (10, 6)] → bits w 10 6 < (s.sq u.val).ccount →
    ∃ t, exec (.syCset u) s = .next t ∧ t.squareCounter u.val (counterNamed s u w) = (s.sq u.val).sreg (bits w 20 5) ∧
      t = { s with squares := t.squares, sqCtr := t.sqCtr } ∧ t.sq u.val = { s.sq u.val with pc := (s.sq u.val).pc + 1 } ∧
      (∀ v, v ≠ u.val → t.sq v = s.sq v) ∧
      ∀ k, k ≠ 64 * u.val + counterNamed s u w → Table.get 0 t.sqCtr k = Table.get 0 s.sqCtr k) ∧
  (∀ (s : State) (u : SquareId) (w : Nat), syReady s u 0x05 w [(20, 5), (10, 6)] → bits w 10 6 < (s.sq u.val).ccount →
    ∃ t, exec (.syCrd u) s = .next t ∧
      scalarWritten s t u (bits w 20 5) (s.squareCounter u.val (counterNamed s u w))) ∧
  (∀ (s : State) (u : SquareId) (w : Nat), syReady s u 0x03 w [(20, 5), (18, 2), (16, 2), (10, 6)] → bits w 16 2 < 2 →
    bits w 10 6 < (s.sq u.val).ccount →
    ∃ t, exec (.syWait u) s = .next t ∧
      t.sq u.val = { s.sq u.val with
        stall := .counter (counterNamed s u w) (decide (bits w 16 2 = 1)) ((s.sq u.val).sreg (bits w 20 5)) (bits w 18 2) } ∧
      t.sqCtr = s.sqCtr ∧ silent s t ∧ sameMemory s t ∧ ∀ v, v ≠ u.val → t.sq v = s.sq v) ∧
  (∀ (s : State) (u : SquareId) (c : Nat) (eq : Bool) (v : Reg64) (sc : Nat), (s.sq u.val).stall = .counter c eq v sc →
    s.active u.val = true →
    (if eq then s.squareCounter u.val c = v else v.toNat ≤ (s.squareCounter u.val c).toNat) →
    ∃ t, exec (.syWaitMet u) s = .next t ∧ (t.sq u.val).stall = .none ∧ (t.sq u.val).pc = (s.sq u.val).pc + 1 ∧
      (t.sq u.val).near = (if sc < 2 then (s.sq u.val).near else []) ∧ (t.sq u.val).sregs = (s.sq u.val).sregs ∧
      t.sqCtr = s.sqCtr ∧ silent s t ∧ sameMemory s t ∧ ∀ v, v ≠ u.val → t.sq v = s.sq v) ∧
  (∀ (s : State) (u : SquareId) (w : Nat), syReady s u 0x04 w [(20, 5), (10, 6)] → (s.sq u.val).ccount ≤ bits w 10 6 →
    ∃ t, exec (.syCset u) s = .next t ∧ faultedAt s t u 5 (s.sq u.val).insAddr) ∧
  (∀ (s : State) (u : SquareId) (w : Nat), syReady s u 0x05 w [(20, 5), (10, 6)] → (s.sq u.val).ccount ≤ bits w 10 6 →
    ∃ t, exec (.syCrd u) s = .next t ∧ faultedAt s t u 5 (s.sq u.val).insAddr) ∧
  (∀ (s : State) (u : SquareId) (w : Nat), syReady s u 0x03 w [(20, 5), (18, 2), (16, 2), (10, 6)] → bits w 16 2 < 2 →
    (s.sq u.val).ccount ≤ bits w 10 6 →
    ∃ t, exec (.syWait u) s = .next t ∧ faultedAt s t u 5 (s.sq u.val).insAddr)

/-- A location of a scope of square u (R307): at scope 3 every one, below it those of this module that the scope holds. -/
def locationOf (s : State) (u : SquareId) (scope g : Nat) : Prop :=
  scope = 3 ∨ (s.isLocal g = true ∧ inScope s.isM u.val scope (g % 2 ^ 44) = true)

/-- SY.REL goes on once no AT operation that it orders is in flight, a load or a write or atomic to a location of its scope, and waits
while there is one (R308); SY.ACQ at quarter or device scope discards the
square's near cache and square scope keeps it (R310); SY.FENCE stalls the square until the units it names have completed
(R131): PM when no descriptor is queued or begun, AT when none is in flight. That MX, VX and FN have completed whatever they were
given is the model's choice: they act as they issue (LOG 16). -/
def orderingInstructionsWork : Prop :=
  (∀ (s : State) (u : SquareId) (w : Nat), standsAt s u 5 0x00 w → onlyFields w [(18, 2)] = true → bits w 18 2 ≠ 0 →
    (∀ o ∈ (s.sq u.val).atOps, o.kind ≠ .ld ∧ ∀ r ∈ o.rows, ¬ locationOf s u (bits w 18 2) r.addr) →
    ∃ t, exec (.syRel u) s = .next t ∧ onlySquare s t u.val ∧
      t.sq u.val = { s.sq u.val with pc := (s.sq u.val).pc + 1 }) ∧
  (∀ (s : State) (u : SquareId) (w : Nat), standsAt s u 5 0x00 w → onlyFields w [(18, 2)] = true → bits w 18 2 ≠ 0 →
    (∃ o ∈ (s.sq u.val).atOps, o.kind = .ld ∨ ∃ r ∈ o.rows, locationOf s u (bits w 18 2) r.addr) →
    exec (.syRel u) s = .next s) ∧
  (∀ (s : State) (u : SquareId) (w : Nat), standsAt s u 5 0x01 w → onlyFields w [(18, 2)] = true → bits w 18 2 ≠ 0 →
    ∃ t, exec (.syAcq u) s = .next t ∧ onlySquare s t u.val ∧ (t.sq u.val).pc = (s.sq u.val).pc + 1 ∧
      (t.sq u.val).near = (if bits w 18 2 = 1 then (s.sq u.val).near else []) ∧
      t.sq u.val = { s.sq u.val with pc := (t.sq u.val).pc, near := (t.sq u.val).near, atOps := (t.sq u.val).atOps }) ∧
  (∀ (s : State) (u : SquareId) (w : Nat), standsAt s u 5 0x02 w → onlyFields w [(25, 5)] = true → bits w 25 5 ≠ 0 →
    ∃ t, exec (.syFence u) s = .next t ∧ onlySquare s t u.val ∧
      t.sq u.val = { s.sq u.val with stall := .fence (bits w 25 5) }) ∧
  (∀ (s : State) (u : SquareId) (m : Nat), (s.sq u.val).stall = .fence m → s.active u.val = true →
    (m.testBit 2 = true → (s.sq u.val).pump.queue = [] ∧ (s.sq u.val).pump.cur = none) →
    (m.testBit 4 = true → (s.sq u.val).atOps = []) →
    ∃ t, exec (.syFencePass u) s = .next t ∧ onlySquare s t u.val ∧
      t.sq u.val = { s.sq u.val with stall := .none, pc := (s.sq u.val).pc + 1 })

/-- The commands that issue an instruction of a square's stream. -/
def streamCommands (u : SquareId) : List Instr :=
  [.ctNop u, .ctMovi u, .ctAdd u, .ctSub u, .ctMul u, .ctAnd u, .ctOr u, .ctXor u, .ctShl u, .ctSrl u, .ctSra u, .ctMin u,
   .ctMax u, .ctMinu u, .ctMaxu u, .ctBeq u, .ctBne u, .ctBlt u, .ctBge u, .ctBltu u, .ctBgeu u, .ctJmp u, .ctLoop u,
   .ctNext u, .ctRdsr u, .ctEnd u, .mxMma u, .mxFill u, .mxLdt u, .mxStt u, .mxRsc u, .mxTov u, .mxFromv u, .mxLdsf u,
   .mxLdcb u, .vxAdd u, .vxSub u, .vxMulsh u, .vxRsh u, .vxAbs u, .vxNeg u, .vxMin u, .vxMax u, .vxAnd u, .vxOr u,
   .vxXor u, .vxShl u, .vxSrl u, .vxSra u, .vxCmpeq u, .vxCmplt u, .vxCmple u, .vxSel u, .vxMov u, .vxIota u, .vxBcast u,
   .vxTos u, .vxLd u, .vxSt u, .vxRmax u, .vxRmin u, .vxRamax u, .vxRsum u, .vxRssq u, .vxDsc u, .vxQnt u, .vxSmul u,
   .vxSrcp u, .vxSc64 u, .vxSrsq u, .vxSfn u, .vxTld u, .vxTst u, .pmEnq u, .pmWait u, .fnSeed u, .fnUni u, .fnMask u,
   .fnInit u, .fnDraw u, .syRel u, .syAcq u, .syFence u, .syWait u, .syCset u, .syCrd u, .atLd u, .atSt u, .atAtom u,
   .atCas128 u, .atVatom u]

/-- An instruction of an undefined class or an opcode not listed for its class faults with ILLEGAL_INSTRUCTION (R103), and
fetching past the code faults with PERMISSION (R110): one record that names the instruction's address, the square stops,
and no register, counter or byte of memory changes (R141). -/
def Obligations.UndefinedInstructionsFaultPrecisely : Prop :=
  ∀ (s : State) (u : SquareId) (c : Instr), c ∈ streamCommands u →
    (∀ w, s.fetched u.val = .word w → opcodeDefined (w % 16) (bits w 4 6) = false →
      ∃ t, exec c s = .next t ∧ faultedAt s t u 12 (s.sq u.val).insAddr) ∧
    (s.fetched u.val = .past → ∃ t, exec c s = .next t ∧ faultedAt s t u 2 (s.sq u.val).insAddr)

/-- CT.LOOP takes 1 from sD and branches while sD is nonzero, CT.NOP changes nothing but the PC, and CT.RDSR reads every special
register of the table of R115 into sD; any other selector faults with ILLEGAL_INSTRUCTION. The clause of TIME, which reads exactly the module's time
base, is the model's choice (LOG 81). -/
def Obligations.LoopsNopsAndSpecialReads : Prop := loopCountsDownAndNopAdvances ∧ specialRegistersRead

/-- CT.NEXT (R114) gives sD, TILE and TILEXY the next tile of the square's share and goes on, or changes nothing and branches when none
remains. After CT.END the square issues nothing more, and once nothing of it is outstanding it reports its flags and is idle
(R143); a square of a kernel in which another square faulted is stopped without a record (R142). -/
def Obligations.SquaresWalkGridAndEnd : Prop := nextTakesGridTile ∧ squaresEndAndStop

/-- SY.CSET writes a counter, SY.CRD reads one, SY.WAIT stalls until the counter meets the condition (R131, R132), a counter index
outside the kernel's range faults any of the three with ALLOT_OVERFLOW (R132); SY.REL, SY.ACQ and SY.FENCE order and discard as R131,
R308 and R310 say. A fence in MX, VX and FN, which passes at once, is the model's choice (LOG 16). -/
def Obligations.CountersAndOrderingWork : Prop := counterInstructionsWork ∧ orderingInstructionsWork
/-! Cube array and drain path (03). -/

/-- `sat_i32`: the nearest number of 32 bits (R13, R44). -/
def clamp32 (x : Int) : Int := max (-2147483648) (min x 2147483647)

/-- Element (r, k) of operand A (R55). -/
def operandA (s : State) (u : SquareId) (w r k : Nat) : Int :=
  let q := s.sq u.val
  let a := q.cisternAt u.val (q.off w 35 + r * q.off w 40)
  if w.testBit 17 = true then signed 16 ((s.byte (a + 2 * k)).toNat + 256 * (s.byte (a + 2 * k + 1)).toNat)
  else (s.byte (a + k)).toInt

/-- Element (k, n) of operand B, codes expanded through the codebook slot (R40, R56). -/
def operandB (s : State) (u : SquareId) (w n k : Nat) : Int :=
  let q := s.sq u.val
  let b := q.cisternAt u.val (q.off w 45 + n * q.off w 50)
  if bits w 18 2 = 0 then (s.byte (b + k)).toInt
  else if bits w 18 2 = 1 then q.codeEntry (bits w 28 7) ((s.byte (b + k / 2)).toNat / 16 ^ (k % 2) % 16)
  else q.codeEntry (bits w 28 7) (s.byte (b + k)).toNat

/-- What a mode takes from the depth positions of one element: the sum that is added to the old value, or the old value and
the terms among which MAXPLUS and MINPLUS choose (R66, R67). -/
def foldMode (mode : Nat) (old : Int) (d : Nat) (a b : Nat → Int) : Int :=
  let sum := fun (f : Nat → Int) => ((List.range d).map f).sum
  match mode with
  | 0 => old + sum (fun k => a k * b k)
  | 1 => old + sum (fun k => ((a k - b k).natAbs : Int))
  | 2 => old + sum (fun k => (a k - b k) * (a k - b k))
  | 3 => (List.range d).foldl (fun m k => max m (a k + b k)) old
  | 4 => (List.range d).foldl (fun m k => min m (a k + b k)) old
  | _ => old + ((List.range d).filter (fun k => a k = b k)).length

/-- The identity of a mode (R67). -/
def modeIdentity (mode : Nat) : Int := if mode = 3 then -2147483648 else if mode = 4 then 2147483647 else 0

/-- The exact value of element (r, n) before its one saturation (R44, R66). -/
def exactElement (s : State) (u : SquareId) (w r n : Nat) : Int :=
  let old := if w.testBit 20 = true then modeIdentity (bits w 14 3) else (s.sq u.val).elem (bits w 10 4) r n
  foldMode (bits w 14 3) old (bits w 21 7) (operandA s u w r) (operandB s u w n)

/-- Whether the masks of an instruction enable element (r, n). -/
def unmasked (w r n : Nat) : Prop := w.testBit (64 + r) = true ∧ w.testBit (96 + n) = true

/-- An MX instruction that finds none of the causes of R76 is ready. -/
def mxReady (s : State) (u : SquareId) (op w : Nat) (regs : List Nat) : Prop :=
  standsAt s u 1 op w ∧ (s.sq u.val).regsReady regs = true

/-- The matrix instruction (R66 to R68): every unmasked element of the tile takes its exact value, saturated once; every other
element of every tile keeps its value; ACC_SAT sets exactly when an unmasked element saturated; the PC goes on in sequence;
no other part of the square, no other square and no byte of memory changes. -/
def Obligations.MatrixInstructionFoldsProduct : Prop :=
  ∀ (s : State) (u : SquareId) (w : Nat), mxReady s u 0x00 w [bits w 35 5, bits w 40 5, bits w 45 5, bits w 50 5] →
    s.mmaCheck u.val w = none →
    ∃ t, exec (.mxMma u) s = .next t ∧
      (∀ tile r n, r < 32 → n < 32 →
        ((tile = bits w 10 4 ∧ unmasked w r n) → (t.sq u.val).elem tile r n = clamp32 (exactElement s u w r n)) ∧
        (¬(tile = bits w 10 4 ∧ unmasked w r n) → (t.sq u.val).elem tile r n = (s.sq u.val).elem tile r n)) ∧
      ((t.sq u.val).accSat = true ↔ (s.sq u.val).accSat = true ∨
        ∃ r n, r < 32 ∧ n < 32 ∧ unmasked w r n ∧ clamp32 (exactElement s u w r n) ≠ exactElement s u w r n) ∧
      (t.sq u.val).pc = (s.sq u.val).pc + 1 ∧
      t.sq u.val = { s.sq u.val with
        pc := (t.sq u.val).pc, acc := (t.sq u.val).acc, badTile := (t.sq u.val).badTile, accSat := (t.sq u.val).accSat } ∧
      (∀ v, v ≠ u.val → t.sq v = s.sq v) ∧ silent s t ∧ sameMemory s t

/-- The operations between tiles, registers and the cistern (R54, R62, R63, R118). MX.FILL writes the low 32 bits of its
register to every unmasked element; MX.LDT and MX.STT move element (r, n) from and to OFF + r × STRIDE + 4n, and when STRIDE is
0 MX.STT leaves the elements of one row (which row is free, LOG 28); MX.TOV and MX.FROMV pair element (r, n) with lane
32 × (r mod 16) + n of register X for rows 0 to 15 and of X + 1 for rows 16 to 31. -/
def Obligations.TileMovesKeepElements : Prop :=
  (∀ (s : State) (u : SquareId) (w : Nat), mxReady s u 0x01 w [bits w 14 5] →
    onlyFields w [(96, 32), (64, 32), (14, 5), (10, 4)] = true → bits w 10 4 < 8 →
    ∃ t, exec (.mxFill u) s = .next t ∧ (t.sq u.val).pc = (s.sq u.val).pc + 1 ∧ silent s t ∧ sameMemory s t ∧
      t.sq u.val = { s.sq u.val with pc := (t.sq u.val).pc, acc := (t.sq u.val).acc, badTile := (t.sq u.val).badTile } ∧
      ∀ tile r n, r < 32 → n < 32 →
        ((tile = bits w 10 4 ∧ unmasked w r n) →
          (t.sq u.val).elem tile r n = signed 32 ((s.sq u.val).sreg (bits w 14 5)).toNat) ∧
        (¬(tile = bits w 10 4 ∧ unmasked w r n) → (t.sq u.val).elem tile r n = (s.sq u.val).elem tile r n)) ∧
  (∀ (s : State) (u : SquareId) (w : Nat), mxReady s u 0x02 w [bits w 14 5, bits w 19 5] → s.moveCheck u.val w true = none →
    ∃ t, exec (.mxLdt u) s = .next t ∧ (t.sq u.val).pc = (s.sq u.val).pc + 1 ∧ silent s t ∧ sameMemory s t ∧
      t.sq u.val = { s.sq u.val with pc := (t.sq u.val).pc, acc := (t.sq u.val).acc, badTile := (t.sq u.val).badTile } ∧
      ∀ tile r n, r < 32 → n < 32 → (t.sq u.val).elem tile r n =
        if tile = bits w 10 4 then
          signed 32 (ofBytes (s.bytes ((s.sq u.val).cisternAt u.val
            ((s.sq u.val).off w 14 + r * (s.sq u.val).off w 19 + 4 * n)) 4))
        else (s.sq u.val).elem tile r n) ∧
  (∀ (s : State) (u : SquareId) (w : Nat), mxReady s u 0x03 w [bits w 14 5, bits w 19 5] → s.moveCheck u.val w false = none →
    let q := s.sq u.val
    ∃ t, exec (.mxStt u) s = .next t ∧ t.sq u.val = { q with pc := q.pc + 1 } ∧ silent s t ∧
      sameMemoryBut s t (q.cisternAt u.val (q.off w 14)) (31 * q.off w 19 + 128) ∧
      (0 < q.off w 19 → ∀ r n, r < 32 → n < 32 →
        signed 32 (ofBytes (t.bytes (q.cisternAt u.val (q.off w 14 + r * q.off w 19 + 4 * n)) 4)) = q.elem (bits w 10 4) r n) ∧
      (q.off w 19 = 0 → ∃ r, r < 32 ∧ ∀ n, n < 32 →
        signed 32 (ofBytes (t.bytes (q.cisternAt u.val (q.off w 14 + 4 * n)) 4)) = q.elem (bits w 10 4) r n)) ∧
  (∀ (s : State) (u : SquareId) (w : Nat), mxReady s u 0x05 w [] → s.vectorCheck u.val w false = none →
    ∃ t, exec (.mxTov u) s = .next t ∧ (t.sq u.val).pc = (s.sq u.val).pc + 1 ∧ silent s t ∧ sameMemory s t ∧
      t.sq u.val = { s.sq u.val with pc := (t.sq u.val).pc, vreg := (t.sq u.val).vreg, badLane := (t.sq u.val).badLane } ∧
      (∀ r n, r < 32 → n < 32 →
        ((t.sq u.val).lane (bits w 24 6 + r / 16) (32 * (r % 16) + n)).toInt = (s.sq u.val).elem (bits w 10 4) r n) ∧
      ∀ v l, l < 512 → v ≠ bits w 24 6 → v ≠ bits w 24 6 + 1 → (t.sq u.val).lane v l = (s.sq u.val).lane v l) ∧
  (∀ (s : State) (u : SquareId) (w : Nat), mxReady s u 0x06 w [] → s.vectorCheck u.val w true = none →
    ∃ t, exec (.mxFromv u) s = .next t ∧ (t.sq u.val).pc = (s.sq u.val).pc + 1 ∧ silent s t ∧ sameMemory s t ∧
      t.sq u.val = { s.sq u.val with pc := (t.sq u.val).pc, acc := (t.sq u.val).acc, badTile := (t.sq u.val).badTile } ∧
      ∀ tile r n, r < 32 → n < 32 → (t.sq u.val).elem tile r n =
        if tile = bits w 10 4 then ((s.sq u.val).lane (bits w 24 6 + r / 16) (32 * (r % 16) + n)).toInt
        else (s.sq u.val).elem tile r n)

/-- MX.RSC (R46 to R48, R64): every unmasked element, rescaled and saturated to the output type, is written at
OFF + r × STRIDE + n × w while rows do not overlap; no byte of a masked element changes; OUT_SAT sets exactly when an unmasked
element saturated. -/
def rescaleWritesUnmaskedElements : Prop :=
  ∀ (s : State) (u : SquareId) (w : Nat), mxReady s u 0x04 w [bits w 29 5, bits w 34 5] → s.rscCheck u.val w = none →
    let q := s.sq u.val
    let b := 2 ^ bits w 14 2
    let place := fun r n => q.cisternAt u.val (q.off w 29 + r * q.off w 34 + n * b)
    ∃ t, exec (.mxRsc u) s = .next t ∧ silent s t ∧
      t.sq u.val = { q with pc := q.pc + 1, outSat := (t.sq u.val).outSat } ∧
      ((t.sq u.val).outSat = true ↔ q.outSat = true ∨ ∃ r n, r < 32 ∧ n < 32 ∧ unmasked w r n ∧ (q.rscElem w r n).2 = true) ∧
      (∀ a, (∀ r n, r < 32 → n < 32 → unmasked w r n → a < place r n ∨ place r n + b ≤ a) → t.byte a = s.byte a) ∧
      (32 * b ≤ q.off w 34 → ∀ r n, r < 32 → n < 32 → unmasked w r n →
        signed (8 * b) (ofBytes (t.bytes (place r n) b)) = (q.rscElem w r n).1)

/-- MX.LDSF writes SFCNT scale words from OFF + 4i, normalised, into entries SFBASE + i, and MX.LDCB 16 or 256 bytes into the
first entries of its slot; every other entry keeps its value (R119). -/
def scaleFileAndCodebookLoads : Prop :=
  (∀ (s : State) (u : SquareId) (w : Nat), mxReady s u 0x07 w [bits w 14 5] →
    let q := s.sq u.val
    let n := bits w 41 11
    let off := q.off w 14
    onlyFields w [(41, 11), (30, 11), (14, 5)] = true → 1 ≤ n → n ≤ 1024 → bits w 30 11 + n ≤ 1024 → off % 32 = 0 →
    off + 4 * n ≤ q.allotSize → s.cisternParity u.val off (4 * n) = none →
    ∃ t, exec (.mxLdsf u) s = .next t ∧ silent s t ∧ sameMemory s t ∧
      t.sq u.val = { q with pc := q.pc + 1, sfile := (t.sq u.val).sfile } ∧
      ∀ e, Table.get 0 (t.sq u.val).sfile e =
        if bits w 30 11 ≤ e ∧ e < bits w 30 11 + n then
          (Scale.ofWord (BitVec.ofNat 32 (ofBytes (s.bytes (q.cisternAt u.val (off + 4 * (e - bits w 30 11))) 4)))).toWord
        else Table.get 0 q.sfile e) ∧
  (∀ (s : State) (u : SquareId) (w : Nat), mxReady s u 0x08 w [bits w 14 5] →
    let q := s.sq u.val
    let n := if w.testBit 59 = true then 256 else 16
    let off := q.off w 14
    onlyFields w [(59, 1), (52, 7), (14, 5)] = true → bits w 52 7 < 64 → off % 32 = 0 → off + n ≤ q.allotSize →
    s.cisternParity u.val off n = none →
    ∃ t, exec (.mxLdcb u) s = .next t ∧ silent s t ∧ sameMemory s t ∧
      t.sq u.val = { q with pc := q.pc + 1, cbook := (t.sq u.val).cbook, badCb := (t.sq u.val).badCb } ∧
      ∀ e, Table.get 0 (t.sq u.val).cbook e =
        if 256 * bits w 52 7 ≤ e ∧ e < 256 * bits w 52 7 + n then s.byte (q.cisternAt u.val (off + (e - 256 * bits w 52 7)))
        else Table.get 0 q.cbook e)

/-- MX.RSC writes the rescaled value of every unmasked element, saturated with OUT_SAT, to the cistern and nothing else (R46 to R48, R64);
MX.LDSF and MX.LDCB copy words and bytes of the cistern into the scale file and the codebooks, and nothing else changes (R119). -/
def Obligations.RescaleAndScaleLoads : Prop := rescaleWritesUnmaskedElements ∧ scaleFileAndCodebookLoads
/-! Vector engine (04). -/

/-- Lane `l` of operand B: a register, the low 32 bits of a scalar register, or IMM (R122, R123). -/
def operandLane (q : Square) (w l : Nat) : Word :=
  if bits w 40 2 = 0 then q.lane (bits w 22 6) l
  else if bits w 40 2 = 1 then BitVec.ofNat 32 (q.sreg (bits w 42 5)).toNat
  else BitVec.ofNat 32 (bits w 96 32)

/-- A VX instruction is ready: its fields hold, its scalar registers are written and no register lane that it reads fails
parity (R101, R107, R123). -/
def vxReady (s : State) (u : SquareId) (op w : Nat) (regs : List Nat) (fs : List (Nat × Nat)) (b extra : Bool)
    (vs : List (Nat × Nat)) : Prop :=
  standsAt s u 2 op w ∧ (s.sq u.val).regsReady regs = true ∧ s.vxCheck u.val w fs b extra vs = none

/-- The same for an instruction that reads only some lanes, or a table: `bad` says whether something that it reads fails parity. -/
def vxReadyFor (s : State) (u : SquareId) (op w : Nat) (regs : List Nat) (fs : List (Nat × Nat)) (extra bad : Bool) : Prop :=
  standsAt s u 2 op w ∧ (s.sq u.val).regsReady regs = true ∧ vxFormOk w fs false = true ∧ extra = true ∧ bad = false

/-- Register `vd` takes a result in every lane, OUT_SAT sets exactly when a lane says so, the PC goes on, and nothing else of
the square, no other square and no byte of memory changes. -/
def vectorWritten (s t : State) (u : SquareId) (vd : Nat) (res : Nat → Word) (sat : Nat → Bool) : Prop :=
  (∀ l, l < 512 → (t.sq u.val).lane vd l = res l) ∧
  (∀ v l, l < 512 → v ≠ vd → (t.sq u.val).lane v l = (s.sq u.val).lane v l) ∧
  ((t.sq u.val).outSat = true ↔ (s.sq u.val).outSat = true ∨ ∃ l, l < 512 ∧ sat l = true) ∧
  (t.sq u.val).pc = (s.sq u.val).pc + 1 ∧
  t.sq u.val = { s.sq u.val with
    pc := (t.sq u.val).pc, vreg := (t.sq u.val).vreg, badLane := (t.sq u.val).badLane, outSat := (t.sq u.val).outSat } ∧
  (∀ v, v ≠ u.val → t.sq v = s.sq v) ∧ silent s t ∧ sameMemory s t

/-- The lane operations of R81 on two operands: command, opcode, whether SH is a field, whether the operation saturates, and
its exact result. -/
def laneRules (u : SquareId) : List (Instr × Nat × Bool × Bool × (Nat → Word → Word → Int)) :=
  [(.vxAdd u, 0x00, false, true, fun _ a b => a.toInt + b.toInt),
   (.vxSub u, 0x01, false, true, fun _ a b => a.toInt - b.toInt),
   (.vxMulsh u, 0x02, true, true, fun sh a b => rneShift (a.toInt * b.toInt) sh),
   (.vxMin u, 0x06, false, false, fun _ a b => min a.toInt b.toInt),
   (.vxMax u, 0x07, false, false, fun _ a b => max a.toInt b.toInt),
   (.vxAnd u, 0x08, false, false, fun _ a b => (a &&& b).toInt),
   (.vxOr u, 0x09, false, false, fun _ a b => (a ||| b).toInt),
   (.vxXor u, 0x0A, false, false, fun _ a b => (a ^^^ b).toInt),
   (.vxCmpeq u, 0x0E, false, false, fun _ a b => if a.toNat = b.toNat then -1 else 0),
   (.vxCmplt u, 0x0F, false, false, fun _ a b => if a.toInt < b.toInt then -1 else 0),
   (.vxCmple u, 0x10, false, false, fun _ a b => if a.toInt ≤ b.toInt then -1 else 0)]

/-- Every lane operation of two operands completes: each lane of VD takes the exact result, clamped where the operation
saturates, and OUT_SAT sets exactly when a clamp acted in some lane (R81). -/
def Obligations.LaneOperationsOnTwoOperands : Prop :=
  ∀ (s : State) (u : SquareId) (w : Nat) (r : Instr × Nat × Bool × Bool × (Nat → Word → Word → Int)), r ∈ laneRules u →
    vxReady s u r.2.1 w (bRegs w) (if r.2.2.1 = true then [(10, 6), (16, 6), (62, 6)] else [(10, 6), (16, 6)]) true true
      [(bits w 16 6, 1)] →
    let x := fun l => r.2.2.2.2 (bits w 62 6) ((s.sq u.val).lane (bits w 16 6) l) (operandLane (s.sq u.val) w l)
    ∃ t, exec r.1 s = .next t ∧
      vectorWritten s t u (bits w 10 6) (fun l => BitVec.ofInt 32 (if r.2.2.2.1 = true then clamp32 (x l) else x l))
        (fun l => r.2.2.2.1 && decide (clamp32 (x l) ≠ x l))

/-- The lane operations of R81 on one operand: command, opcode, whether SH (0 to 31) is a field, whether the operation
saturates, and its exact result. -/
def laneRules1 (u : SquareId) : List (Instr × Nat × Bool × Bool × (Nat → Word → Int)) :=
  [(.vxRsh u, 0x03, true, false, fun sh a => rneShift a.toInt sh),
   (.vxAbs u, 0x04, false, true, fun _ a => (a.toInt.natAbs : Int)),
   (.vxNeg u, 0x05, false, true, fun _ a => -a.toInt),
   (.vxShl u, 0x0B, true, false, fun sh a => (a.toNat * 2 ^ sh : Nat)),
   (.vxSrl u, 0x0C, true, false, fun sh a => (a.toNat / 2 ^ sh : Nat)),
   (.vxSra u, 0x0D, true, false, fun sh a => a.toInt / (2 ^ sh : Nat)),
   (.vxMov u, 0x12, false, false, fun _ a => a.toInt)]

/-- Every lane operation of one operand completes (R81); VX.SEL chooses per lane between VA and B by VC, VX.IOTA writes the
lane's number and VX.BCAST the low 32 bits of SS. -/
def Obligations.LaneOperationsOnOneOperand : Prop :=
  (∀ (s : State) (u : SquareId) (w : Nat) (r : Instr × Nat × Bool × Bool × (Nat → Word → Int)), r ∈ laneRules1 u →
    vxReady s u r.2.1 w [] (if r.2.2.1 = true then [(10, 6), (16, 6), (62, 6)] else [(10, 6), (16, 6)]) false
      (!r.2.2.1 || decide (bits w 62 6 ≤ 31)) [(bits w 16 6, 1)] →
    let x := fun l => r.2.2.2.2 (bits w 62 6) ((s.sq u.val).lane (bits w 16 6) l)
    ∃ t, exec r.1 s = .next t ∧
      vectorWritten s t u (bits w 10 6) (fun l => BitVec.ofInt 32 (if r.2.2.2.1 = true then clamp32 (x l) else x l))
        (fun l => r.2.2.2.1 && decide (clamp32 (x l) ≠ x l))) ∧
  (∀ (s : State) (u : SquareId) (w : Nat),
    vxReady s u 0x11 w (bRegs w) [(10, 6), (16, 6), (28, 6)] true true [(bits w 16 6, 1), (bits w 28 6, 1)] →
    ∃ t, exec (.vxSel u) s = .next t ∧
      vectorWritten s t u (bits w 10 6)
        (fun l => if (s.sq u.val).lane (bits w 28 6) l = 0 then operandLane (s.sq u.val) w l
          else (s.sq u.val).lane (bits w 16 6) l) (fun _ => false)) ∧
  (∀ (s : State) (u : SquareId) (w : Nat), vxReady s u 0x13 w [] [(10, 6)] false true [] →
    ∃ t, exec (.vxIota u) s = .next t ∧ vectorWritten s t u (bits w 10 6) (fun l => BitVec.ofNat 32 l) (fun _ => false)) ∧
  (∀ (s : State) (u : SquareId) (w : Nat), vxReady s u 0x14 w [bits w 42 5] [(10, 6), (42, 5)] false true [] →
    ∃ t, exec (.vxBcast u) s = .next t ∧
      vectorWritten s t u (bits w 10 6) (fun _ => BitVec.ofNat 32 ((s.sq u.val).sreg (bits w 42 5)).toNat) (fun _ => false))

/-- Bytes of element type `et` (R122). -/
def elementBytes (et : Nat) : Nat := if et = 3 then 4 else if et = 2 then 2 else 1

/-- The number that bytes of an element type spell (R84). -/
def elementValue (et : Nat) (bs : List Byte) : Int :=
  if et = 1 then (ofBytes bs : Nat) else signed (8 * elementBytes et) (ofBytes bs)

/-- The nearest number that an element type holds (R84). -/
def elementClamp (et : Nat) (x : Int) : Int :=
  if et = 0 then max (-128) (min x 127)
  else if et = 1 then max 0 (min x 255)
  else if et = 2 then max (-32768) (min x 32767)
  else x

/-- VX.TOS writes the sign-extended lane L to SR; VX.LD fills lanes 0 to CNT − 1 from the cistern and zeros the others; VX.ST
writes CNT saturated elements and sets OUT_SAT exactly when one clamped (R84). -/
def Obligations.LanesMoveToScalarsAndCistern : Prop :=
  (∀ (s : State) (u : SquareId) (w : Nat),
    vxReadyFor s u 0x15 w [bits w 47 5] [(16, 6), (47, 5), (74, 10)] (decide (bits w 74 10 ≤ 511))
      ((s.sq u.val).badSpan (bits w 16 6) (bits w 74 10) 1) →
    ∃ t, exec (.vxTos u) s = .next t ∧ silent s t ∧ sameMemory s t ∧ (∀ v, v ≠ u.val → t.sq v = s.sq v) ∧
      scalarOnly (s.sq u.val) (t.sq u.val) ∧ (t.sq u.val).pc = (s.sq u.val).pc + 1 ∧
      ∀ k, (t.sq u.val).sreg k = if k = bits w 47 5 ∧ k ≠ 0 then
        BitVec.ofInt 64 ((s.sq u.val).lane (bits w 16 6) (bits w 74 10)).toInt else (s.sq u.val).sreg k) ∧
  (∀ (s : State) (u : SquareId) (w : Nat), standsAt s u 2 0x16 w → (s.sq u.val).regsReady [bits w 42 5] = true →
    let n := elementBytes (bits w 72 2)
    let off := ((s.sq u.val).sreg (bits w 42 5)).toNat
    vxFormOk w [(10, 6), (42, 5), (72, 2), (74, 10)] false = true → 1 ≤ bits w 74 10 → bits w 74 10 ≤ 512 →
    off % 32 = 0 → off + bits w 74 10 * n ≤ (s.sq u.val).allotSize → s.cisternParity u.val off (bits w 74 10 * n) = none →
    ∃ t, exec (.vxLd u) s = .next t ∧
      vectorWritten s t u (bits w 10 6)
        (fun l => if l < bits w 74 10 then
          BitVec.ofInt 32 (elementValue (bits w 72 2) (s.bytes ((s.sq u.val).cisternAt u.val (off + n * l)) n)) else 0)
        (fun _ => false)) ∧
  (∀ (s : State) (u : SquareId) (w : Nat), standsAt s u 2 0x17 w → (s.sq u.val).regsReady [bits w 42 5] = true →
    let n := elementBytes (bits w 72 2)
    let q := s.sq u.val
    let off := (q.sreg (bits w 42 5)).toNat
    vxFormOk w [(16, 6), (42, 5), (72, 2), (74, 10)] false = true → 1 ≤ bits w 74 10 → bits w 74 10 ≤ 512 →
    off % 32 = 0 → off + bits w 74 10 * n ≤ q.allotSize → q.badSpan (bits w 16 6) 0 (bits w 74 10) = false →
    ∃ t, exec (.vxSt u) s = .next t ∧ silent s t ∧ (∀ v, v ≠ u.val → t.sq v = s.sq v) ∧
      t.sq u.val = { q with pc := q.pc + 1, outSat := (t.sq u.val).outSat } ∧
      ((t.sq u.val).outSat = true ↔ q.outSat = true ∨
        ∃ l, l < bits w 74 10 ∧ elementClamp (bits w 72 2) (q.lane (bits w 16 6) l).toInt ≠ (q.lane (bits w 16 6) l).toInt) ∧
      (∀ l, l < bits w 74 10 → elementValue (bits w 72 2) (t.bytes (q.cisternAt u.val (off + n * l)) n) =
        elementClamp (bits w 72 2) (q.lane (bits w 16 6) l).toInt) ∧
      sameMemoryBut s t (q.cisternAt u.val off) (bits w 74 10 * n))

/-- Whether `x` is a value of row g of a row operation (R80): lane g × W + j of one of the NREG registers from VA on. -/
def inRow (q : Square) (w g : Nat) (x : Int) : Prop :=
  ∃ r j, r < bits w 55 7 ∧ j < 32 * 2 ^ bits w 52 3 ∧ x = (q.lane (bits w 16 6 + r) (g * (32 * 2 ^ bits w 52 3) + j)).toInt

/-- VX.RMAX, VX.RMIN and VX.RAMAX write into every lane of each row the greatest, the least and the greatest magnitude of the
row (R80, R85). -/
def rowExtremesFillRows : Prop :=
  ∀ (s : State) (u : SquareId) (w : Nat) (c : Instr) (op : Nat), (c, op) ∈ [(Instr.vxRmax u, 0x18), (.vxRmin u, 0x19), (.vxRamax u, 0x1A)] →
    vxReady s u op w [] [(10, 6), (16, 6), (52, 3), (55, 7)] false (rowOk (bits w 16 6) (bits w 52 3) (bits w 55 7))
      [(bits w 16 6, bits w 55 7)] →
    ∃ t, exec c s = .next t ∧
      vectorWritten s t u (bits w 10 6) (fun l => (t.sq u.val).lane (bits w 10 6) l) (fun _ => false) ∧
      ∀ l, l < 512 →
        let y := (t.sq u.val).lane (bits w 10 6) l
        let row := inRow (s.sq u.val) w (l / (32 * 2 ^ bits w 52 3))
        (op = 0x18 → row y.toInt ∧ ∀ x, row x → x ≤ y.toInt) ∧
        (op = 0x19 → row y.toInt ∧ ∀ x, row x → y.toInt ≤ x) ∧
        (op = 0x1A → (∃ x, row x ∧ y.toNat = x.natAbs) ∧ ∀ x, row x → x.natAbs ≤ y.toNat)

/-- The sum over row g of a function of its values (R85). -/
def rowSum (q : Square) (w g : Nat) (f : Int → Int) : Int :=
  ((List.range (bits w 55 7)).map (fun r => ((List.range (32 * 2 ^ bits w 52 3)).map (fun j =>
    f (q.lane (bits w 16 6 + r) (g * (32 * 2 ^ bits w 52 3) + j)).toInt)).sum)).sum

/-- The nearest number of 64 bits (R85). -/
def clamp64 (x : Int) : Int := max (-9223372036854775808) (min x 9223372036854775807)

/-- VX.RSUM and VX.RSSQ write the 64-bit sum of each row, or of the squares of its shifted values, on top of the pair that the
row's first lane held when ACC is set; the low half goes to VD and the high half to VD + 1 of every lane of the row, and
OUT_SAT sets exactly when a sum clamped (R85). -/
def rowSumsFillPairs : Prop :=
  ∀ (s : State) (u : SquareId) (w : Nat) (c : Instr) (op : Nat), (c, op) ∈ [(Instr.vxRsum u, 0x1B), (.vxRssq u, 0x1C)] →
    let q := s.sq u.val
    let acc := w.testBit 85
    let wd := 32 * 2 ^ bits w 52 3
    let d := bits w 10 6
    vxReadyFor s u op w [] ([(10, 6), (16, 6), (52, 3), (55, 7), (85, 1)] ++ if op = 0x1C then [(62, 6)] else [])
      (rowOk (bits w 16 6) (bits w 52 3) (bits w 55 7) && d % 2 == 0 && (op == 0x1B || decide (bits w 62 6 ≤ 31)))
      (q.badRegs (bits w 16 6) (bits w 55 7) || (acc && (List.range (512 / wd)).any (fun g =>
        q.badSpan d (g * wd) 1 || q.badSpan (d + 1) (g * wd) 1))) →
    let f := fun x : Int => if op = 0x1B then x else rneShift x (bits w 62 6) * rneShift x (bits w 62 6)
    let total := fun g => (if acc = true then (q.lane (d + 1) (g * wd) ++ q.lane d (g * wd)).toInt else 0) + rowSum q w g f
    ∃ t, exec c s = .next t ∧
      (∀ l, l < 512 → ((t.sq u.val).lane (d + 1) l ++ (t.sq u.val).lane d l).toInt = clamp64 (total (l / wd))) ∧
      (∀ v l, l < 512 → v ≠ d → v ≠ d + 1 → (t.sq u.val).lane v l = q.lane v l) ∧
      ((t.sq u.val).outSat = true ↔ q.outSat = true ∨ ∃ g, g < 512 / wd ∧ clamp64 (total g) ≠ total g) ∧
      t.sq u.val = { q with
        pc := q.pc + 1, vreg := (t.sq u.val).vreg, badLane := (t.sq u.val).badLane, outSat := (t.sq u.val).outSat } ∧
      (∀ v, v ≠ u.val → t.sq v = s.sq v) ∧ silent s t ∧ sameMemory s t

/-- The scale operations complete (R36, R37, R49, R86, R87): in each lane VX.DSC derives a row scale from a magnitude and an
input scale, VX.QNT quantises, VX.SMUL, VX.SRCP and VX.SRSQ multiply, invert and take the inverse root of scales, and VX.SC64
makes a scale of a 64-bit value; OUT_SAT sets exactly when one of them saturated. -/
def Obligations.ScaleOperationsWork : Prop :=
  let scaled := fun (s t : State) (u : SquareId) (w : Nat) (r : Nat → Scale × Bool) =>
    vectorWritten s t u (bits w 10 6) (fun l => (r l).1.toWord) (fun l => (r l).2)
  (∀ (s : State) (u : SquareId) (w : Nat), vxReady s u 0x1D w (bRegs w) [(10, 6), (16, 6), (84, 1)] true true [(bits w 16 6, 1)] →
    ∃ t, exec (.vxDsc u) s = .next t ∧ scaled s t u w (fun l =>
      deriveScale ((s.sq u.val).lane (bits w 16 6) l).toNat (Scale.ofWord (operandLane (s.sq u.val) w l))
        (if w.testBit 84 = true then 32767 else 127))) ∧
  (∀ (s : State) (u : SquareId) (w : Nat),
    vxReady s u 0x1E w (bRegs w) ([(10, 6), (16, 6), (28, 6), (84, 1), (85, 1)] ++ if w.testBit 85 = true then [(34, 6)] else [])
      true true ([(bits w 16 6, 1), (bits w 28 6, 1)] ++ if w.testBit 85 = true then [(bits w 34 6, 1)] else []) →
    let q := s.sq u.val
    let qmax := if w.testBit 84 = true then 32767 else 127
    let r := fun l =>
      let x := (q.lane (bits w 16 6) l).toInt
      let si := Scale.ofWord (operandLane q w l)
      let sr := Scale.ofWord (q.lane (bits w 28 6) l)
      if w.testBit 85 = true then quantizeSr x si sr qmax (q.lane (bits w 34 6) l).toNat else quantize x si sr qmax
    ∃ t, exec (.vxQnt u) s = .next t ∧ vectorWritten s t u (bits w 10 6) (fun l => BitVec.ofInt 32 (r l).1) (fun l => (r l).2)) ∧
  (∀ (s : State) (u : SquareId) (w : Nat), vxReady s u 0x1F w (bRegs w) [(10, 6), (16, 6)] true true [(bits w 16 6, 1)] →
    ∃ t, exec (.vxSmul u) s = .next t ∧ scaled s t u w (fun l =>
      smul (Scale.ofWord ((s.sq u.val).lane (bits w 16 6) l)) (Scale.ofWord (operandLane (s.sq u.val) w l)))) ∧
  (∀ (s : State) (u : SquareId) (w : Nat), vxReady s u 0x20 w [] [(10, 6), (16, 6)] false true [(bits w 16 6, 1)] →
    ∃ t, exec (.vxSrcp u) s = .next t ∧ scaled s t u w (fun l => srcp (Scale.ofWord ((s.sq u.val).lane (bits w 16 6) l)))) ∧
  (∀ (s : State) (u : SquareId) (w : Nat), 
    vxReadyFor s u 0x22 w [] [(10, 6), (16, 6)] true
      ((s.sq u.val).badRegs (bits w 16 6) 1 || (s.sq u.val).badRecords 3 ((s.sq u.val).srsqArgs w)) →
    ∃ t, exec (.vxSrsq u) s = .next t ∧ scaled s t u w (fun l => srsq (Scale.ofWord ((s.sq u.val).lane (bits w 16 6) l)))) ∧
  (∀ (s : State) (u : SquareId) (w : Nat),
    vxReady s u 0x21 w [] [(10, 6), (16, 6), (96, 32)] false
      (bits w 16 6 % 2 == 0 && decide (-128 ≤ signed 32 (bits w 96 32) ∧ signed 32 (bits w 96 32) ≤ 127)) [(bits w 16 6, 2)] →
    ∃ t, exec (.vxSc64 u) s = .next t ∧ scaled s t u w (fun l =>
      sc64 ((s.sq u.val).lane (bits w 16 6 + 1) l ++ (s.sq u.val).lane (bits w 16 6) l).toInt (signed 32 (bits w 96 32))))

/-- Function tables (R88, R91 to R93, R96). VX.SFN evaluates its slot's table in each lane. VX.TLD puts the image into the idle
bank of its user slot; with CHK the result of the seam check goes to SR and the bank becomes active only on a pass, and without
CHK it becomes active; a built-in slot faults with PERMISSION. VX.TST writes the active table's 6,176-byte image. -/
def Obligations.FunctionTablesWork : Prop :=
  (∀ (s : State) (u : SquareId) (w : Nat),
    vxReadyFor s u 0x23 w [] [(10, 6), (16, 6), (68, 4), (62, 6)] (bits w 68 4 != 7)
      ((s.sq u.val).badRegs (bits w 16 6) 1 || (s.sq u.val).badRecords (bits w 68 4) ((s.sq u.val).sfnArgs w)) →
    ∃ t, exec (.vxSfn u) s = .next t ∧
      vectorWritten s t u (bits w 10 6)
        (fun l => ((s.sq u.val).sfnLane (bits w 68 4) (signed 6 (bits w 62 6)) ((s.sq u.val).lane (bits w 16 6) l)).1)
        (fun l => ((s.sq u.val).sfnLane (bits w 68 4) (signed 6 (bits w 62 6)) ((s.sq u.val).lane (bits w 16 6) l)).2)) ∧
  (∀ (s : State) (u : SquareId) (w : Nat), standsAt s u 2 0x24 w →
    (s.sq u.val).regsReady [bits w 42 5, bits w 47 5] = true →
    vxFormOk w ([(42, 5), (68, 4), (85, 1)] ++ if w.testBit 85 = true then [(47, 5)] else []) false = true →
    let q := s.sq u.val
    let off := (q.sreg (bits w 42 5)).toNat
    let slot := bits w 68 4
    let table := tableOfImage (s.bytes (q.cisternAt u.val off) 6176)
    let pass := w.testBit 85 = false ∨ seamCheck table = 0
    off % 32 = 0 → off + 6176 ≤ q.allotSize → s.cisternParity u.val off 6176 = none →
    (8 ≤ slot → ∃ t, exec (.vxTld u) s = .next t ∧ (t.sq u.val).pc = q.pc + 1 ∧ sameMemory s t ∧ silent s t ∧
      (t.sq u.val).vreg = q.vreg ∧ (t.sq u.val).outSat = q.outSat ∧
      Table.get {} (t.sq u.val).utab (2 * slot + (1 - Table.get 0 q.uactive slot)) = table ∧
      Table.get 0 (t.sq u.val).uactive slot = (if pass then 1 - Table.get 0 q.uactive slot else Table.get 0 q.uactive slot) ∧
      ∀ k, (t.sq u.val).sreg k =
        if w.testBit 85 = true ∧ k = bits w 47 5 ∧ k ≠ 0 then BitVec.ofNat 64 (seamCheck table) else q.sreg k) ∧
    (slot < 7 → ∃ t, exec (.vxTld u) s = .next t ∧ faultedAt s t u 2 q.insAddr)) ∧
  (∀ (s : State) (u : SquareId) (w : Nat), standsAt s u 2 0x25 w → (s.sq u.val).regsReady [bits w 42 5] = true →
    vxFormOk w [(42, 5), (68, 4)] false = true → bits w 68 4 ≠ 7 →
    let q := s.sq u.val
    let off := (q.sreg (bits w 42 5)).toNat
    off % 32 = 0 → off + 6176 ≤ q.allotSize → (∀ e ∈ q.badTab, e.1 / 1024 ≠ q.activeBank (bits w 68 4)) →
    ∃ t, exec (.vxTst u) s = .next t ∧ t.sq u.val = { q with pc := q.pc + 1 } ∧ silent s t ∧
      t.bytes (q.cisternAt u.val off) 6176 = imageOfTable (q.tableOf (bits w 68 4)) ∧
      sameMemoryBut s t (q.cisternAt u.val off) 6176)

/-- VX.RMAX, VX.RMIN and VX.RAMAX write the row's extreme into every lane of the row, and VX.RSUM and VX.RSSQ the row's 64-bit sum, of values
or of shifted squares, clamped with OUT_SAT (R80, R85). -/
def Obligations.RowInstructionsReduce : Prop := rowExtremesFillRows ∧ rowSumsFillPairs
/-! Pumps (06). -/

/-- PM.ENQ reads the descriptor of 64 bytes, appends it with the next ticket and writes the ticket to ST; PM.WAIT stalls the
square until the named ticket has completed, and then releases the entries up to it; a ticket above the last one issued faults
with ILLEGAL_INSTRUCTION, and a 33rd entry with QUEUE_OVERFLOW (R125 to R127). -/
def Obligations.DescriptorsQueueAndWait : Prop :=
  (∀ (s : State) (u : SquareId) (w : Nat), standsAt s u 3 0x00 w → onlyFields w [(10, 5), (15, 5)] = true →
    let q := s.sq u.val
    let off := (q.sreg (bits w 10 5)).toNat
    let d := descOf (ofBytes (s.bytes (q.cisternAt u.val off) 64))
    q.regsReady [bits w 10 5, bits w 15 5] = true → off % 32 = 0 → off + 64 ≤ q.allotSize →
    s.descPending u.val (q.cisternAt u.val off) = false → s.cisternParity u.val off 64 = none →
    s.descIllegal d = false → descMisaligned d = false →
    (q.pump.lastTicket - q.pump.released < 32 →
      ∃ t, exec (.pmEnq u) s = .next t ∧ onlySquare s t u.val ∧ (t.sq u.val).pc = q.pc + 1 ∧
        (t.sq u.val).pump.lastTicket = q.pump.lastTicket + 1 ∧
        (t.sq u.val).pump.queue = q.pump.queue ++ [{ d with ticket := q.pump.lastTicket + 1, iidx := q.pc % 4096, coff := off }] ∧
        ∀ k, (t.sq u.val).sreg k =
          if k = bits w 15 5 ∧ k ≠ 0 then BitVec.ofNat 64 (q.pump.lastTicket + 1) else q.sreg k) ∧
    (32 ≤ q.pump.lastTicket - q.pump.released → ∃ t, exec (.pmEnq u) s = .next t ∧ faultedAt s t u 6 q.insAddr)) ∧
  (∀ (s : State) (u : SquareId) (w : Nat), standsAt s u 3 0x01 w → onlyFields w [(15, 5), (20, 1)] = true →
    let q := s.sq u.val
    let ticket := if w.testBit 20 = true then q.pump.lastTicket else (q.sreg (bits w 15 5)).toNat
    (w.testBit 20 = true → bits w 15 5 = 0) → q.regsReady [bits w 15 5] = true →
    (ticket ≤ q.pump.lastTicket → ∃ t, exec (.pmWait u) s = .next t ∧ onlySquare s t u.val ∧
      t.sq u.val = { q with stall := .pmWait ticket }) ∧
    (q.pump.lastTicket < ticket → ∃ t, exec (.pmWait u) s = .next t ∧ faultedAt s t u 12 q.insAddr)) ∧
  (∀ (s : State) (u : SquareId) (ticket : Nat), (s.sq u.val).stall = .pmWait ticket → s.active u.val = true →
    ticket ≤ (s.sq u.val).pump.lastDone →
    ∃ t, exec (.pmWaitMet u) s = .next t ∧ onlySquare s t u.val ∧ (t.sq u.val).stall = .none ∧
      (t.sq u.val).pc = (s.sq u.val).pc + 1 ∧ (t.sq u.val).pump.released = max (s.sq u.val).pump.released ticket ∧
      (t.sq u.val).sregs = (s.sq u.val).sregs)

/-- The first descriptor of the queue begins (R146): with none of the causes of R154 it is in progress at its first block and
nothing of memory changes; with a cause, one record of its code and address is made and the descriptor ends in that error. -/
def Obligations.DescriptorsBegin : Prop :=
  ∀ (s : State) (u : SquareId) (d : Desc) (rest : List Desc) (rs : List Region), s.active u.val = true →
    (s.sq u.val).pump.queue = d :: rest → (s.sq u.val).pump.cur = none →
    s.readRegions u.val (s.sq u.val).kpart = .ok rs →
    (s.descriptorCause u.val rs d = none → ∃ t, exec (.pumpDescriptorBegin u) s = .next t ∧
      (t.sq u.val).pump.queue = rest ∧ (t.sq u.val).pump.cur = some { d := d, regions := rs } ∧
      t.elog = s.elog ∧ sameMemory s t ∧ ∀ v, v ≠ u.val → t.sq v = s.sq v) ∧
    (∀ code addr, s.descriptorCause u.val rs d = some (code, addr) → ∃ t, exec (.pumpDescriptorBegin u) s = .next t ∧
      (t.sq u.val).pump.queue = rest ∧ (t.sq u.val).pump.cur = some { d := d, regions := [], err := code } ∧
      (∃ e : ErrRecord, t.elog.transit = s.elog.transit ++ [e] ∧ e.code = code ∧ e.unit = u.val ∧ e.addr = s.recordAddr addr) ∧
      sameMemory s t)

/-- The global address that a plain descriptor's current block is written to (R149, R152). -/
def blockPlace (s : State) (r : PumpRun) : Nat := (s.dstSide r.d).row r.pos + r.off

/-- The global address of the current block's bytes at the source. -/
def blockSource (s : State) (r : PumpRun) : Nat := (s.srcSide r.d).row r.pos + r.off

/-- A descriptor of a running square that is about to write a raw block to local memory where all its checks pass. -/
def blockReady (s : State) (u : SquareId) (r : PumpRun) : Prop :=
  s.active u.val = true ∧ (s.sq u.val).pump.cur = some r ∧ r.err = 0 ∧ r.pos < r.d.steps ∧ r.todo = [] ∧ r.outstanding = 0 ∧
  r.d.xp = 0 ∧ r.gathered = [] ∧ r.fetch = .idle ∧
  s.isLocal (blockPlace s r) = true ∧ (s.blockAt r.regions r.d (s.dstSide r.d) (blockPlace s r)).cls = 0 ∧
  placeOf s.isM (blockPlace s r % 2 ^ 44) ≠ .reg ∧ placeOf s.isM (blockPlace s r % 2 ^ 44) ≠ .host ∧
  s.writeCode u.val (blockPlace s r) (s.blockLen r) = 0

/-- The block `bs` stands at its place, nothing else of memory changed, and the descriptor stands after it. -/
def blockWritten (s t : State) (u : SquareId) (r : PumpRun) (bs : List Byte) : Prop :=
  t.bytes (blockPlace s r % 2 ^ 44) (s.blockLen r) = bs ∧
  sameMemoryBut s t (blockPlace s r % 2 ^ 44) (s.blockLen r) ∧ t.elog = s.elog ∧
  ∃ r' : PumpRun, (t.sq u.val).pump.cur = some r' ∧ r'.d = r.d ∧ r'.err = 0 ∧ r'.gathered = [] ∧ r'.todo = [] ∧ r'.outstanding = 0 ∧
    (if r.d.rowbytes ≤ r.off + s.blockLen r then r'.pos = r.pos + 1 ∧ r'.off = 0
     else r'.pos = r.pos ∧ r'.off = r.off + s.blockLen r)

/-- A raw block of a plain descriptor moves (R149, R152): ZERO writes zeros, and COPY the bytes that its pump reads at the source, to
the block's place; every other byte keeps its value, and the descriptor goes on to the bytes after it. Where source and destination lie
alike modulo 256 the block is one read; in every other case it is the bytes held from the read before and those gathered now, in order. How
a row is cut into blocks is the model's choice (LOG 73). -/
def Obligations.PumpMovesRawBlocks : Prop :=
  (∀ (s : State) (u : SquareId) (r : PumpRun), blockReady s u r → r.d.op = 1 →
    ∃ t, exec (.pumpBlock u) s = .next t ∧ blockWritten s t u r (List.replicate (s.blockLen r) 0)) ∧
  (∀ (s : State) (u : SquareId) (r : PumpRun) (bs : List Byte), blockReady s u r → r.d.op = 0 → r.carry = [] →
    blockSource s r % 256 = blockPlace s r % 256 → s.isLocal (blockSource s r) = true →
    (s.blockAt r.regions r.d (s.srcSide r.d) (blockSource s r)).cls = 0 →
    (s.pumpRead u.val (blockSource s r % 2 ^ 44) (s.blockLen r) r.d.fills).2 = .ok bs → bs.length = s.blockLen r →
    ∃ t, exec (.pumpBlock u) s = .next t ∧ blockWritten s t u r bs) ∧
  (∀ (s : State) (u : SquareId) (r r' : PumpRun), blockReady s u r → r.d.op = 0 → (∀ p ∈ s.piecesOf r, p.copy = false) →
    ((s.gather u.val (s.piecesOf r)).sq u.val).pump.cur = some r' →
    r' = { r with gathered := r'.gathered } → r'.gathered.length = (s.piecesOf r).length →
    s.blockLen r ≤ r'.sourceBytes.length →
    ∃ t, exec (.pumpBlock u) s = .next t ∧ blockWritten s t u r (r'.sourceBytes.take (s.blockLen r)))

/-- The signal of a descriptor whose writes are performed adds to its word in memory, once (R147), and a descriptor that has
moved everything and signalled completes with its ticket. -/
def Obligations.DescriptorsSignalAndComplete : Prop :=
  (∀ (s : State) (u : SquareId) (r : PumpRun), s.active u.val = true → (s.sq u.val).pump.cur = some r → r.written = true →
    r.d.sig = true → r.sigSent = false → s.isLocal r.d.sigaddr = true →
    let a := r.d.sigaddr % 2 ^ 44
    let n := if r.d.sigsz = 1 then 8 else 4
    placeOf s.isM a ≠ .reg → placeOf s.isM a ≠ .host → (s.sq u.val).ownWindowRefuses u.val a n = false →
    s.checkAcc ⟨u.val, (s.sq u.val).kpart, a, n, .atom 0 n, false⟩ = 0 → s.parityOf a n = 0 →
    ∃ t, exec (.pumpSignal u) s = .next t ∧
      ofBytes (t.bytes a n) = (ofBytes (s.bytes a n) + r.d.sigval.toNat) % 2 ^ (8 * n) ∧ sameMemoryBut s t a n ∧
      t.elog = s.elog ∧ (t.sq u.val).pump.cur = some { r with sigSent := true, sigDone := true }) ∧
  (∀ (s : State) (u : SquareId) (r : PumpRun), s.active u.val = true → (s.sq u.val).pump.cur = some r → r.written = true →
    (r.d.sig = true → r.sigDone = true) →
    ∃ t, exec (.pumpDescriptorComplete u) s = .next t ∧ (t.sq u.val).pump.cur = none ∧
      (t.sq u.val).pump.lastDone = r.d.ticket ∧ (t.sq u.val).pump.queue = (s.sq u.val).pump.queue ∧
      t.elog = s.elog ∧ sameMemory s t ∧ ∀ v, v ≠ u.val → t.sq v = s.sq v)

/-- A register write that passes the checks of the register space: the register at the offset, a requester that may write it, and no
wake, FENCE, stop or earlier posted write that holds it (R7, R293, R311, R324, R461, R481, R514), and write data that arrives intact (R291). -/
def writeAllowed (s : State) (off : Nat) (w : RegWrite) (r : Reg) : Prop :=
  s.findReg w.unit (regBase + off) = .ok r ∧ s.mayWrite r w.part.val = true ∧ w.half = .full ∧ (r.wakes = true → s.power.state = 0) ∧
  s.registerReached off = true ∧ s.coreHolds w.unit = false ∧ s.heldBehind w.unit = false ∧ Table.get false s.badWrite w.unit = false

/-- The requester of a register write got its response, and no record was made. -/
def answered (s t : State) (w : RegWrite) : Prop := t.out.head? = some (.resp w.unit 0 []) ∧ t.elog = s.elog

/-- Loading a decoding table (R173): GO closes an invalid bank, or the one that is not newest, and marks the load busy, unless
the other bank is valid with the same generation, which ends the load with ILLEGAL_INSTRUCTION at once; the image is read once
no block decodes with the bank; a valid image makes the bank valid and newest with its lengths. -/
def Obligations.DecodingTablesLoad : Prop :=
  (∀ (s : State) (u : SquareId) (w : RegWrite), writeAllowed s (0x5000000 + 0x100 * u.val + 0x10) w (.pump u.val 0x10) →
    w.val.toNat.testBit 4 = true → (s.sq u.val).pump.tblBusy = false →
    let p := (s.sq u.val).pump
    let target := if p.bank0.valid = false then 0 else if p.bank1.valid = false then 1 else if p.bank0.newest then 1 else 0
    let other := if target = 0 then p.bank1 else p.bank0
    ∃ t, exec (.pmpTblLoad u w) s = .next t ∧ answered s t w ∧ (t.sq u.val).pump.tblTgt = target ∧
      (t.sq u.val).pump.tblGen = w.val.toNat % 4 ∧ sameMemory s t ∧
      (if other.valid = true ∧ other.gen = w.val.toNat % 4 then
        (t.sq u.val).pump.tblErr = 12 ∧ (t.sq u.val).pump.tblDone = true ∧ (t.sq u.val).pump.tblBusy = false ∧
        (t.sq u.val).pump.bank0 = p.bank0 ∧ (t.sq u.val).pump.bank1 = p.bank1
       else (t.sq u.val).pump.tblBusy = true ∧ (if target = 0 then (t.sq u.val).pump.bank0 else (t.sq u.val).pump.bank1).closed = true ∧
        (if target = 0 then (t.sq u.val).pump.bank1 else (t.sq u.val).pump.bank0) = other)) ∧
  (∀ (s : State) (u : SquareId) (bs : List Byte), (s.sq u.val).pump.tblBusy = true → (s.sq u.val).pump.tblSent = false →
    ((s.sq u.val).pump.bank (s.sq u.val).pump.tblTgt).useCnt = 0 → s.stop.stopped = false → (s.owner u.val).eff ≠ 0 →
    s.isLocal (s.sq u.val).pump.tblSrc = true →
    (s.localAccess u.val ((s.owner u.val).eff - 1) ((s.sq u.val).pump.tblSrc % 2 ^ 44) (.load 288) true).2 = .ok bs →
    ∃ t, exec (.tableImageRead u) s = .next t ∧ (t.sq u.val).pump.tblImage = some bs ∧ (t.sq u.val).pump.tblSent = true ∧
      t.elog = s.elog ∧ sameMemory s t) ∧
  (∀ (s : State) (u : SquareId) (bs : List Byte), (s.sq u.val).pump.tblBusy = true → s.stop.stopped = false →
    (s.sq u.val).pump.tblImage = some bs →
    let p := (s.sq u.val).pump
    ∃ t, exec (.tableLoadDone u) s = .next t ∧ onlySquare s t u.val ∧ (t.sq u.val).pump.tblBusy = false ∧
      (t.sq u.val).pump.tblDone = true ∧
      (if imageOk (bs.map (·.toNat)) = true then
        (t.sq u.val).pump.tblErr = 0 ∧
        (t.sq u.val).pump.bank p.tblTgt = { valid := true, newest := true, gen := p.tblLoad, lens := bs.map (·.toNat) } ∧
        (p.tblTgt < 2 → ((t.sq u.val).pump.bank (1 - p.tblTgt)).newest = false)
       else (t.sq u.val).pump.tblErr = 12 ∧ (t.sq u.val).pump.bank p.tblTgt = {}))
/-! Fountains (07). -/

/-- An FN instruction that draws words is ready: its fields hold; in per-lane mode no lane state fails parity; in positioned mode no state
of it will, the fountain can jump, no reload runs, its registers are written and the stream has bits 63:32 clear (R187, R199, R200). -/
def fnReady (s : State) (u : SquareId) (op w : Nat) : Prop :=
  let q := s.sq u
  standsAt s u 4 op w ∧
    (q.ftn.mode = 1 ∧ q.ftn.badLane = [] ∨
      q.ftn.mode = 0 ∧ q.ftn.jready = true ∧ q.ftn.badJump = false ∧ q.ftn.badStep = false ∧
        (s.ftnG.busy = true → s.ftnG.job % 2 ≠ 1) ∧
        q.regsReady [bits w 34 5, bits w 39 5] = true ∧ (q.sreg (bits w 34 5)).toNat < 2 ^ 32)

/-- The word that lane l takes: in positioned mode that of the stream in SA at the offset in SB + l, in per-lane mode that of the
lane's own state (R187, R197). -/
def laneWord (q : Square) (w l : Nat) : Nat :=
  if q.ftn.mode = 0 then
    (positionedWords q.ftn.seed.toNat (q.sreg (bits w 34 5)).toNat (q.sreg (bits w 39 5)).toNat 512).getD l 0
  else temper (q.ftn.lane l)

/-- The lanes of a fountain after an instruction: in positioned mode as they were, in per-lane mode each one step on (R197). -/
def fountainStepped (q r : Square) : Prop :=
  r.ftn = { q.ftn with lanes := r.ftn.lanes } ∧ (q.ftn.mode = 0 → r.ftn = q.ftn) ∧
    (q.ftn.mode = 1 → ∀ l, l < 512 → gfShift (polyOf l) 32 (q.ftn.lane l) ≠ 0 →
      r.ftn.lane l = gfShift (polyOf l) 32 (q.ftn.lane l))

/-- Register `vd` takes `res` in every lane, the fountain steps, and nothing else of the square, no other square and no byte of
memory changes. -/
def fnWritten (s t : State) (u : SquareId) (vd : Nat) (res : Nat → Word) : Prop :=
  (∀ l, l < 512 → (t.sq u.val).lane vd l = res l) ∧
  (∀ v l, l < 512 → v ≠ vd → (t.sq u.val).lane v l = (s.sq u.val).lane v l) ∧
  fountainStepped (s.sq u.val) (t.sq u.val) ∧
  t.sq u.val = { s.sq u.val with
    pc := (s.sq u.val).pc + 1, vreg := (t.sq u.val).vreg, badLane := (t.sq u.val).badLane, ftn := (t.sq u.val).ftn } ∧
  (∀ v, v ≠ u.val → t.sq v = s.sq v) ∧ silent s t ∧ sameMemory s t

/-- The FN instructions (R128, R189, R191): FN.UNI writes the words, FN.MASK all ones where the word lies below the threshold or
the threshold is 0xFFFF_FFFF, FN.INIT a uniform integer from −bound to bound, and FN.DRAW the index that each row draws; FN.SEED
sets the seed, and in per-lane mode every lane restarts. Three clauses are the model's choice: that a lane of a vector register which
fails parity does not stop FN.DRAW (LOG 74), that an FN.SEED in positioned mode keeps the lanes' states (LOG 21), and that FN.SEED takes
any VD (LOG 52). -/
def fountainInstructionsWork : Prop :=
  (∀ (s : State) (u : SquareId) (w : Nat), fnReady s u 0x01 w → onlyFields w [(10, 6), (34, 5), (39, 5)] = true →
    ∃ t, exec (.fnUni u) s = .next t ∧ fnWritten s t u (bits w 10 6) (fun l => BitVec.ofNat 32 (laneWord (s.sq u.val) w l))) ∧
  (∀ (s : State) (u : SquareId) (w : Nat), fnReady s u 0x02 w → onlyFields w [(10, 6), (96, 32), (34, 5), (39, 5)] = true →
    ∃ t, exec (.fnMask u) s = .next t ∧ fnWritten s t u (bits w 10 6) (fun l =>
      if laneWord (s.sq u.val) w l < bits w 96 32 ∨ bits w 96 32 = 0xFFFFFFFF then BitVec.allOnes 32 else 0)) ∧
  (∀ (s : State) (u : SquareId) (w : Nat), fnReady s u 0x03 w → onlyFields w [(10, 6), (96, 32), (34, 5), (39, 5)] = true →
    bits w 96 32 < 2 ^ 31 →
    ∃ t, exec (.fnInit u) s = .next t ∧ fnWritten s t u (bits w 10 6) (fun l =>
      BitVec.ofInt 32 (((laneWord (s.sq u.val) w l * (2 * bits w 96 32 + 1) / 2 ^ 32 : Nat) : Int) - (bits w 96 32 : Int)))) ∧
  (∀ (s : State) (u : SquareId) (w : Nat), fnReady s u 0x04 w → drawForm w = true →
    (s.sq u.val).ftn.badExp2 = false →
    let q := s.sq u.val
    let n := 32 * 2 ^ bits w 44 3
    let row := fun g : Nat => ((List.range (bits w 47 7)).map (fun r => (List.range n).map (fun j =>
      ((q.lane (bits w 16 6 + r) (g * n + j)).toInt,
        !w.testBit 54 || decide (q.lane (bits w 28 6 + r) (g * n + j) ≠ 0))))).flatten
    ∃ t, exec (.fnDraw u) s = .next t ∧ fnWritten s t u (bits w 10 6) (fun l =>
      BitVec.ofInt 32 (drawRow (row (l / n)) (Scale.ofWord (q.lane (bits w 22 6) (l / n * n)))
        (laneWord q w (if q.ftn.mode = 0 then l / n else l / n * n))))) ∧
  (∀ (s : State) (u : SquareId) (w : Nat), standsAt s u 4 0x00 w → onlyFields w [(10, 6), (34, 5), (39, 5)] = true →
    let q := s.sq u.val
    q.regsReady [bits w 34 5, bits w 39 5] = true →
    ∃ t, exec (.fnSeed u) s = .next t ∧ (∀ v, v ≠ u.val → t.sq v = s.sq v) ∧ silent s t ∧ sameMemory s t ∧ (t.sq u.val).vreg = q.vreg ∧ (t.sq u.val).pc = q.pc + 1 ∧
      (t.sq u.val).ftn.seed = q.sreg (bits w 39 5) ++ q.sreg (bits w 34 5) ∧
      (t.sq u.val).ftn.mode = q.ftn.mode ∧
      (q.ftn.mode = 1 → ∀ l, l < 512 → (t.sq u.val).ftn.lane l = laneStart (q.sreg (bits w 39 5) ++ q.sreg (bits w 34 5)) l) ∧
      (q.ftn.mode = 0 → ∀ l, l < 512 → (t.sq u.val).ftn.lane l = q.ftn.lane l))

/-- A positioned word depends on the seed, the stream and its offset alone: lane l of an instruction at offset k takes the word
of offset k + l, which is the word reached by jumping straight there (R186 to R188). -/
def Obligations.PositionedWordsDependOnOffsetAlone : Prop :=
  ∀ (seed : BitVec 128) (j k l : Nat), j < 2 ^ 32 → k < 2 ^ 64 → l < 512 →
    (positionedWords seed.toNat j k 512).getD l 0 = fountainWord seed.toNat j (k + l)

/-- FTN_GCTL starts a reload or a self-test while none runs (R205); its end loads and checks the parameters in every fountain
and sets JREADY and FTN_STFAIL by the check (R195, R198), and DONE. -/
def fountainReloadAndSelfTest : Prop :=
  (∀ (s : State) (w : RegWrite), writeAllowed s 0x5200000 w (.ftnG 0) → w.val.toNat.testBit 0 = true →
    s.ftnG.busy = false →
    ∃ t, exec (.ftnReload w) s = .next t ∧ answered s t w ∧ t.ftnG.busy = true ∧
      t.ftnG.job = (if w.val.toNat.testBit 1 = true then 3 else 1) ∧ sameMemory s t ∧ t.squares = s.squares) ∧
  (∀ (s : State) (w : RegWrite), writeAllowed s 0x5200000 w (.ftnG 0) → w.val.toNat.testBit 1 = true →
    s.ftnG.busy = false →
    ∃ t, exec (.ftnSelftest w) s = .next t ∧ answered s t w ∧ t.ftnG.busy = true ∧
      t.ftnG.job = (if w.val.toNat.testBit 0 = true then 3 else 2) ∧ sameMemory s t ∧ t.squares = s.squares) ∧
  (∀ (s : State) (bs : List Byte), s.ftnG.busy = true → s.ftnG.job = 1 → s.isLocal s.ftnG.jsrc = true →
    placeOf s.isM (s.ftnG.jsrc % 2 ^ 44) ≠ .host →
    (s.accRead ⟨unitBsc, 0, s.ftnG.jsrc % 2 ^ 44, 2048, .read, true⟩).2 = .ok bs →
    ∃ t, exec .ftnReloadDone s = .next t ∧ t.ftnG.busy = false ∧ t.ftnG.done = true ∧
      t.ftnG.err = (if jumpParamsOk 128 (2 ^ 32) bs = true then 0 else 12) ∧ sameMemory s t ∧
      ∀ u, u < 128 → (t.sq u).ftn.jready = jumpParamsOk 128 (2 ^ 32) bs ∧
        Table.get false t.ftnG.stfail u = !jumpParamsOk 128 (2 ^ 32) bs) ∧
  (∀ (s : State), s.ftnG.busy = true → s.ftnG.job = 2 →
    ∃ t, exec .ftnReloadDone s = .next t ∧ t.ftnG.busy = false ∧ t.ftnG.done = true ∧ t.ftnG.err = s.ftnG.err ∧ sameMemory s t ∧
      ∀ u, u < 128 → (t.sq u).ftn.jready = ((s.sq u).ftn.jready && !(s.sq u).ftn.badJump) ∧
        Table.get false t.ftnG.stfail u = !((s.sq u).ftn.jready && !(s.sq u).ftn.badJump))

/-- FN.UNI, FN.MASK, FN.INIT and FN.DRAW fill lanes with the words, masks, integers and draws of the fountain's mode, and FN.SEED sets the
seed (R128, R189, R191); FTN_GCTL starts a reload or a self-test while none runs, and its end loads and checks the parameters in every
fountain and sets JREADY and FTN_STFAIL by the check (R195, R198, R205). That FN.DRAW reads its vector registers whatever their parity
(LOG 74), that a positioned FN.SEED keeps the lanes' states (LOG 21) and that FN.SEED takes any VD (LOG 52) are the model's choices. -/
def Obligations.FountainWorks : Prop := fountainInstructionsWork ∧ fountainReloadAndSelfTest
/-! Loads, stores and atomics (05, 10, 11). -/

/-- An AT instruction is ready: its fields hold, its registers are written, a place is free in the port, and its address is
aligned and has bits 63:56 clear (R106, R107, R136). -/
def atReady (s : State) (u : SquareId) (op w size : Nat) (fs : List (Nat × Nat)) (regs : List Nat) : Prop :=
  standsAt s u 6 op w ∧ onlyFields w ([(64, 64), (15, 5)] ++ fs) = true ∧ (s.sq u.val).regsReady regs = true ∧
    (s.sq u.val).atOps.length < 64 ∧ (s.sq u.val).atAddr w < 2 ^ 56 ∧ (s.sq u.val).atAddr w % size = 0

/-- The square has sent operation `o` on its way and goes on; no register and no byte of memory changes. -/
def issued (s t : State) (u : SquareId) (o : AtOp) : Prop :=
  t.sq u.val = { s.sq u.val with
    pc := (s.sq u.val).pc + 1, atOps := (s.sq u.val).atOps ++ [o], nextAt := (s.sq u.val).nextAt + 1, near := (t.sq u.val).near } ∧
  (∀ v, v ≠ u.val → t.sq v = s.sq v) ∧ silent s t ∧ sameMemory s t

/-- Every AT instruction issues (R135 to R138): its operation is in flight with the address sA + DISP, its size, its operands
as the registers hold them now, and one access, or for AT.VATOM one access for each row. An address with any of bits 63:56 set
faults with ADDR_UNMAPPED and a misaligned one with ALIGN. -/
def Obligations.RemoteOperationsIssue : Prop :=
  (∀ (s : State) (u : SquareId) (w : Nat), let q := s.sq u.val
    let size := 2 ^ bits w 30 2
    atReady s u 0x00 w size [(32, 1), (30, 2), (10, 5)] [bits w 15 5, bits w 10 5] →
    ∃ t, exec (.atLd u) s = .next t ∧ issued s t u ⟨q.nextAt, q.pc % 4096, .ld, size, 0, 0, bits w 10 5, w.testBit 32, true,
      [⟨q.atAddr w, 0, .waiting⟩]⟩) ∧
  (∀ (s : State) (u : SquareId) (w : Nat), let q := s.sq u.val
    let size := 2 ^ bits w 30 2
    atReady s u 0x01 w size [(30, 2), (20, 5)] [bits w 15 5, bits w 20 5] →
    ∃ t, exec (.atSt u) s = .next t ∧ issued s t u ⟨q.nextAt, q.pc % 4096, .st, size, 0, 0, 0, false, true,
      [⟨q.atAddr w, (q.sreg (bits w 20 5)).toNat, .waiting⟩]⟩) ∧
  (∀ (s : State) (u : SquareId) (w : Nat), let q := s.sq u.val
    let size := 2 ^ bits w 30 2
    atReady s u 0x02 w size [(33, 4), (30, 2), (25, 5), (20, 5), (10, 5)] [bits w 15 5, bits w 20 5, bits w 25 5, bits w 10 5] →
    4 ≤ size → bits w 33 4 ≤ 9 →
    ∃ t, exec (.atAtom u) s = .next t ∧ issued s t u ⟨q.nextAt, q.pc % 4096, .atom, size, bits w 33 4,
      (q.sreg (bits w 25 5)).toNat, bits w 10 5, false, true, [⟨q.atAddr w, (q.sreg (bits w 20 5)).toNat, .waiting⟩]⟩) ∧
  (∀ (s : State) (u : SquareId) (w : Nat), let q := s.sq u.val
    let pair := fun r => (q.sreg r).toNat + (q.sreg (r + 1)).toNat * 2 ^ 64
    atReady s u 0x03 w 16 [(25, 5), (20, 5), (10, 5)]
      ([bits w 15 5, bits w 20 5, bits w 20 5 + 1, bits w 25 5, bits w 25 5 + 1] ++
        if bits w 10 5 = 0 then [] else [bits w 10 5, bits w 10 5 + 1]) →
    bits w 20 5 % 2 = 0 → bits w 25 5 % 2 = 0 → bits w 10 5 % 2 = 0 →
    ∃ t, exec (.atCas128 u) s = .next t ∧ issued s t u ⟨q.nextAt, q.pc % 4096, .cas128, 16, 9, pair (bits w 25 5), bits w 10 5,
      false, true, [⟨q.atAddr w, pair (bits w 20 5), .waiting⟩]⟩) ∧
  (∀ (s : State) (u : SquareId) (w : Nat), let q := s.sq u.val
    let size := 2 ^ bits w 30 2
    let wd := 32 * 2 ^ bits w 43 3
    atReady s u 0x04 w size [(46, 10), (43, 3), (37, 6), (33, 4), (30, 2)] [bits w 15 5] → 4 ≤ size → bits w 33 4 ≤ 7 →
    bits w 43 3 ≤ 4 → 1 ≤ bits w 46 10 → bits w 46 10 ≤ 512 / wd → (size = 8 → bits w 37 6 % 2 = 0) →
    ∃ t, exec (.atVatom u) s = .next t ∧ issued s t u ⟨q.nextAt, q.pc % 4096, .vatom, size, bits w 33 4, 0, 0, false, true,
      (List.range (bits w 46 10)).map (fun g => ⟨q.atAddr w + g * size,
        (q.lane (bits w 37 6) (g * wd)).toNat + (if size = 8 then (q.lane (bits w 37 6 + 1) (g * wd)).toNat * 2 ^ 32 else 0),
        .waiting⟩)⟩) ∧
  (∀ (s : State) (u : SquareId) (w : Nat), let q := s.sq u.val
    let size := 2 ^ bits w 30 2
    standsAt s u 6 0x00 w → onlyFields w [(64, 64), (15, 5), (32, 1), (30, 2), (10, 5)] = true →
    q.regsReady [bits w 15 5, bits w 10 5] = true → q.atOps.length < 64 →
    (q.atAddr w % size ≠ 0 → ∃ t, exec (.atLd u) s = .next t ∧ faultedAt s t u 4 (q.atAddr w % 2 ^ 56)) ∧
    (q.atAddr w % size = 0 → 2 ^ 56 ≤ q.atAddr w → ∃ t, exec (.atLd u) s = .next t ∧ faultedAt s t u 1 (q.atAddr w % 2 ^ 56)))

/-- The one access of operation `o` of a square is at the front of its order, and its home, in this module's memory, allows it:
it passes every check of R293, and its bytes do not fail parity. -/
def homeReady (s : State) (u : SquareId) (o : AtOp) (r : AtRow) (op : AccOp) : Prop :=
  let q := s.sq u.val
  let a := r.addr % 2 ^ 44
  q.atOps.find? (fun x => x.id == o.id) = some o ∧ o.rows = [r] ∧ r.stage = .waiting ∧ s.mustWait u.val o.id 0 = false ∧
    s.retries = [] ∧ r.addr < 2 ^ 56 ∧ s.isLocal r.addr = true ∧ placeOf s.isM a ≠ .reg ∧ placeOf s.isM a ≠ .host ∧
    q.ownWindowRefuses u.val a o.size = false ∧ s.checkAcc ⟨u.val, q.kpart, a, o.size, op, false⟩ = 0 ∧
    s.parityOf a o.size = 0 ∧ q.near = []

/-- Operation `o` has left the port, register `sd` holds `v` (nothing is written when it is 0) and no other register changed. -/
def portDone (s t : State) (u : SquareId) (o : AtOp) (v : Reg64) : Prop :=
  (t.sq u.val).atOps = (s.sq u.val).atOps.filter (fun x => x.id != o.id) ∧ t.elog = s.elog ∧
    ∀ k, (t.sq u.val).sreg k = if k = o.sd ∧ o.sd ≠ 0 then v else (s.sq u.val).sreg k

/-- How many bytes an access touches. -/
def accessLength (k : AccessKind) : Nat :=
  match k with | .load n => n | .store bs => bs.length | .atom _ n _ => n | .cas n _ _ => n

/-- A core may issue an access to `n` bytes, one or more, from a global address (R303, R311, R514): it runs, no FENCE, acquire or stop
holds it, and no earlier access of it to any of the bytes is still to be performed. -/
def coreReady (s : State) (c : CoreId) (g n : Nat) : Prop :=
  0 < n ∧ (s.hart c.val).halted = false ∧ s.coreHolds (0x80 + c.val) = false ∧ s.coreOverlaps c.val g n = false

/-- The core got its answer, and no record was made. -/
def coreAnswered (s t : State) (c : CoreId) (bs : List Byte) : Prop := t.out = .resp (0x80 + c.val) 0 bs :: s.out ∧ t.elog = s.elog

/-- A global address names a byte of a well or of the reservoir of this module. -/
def inMemoryOf (s : State) (g : Nat) : Prop :=
  s.isLocal g = true ∧ ((∃ q, placeOf s.isM (g % 2 ^ 44) = .well q) ∨ placeOf s.isM (g % 2 ^ 44) = .reservoir)

/-- FENCE of a core (R308, R311): it waits until every earlier access of the core has its answer, and the accesses and register writes of
the core behind it wait with it. That a FENCE whose predecessor set is without W waits too is the model's choice (LOG 72). An access to
bytes of an earlier one that still awaits its second parity attempt waits as well (R303). -/
def coresFence : Prop :=
  (∀ (s : State) (c : CoreId) (pred succ : Bool), (s.hart c.val).halted = false → s.stop.stopped = false →
    (∀ r ∈ s.retries, r.src ≠ .coreFence c pred succ) →
    (s.coreWaits c.val = true → ∃ t, exec (.homeAccess (.coreFence c pred succ)) s = .next t ∧
      (t.hart c.val).fencing = true ∧ t.out = s.out ∧ sameMemory s t ∧ t.elog = s.elog) ∧
    (s.coreWaits c.val = false → ∃ t, exec (.homeAccess (.coreFence c pred succ)) s = .next t ∧
      (t.hart c.val).fencing = false ∧ sameMemory s t ∧ coreAnswered s t c [])) ∧
  (∀ (s : State) (c : CoreId), (s.hart c.val).fencing = true → s.coreWaits c.val = true →
    (∀ g k, exec (if s.isPlain (.core c g k) then .homeAccess (.core c g k) else .homeAtomic (.core c g k)) s = .next s) ∧
    ∀ (off : Nat) (w : RegWrite), w.unit = 0x80 + c.val → exec (.registerWrite off w) s = .next s) ∧
  (∀ (s : State) (c : CoreId) (g h : Nat) (k x : AccessKind) (r : Retry), r ∈ s.retries → r.src = .core c h x →
    s.canon h < s.canon g + accessLength k → s.canon g < s.canon h + accessLength x →
    exec (if s.isPlain (.core c g k) then .homeAccess (.core c g k) else .homeAtomic (.core c g k)) s = .next s)

/-- Loads and stores of a core, with its load-reserve and store-conditional (R311): a store-conditional stores and answers 0 where a
reservation of the core still covers its bytes, and else stores nothing and answers 1; it leaves the core no reservation. What loses a
reservation and what a failing one does not check is the model's choice (LOG 88). -/
def coresAccess : Prop :=
  (∀ (s : State) (c : CoreId) (g n : Nat), coreReady s c g n → s.isLocal g = true →
    let a := g % 2 ^ 44
    placeOf s.isM a ≠ .reg → placeOf s.isM a ≠ .host →
    s.checkAcc ⟨0x80 + c.val, (s.hart c.val).part, a, n, .read, false⟩ = 0 → s.parityOf a n = 0 →
    ∃ t, exec (.homeAccess (.core c g (.load n))) s = .next t ∧ coreAnswered s t c (s.bytes a n) ∧ sameMemory s t) ∧
  (∀ (s : State) (c : CoreId) (g : Nat) (bs : List Byte), coreReady s c g bs.length → s.isLocal g = true →
    let a := g % 2 ^ 44
    placeOf s.isM a ≠ .reg → placeOf s.isM a ≠ .host →
    s.checkAcc ⟨0x80 + c.val, (s.hart c.val).part, a, bs.length, .write, false⟩ = 0 → (∀ r ∈ s.retries, r.src ≠ .core c g (.store bs)) →
    ∃ t, exec (.homeAccess (.core c g (.store bs))) s = .next t ∧ coreAnswered s t c [] ∧ t.bytes a bs.length = bs ∧
      sameMemoryBut s t a bs.length) ∧
  (∀ (s : State) (c : CoreId) (g n : Nat), coreReady s c g n → inMemoryOf s g →
    let a := g % 2 ^ 44
    s.checkAcc ⟨0x80 + c.val, (s.hart c.val).part, a, n, .read, false⟩ = 0 → s.parityOf a n = 0 →
    ∃ t, exec (.homeAccess (.coreSync c g (.lr n) false false)) s = .next t ∧ coreAnswered s t c (s.bytes a n) ∧ sameMemory s t ∧
      ⟨c.val, a, n⟩ ∈ t.resv) ∧
  (∀ (s : State) (c : CoreId) (g n v : Nat), coreReady s c g n → (∀ r ∈ s.retries, r.src ≠ .coreSync c g (.sc n v) false false) →
    let a := g % 2 ^ 44
    let kept := ∃ r ∈ s.resv, r.core = c.val ∧ r.addr ≤ a ∧ a + n ≤ r.addr + r.size
    (inMemoryOf s g → kept → s.checkAcc ⟨0x80 + c.val, (s.hart c.val).part, a, n, .write, false⟩ = 0 →
      ∃ t, exec (.homeAccess (.coreSync c g (.sc n v) false false)) s = .next t ∧ coreAnswered s t c [0] ∧
        t.bytes a n = toBytes n v ∧ sameMemoryBut s t a n ∧ ∀ r ∈ t.resv, r.core ≠ c.val) ∧
    (¬ kept → ∃ t, exec (.homeAccess (.coreSync c g (.sc n v) false false)) s = .next t ∧ coreAnswered s t c [1] ∧ sameMemory s t ∧
      ∀ r ∈ t.resv, r.core ≠ c.val))

/-- A load or store reaches its home (R135, R141, R301): a load writes the zero-extended or sign-extended value to its register
and changes no memory; a store writes its low bytes at its address and no other byte. Accesses of host-class cores are held by their
FENCE and answered (R303, R308, R311): that a FENCE without W waits too (LOG 72), and the corners of reservations (LOG 88), are the
model's choices. -/
def Obligations.HomesPerformLoadsAndStores : Prop :=
  (∀ (s : State) (u : SquareId) (o : AtOp) (r : AtRow), o.kind = .ld → homeReady s u o r .read →
    let a := r.addr % 2 ^ 44
    let v := ofBytes (s.bytes a o.size)
    ∃ t, exec (.homeAccess (.square u o.id 0)) s = .next t ∧ sameMemory s t ∧
      portDone s t u o (if o.sgn = true then BitVec.ofInt 64 (signed (8 * o.size) v) else BitVec.ofNat 64 v)) ∧
  (∀ (s : State) (u : SquareId) (o : AtOp) (r : AtRow), o.kind = .st → o.sd = 0 → homeReady s u o r .write →
    let a := r.addr % 2 ^ 44
    ∃ t, exec (.homeAccess (.square u o.id 0)) s = .next t ∧ t.bytes a o.size = toBytes o.size r.operand ∧
      sameMemoryBut s t a o.size ∧ portDone s t u o 0) ∧ coresFence ∧ coresAccess

/-- The new value of a word of `b` bits under an atomic operation (R135). -/
def atomicRule (aop b old v compare : Nat) : Nat :=
  match aop with
  | 0 => (old + v) % 2 ^ b
  | 1 => if signed b old ≤ signed b v then old else v % 2 ^ b
  | 2 => if signed b old ≤ signed b v then v % 2 ^ b else old
  | 3 => min old (v % 2 ^ b)
  | 4 => max old (v % 2 ^ b)
  | 5 => old &&& v % 2 ^ b
  | 6 => old ||| v % 2 ^ b
  | 7 => old ^^^ v % 2 ^ b
  | 8 => v % 2 ^ b
  | _ => if old = compare % 2 ^ b then v % 2 ^ b else old

/-- An atomic is performed at its home (R135, R137, R317): the word takes its new value, no other byte changes, and the old value
goes to the register, or to the register pair of AT.CAS128. -/
def Obligations.HomesPerformAtomics : Prop :=
  (∀ (s : State) (u : SquareId) (o : AtOp) (r : AtRow), o.kind = .atom → (o.size = 4 ∨ o.size = 8) → o.sgn = false → o.aop ≤ 9 →
    homeReady s u o r (.atom o.aop o.size) →
    let a := r.addr % 2 ^ 44
    let old := ofBytes (s.bytes a o.size)
    ∃ t, exec (.homeAtomic (.square u o.id 0)) s = .next t ∧
      ofBytes (t.bytes a o.size) = atomicRule o.aop (8 * o.size) old r.operand o.compare ∧ sameMemoryBut s t a o.size ∧
      portDone s t u o (BitVec.ofNat 64 old)) ∧
  (∀ (s : State) (u : SquareId) (o : AtOp) (r : AtRow), o.kind = .cas128 → o.size = 16 → homeReady s u o r .cas128 →
    let a := r.addr % 2 ^ 44
    let old := ofBytes (s.bytes a 16)
    ∃ t, exec (.homeAtomic (.square u o.id 0)) s = .next t ∧
      ofBytes (t.bytes a 16) = atomicRule 9 128 old r.operand o.compare ∧ sameMemoryBut s t a 16 ∧
      (o.sd ≠ 0 → (t.sq u.val).sreg o.sd = BitVec.ofNat 64 old ∧ (t.sq u.val).sreg (o.sd + 1) = BitVec.ofNat 64 (old / 2 ^ 64)) ∧
      (o.sd = 0 → (t.sq u.val).sregs = (s.sq u.val).sregs))

/-- The second attempt of a read that failed parity (R15, R291, R292): a byte that fails once gives its value then, and one that
fails every time gives one PARITY record and no value; a stopped square makes no record (R142). That the record names the first byte of the
access is the model's choice (LOG 22). -/
def Obligations.ParityIsRetriedOnce : Prop :=
  ∀ (s : State) (idx : Nat) (u : SquareId) (o : AtOp) (r : AtRow), s.retries[idx]? = some ⟨.square u o.id 0, r.addr % 2 ^ 44⟩ →
    o.kind = .ld → o.sgn = false →
    let a := r.addr % 2 ^ 44
    (∃ q', placeOf s.isM a = .well q') →
    (s.sq u.val).atOps.find? (fun x => x.id == o.id) = some o → o.rows = [r] → r.stage = .waiting →
    s.mustWait u.val o.id 0 = false → r.addr < 2 ^ 56 → s.isLocal r.addr = true →
    s.checkAcc ⟨u.val, (s.sq u.val).kpart, a, o.size, .read, false⟩ = 0 → (s.sq u.val).near = [] →
    (s.parityOf a o.size = 1 → ∃ t, exec (.parityRetry idx) s = .next t ∧ t.retries = s.retries.eraseIdx idx ∧ sameMemory s t ∧
      portDone s t u o (BitVec.ofNat 64 (ofBytes (s.bytes a o.size)))) ∧
    (s.parityOf a o.size = 2 → (s.sq u.val).run = .stopped → ∃ t, exec (.parityRetry idx) s = .next t ∧
      t.retries = s.retries.eraseIdx idx ∧ sameMemory s t ∧ t.elog = s.elog ∧ (t.sq u.val).sregs = (s.sq u.val).sregs) ∧
    (s.parityOf a o.size = 2 → (s.sq u.val).run ≠ .stopped → ∃ t, exec (.parityRetry idx) s = .next t ∧
      t.retries = s.retries.eraseIdx idx ∧ sameMemory s t ∧
      (∃ e : ErrRecord, t.elog.transit = s.elog.transit ++ [e] ∧ e.code = 3 ∧ e.addr = s.recordAddr r.addr) ∧
      (t.sq u.val).sregs = (s.sq u.val).sregs)
/-! Launches and fused attention (08, 12). -/

/-- `n` bytes at a global address lie in this module's memory, a unit of a partition may read them, they pass parity, and
they are `bs`. -/
def readsAs (s : State) (unit part g n : Nat) (bulk : Bool) (bs : List Byte) : Prop :=
  s.isLocal g = true ∧ placeOf s.isM (g % 2 ^ 44) ≠ .reg ∧ placeOf s.isM (g % 2 ^ 44) ≠ .host ∧
    s.checkAcc ⟨unit, part, g % 2 ^ 44, n, .read, bulk⟩ = 0 ∧ s.parityOf (g % 2 ^ 44) n = 0 ∧ bs = s.bytes (g % 2 ^ 44) n

/-- `n` bytes at a global address lie in this module's memory and a unit of a partition may write them. -/
def writable (s : State) (unit part g n : Nat) (bulk : Bool) : Prop :=
  s.isLocal g = true ∧ placeOf s.isM (g % 2 ^ 44) ≠ .reg ∧ placeOf s.isM (g % 2 ^ 44) ≠ .host ∧
    s.checkAcc ⟨unit, part, g % 2 ^ 44, n, .write, bulk⟩ = 0

/-- A launch stands at the head of the list of every square it names, none of them is being handed over, and the module is in
service. -/
def launchDue (s : State) (id : Nat) (l : Launch) : Prop :=
  s.launch id = some l ∧ l.stage = .issued ∧ s.stop.stopped = false ∧ s.power.state = 0 ∧ s.atHead l (s.candidates l) = true ∧
    ∀ u, u ∈ s.candidates l → (s.owner u).busy = false

/-- The hall has read 128 bytes of a launch's descriptor, now from this module's memory or before: it reads them once, also where the start
waits for other reads (R343). -/
def descriptorRead (s : State) (l : Launch) (bs : List Byte) : Prop :=
  (s.findFar (.launch l.id) l.daddr (.load 128) = none ∧ readsAs s unitHall l.part l.daddr 128 true bs) ∨
    ∃ x, s.findFar (.launch l.id) l.daddr (.load 128) = some x ∧ x.result = some (0, bs)

/-- A launch that fails a check of R344 as it starts: no square changes, one record of the cause is made, and its code is the status. -/
def launchRefused (s t : State) (id : Nat) (l : Launch) (code addr : Nat) : Prop :=
  t.launch id = some { l with stage := .running, set := [], status := BitVec.ofNat 64 code } ∧
  (∃ e : ErrRecord, t.elog.transit = s.elog.transit ++ [e] ∧ e.code = code ∧ e.unit = 0xC0 ∧ e.part = l.part ∧
    e.addr = s.recordAddr addr) ∧ t.squares = s.squares ∧ sameMemory s t

/-- A launch at the head of its lists starts (R341 to R348): one that fails a check starts no square, makes one record of the
cause and has its code as status, and a cause in a kernel's descriptor goes before one of its set; a kernel takes every square it names, and on each of them the code range, the preloads, the
allotment, the counters, the grid and the arguments are those of its descriptor, the PC stands at the first instruction, and
everything that a kernel starts without is cleared; a fused command takes its squares with its structures read. -/
def Obligations.LaunchesStart : Prop :=
  (∀ (s : State) (id : Nat) (l : Launch) (code addr : Nat), launchDue s id l → l.kind ≠ .kernel →
    s.setCause l (s.candidates l) = some (code, addr) → ∃ t, exec (.launchStart id) s = .next t ∧ launchRefused s t id l code addr) ∧
  (∀ (s : State) (id : Nat) (l : Launch) (dbs : List Byte), launchDue s id l → l.kind = .kernel →
    descriptorRead s l dbs →
    let us := s.candidates l
    let d := kernelDescOf l (ofBytes dbs)
    (∀ c a, kernelCause l (ofBytes dbs) = some (c, a) → ∃ t, exec (.launchStart id) s = .next t ∧ launchRefused s t id l c a) ∧
    (∀ c a, kernelCause l (ofBytes dbs) = none → s.setCause l us = some (c, a) →
      ∃ t, exec (.launchStart id) s = .next t ∧ launchRefused s t id l c a) ∧
    (kernelCause l (ofBytes dbs) = none → s.setCause l us = none →
      (∀ u, u ∈ us → ∀ r, r ∈ d.ranges → readsAs s u l.part r.1 r.2 true (s.bytes (r.1 % 2 ^ 44) r.2)) →
      ∃ t, exec (.launchStart id) s = .next t ∧ t.launch id = some { l with stage := .running, set := us } ∧
        (∀ x, x ∈ us.zipIdx → let q := t.sq x.1
          q.run = .running ∧ q.stall = .none ∧ q.launch = l.id ∧ q.kpart = l.part ∧ q.rank = x.2 ∧ q.setSize = us.length ∧
          q.pc = 0 ∧ q.codeAddr = d.code ∧ q.code = codeOfBytes (s.bytes (d.code % 2 ^ 44) d.codelen) (d.codelen / 16) ∧
          q.allotBase = 4096 * d.allotBase ∧ q.allotSize = 4096 * d.allotSize ∧ q.cbase = d.cbase ∧ q.ccount = d.ccount ∧
          q.gridX = d.gridX ∧ q.gridY = d.gridY ∧ q.order = l.order ∧ q.tile = BitVec.allOnes 64 ∧ q.tileXY = BitVec.allOnes 64 ∧
          q.acc = [] ∧ q.vreg = [] ∧ q.utab = [] ∧ q.accSat = false ∧ q.outSat = false ∧ q.fault = none ∧ q.near = [] ∧
          (∀ k, q.sreg k = if 1 ≤ k ∧ k ≤ 8 then d.args.getD (k - 1) 0 else 0) ∧
          (∀ k, Table.get 0 q.sfile k = if d.sfbase ≤ k ∧ k < d.sfbase + d.sfcnt then
            (normalWords (s.bytes (d.sfaddr % 2 ^ 44) (4 * d.sfcnt)) d.sfcnt).getD (k - d.sfbase) 0 else 0) ∧
          (∀ k, Table.get 0 q.cbook k = if 256 * d.cbslot ≤ k ∧ k < 256 * (d.cbslot + d.cbcnt) then
            (s.bytes (d.cbaddr % 2 ^ 44) (256 * d.cbcnt)).getD (k - 256 * d.cbslot) 0 else 0)) ∧
        (∀ v, v ∉ us → t.sq v = s.sq v) ∧ t.elog = s.elog ∧ sameMemory s t)) ∧
  (∀ (s : State) (id : Nat) (l : Launch) (a : Attn), launchDue s id l → l.kind = .attention →
    s.setCause l (s.candidates l) = none → (s.attnStart l ((s.candidates l).headD 0)).2 = .ok a →
    ∃ t, exec (.launchStart id) s = .next t ∧
      t.launch id = some { l with stage := .running, set := s.candidates l, attn := some a } ∧
      ∀ u, u ∈ s.candidates l → (t.sq u).run = .running ∧ (t.sq u).stall = .ending ∧ (t.sq u).launch = l.id) ∧
  (∀ (s : State) (id : Nat) (l : Launch) (k : Lookup), launchDue s id l → l.kind = .lookup →
    s.setCause l (s.candidates l) = none → (s.lookStart l ((s.candidates l).headD 0)).2 = .ok k →
    ∃ t, exec (.launchStart id) s = .next t ∧
      t.launch id = some { l with stage := .running, set := s.candidates l, look := some k } ∧
      ∀ u, u ∈ s.candidates l → (t.sq u).run = .running ∧ (t.sq u).stall = .ending ∧ (t.sq u).launch = l.id)

/-- A launch whose squares have all reported, with nothing of it unanswered, ends (R355, R356): its status word is that of its
reports, and ABORTED where it was aborted, also where no square has faulted (the model's choice, LOG 65); with KSW and a status address, unless a later launch of the entry wrote that place already, the word is written at its place in the status area and no other byte changes, and
otherwise no byte changes; an asynchronous launch adds 1 to its hall counter, and every other hall counter stays. The word and the counter are releases of the hall: while an access of the
hall is without its answer an asynchronous launch does not end (R312). -/
def Obligations.LaunchesEnd : Prop :=
  ∀ (s : State) (id : Nat) (l : Launch), s.launch id = some l → l.reported = true → s.stop.stopped = false →
    s.poisonDue l = false → s.endPending l = false → s.openPins l = [] → s.linksQuiet l = true →
    let word := if l.set = [] ∧ l.aborted = false then l.status else BitVec.ofNat 64 (statusWord l.aborted l.reports)
    let addr := addr56 l.statAddr (32 + 8 * l.stx)
    let ends := fun (t : State) => t.launch id = some { l with stage := .ended, status := word } ∧ t.squares = s.squares ∧ t.elog = s.elog ∧
      ∀ c, t.hallCounter c = if l.async = true ∧ c = 256 * l.part + l.ecnt then s.hallCounter c + 1 else s.hallCounter c
    (l.ksw = false ∨ l.statAddr = 0 ∨ s.statusTaken l = true →
      (l.async = false ∨ s.hallAwaits = false → ∃ t, exec (.launchEnd id) s = .next t ∧ ends t ∧ sameMemory s t) ∧
      (l.async = true → s.hallAwaits = true → exec (.launchEnd id) s = .next s)) ∧
    (l.ksw = true → l.statAddr ≠ 0 → s.statusTaken l = false → s.hallAwaits = false → writable s unitHall l.part addr 8 true →
      ∃ t, exec (.launchEnd id) s = .next t ∧ ends t ∧ t.bytes (addr % 2 ^ 44) 8 = toBytes 8 word.toNat ∧
        sameMemoryBut s t (addr % 2 ^ 44) 8)

/-- A square of a running attention command has a work item that is not done. -/
def itemOpen (s : State) (u : Nat) (w : WorkItem) (l : Launch) (a : Attn) : Prop :=
  s.launchOn u = some l ∧ l.attn = some a ∧ a.validItem w = true ∧ (a.item w).done = false

/-- Work item `w` of a command now is `x`, and every other work item is as before. -/
def itemBecomes (t : State) (l : Launch) (a : Attn) (w : WorkItem) (x : ItemState) : Prop :=
  ∃ m b, t.launch l.id = some m ∧ m.attn = some b ∧ b.item w = x ∧ b.desc = a.desc ∧ b.recs = a.recs ∧ b.ring = a.ring ∧
    ∀ w', itemKey w' ≠ itemKey w → b.item w' = a.item w'

/-- The raw bytes of a page at a global address of this module, as the walker and a fold read them. -/
def rawPage (s : State) (u : Nat) (l : Launch) (d : AttnDesc) (g n : Nat) (bs : List Byte) : Prop :=
  ∃ rs, s.readRegions u l.part = .ok rs ∧ pageRefused s.isM rs (g % 2 ^ 44) (pageFmt d.fmt).stop = false ∧
    pageRaw s.isM rs (g % 2 ^ 44) n = true ∧ readsAs s u l.part g n true bs

/-- The walker (R211 to R213): it reads the entry of the next block at PTADDR + 8 × ((LAYER × NGRP + group) × NBMAX + block); a
valid entry names a page, and once the page's header agrees with the command the block is in hand with the header's position and
fill; before the first block the inputs of the rows are read. An entry that was written during the command counts as it stood before where
its page would bring another fault (R214), so it is taken here to stand unchanged or to name a page that reads. An entry without its valid bit faults with PAGE and the
entry's address. -/
def Obligations.AttentionWalksBlocks : Prop :=
  ∀ (s : State) (u : SquareId) (w : WorkItem) (l : Launch) (a : Attn) (eb : List Byte), itemOpen s u.val w l a →
    a.desc.ring = false → (a.item w).walked = none → (a.item w).next < (a.blocks w).2 →
    let i := a.item w
    let r := a.recs.getD w.record {}
    let group := w.head / (pageFmt a.desc.fmt).heads
    let blk := (a.blocks w).1 + i.next
    let ea := (r.pt + 8 * ((a.desc.layer * a.desc.ngrp + group) * r.nbmax + blk)) % 2 ^ 56
    let got := if i.inputs = [] then (a.inputRanges w).map (fun x => s.bytes (x.1 % 2 ^ 44) x.2) else i.inputs
    (i.inputs = [] → ∀ x, x ∈ a.inputRanges w → readsAs s u.val l.part x.1 x.2 true (s.bytes (x.1 % 2 ^ 44) x.2)) →
    blk < r.nbmax → readsAs s u.val l.part ea 8 true eb →
    (∀ hb : List Byte, (ofBytes eb).testBit 63 = true →
      let page := bits (ofBytes eb) 15 29 * 32768
      s.entryBefore a ea (ofBytes eb) = ofBytes eb ∨ s.pageFails l a u.val page = false →
      inMemory s.isM page 32768 = true → rawPage s u.val l a.desc (globalOf page) 64 hb → headerOk a.desc group (ofBytes hb) = true →
      ∃ t, exec (.attnWalkBlock u w) s = .next t ∧
        itemBecomes t l a w { i with inputs := got, walked := some (globalOf page, bits (ofBytes hb) 64 64, bits (ofBytes hb) 48 8) } ∧
        t.squares = s.squares ∧ t.elog = s.elog ∧ sameMemory s t) ∧
    ((ofBytes eb).testBit 63 = false →
      ∃ t, exec (.attnWalkBlock u w) s = .next t ∧ (t.sq u.val).fault = some ⟨14, 0, s.time⟩ ∧ (t.sq u.val).run = .stopped ∧
        (∃ e : ErrRecord, t.elog.transit = s.elog.transit ++ [e] ∧ e.code = 14 ∧ e.unit = u.val ∧ e.addr = s.recordAddr ea) ∧
        sameMemory s t)

/-- A fold, a merge and the finish of a work item (R222 to R224, R218): a fold of a block whose tokens are all invisible leaves
the rows as they are, and of any other folds into each row the scores of the tokens visible to it; the parts of a row tile, all
folded, merge in ascending order and the other parts are done; finishing writes the output rows at their addresses and no other
byte, and the item is done. -/
def Obligations.AttentionFoldsMergesFinishes : Prop :=
  (∀ (s : State) (u : SquareId) (w : WorkItem) (l : Launch) (a : Attn) (b : Nat × Nat × Nat) (page : List Byte),
    itemOpen s u.val w l a → (a.item w).walked = some b → a.desc.op = 0 ∨ a.desc.op = 1 → a.desc.scores = false →
    let i := a.item w
    let f := pageFmt a.desc.fmt
    let vis := a.visible w i
    (vis.all (fun r => r.all (!·)) = true → ∃ t, exec (.attnFold u w) s = .next t ∧
      itemBecomes t l a w { i with next := i.next + 1, walked := none } ∧ t.squares = s.squares ∧ sameMemory s t) ∧
    (vis.all (fun r => r.all (!·)) = false → rawPage s u.val l a.desc b.1 f.stop page →
      let toks := f.tokensOf page (a.books i) (w.head % f.heads) (a.firstPos w i)
      ∃ t, exec (.attnFold u w) s = .next t ∧
        itemBecomes t l a w { i with next := i.next + 1, walked := none, rows := (vis.zipIdx).map (fun v =>
          (foldBlock (i.row v.2 f.dim) (scored toks (rowScores (a.queryRow i v.2) toks v.1).1) a.desc.ogrid).1) } ∧
        (∀ v, v ≠ u.val → t.sq v = s.sq v) ∧ t.elog = s.elog ∧ sameMemory s t)) ∧
  (∀ (s : State) (u : SquareId) (w : WorkItem) (l : Launch) (a : Attn), itemOpen s u.val w l a → w.part = 0 →
    (a.item w).merged = false → a.desc.op < 2 → 1 < a.desc.parts → a.allFolded w = true →
    ∃ t, exec (.attnMerge u w) s = .next t ∧ t.elog = s.elog ∧ sameMemory s t ∧
      ∃ m b, t.launch l.id = some m ∧ m.attn = some b ∧
        b.item w = { a.item w with merged := true, rows := (a.mergedRows w).map Prod.fst } ∧
        ∀ p, 1 ≤ p → p < a.desc.parts → b.item { w with part := p } = { a.item { w with part := p } with done := true }) ∧
  (∀ (s : State) (u : SquareId) (w : WorkItem) (l : Launch) (a : Attn), itemOpen s u.val w l a →
    a.rowsReady w (a.item w) = true → s.roomFor 96 = true →
    let r := a.recs.getD w.record {}
    let ws := ((tileRows a.desc r w.head w.tile).zipIdx).flatMap (fun x => (a.rowOut r (a.item w) x.2 (rowIndex a.desc x.1)).1)
    (∀ x, x ∈ ws → writable s u.val l.part x.1 x.2.length true) →
    List.Pairwise (fun x y => x.1 % 2 ^ 44 + x.2.length ≤ y.1 % 2 ^ 44 ∨ y.1 % 2 ^ 44 + y.2.length ≤ x.1 % 2 ^ 44) ws →
    ∃ t, exec (.attnFinish u w) s = .next t ∧ itemBecomes t l a w { a.item w with done := true } ∧ t.elog = s.elog ∧
      (∀ x, x ∈ ws → t.bytes (x.1 % 2 ^ 44) x.2.length = x.2) ∧
      ∀ k, (∀ x, x ∈ ws → k < x.1 % 2 ^ 44 ∨ x.1 % 2 ^ 44 + x.2.length ≤ k) → t.byte k = s.byte k)

/-- The backward pass of a block (R234, R235): each visible token's dV and dK terms are added to their 64-bit words in memory and
no other byte changes, and each row's dQ terms to the sums of the work item, which goes on to its next block. -/
def Obligations.BackwardPassAccumulates : Prop :=
  ∀ (s : State) (u : SquareId) (w : WorkItem) (l : Launch) (a : Attn) (b : Nat × Nat × Nat) (page : List Byte),
    itemOpen s u.val w l a → (a.item w).walked = some b → a.desc.op = 3 → a.desc.ring = false → a.desc.ssrc = false →
    let i := a.item w
    let f := pageFmt a.desc.fmt
    let r := a.recs.getD w.record {}
    let vis := a.visible w i
    vis.all (fun x => x.all (!·)) = false → s.roomFor a.adds = true → rawPage s u.val l a.desc b.1 f.stop page →
    let toks := f.tokensOf page (a.books i) (w.head % f.heads) (a.firstPos w i)
    let sums := a.backSums i toks ((vis.zipIdx).map (fun v => (rowScores (a.queryRow i v.2) toks v.1).1))
    let adds := sums.adds r.dkaddr r.dvaddr ((w.head * r.nbmax * f.tokens + a.firstPos w i) * f.dim) f.dim
    (∀ x, x ∈ adds → s.isLocal x.1 = true ∧ placeOf s.isM (x.1 % 2 ^ 44) ≠ .reg ∧ placeOf s.isM (x.1 % 2 ^ 44) ≠ .host ∧
      s.checkAcc ⟨u.val, l.part, x.1 % 2 ^ 44, 8, .atom 0 8, false⟩ = 0 ∧ s.parityOf (x.1 % 2 ^ 44) 8 = 0) →
    List.Pairwise (fun x y => x.1 % 2 ^ 44 + 8 ≤ y.1 % 2 ^ 44 ∨ y.1 % 2 ^ 44 + 8 ≤ x.1 % 2 ^ 44) adds →
    ∃ t, exec (.bwdAccumulate u w) s = .next t ∧
      itemBecomes t l a w { i with next := i.next + 1, walked := none, dq := sums.addRows f.dim i.dq } ∧ t.elog = s.elog ∧
      (∀ x, x ∈ adds → ofBytes (t.bytes (x.1 % 2 ^ 44) 8) = (ofBytes (s.bytes (x.1 % 2 ^ 44) 8) + x.2) % 2 ^ 64) ∧
      ∀ k, (∀ x, x ∈ adds → k < x.1 % 2 ^ 44 ∨ x.1 % 2 ^ 44 + 8 ≤ k) → t.byte k = s.byte k

/-- A launch runs a command of attention under RING on its lead square. -/
def ringRuns (s : State) (id : Nat) (l : Launch) (a : Attn) : Prop :=
  s.launch id = some l ∧ l.attn = some a ∧ a.desc.ring = true ∧ s.active l.lead = true ∧ (s.sq l.lead).launch = id ∧ l.stage = .running

/-- The ring state of a launch is now `x`, and everything else of its command is as in `a`. -/
def ringBecomes (t : State) (id : Nat) (a : Attn) (x : RingState) : Prop :=
  ∃ m, t.launch id = some m ∧ m.attn = some { a with ring := x }

/-- The ring protocol (R231 to R233). From the step on at which a slab is in hand its pages count as they stand then (R214). A step whose slab is there, and whose successor has room when there is something to forward,
has its slab in hand; its forward is queued behind the pump's other descriptors with the next ticket. A counter found with
bit 63 set ends the member with ABORTED. When the slab is folded and the forward has completed the predecessor's counter is
added 1, except at step 0, and the next step follows. A member that faults or is stopped adds 2^63 to its neighbours' counters,
except to the one the poison came from. -/
def Obligations.RingMembersPassSlabs : Prop :=
  (∀ (s : State) (id : Nat) (l : Launch) (a : Attn), ringRuns s id l a → a.ring.have_ = false → a.ring.step < a.ringd.n →
    let st := a.ring.step
    let q := s.sq l.lead
    let forwards := st + 2 ≤ a.ringd.n
    let next := q.pump.lastTicket + 1
    ((st = 0 ∨ a.ringd.base + st ≤ s.dcnt a l.lead ∧ (s.dcnt a l.lead).testBit 63 = false) →
      (forwards → 2 ≤ a.ringd.base + st → a.ringd.base + st - 1 ≤ s.fcnt a l.lead ∧ (s.fcnt a l.lead).testBit 63 = false) →
      ∃ t, exec (.ringStep id) s = .next t ∧ t.elog = s.elog ∧ sameMemory s t ∧ (∀ v, v ≠ l.lead → t.sq v = s.sq v) ∧
        (forwards → ringBecomes t id { a with mem0 := s.mem } { a.ring with have_ := true, ticket := next } ∧
          (t.sq l.lead).pump = { q.pump with lastTicket := next, queue := q.pump.queue ++ [a.forward st next] }) ∧
        (¬ forwards → ringBecomes t id { a with mem0 := s.mem } { a.ring with have_ := true, ticket := 0 } ∧ (t.sq l.lead).pump = q.pump)) ∧
    (st ≠ 0 → a.ringd.base + st ≤ s.dcnt a l.lead → (s.dcnt a l.lead).testBit 63 = true →
      ∃ t, exec (.ringStep id) s = .next t ∧ ringBecomes t id a { a.ring with poisonFrom := 1 } ∧
        (t.sq l.lead).fault = some ⟨11, 0, s.time⟩ ∧ (t.sq l.lead).run = .stopped ∧ sameMemory s t)) ∧
  (∀ (s : State) (id : Nat) (l : Launch) (a : Attn) (bs : List Byte), ringRuns s id l a → a.ring.have_ = true →
    a.slabFolded = true → a.ring.ticket ≤ (s.sq l.lead).pump.lastDone → s.roomFor 1 = true →
    let r := s.localAccess l.lead l.part (a.ringd.prevC % 2 ^ 44) (.atom 0 8 1) false
    (a.ring.step = 0 → ∃ t, exec (.ringCredit id) s = .next t ∧
      ringBecomes t id a { a.ring with step := 1, have_ := false } ∧ t.sqCtr = s.sqCtr ∧ sameMemory s t) ∧
    (a.ring.step ≠ 0 → s.isLocal a.ringd.prevC = true → placeOf s.isM (a.ringd.prevC % 2 ^ 44) ≠ .host → r.2 = .ok bs →
      ∃ t, exec (.ringCredit id) s = .next t ∧ ringBecomes t id a { a.ring with step := a.ring.step + 1, have_ := false } ∧
        t.sqCtr = r.1.sqCtr ∧ t.mem = r.1.mem)) ∧
  (∀ (s : State) (id : Nat) (l : Launch) (a : Attn) (b1 b2 : List Byte), s.launch id = some l → l.attn = some a →
    s.poisonDue l = true → s.stop.stopped = false → s.roomFor 2 = true → s.isLocal a.ringd.nextC = true →
    s.isLocal a.ringd.prevC = true →
    let atom := fun (x : State) (g : Nat) => x.localAccess l.lead l.part (g % 2 ^ 44) (.atom 0 8 (2 ^ 63)) false
    let r1 := if a.ring.poisonFrom = 2 then (s, .ok b1) else atom s a.ringd.nextC
    let r2 := if a.ring.poisonFrom = 1 then (r1.1, .ok b2) else atom r1.1 a.ringd.prevC
    r1.2 = .ok b1 → r2.2 = .ok b2 →
    ∃ t, exec (.ringPoison id) s = .next t ∧ ringBecomes t id a { a.ring with poisoned := true } ∧
      t.sqCtr = r2.1.sqCtr ∧ t.mem = r2.1.mem)
/-! Prefix lookups (09). -/

/-- A square serves a request of a running prefix lookup whose result is not written. -/
def requestOpen (s : State) (u req : Nat) (l : Launch) (k : Lookup) (r : LookReq) : Prop :=
  s.launchOn u = some l ∧ l.look = some k ∧ k.reqs[req]? = some r ∧ req % (s.sq u).setSize = (s.sq u).rank ∧ r.written = false

/-- The request now is `x`, and every other request of the command is as before. -/
def requestBecomes (t : State) (l : Launch) (k : Lookup) (req : Nat) (x : LookReq) : Prop :=
  ∃ m k', t.launch l.id = some m ∧ m.look = some k' ∧ k'.reqs[req]? = some x ∧ ∀ j, j ≠ req → k'.reqs[j]? = k.reqs[j]?

/-- Slot `i` of the probe window of a hash (R252). -/
def probeSlot (p : Part) (h : Reg64) (i : Nat) : Nat := p.pfxBase + 64 * ((h.toNat + i) % 2 ^ p.pfxLog2n)

/-- A request is hashed and its blocks are probed (R248 to R252, R255): the hashes chain from 0 through the blocks of tokens
with the partition's key; the candidate of a block is the first node of its probe window whose hash, previous hash and depth
match, provided no slot before it is empty, and there is none when an empty slot comes first. -/
def lookupsHashAndProbe : Prop :=
  ∀ (s : State) (u : SquareId) (req : Nat) (l : Launch) (k : Lookup) (r : LookReq), requestOpen s u.val req l k r →
    let nb := min (r.ntok / k.tokens) r.nbmax
    (∀ bs : List Byte, r.hashed = false → nb ≠ 0 → readsAs s u.val l.part r.tok (4 * (nb * k.tokens)) true bs →
      ∃ t hs, exec (.lookupRequest u req) s = .next t ∧
        requestBecomes t l k req { r with hashed := true, toks := words32 bs (nb * k.tokens), hashes := hs } ∧ hs.length = nb ∧
        (∀ b, b < nb → hs.getD b 0 = blockHash (if b = 0 then 0 else hs.getD (b - 1) 0)
          (((words32 bs (nb * k.tokens)).drop (b * k.tokens)).take k.tokens) k.tokens (s.part l.part).pfxKey) ∧
        t.squares = s.squares ∧ t.elog = s.elog ∧ sameMemory s t) ∧
    (r.hashed = true → r.stop = none → r.probe < nb → r.probe < r.committed + 8 → (∀ c, c ∈ r.cands → c.2 ≠ none) →
      (s.part l.part).pfxLog2n ≠ 0 →
      let h := r.hashes.getD r.probe 0
      let prev := if r.probe = 0 then 0 else r.hashes.getD (r.probe - 1) 0
      let slot := probeSlot (s.part l.part) h
      let tells := fun i => probeNode (ofBytes (s.bytes (slot i) 64)) h prev r.probe
      ∀ n c, n < (s.part l.part).pfxProbe →
        (∀ i, i ≤ n → s.checkAcc ⟨u.val, l.part, slot i, 64, .read, true⟩ = 0 ∧ s.parityOf (slot i) 64 = 0) →
        (∀ i, i < n → tells i = .skip) → (tells n = .empty ∧ c = none ∨ ∃ brec, tells n = .hit brec ∧ c = some (slot n, brec)) →
        ∃ t, exec (.lookupRequest u req) s = .next t ∧
          requestBecomes t l k req { r with probe := r.probe + 1, cands := r.cands ++ [(r.probe, c)] } ∧
          t.squares = s.squares ∧ t.elog = s.elog ∧ sameMemory s t)

/-- The first candidate of a request is pinned and verified (R239, R255, R257): no candidate stops the request as a miss, a node
without a record or a moving record as busy, a dead record as dead; of a live record the count word is raised by one reference, its
reserved bits written 0 (R11), and nothing else of memory changes, and when its header and its first page agree with the request the block is pinned. -/
def lookupsPinBlocks : Prop :=
  ∀ (s : State) (u : SquareId) (req : Nat) (l : Launch) (k : Lookup) (r : LookReq) (rest : List (Nat × Option (Nat × Nat))) (b : Nat),
    requestOpen s u.val req l k r →
    let stopsWith := fun (code : Nat) => ∃ t, exec (.lookupBlockPin u req) s = .next t ∧
      requestBecomes t l k req { r with stop := some code, cands := [] } ∧ t.squares = s.squares ∧ t.elog = s.elog ∧ sameMemory s t
    (r.cands = (b, none) :: rest → stopsWith 1) ∧
    (∀ node, r.cands = (b, some (node, 0)) :: rest → stopsWith 2) ∧
    (∀ node brec wb, r.cands = (b, some (node, brec)) :: rest → brec ≠ 0 → s.roomFor 4 = true →
      readsAs s u.val l.part brec 8 true wb →
      let a := brec % 2 ^ 44
      let old := ofBytes wb
      let new := (old + 1) % 2 ^ 32 + 2 ^ 32 * bits old 32 3
      let after := (s.localAccess u.val l.part a (.cas 8 new old) false).1
      (bits old 32 2 = 1 → stopsWith 2) ∧ (bits old 32 2 = 2 → stopsWith 4) ∧
      (∀ rb rs pb, bits old 32 2 = 0 → s.checkAcc ⟨u.val, l.part, a, 8, .atom 9 8, false⟩ = 0 →
        readsAs after u.val l.part brec 72 true rb → recordOk k (ofBytes (rb.take 64)) = true →
        let e := ofBytes (slice rb 64 8)
        e.testBit 63 = true → after.readRegions u.val l.part = .ok rs →
        (after.readBlocks u.val l.part rs after.mem 2 (bits e 15 29 * 32768) []).2 = .ok pb → pageMatches k b r.toks pb = true →
        ∃ t, exec (.lookupBlockPin u req) s = .next t ∧
          requestBecomes t l k req { r with cands := rest, pins := r.pins ++ [(b, brec, node)] } ∧
          ofBytes (t.bytes a 8) = new ∧ sameMemoryBut s t a 8 ∧ t.elog = s.elog ∧ ∀ v, v ≠ u.val → t.sq v = s.sq v))

/-- A verified block is committed and a finished request answers (R212, R241, R255 to R257): each entry of its record is written,
its page with VALID and SHARED set and every reserved bit 0 (R11), into the page table, 4,096 at a time (the model's choice, LOG 18); with the last of them the block array names the record and the node has the time
of the hit; no other byte changes. The result word holds the committed blocks and why the request stopped. -/
def Obligations.LookupsCommitAndAnswer : Prop :=
  (∀ (s : State) (u : SquareId) (req : Nat) (l : Launch) (k : Lookup) (r : LookReq) (b brec node : Nat) (rest : List (Nat × Nat × Nat))
    (bs : List Byte), requestOpen s u.val req l k r → r.pins = (b, brec, node) :: rest → s.roomFor 4098 = true →
    let n := k.layers * k.ngrp
    let es := (List.range n).map (fun i => ofBytes (slice bs (8 * i) 8))
    let last := n ≤ r.wrote + 4096
    let ws := ((List.range n).filter (fun i => decide (r.wrote ≤ i) && decide (i < r.wrote + 4096))).map (fun i =>
        ((r.pt + 8 * (i * r.nbmax + b)) % 2 ^ 56, toBytes 8 (2 ^ 63 + 2 ^ 62 + bits (es.getD i 0) 15 29 * 2 ^ 15))) ++
      if last then [((r.bref + 8 * b) % 2 ^ 56, toBytes 8 brec), (globalOf (node + 56), toBytes 8 s.time)] else []
    n ≠ 0 → r.wrote ≤ n → readsAs s u.val l.part ((brec + 64) % 2 ^ 56) (8 * n) true bs →
    (∀ e, e ∈ es → e.testBit 63 = true) →
    (∀ x, x ∈ ws → writable s u.val l.part x.1 8 true) →
    List.Pairwise (fun x y => x.1 % 2 ^ 44 + 8 ≤ y.1 % 2 ^ 44 ∨ y.1 % 2 ^ 44 + 8 ≤ x.1 % 2 ^ 44) ws →
    ∃ t, exec (.lookupBlockCommit u req) s = .next t ∧
      requestBecomes t l k req (if last then { r with pins := rest, committed := b + 1, wrote := 0 } else { r with wrote := r.wrote + 4096 }) ∧
      (∀ x, x ∈ ws → t.bytes (x.1 % 2 ^ 44) 8 = x.2) ∧ t.elog = s.elog ∧ t.squares = s.squares ∧
      ∀ a, (∀ x, x ∈ ws → a < x.1 % 2 ^ 44 ∨ x.1 % 2 ^ 44 + 8 ≤ a) → t.byte a = s.byte a) ∧
  (∀ (s : State) (u : SquareId) (req : Nat) (l : Launch) (k : Lookup) (r : LookReq), requestOpen s u.val req l k r → r.pins = [] →
    s.roomFor 1 = true → (r.stop ≠ none ∨ r.hashed = true ∧ r.committed = min (r.ntok / k.tokens) r.nbmax) →
    writable s u.val l.part r.result 8 true →
    ∃ t, exec (.lookupResult u req) s = .next t ∧ requestBecomes t l k req { r with written := true } ∧
      t.bytes (r.result % 2 ^ 44) 8 = toBytes 8 (r.committed + r.stop.getD 0 * 2 ^ 32) ∧
      sameMemoryBut s t (r.result % 2 ^ 44) 8 ∧ t.elog = s.elog ∧ t.squares = s.squares)

/-- Prefix lookups hash a request's blocks in a chain and probe for each one (R248 to R252, R255); the first candidate of a request is
pinned by one reference when its record is live, and its header and first page agree with the request, or stops the request with its
cause (R239, R257). -/
def Obligations.LookupsProbeAndPin : Prop := lookupsHashAndProbe ∧ lookupsPinBlocks
/-! The dispatch hall (12). -/

/-- It is the turn of a queue's context at the hall, and dispatch instruction `w` of an opcode stands at its PC (R337 to R339). -/
def hallReady (s : State) (q : QueueId) (op w : Nat) (c : Ctx) : Prop :=
  (s.queue q.val).ctx = some c ∧ s.hasTurn q.val = true ∧ w % 256 = op ∧
    ∃ bs, readsAs s unitHall (s.queue q.val).part c.pc 16 true bs ∧ w = ofBytes bs

/-- The context of the queue is now `c`; every other queue, every square and the error log are as before. -/
def contextIs (s t : State) (q : QueueId) (c : Ctx) : Prop :=
  t.queue q.val = { s.queue q.val with ctx := some c } ∧ (∀ p, p ≠ q.val → t.queue p = s.queue p) ∧ t.squares = s.squares ∧
    t.elog = s.elog

/-- The context has gone on to address `pc` with value `v` in hall register `d`, and is ready; h0 discards it, and no other register
and nothing else of the context changed. -/
def hallWrote (s t : State) (q : QueueId) (c : Ctx) (pc d : Nat) (v : Reg64) : Prop :=
  ∃ c', contextIs s t q c' ∧ c' = { c with pc := pc, block := .ready, regs := c'.regs } ∧
    ∀ k, c'.reg k = if k = d ∧ k ≠ 0 then v else c.reg k

/-- The context blocks on its instruction, whose turn ends; it is tried again once what blocks it is over (R336, R337). -/
def hallBlocked (s t : State) (q : QueueId) (c : Ctx) (b : Block) : Prop :=
  contextIs s t q { c with block := b } ∧ t.hall.cur = none ∧ sameMemory s t

/-- The entry has ended by a hall fault: one record of the code and address, and the end names the instruction. -/
def hallEnded (s t : State) (q : QueueId) (c : Ctx) (code addr : Nat) : Prop :=
  (t.queue q.val).ctx = some { c with block := .ended, endCode := code, endSrc := 2, endStx := 0, endAddr := s.recordAddr c.pc } ∧
    (∃ e : ErrRecord, t.elog.transit = s.elog.transit ++ [e] ∧ e.code = code ∧ e.unit = 0xC0 ∧ e.part = (s.queue q.val).part ∧
      e.addr = s.recordAddr addr ∧ e.reply = .hall q.val) ∧ t.squares = s.squares ∧ sameMemory s t

/-- The address after a dispatch instruction. -/
def insAfter (c : Ctx) : Nat := (c.pc + 16) % 2 ^ 56

/-- The dispatch instructions that compute, branch and access memory (R335, R338, R339): each writes the register its rule names,
goes to the address its rule gives, and changes nothing else of its context; a load reads and a store writes the 8 bytes at
hA + IMM; a reserved condition, a ninth nested call and a return on an empty stack end the entry with ILLEGAL_INSTRUCTION, and a
misaligned address with ALIGN, its record naming the address modulo 2^56 (the model's choice where it is 2^56 or more, LOG 59). DSP.SYNC blocks its context until every launch of the entry has ended, and DSP.STAT until the one it
names has. -/
def Obligations.HallInstructionsCompute : Prop :=
  ∀ (s : State) (q : QueueId) (w : Nat) (c : Ctx),
    (hallReady s q 0x00 w c → dsOnly w [] = true →
      ∃ t, exec (.dspNop q) s = .next t ∧ hallWrote s t q c (insAfter c) 0 0 ∧ sameMemory s t) ∧
    (hallReady s q 0x08 w c → dsOnly w [fldHD, fldIMM] = true → ∃ t, exec (.dspMovi q) s = .next t ∧
      hallWrote s t q c (insAfter c) (dsHD w) (BitVec.ofNat 64 (w / 2 ^ 64)) ∧ sameMemory s t) ∧
    (hallReady s q 0x09 w c → dsOnly w [fldHA, fldHB, fldHD, (20, 1), fldIMM] = true → ∃ t, exec (.dspAdd q) s = .next t ∧
      hallWrote s t q c (insAfter c) (dsHD w)
        (c.reg (dsHA w) + if w.testBit 20 then BitVec.ofNat 64 (w / 2 ^ 64) else c.reg (dsHB w)) ∧ sameMemory s t) ∧
    (∀ bs, hallReady s q 0x0A w c → dsOnly w [fldHA, fldHD, fldIMM] = true →
      let a := ((c.reg (dsHA w)).toNat + w / 2 ^ 64) % 2 ^ 64
      (a % 8 = 0 → a < 2 ^ 56 → readsAs s unitHall (s.queue q.val).part a 8 false bs →
        ∃ t, exec (.dspLd q) s = .next t ∧ hallWrote s t q c (insAfter c) (dsHD w) (BitVec.ofNat 64 (ofBytes bs)) ∧ sameMemory s t) ∧
      (a % 8 ≠ 0 → ∃ t, exec (.dspLd q) s = .next t ∧ hallEnded s t q c 4 (a % 2 ^ 56))) ∧
    (hallReady s q 0x0B w c → dsOnly w [fldHA, fldHB, fldIMM] = true →
      let a := ((c.reg (dsHA w)).toNat + w / 2 ^ 64) % 2 ^ 64
      a % 8 = 0 → a < 2 ^ 56 → writable s unitHall (s.queue q.val).part a 8 false →
      ∃ t, exec (.dspSt q) s = .next t ∧ hallWrote s t q c (insAfter c) 0 0 ∧
        t.bytes (a % 2 ^ 44) 8 = toBytes 8 (c.reg (dsHB w)).toNat ∧ sameMemoryBut s t (a % 2 ^ 44) 8) ∧
    (hallReady s q 0x0C w c → dsOnly w [fldHA, fldHB, fldCI, fldOFF] = true →
      let x := (c.reg (dsHA w)).toNat
      let y := (c.reg (dsHB w)).toNat
      let taken := dsCI w = 0 ∨ dsCI w = 1 ∧ x = y ∨ dsCI w = 2 ∧ x ≠ y ∨ dsCI w = 3 ∧ x < y ∨ dsCI w = 4 ∧ y ≤ x
      (dsCI w ≤ 4 → taken → ∃ t, exec (.dspBr q) s = .next t ∧ hallWrote s t q c (dsTarget c.pc w) 0 0 ∧ sameMemory s t) ∧
      (dsCI w ≤ 4 → ¬ taken → ∃ t, exec (.dspBr q) s = .next t ∧ hallWrote s t q c (insAfter c) 0 0 ∧ sameMemory s t) ∧
      (4 < dsCI w → ∃ t, exec (.dspBr q) s = .next t ∧ hallEnded s t q c 12 c.pc)) ∧
    (hallReady s q 0x0D w c → dsOnly w [fldCI, (20, 1), fldOFF] = true →
      let h := s.handle (s.queue q.val).part (dsCI w)
      let g := if w.testBit 20 then h.addr else dsTarget c.pc w
      (w.testBit 20 = true → h.valid = true) →
      (c.stack.length < 8 → s.rangeAt g = none → ∃ t, exec (.dspCall q) s = .next t ∧
        contextIs s t q { c with pc := g, block := .ready, stack := (insAfter c) :: c.stack } ∧ t.seals = s.seals ∧ sameMemory s t) ∧
      (∀ n, c.stack.length < 8 → s.rangeAt g = some n → (s.seal n).state = 1 → ∃ t, exec (.dspCall q) s = .next t ∧
        contextIs s t q { c with pc := g, block := .ready, stack := (insAfter c) :: c.stack, pins := c.pins ++ [n] } ∧
        t.seal n = { s.seal n with pins := (s.seal n).pins + 1 } ∧ (∀ m, m ≠ n → t.seal m = s.seal m) ∧ sameMemory s t) ∧
      (8 ≤ c.stack.length → ∃ t, exec (.dspCall q) s = .next t ∧ hallEnded s t q c 12 c.pc)) ∧
    (hallReady s q 0x0E w c → dsOnly w [] = true →
      (∀ a r, c.stack = a :: r → ∃ t, exec (.dspRet q) s = .next t ∧
        contextIs s t q { c with pc := a, block := .ready, stack := r } ∧ sameMemory s t) ∧
      (c.stack = [] → ∃ t, exec (.dspRet q) s = .next t ∧ hallEnded s t q c 12 c.pc)) ∧
    (hallReady s q 0x07 w c → dsOnly w [] = true →
      ((∀ id l, id ∈ c.launches → s.launch id = some l → l.stage = .ended) →
        ∃ t, exec (.dspSync q) s = .next t ∧ hallWrote s t q c (insAfter c) 0 0 ∧ sameMemory s t) ∧
      (∀ id l, id ∈ c.launches → s.launch id = some l → l.stage ≠ .ended → ∃ t, exec (.dspSync q) s = .next t ∧
        hallBlocked s t q c (.ends c.launches))) ∧
    (hallReady s q 0x10 w c → dsOnly w [fldCI, fldHD] = true →
      (∀ l, s.latestLaunch c.launches (dsCI w) = some l → l.stage = .ended → ∃ t, exec (.dspStat q) s = .next t ∧
        hallWrote s t q c (insAfter c) (dsHD w) l.status ∧ sameMemory s t) ∧
      (∀ l, s.latestLaunch c.launches (dsCI w) = some l → l.stage ≠ .ended → ∃ t, exec (.dspStat q) s = .next t ∧
        hallBlocked s t q c (.ends [l.id])) ∧
      (s.latestLaunch c.launches (dsCI w) = none → ∃ t, exec (.dspStat q) s = .next t ∧ hallEnded s t q c 12 c.pc))

/-- An MSI-X interrupt of partition p to vector v is sent at once: its function has MSI-X enabled, no mask is set, no interval runs and
no reset-done is held (R380, R382, R388). -/
def interruptSends (s : State) (p v : Nat) : Prop :=
  (s.part p).reset.resetting = false ∧ (s.part p).reset.holdDone = false ∧ (s.part p).moderation = [] ∧ (s.part p).fn.msixEn = true ∧
    (s.part p).fn.fmask = false ∧ Table.get false (s.part p).fn.unmasked v = true

/-- The message of a vector: the data of its MSI-X entry at the entry's address. -/
def messageOf (s : State) (p v : Nat) : Out :=
  .msi p v (Table.get 0 (s.part p).fn.msixAddr v).toNat (Table.get 0 (s.part p).fn.msixData v)

/-- Waits, signals and interrupts of the hall (R351 to R354, R360): DSP.WAIT blocks the context on a hall counter of its partition
or on a square counter, and the block ends when the counter meets the condition, and not before; DSP.SIGNAL adds its value to a
hall counter of the partition or to the 8 bytes at hA, once no access of the hall to another place is unanswered (R308, R312);
DSP.IRQ sends the queue's interrupt; with F0 = 1 both wait for the launches of the entry. -/
def Obligations.HallWaitsAndSignals : Prop :=
  ∀ (s : State) (q : QueueId) (w : Nat) (c : Ctx),
    let p := (s.queue q.val).part
    let v : Reg64 := if w.testBit 22 then c.reg (dsHB w) else BitVec.ofNat 64 (w / 2 ^ 64)
    (hallReady s q 0x05 w c → dsOnly w [fldHA, fldHB, fldCI, (20, 3), fldIMM] = true →
      (w.testBit 20 = false → ∃ t, exec (.dspWait q) s = .next t ∧ sameMemory s t ∧
        contextIs s t q { c with pc := (insAfter c), block := .wait true (256 * p + dsCI w) (w.testBit 21) v }) ∧
      (∀ n bs, w.testBit 20 = true → (c.reg (dsHA w)).toNat % 8 = 0 → s.squareCounterAt (c.reg (dsHA w)).toNat = some n →
        s.regRead unitHall p ((c.reg (dsHA w)).toNat % 2 ^ 44) 8 = .ok bs → s.squareOwnedBy (n / 64) p = true →
        ∃ t, exec (.dspWait q) s = .next t ∧ sameMemory s t ∧
          contextIs s t q { c with pc := (insAfter c), block := .wait false n (w.testBit 21) v })) ∧
    (∀ hall n eq v, (s.queue q.val).ctx = some c → c.block = .wait hall n eq v → s.hallFree q.val = true →
      let x := if hall then s.hallCounter n else Table.get 0 s.sqCtr n
      (if eq then x = v else v.toNat ≤ x.toNat) →
      ∃ t, exec (.dspWaitMet q) s = .next t ∧ contextIs s t q { c with block := .ready } ∧ sameMemory s t) ∧
    (∀ hall n eq v, (s.queue q.val).ctx = some c → c.block = .wait hall n eq v →
      let x := if hall then s.hallCounter n else Table.get 0 s.sqCtr n
      ¬ (if eq then x = v else v.toNat ≤ x.toNat) → exec (.dspWaitMet q) s = .next s) ∧
    (hallReady s q 0x06 w c → dsOnly w [fldHA, fldHB, fldCI, (20, 3), fldIMM] = true →
      (w.testBit 20 = true → s.launchesEnded c.launches = false → ∃ t, exec (.dspSignal q) s = .next t ∧
        hallBlocked s t q c (.ends c.launches)) ∧
      ((w.testBit 20 = true → s.launchesEnded c.launches = true ∧ (s.part p).fn.hsize = 0) → s.hallAwaits = true →
        ∃ t, exec (.dspSignal q) s = .next t ∧ hallBlocked s t q c .release) ∧
      ((w.testBit 20 = true → s.launchesEnded c.launches = true ∧ (s.part p).fn.hsize = 0) → s.hallAwaits = false →
      (w.testBit 21 = true → ∃ t, exec (.dspSignal q) s = .next t ∧ hallWrote s t q c (insAfter c) 0 0 ∧ sameMemory s t ∧
        ∀ k, t.hallCounter k = if k = 256 * p + dsCI w then s.hallCounter k + v else s.hallCounter k) ∧
      (w.testBit 21 = false →
        let a := (c.reg (dsHA w)).toNat
        a % 8 = 0 → a < 2 ^ 56 → s.isLocal a = true → placeOf s.isM (a % 2 ^ 44) ≠ .reg → placeOf s.isM (a % 2 ^ 44) ≠ .host →
        s.checkAcc ⟨unitHall, p, a % 2 ^ 44, 8, .atom 0 8, false⟩ = 0 → s.parityOf (a % 2 ^ 44) 8 = 0 →
        ∃ t, exec (.dspSignal q) s = .next t ∧ hallWrote s t q c (insAfter c) 0 0 ∧
          ofBytes (t.bytes (a % 2 ^ 44) 8) = (ofBytes (s.bytes (a % 2 ^ 44) 8) + v.toNat) % 2 ^ 64 ∧
          sameMemoryBut s t (a % 2 ^ 44) 8 ∧ t.hallCtr = s.hallCtr))) ∧
    (hallReady s q 0x11 w c → dsOnly w [(20, 1)] = true →
      (w.testBit 20 = true → s.launchesEnded c.launches = false → ∃ t, exec (.dspIrq q) s = .next t ∧
        hallBlocked s t q c (.ends c.launches)) ∧
      ((w.testBit 20 = true → s.launchesEnded c.launches = true ∧ (s.part p).fn.hsize = 0) →
      (s.queue q.val).itype = 0 → interruptSends s p (s.queue q.val).vec →
      ∃ t, exec (.dspIrq q) s = .next t ∧ hallWrote s t q c (insAfter c) 0 0 ∧ sameMemory s t ∧
        t.out = messageOf s p (s.queue q.val).vec :: s.out))

/-- The instructions that launch, with their opcodes and what they launch (R339). -/
def launchForms (q : QueueId) : List (Instr × Nat × LaunchKind) :=
  [(.dspLaunch q, 0x01, .kernel), (.dspAttn q, 0x02, .attention), (.dspPlook q, 0x03, .lookup)]

/-- Launches, buckets, seals and handles (R340, R341, R344, R350, R361 to R366): a launch instruction issues the next launch with
the fields of its word, blocks its context unless it is asynchronous, and one that fails its own checks ends at once with its
cause; DSP.BUCKET takes the first bucket that is long enough, or branches; DSP.SEAL seals a free range number over the pages,
DSP.PUBLISH names a sealed range by a handle with the next version, DSP.RETIRE retires a range that no handle names, and a
retiring range is freed once no entry pins it. -/
def Obligations.HallLaunchesAndSeals : Prop :=
  (∀ (s : State) (q : QueueId) (w : Nat) (c : Ctx) (i : Instr) (op : Nat) (kind : LaunchKind), (i, op, kind) ∈ launchForms q →
    hallReady s q op w c →
    let l := s.launchOf q.val kind w c
    let issued := fun (t : State) (m : Launch) => t.launches = s.launches ++ [m] ∧ t.nextLaunch = s.nextLaunch + 1 ∧ sameMemory s t ∧
      (t.queue q.val).ctx = some { c with
        pc := (insAfter c), launches := c.launches ++ [s.nextLaunch], block := if w.testBit 37 then .ready else .launch s.nextLaunch }
    (launchIllegal (kind == .kernel) c w = false → l.daddr % 64 = 0 → ∃ t, exec i s = .next t ∧ issued t l ∧ t.elog = s.elog) ∧
    (launchIllegal (kind == .kernel) c w = true → ∃ t, exec i s = .next t ∧
      issued t { l with stage := .running, status := 12 } ∧
      ∃ e : ErrRecord, t.elog.transit = s.elog.transit ++ [e] ∧ e.code = 12 ∧ e.addr = s.recordAddr c.pc) ∧
    (launchIllegal (kind == .kernel) c w = false → l.daddr % 64 ≠ 0 → ∃ t, exec i s = .next t ∧
      issued t { l with stage := .running, status := 4 } ∧
      ∃ e : ErrRecord, t.elog.transit = s.elog.transit ++ [e] ∧ e.code = 4 ∧ e.addr = s.recordAddr l.daddr)) ∧
  (∀ (s : State) (q : QueueId) (w : Nat) (c : Ctx) (hb bs : List Byte), hallReady s q 0x04 w c →
    dsOnly w [fldHA, fldHD, fldOFF, fldIMM] = true → 1 ≤ dsHD w → dsHD w ≤ 14 →
    let a := w / 2 ^ 64
    let n := ofBytes (hb.take 4)
    let want := (c.reg (dsHA w)).toNat
    let len := fun j => ofBytes (slice bs (16 * j) 8)
    a % 8 = 0 → a + 16 < 2 ^ 56 → readsAs s unitHall (s.queue q.val).part a 16 true hb → 1 ≤ n → n ≤ 32 →
    readsAs s unitHall (s.queue q.val).part (a + 16) (16 * n) true bs →
    (∀ j, j < n → want ≤ len j → (∀ i, i < j → len i < want) → ∃ t c', exec (.dspBucket q) s = .next t ∧ sameMemory s t ∧
      contextIs s t q c' ∧ c' = { c with pc := (insAfter c), regs := c'.regs } ∧
      ∀ k, c'.reg k = if k = dsHD w then BitVec.ofNat 64 (ofBytes (slice bs (16 * j + 8) 8))
        else if k = dsHD w + 1 then BitVec.ofNat 64 (len j) else c.reg k) ∧
    ((∀ i, i < n → len i < want) → ∃ t, exec (.dspBucket q) s = .next t ∧ hallWrote s t q c (dsTarget c.pc w) 0 0 ∧ sameMemory s t)) ∧
  (∀ (s : State) (q : QueueId) (w : Nat) (c : Ctx), hallReady s q 0x12 w c → dsOnly w [fldHA, fldHB, fldHD] = true →
    let p := (s.queue q.val).part
    let a := (c.reg (dsHA w)).toNat
    let n := (c.reg (dsHB w)).toNat
    a % 4096 = 0 → 0 < n → n < 2 ^ 20 → a < 2 ^ 56 → s.isLocal a = true → s.pagesOwned p (a % 2 ^ 44) n = true →
    s.anySealed (a % 2 ^ 44) (4096 * n) = false → (∃ i, i < 1024 ∧ (s.seal i).state = 0) →
    ∃ t i, exec (.dspSeal q) s = .next t ∧ i < 1024 ∧ (s.seal i).state = 0 ∧ t.seal i = ⟨1, p, a % 2 ^ 44, 0, n⟩ ∧
      (∀ m, m ≠ i → t.seal m = s.seal m) ∧ hallWrote s t q c (insAfter c) (dsHD w) (BitVec.ofNat 64 i) ∧ sameMemory s t) ∧
  (∀ (s : State) (q : QueueId) (w n : Nat) (c : Ctx), hallReady s q 0x13 w c → dsOnly w [fldHA, fldCI] = true →
    let p := (s.queue q.val).part
    let a := (c.reg (dsHA w)).toNat
    a % 16 = 0 → a < 2 ^ 56 → s.rangeAt a = some n → (s.seal n).state = 1 → (s.seal n).part = p →
    ∃ t, exec (.dspPublish q) s = .next t ∧ hallWrote s t q c (insAfter c) 0 0 ∧ t.seals = s.seals ∧ sameMemory s t ∧
      t.handle p (dsCI w) = ⟨true, a, n, ((s.handle p (dsCI w)).ver + 1) % 2 ^ 32⟩ ∧
      ∀ p' h, h < 256 → (p', h) ≠ (p, dsCI w) → t.handle p' h = s.handle p' h) ∧
  (∀ (s : State) (q : QueueId) (w : Nat) (c : Ctx), hallReady s q 0x14 w c → dsOnly w [fldHA] = true →
    let n := (c.reg (dsHA w)).toNat
    (n < 1024 → (s.seal n).state = 1 → (s.seal n).part = (s.queue q.val).part → s.rangeNamed (s.queue q.val).part n = false →
      ∃ t, exec (.dspRetire q) s = .next t ∧ hallWrote s t q c (insAfter c) 0 0 ∧ t.seal n = { s.seal n with state := 2 } ∧
        (∀ m, m ≠ n → t.seal m = s.seal m) ∧ sameMemory s t) ∧
    (s.rangeNamed (s.queue q.val).part n = true → ∃ t, exec (.dspRetire q) s = .next t ∧ hallEnded s t q c 2 c.pc)) ∧
  (∀ (s : State) (r : Fin 1024), (s.seal r.val).state = 2 →
    ((s.seal r.val).pins = 0 → ∃ t, exec (.sealRangeFree r) s = .next t ∧ t = { s with seals := t.seals } ∧
      t.seal r.val = {} ∧ ∀ m, m ≠ r.val → t.seal m = s.seal m) ∧
    ((s.seal r.val).pins ≠ 0 → exec (.sealRangeFree r) s = .next s))

/-- The queue of a completed entry (R357, R330): its sequence number is the entry's, it has no context, and it is READY when EN was
cleared meanwhile; the completion word holds the entry's number, the status area its four words, and every other byte is as
before; the entry's launches are gone, but those of a queue that is being destroyed stay until its squares leave their lists (R367). -/
def entryCompleted (s t : State) (q : QueueId) (c : Ctx) : Prop :=
  let x := s.queue q.val
  let word := entryStatus c (s.statusWords c.launches)
  let area := if c.fetched = true ∧ c.statAddr ≠ 0 ∧ c.statAddr % 8 = 0 then [(c.statAddr % 2 ^ 44,
    toBytes 8 word ++ toBytes 8 c.endAddr ++ toBytes 8 s.time ++ toBytes 8 0)] else []
  let ws := (x.cpl % 2 ^ 44, toBytes 8 c.entry) :: area
  t.queue q.val = { x with seq := c.entry, ctx := none, state := if x.state = 2 ∧ x.en = false then 1 else x.state } ∧
    (∀ p, p ≠ q.val → t.queue p = s.queue p) ∧ (∀ b, b ∈ ws → t.bytes b.1 b.2.length = b.2) ∧
    (∀ a, (∀ b, b ∈ ws → a < b.1 ∨ b.1 + b.2.length ≤ a) → t.byte a = s.byte a) ∧
    (∀ l, l ∈ t.launches ↔ l ∈ s.launches ∧ (x.state = 3 ∨ l.id ∉ c.launches))

/-- An entry whose end the hall may complete: nothing stops it, none of R357 has been done, its launches have ended, no access of the
hall to another place is unanswered (R312), its areas can be written and lie apart, and its queue sends no interrupt for it. -/
def entryMayComplete (s : State) (q : QueueId) (c : Ctx) : Prop :=
  let x := s.queue q.val
  s.stop.stopped = false ∧ s.replyHeld (.hall q.val) = false ∧ s.hallAwaits = false ∧ c.doneStep = 0 ∧ s.launchesEnded c.launches = true ∧ (s.part x.part).fn.hsize = 0 ∧
    writable s unitHall x.part x.cpl 8 true ∧ (x.irq = false ∨ c.noInt = true) ∧
    (c.fetched = true → c.statAddr ≠ 0 → c.statAddr % 8 = 0 → writable s unitHall x.part c.statAddr 32 true ∧
      (x.cpl % 2 ^ 44 + 8 ≤ c.statAddr % 2 ^ 44 ∨ c.statAddr % 2 ^ 44 + 32 ≤ x.cpl % 2 ^ 44))

/-- The life of a queue and its entries (R330 to R335, R357 to R359, R367): a write of BOUND binds a free queue; the doorbell moves
TAIL forward by at most the ring's size, and a write that lowers it, or one to a queue that is not RUNNING, is refused; EN = 1 runs
a valid READY queue; the hall fetches the entry at HEAD into a new context, and one that fails its checks ends at once; DSP.DONE,
or another end of the entry, completes it; DESTROY on a READY queue sets DDONE, and on a RUNNING queue closes it, and once its work
is gone the queue is READY with its head and number at its tail. A doorbell that would overfill the ring is refused with QUEUE_OVERFLOW;
DESTROY on a READY queue raises its interrupt as well. The 0 that the status of an entry that failed its checks names in place of an
instruction is the model's choice (LOG 56). -/
def Obligations.QueuesRunEntries : Prop :=
  (∀ (s : State) (q : QueueId) (w : RegWrite), writeAllowed s (0x1000000 + 0x1000 * q.val) w (.queue q.val 0) →
    (s.queue q.val).state < 2 → (s.queue q.val).bound = false → w.val.toNat.testBit 8 = true →
    ∃ t, exec (.queueBind q w) s = .next t ∧ answered s t w ∧ t = { s with queues := t.queues, out := t.out, ctr := t.ctr } ∧
      t.queue q.val = { s.queue q.val with bound := true, part := bits w.val.toNat 0 4, state := 1, head := 0, tail := 0, seq := 0 } ∧
      ∀ p, p ≠ q.val → t.queue p = s.queue p) ∧
  (∀ (s : State) (q : QueueId) (w : RegWrite), writeAllowed s (0x1000000 + 0x1000 * q.val + 0x18) w (.queue q.val 0x18) →
    let x := s.queue q.val
    (x.state = 2 → x.tail ≤ w.val.toNat → w.val.toNat - x.head ≤ 2 ^ x.log2n → ∃ t, exec (.doorbell q w) s = .next t ∧
      answered s t w ∧ t = { s with queues := t.queues, out := t.out, ctr := t.ctr } ∧ t.queue q.val = { x with tail := w.val.toNat } ∧
      ∀ p, p ≠ q.val → t.queue p = s.queue p) ∧
    (∀ code, (code = 2 ∧ (x.state ≠ 2 ∨ w.val.toNat < x.tail)) ∨
        (code = 6 ∧ x.state = 2 ∧ x.tail ≤ w.val.toNat ∧ 2 ^ x.log2n < w.val.toNat - x.head) →
      ∃ t, exec (.doorbell q w) s = .next t ∧ t = { s with elog := t.elog } ∧
      ∃ e : ErrRecord, t.elog.transit = s.elog.transit ++ [e] ∧ e.code = code ∧ e.unit = w.unit ∧
        e.reply = .out (.resp w.unit code []))) ∧
  (∀ (s : State) (q : QueueId) (w : RegWrite), writeAllowed s (0x1000000 + 0x1000 * q.val + 0x38) w (.queue q.val 0x38) →
    let x := s.queue q.val
    let y := { x with
      hart := bits w.val.toNat 15 6, vec := bits w.val.toNat 4 11, itype := bits w.val.toNat 3 1, irq := w.val.toNat.testBit 2
      ddone := x.ddone && !w.val.toNat.testBit 26 }
    (w.val.toNat.testBit 1 = false → w.val.toNat.testBit 0 = true → x.state = 1 → s.queueValid x = true → s.power.state = 0 →
      ∃ t, exec (.queueEnable q w) s = .next t ∧ answered s t w ∧ t.queue q.val = { y with state := 2, en := true } ∧
        (∀ p, p ≠ q.val → t.queue p = s.queue p) ∧ sameMemory s t) ∧
    (w.val.toNat.testBit 1 = true → w.val.toNat.testBit 0 = false → s.stop.stopped = false → x.state = 2 →
      ∃ t, exec (.destroy q w) s = .next t ∧ answered s t w ∧
        t.queue q.val = { y with state := 3, en := false, ctx := x.ctx.map cutOff } ∧
        (∀ p, p ≠ q.val → t.queue p = s.queue p) ∧
        (∀ id l, s.launch id = some l → l.queue = q.val → l.stage ≠ .ended → ∃ m, t.launch id = some m ∧
          ((l.stage = .issued ∨ ∃ u, u ∈ l.set ∧ ∀ r, r ∈ l.reports → r.sq ≠ u) → m.aborted = true)) ∧ sameMemory s t) ∧
    (w.val.toNat.testBit 1 = true → w.val.toNat.testBit 0 = false → s.stop.stopped = false → x.state = 1 →
      ∃ t, exec (.destroy q w) s = .next t ∧ t.queue q.val = { y with ddone := true, en := false } ∧
        (∀ p, p ≠ q.val → t.queue p = s.queue p) ∧ t.launches = s.launches ∧ sameMemory s t ∧ (y.itype = 0 → answered s t w) ∧
        (y.itype = 0 → interruptSends s x.part y.vec → t.out = .resp w.unit 0 [] :: messageOf s x.part y.vec :: s.out))) ∧
  (∀ (s : State) (q : QueueId) (bs : List Byte), let x := s.queue q.val
    let v := ofBytes bs
    s.hasTurn q.val = true → x.ctx = none →
    readsAs s unitHall x.part (x.slot x.head) 64 true bs →
    (s.entryCode x.part v = 0 → s.rangeAt (s.entryCtx x.part (x.head + 1) v).pc = none →
      ∃ t c, exec (.entryFetch q) s = .next t ∧ t.queue q.val = { x with head := x.head + 1, ctx := some c } ∧
        c.entry = x.head + 1 ∧ c.pc = (if v.testBit 72 then (s.handle x.part (bits v 64 8)).addr else bits v 0 56) ∧
        c.statAddr = bits v 128 56 ∧ c.noInt = v.testBit 73 ∧ c.block = .ready ∧ c.stack = [] ∧ c.launches = [] ∧ c.pins = [] ∧
        (∀ k, c.reg k = if 1 ≤ k ∧ k ≤ 5 then BitVec.ofNat 64 (bits v (128 + 64 * k) 64)
          else if k = 15 then BitVec.ofNat 64 (x.head + 1) else 0) ∧ t.elog = s.elog ∧ sameMemory s t) ∧
    (s.entryCode x.part v ≠ 0 → ∃ t c, exec (.entryFetch q) s = .next t ∧ (t.queue q.val).ctx = some c ∧ c.block = .ended ∧
      c.endCode = s.entryCode x.part v ∧ c.endSrc = 2 ∧ c.endAddr = 0 ∧
      ∃ e : ErrRecord, t.elog.transit = s.elog.transit ++ [e] ∧ e.code = s.entryCode x.part v ∧ e.addr = s.recordAddr (x.slot x.head))) ∧
  (∀ (s : State) (q : QueueId) (c : Ctx), (s.queue q.val).ctx = some c → c.block = .ended → c.endSrc ≠ 3 → entryMayComplete s q c →
    ∃ t, exec (.entryEnd q) s = .next t ∧ entryCompleted s t q c) ∧
  (∀ (s : State) (q : QueueId) (w : Nat) (c : Ctx), hallReady s q 0x0F w c → dsOnly w [] = true →
    let d := { c with pc := (insAfter c), block := .ended, endCode := 0, endSrc := 0, endStx := 0, endAddr := 0 }
    entryMayComplete s q d → ∃ t, exec (.dspDone q) s = .next t ∧ entryCompleted s t q d) ∧
  (∀ (s : State) (q : QueueId), let x := s.queue q.val
    x.state = 3 → x.ctx = none → x.dstep = 0 → x.dwork = none → s.launchesOfQueue q.val = [] → s.hallAwaits = false →
    s.stop.stopped = false → x.tail ≤ x.head → x.cpl ≠ 0 → writable s unitHall x.part x.cpl 8 true →
    ∃ t, exec (.destroyComplete q) s = .next t ∧ t.queue q.val = { x with seq := x.tail, head := x.tail, state := 1, ddone := true, en := false } ∧
      t.bytes (x.cpl % 2 ^ 44) 8 = toBytes 8 x.tail ∧ sameMemoryBut s t (x.cpl % 2 ^ 44) 8)
/-! Extents, quarters, squares and cores changing hands; partition resets and interrupts (10, 13). -/

/-- The fields that byte `i` of a full write of an 8-entry register gives its entry (R274, R372). -/
def entryFields (w : RegWrite) (i : Nat) : Bool × Nat := (w.val.toNat.testBit (8 * i + 7), bits w.val.toNat (8 * i) 4)

/-- No access of a quarter awaits its second parity attempt. -/
def retriesElsewhere (s : State) (q : Nat) : Prop := ∀ r, r ∈ s.retries → sourceInQuarter r.src q = false

/-- Extents and quarters (R273 to R276, R294 to R299, R458): a write that changes an extent's fields scrubs it, so that it reads zero
and refuses accesses until the scrub completes, and no other extent and no byte outside it changes; a fence cause takes a live
quarter out of service and its squares hold nothing, FENCE and RESTORE together do nothing, the fence completes with its cause and
one record, a restore of a fenced quarter clears its cisterns and its well, puts it back into service and lets its cores start with
cause 4 (R479), and a failed self-test leaves it fenced with RFAIL. A fence changes no byte of memory, unless an access of the quarter
awaits its second parity attempt, which it ends (R295). The bridge timeout does not advance in a global stop (R516). -/
def Obligations.ExtentsScrubAndQuartersFence : Prop :=
  (∀ (s : State) (n : Fin 1280) (w : RegWrite), writeAllowed s (0x5A00000 + 8 * n.val) w (.xtent n.val) →
    let changed := fun m => 8 * n.val ≤ m ∧ m < 8 * n.val + 8 ∧ s.extentExists m = true ∧
      (((s.extent m).valid, (s.extent m).owner) ≠ entryFields w (m - 8 * n.val))
    ∃ t, exec (.ptnXtentWrite n w) s = .next t ∧ answered s t w ∧
      (∀ m, changed m → t.extent m = ⟨(entryFields w (m - 8 * n.val)).1, true, (entryFields w (m - 8 * n.val)).2⟩ ∧
        ∀ a, extentBase m ≤ a → a < extentBase m + 2 ^ 28 → t.byte a = 0) ∧
      (∀ m, ¬ changed m → t.extent m = s.extent m) ∧
      ∀ a, (∀ m, changed m → a < extentBase m ∨ extentBase m + 2 ^ 28 ≤ a) → t.byte a = s.byte a) ∧
  (∀ (s : State) (m : Fin 10240), (s.extent m.val).scrub = true → ∃ t, exec (.scrubComplete m) s = .next t ∧
    t = { s with extents := t.extents } ∧ t.extent m.val = { s.extent m.val with scrub := false } ∧
    ∀ k, k ≠ m.val → t.extent k = s.extent k) ∧
  (∀ (s : State) (w : RegWrite) (i : Instr), writeAllowed s 0x5A02800 w .fenceCtl → i = .fence w ∨ i = .restore w →
    ∃ t, exec i s = .next t ∧ t.out.head? = some (.resp w.unit 0 []) ∧ (s.retries = [] → sameMemory s t) ∧ ∀ q, q < 8 →
      let v := w.val.toNat
      (v.testBit q = true → v.testBit (8 + q) = false → (s.fence q).fenced = false → (s.fence q).busy = false →
        t.fence q = { s.fence q with fenced := true, busy := true, restoring := false, pendCause := 1 } ∧
        (∀ u, u < 16 → t.sq (16 * q + u) = {}) ∧ retriesElsewhere t q) ∧
      (v.testBit q = false → v.testBit (8 + q) = true → (s.fence q).fenced = true → (s.fence q).busy = false →
        t.fence q = { s.fence q with busy := true, restoring := true }) ∧
      (v.testBit q = v.testBit (8 + q) → t.fence q = s.fence q)) ∧
  (∀ (s : State) (q : QuarterId), (s.fence q.val).fenced = false → (s.fence q.val).busy = false →
    (s.stop.stopped = true → exec (.bridgeTimeout q) s = .next s) ∧
    (s.stop.stopped = false → ∃ t, exec (.bridgeTimeout q) s = .next t ∧ (retriesElsewhere s q.val → sameMemory s t) ∧ (∀ u, u < 16 → t.sq (16 * q.val + u) = {}) ∧
      t.fence q.val = { s.fence q.val with fenced := true, busy := true, restoring := false, pendCause := 3 } ∧
      ∀ k, k ≠ q.val → t.fence k = s.fence k) ∧
    (∃ t, exec (.phaseFault q) s = .next t ∧ (retriesElsewhere s q.val → sameMemory s t) ∧ (∀ u, u < 16 → t.sq (16 * q.val + u) = {}) ∧
      t.fence q.val = { s.fence q.val with fenced := true, busy := true, restoring := false, pendCause := 2 } ∧
      (Table.get {} t.power.dies q.val).phflt = true ∧ ∀ k, k ≠ q.val → t.fence k = s.fence k)) ∧
  (∀ (s : State) (q : QuarterId), (s.fence q.val).fenced = true → (s.fence q.val).busy = true → (s.fence q.val).restoring = false →
    ∃ t, exec (.fenceComplete q) s = .next t ∧ sameMemory s t ∧ t.squares = s.squares ∧
      t.fence q.val = { s.fence q.val with busy := false, cause := (s.fence q.val).pendCause } ∧
      (Table.get {} t.power.dies q.val).off = true ∧
      ∃ e, e ∈ t.elog.transit ∧ e.code = 11 ∧ e.unit = 0xB0 + q.val ∧ e.part = 0 ∧ e.stamp = s.time ∧
        e.addr = 0xFFF * 2 ^ 44 + 0x1000000000 * q.val) ∧
  (∀ (s : State) (q : QuarterId), (s.fence q.val).busy = true → (s.fence q.val).restoring = true →
    (s.causePresent q.val = false → ∃ t, exec (.restoreDone q true) s = .next t ∧
      t.fence q.val = { s.fence q.val with fenced := false, busy := false, restoring := false, cause := 0, pendCause := 0 } ∧
      (∀ u, u < 16 → t.sq (16 * q.val + u) = {} ∧ (t.owner (16 * q.val + u)).busy = false ∧
        (t.owner (16 * q.val + u)).eff = (if (s.owner (16 * q.val + u)).valid then (s.owner (16 * q.val + u)).owner + 1 else 0)) ∧
      (∀ h, h < 6 → (t.hart (6 * q.val + h)).startCause = some 4) ∧
      (∀ a, a / 2 ^ 36 = q.val → t.byte a = 0) ∧ (∀ u o, u < 16 → o < 2 ^ 24 → t.byte (cisternAddr (16 * q.val + u) o) = 0) ∧
      ∀ a, a / 2 ^ 36 ≠ q.val → (a < cisternAddr (16 * q.val) 0 ∨ cisternAddr (16 * q.val + 16) 0 ≤ a) → t.byte a = s.byte a) ∧
    (∀ b, s.causePresent q.val = true ∨ b = false → ∃ t, exec (.restoreDone q b) s = .next t ∧ sameMemory s t ∧
      t.fence q.val = { s.fence q.val with busy := false, restoring := false, rfail := true }))

/-- Squares and cores change hands (R134, R177, R203, R282, R286, R372 to R375, R479): a write that changes an entry of PTN_SQOWN
starts the handover of a square that has none running, one already running only takes note of the fields, and equal fields do
nothing; a handover that may run leaves a clean square with its new owner and zeroes its cistern and no other byte; a halted core
takes VALID and PART and starts with its core number and start cause, and a core told to halt is HALTED once its accesses are
done. A change of a square of a partition whose reset has not come to step 3 starts no handover (R390). The fountain of a square is
saved to the outgoing partition's area, where it is enabled, and taken from a valid record in the incoming one's (R202). -/
def Obligations.SquaresAndCoresChangeHands : Prop :=
  (∀ (s : State) (n : Fin 16) (w : RegWrite), writeAllowed s (0x2000000 + 8 * n.val) w (.sqown n.val) →
    ∃ t, exec (.handover n w) s = .next t ∧ answered s t w ∧ t = { s with sqOwn := t.sqOwn, out := t.out, ctr := t.ctr } ∧
      (∀ u, u < 8 * n.val ∨ 8 * n.val + 8 ≤ u → t.owner u = s.owner u) ∧ ∀ i, i < 8 →
      let u := 8 * n.val + i
      let o := s.owner u
      let f := entryFields w i
      ((o.valid, o.owner) = f → t.owner u = o) ∧
      ((o.valid, o.owner) ≠ f → (s.fence (u / 16)).fenced = false → o.busy = false → s.beforeStep3 u = false →
        t.owner u = { o with valid := f.1, busy := true, owner := f.2, moveTo := if f.1 then f.2 + 1 else 0, moved := f }) ∧
      ((o.valid, o.owner) ≠ f → ((s.fence (u / 16)).fenced = true ∨ o.busy = true ∨ s.beforeStep3 u = true) →
        t.owner u = { o with valid := f.1, owner := f.2 })) ∧
  (∀ (s : State) (u : SquareId), s.handoverReady u.val = true →
    let o := s.owner u.val
    (o.eff ≠ 0 → (s.part (o.eff - 1)).ctxEn = false) → (o.moveTo ≠ 0 → (s.part (o.moveTo - 1)).ctxEn = false) →
    ∃ t, exec (.handoverClean u) s = .next t ∧ (t.owner u.val).eff = o.moveTo ∧
      ((t.owner u.val).busy = true ↔ (o.valid, o.owner) ≠ o.moved) ∧
      (∀ c, c < 64 → t.squareCounter u.val c = 0) ∧ (t.sq u.val).near = [] ∧ (t.sq u.val).pump.bank0 = {} ∧
      (t.sq u.val).pump.bank1 = {} ∧ (t.sq u.val).ftn.seed = 0 ∧ (t.sq u.val).ftn.lanes = [] ∧
      (∀ b, b < 2 ^ 24 → t.byte (cisternAddr u.val b) = 0) ∧ sameMemoryBut s t (cisternAddr u.val 0) (2 ^ 24) ∧
      (∀ v, v ≠ u.val → t.sq v = s.sq v ∧ t.owner v = s.owner v)) ∧
  (∀ (s : State) (u : SquareId) (p : Nat), s.handoverReady u.val = true → (s.part p).ctxEn = true →
    let o := s.owner u.val
    let x := contextAcc (s.part p) p u.val .write
    let f := (s.sq u.val).ftn.restartBad
    o.eff = p + 1 → o.cleaned = false → (o.moveTo ≠ 0 → (s.part (o.moveTo - 1)).ctxEn = false) →
    inReservoir s.isM x.addr 8224 = true → s.checkAcc x = 0 →
    ∃ t, exec (.handoverClean u) s = .next t ∧ (t.owner u.val).eff = o.moveTo ∧
      t.bytes x.addr 16 = toBytes 16 f.seed.toNat ∧ t.bytes (x.addr + 16) 16 = toBytes 16 (1 + 2 * (f.mode % 2)) ∧
      (∀ l, l < 512 → t.bytes (x.addr + 32 + 16 * l) 16 = toBytes 16 (f.lane l)) ∧
      (∀ a, (a < x.addr ∨ x.addr + 8224 ≤ a) → (a < cisternAddr u.val 0 ∨ cisternAddr u.val 0 + 2 ^ 24 ≤ a) → t.byte a = s.byte a)) ∧
  (∀ (s : State) (u : SquareId) (p : Nat) (bs : List Byte), s.handoverReady u.val = true → (s.part p).ctxEn = true →
    let o := s.owner u.val
    let g := globalOf ((s.part p).ctxBase + 8224 * u.val)
    o.moveTo = p + 1 → (o.eff ≠ 0 → (s.part (o.eff - 1)).ctxEn = false) →
    inReservoir s.isM ((s.part p).ctxBase + 8224 * u.val) 8224 = true → readsAs s u.val p g 8224 true bs →
    ∃ t, exec (.handoverClean u) s = .next t ∧ (t.owner u.val).eff = p + 1 ∧
      (if ofBytes (slice bs 16 1) % 2 = 1 then
        (t.sq u.val).ftn.seed = BitVec.ofNat 128 (ofBytes (bs.take 16)) ∧ (t.sq u.val).ftn.mode = bits (ofBytes (slice bs 16 1)) 1 1 ∧
          ∀ l, l < 512 → (t.sq u.val).ftn.lane l = ofBytes (slice bs (32 + 16 * l) 16)
      else (o.cleaned = false → (t.sq u.val).ftn.seed = 0 ∧ (t.sq u.val).ftn.lanes = []))) ∧
  (∀ (s : State) (c : CoreId) (w : RegWrite), writeAllowed s (0x2000800 + 8 * c.val) w (.hart c.val) → s.power.state = 0 →
    let h := s.hart c.val
    let v := w.val.toNat
    (h.halted = true → v.testBit 8 = true → v.testBit 4 = true → (s.fence (c.val / 6)).fenced = false →
      (s.part (bits v 0 4)).reset.resetting = false →
      ∃ t, exec (.ptnHartWrite c w) s = .next t ∧
        (h.dirty = [] ∨ h.part = bits v 0 4 → answered s t w ∧ t = { s with harts := t.harts, out := t.out, ctr := t.ctr }) ∧
        (∀ k, k ≠ c.val → t.hart k = s.hart k) ∧ (t.hart c.val).halted = false ∧ (t.hart c.val).run = true ∧
        (t.hart c.val).valid = true ∧ (t.hart c.val).part = bits v 0 4 ∧
        (∀ k, h.startCause = some k → (t.hart c.val).a0 = c.val ∧ (t.hart c.val).a1 = k ∧ (t.hart c.val).startCause = none ∧
          (t.hart c.val).pc = s.boot.entry ∧ (t.hart c.val).mode = 3 ∧ (t.hart c.val).satp = 0 ∧ (t.hart c.val).mie = false) ∧
        (h.startCause = none → t.hart c.val = { h with
          halted := false, run := true, valid := true, part := bits v 0 4, dirty := if h.part = bits v 0 4 then h.dirty else [] })) ∧
    (h.halted = false → ∃ t, exec (.ptnHartWrite c w) s = .next t ∧ answered s t w ∧
      t.hart c.val = { h with run := v.testBit 8 && !(h.valid && (s.part h.part).reset.resetting) } ∧
      ∀ k, k ≠ c.val → t.hart k = s.hart k)) ∧
  (∀ (s : State) (c : CoreId), (s.hart c.val).run = false → (s.hart c.val).halted = false →
    (s.coreWaits c.val = false → ∃ t, exec (.coreHalt c) s = .next t ∧ t = { s with harts := t.harts } ∧
      t.hart c.val = { s.hart c.val with halted := true } ∧ ∀ k, k ≠ c.val → t.hart k = s.hart k) ∧
    (s.coreWaits c.val = true → exec (.coreHalt c) s = .next s))

/-- A partition is being reset (R384, R385): what moderation merged before stays owed (R382), and its cores are told to halt. -/
def resetBegun (s t : State) (p : Nat) : Prop :=
  (t.part p).reset.resetting = true ∧ (t.part p).reset.stage = 1 ∧ (t.part p).moderation = (s.part p).moderation ∧
    ∀ c, (s.hart c).valid = true → (s.hart c).part = p → c < 48 → (t.hart c).run = false

/-- Partition resets and interrupts (R380 to R388, R525): each of the three triggers starts the reset of its partitions, which stops
the partition's cores and raises no interrupt; its queues are then destroyed, those at rest with entries that they have not fetched
too; when everything has ended the partition's squares are cleaned and may change hands again (R390), its context records are invalid,
each record that its tree holds has one reference fewer (R265), its tree, hall counters and queues are at their reset values, its
ranges retire (R366), and RESETTING clears with reset-done, which is sent, or held while its vector is masked (R388). A moderation
interval that ends sends the message it merged, and lifting a mask sends the messages that waited. That a handle keeps VER is the
model's choice (LOG 66). -/
def Obligations.PartitionsReset : Prop :=
  (∀ (s : State) (w : RegWrite) (p : PartId), writeAllowed s 0x2000400 w .rstCtl → w.val.toNat.testBit 17 = false →
    w.val.toNat.testBit 16 = false → 1 ≤ p.val → w.val.toNat.testBit p.val = true → s.stop.stopped = false → s.power.state = 0 →
    (s.part p.val).reset.resetting = false →
    ∃ t, exec (.prst w) s = .next t ∧ resetBegun s t p.val ∧ (t.part p.val).reset.byP0 = true ∧
      t.out = .resp w.unit 0 [] :: s.out ∧ sameMemory s t) ∧
  (∀ (s : State) (p : PartId), s.functionPresent p.val = true → p.val ≠ 0 → s.stop.stopped = false → s.power.state = 0 →
    (s.part p.val).reset.resetting = false →
    ∃ t, exec (.functionLevelReset p) s = .next t ∧ resetBegun s t p.val ∧ (t.part p.val).fn.busMaster = false ∧
      (t.part p.val).fn.memSpace = false ∧ (t.part p.val).fn.msixEn = false ∧ t.out = s.out ∧ sameMemory s t) ∧
  (∀ (s : State) (p : PartId) (q : Nat), s.functionPresent p.val = true → p.val = 0 → 1 ≤ q → q < 16 → s.stop.stopped = false → s.power.state = 0 →
    (s.part q).reset.resetting = false →
    ∃ t, exec (.functionLevelReset p) s = .next t ∧ t.vfEnable = false ∧ resetBegun s t q ∧ (t.part 0).reset.byPf = true ∧
      (t.part 0).fn.busMaster = false ∧ t.out = s.out ∧ sameMemory s t) ∧
  (∀ (s : State) (en : Bool) (n p : PartId), s.inService = true → s.vfEnable = true → p.val ≤ s.numVfs → (if en then n.val else 0) < p.val →
    s.stop.stopped = false → s.power.state = 0 → (s.part p.val).reset.resetting = false →
    ∃ t, exec (.vfEnableClear en n) s = .next t ∧ t.vfEnable = en ∧ t.numVfs = n.val ∧ resetBegun s t p.val ∧ t.out = s.out ∧ sameMemory s t) ∧
  (∀ (s : State) (p : PartId), (s.part p.val).reset.resetting = true → (s.part p.val).reset.stage = 1 →
    ∃ t, exec (.partitionReset p) s = .next t ∧ (t.part p.val).reset.stage = 2 ∧ (t.part p.val).reset.resetting = true ∧
      (s.boot.running ≠ some p.val → sameMemory s t) ∧ t.out = s.out ∧
      (∀ q, q < 256 → (s.queue q).bound = true → (s.queue q).part = p.val →
        ((s.queue q).state = 2 ∨ (s.queue q).state = 1 ∧ (s.queue q).head < (s.queue q).tail) → (t.queue q).state = 3) ∧
      (∀ id l, s.launch id = some l → l.part = p.val → l.stage ≠ .ended → ∃ m, t.launch id = some m ∧
        ((l.stage = .issued ∨ ∃ u, u ∈ l.set ∧ ∀ r, r ∈ l.reports → r.sq ≠ u) → m.aborted = true))) ∧
  (∀ (s : State) (p : PartId), s.workDestroyed p.val = true → s.stop.stopped = false → (s.part p.val).ctxEn = false →
    (s.part p.val).ctxBase = 0 → (s.part p.val).pfxLog2n = 0 →
    ∃ t, exec (.partitionResetComplete p) s = .next t ∧ (t.part p.val).pfxBase = 0 ∧ (t.part p.val).pfxLog2n = 0 ∧ (t.part p.val).pfxKey = 0 ∧
      (∀ c, c < 256 → t.hallCounter (256 * p.val + c) = 0) ∧
      (∀ n, t.seal n = if (s.seal n).part = p.val ∧ (s.seal n).state ≠ 0 then { s.seal n with state := 2 } else s.seal n) ∧
      (∀ q, q < 256 → (s.queue q).bound = true → (s.queue q).part = p.val → t.queue q = { bound := true, part := p.val, state := 1 }) ∧
      (∀ h, h < 256 → (t.handle p.val h).valid = false ∧ (t.handle p.val h).ver = (s.handle p.val h).ver) ∧
      (∀ u, u < 128 → s.squareOwnedBy u p.val = true → (s.fence (u / 16)).fenced = false →
        (∀ c, c < 64 → t.squareCounter u c = 0) ∧ (t.sq u).near = [] ∧ ∀ b, b < 2 ^ 24 → t.byte (cisternAddr u b) = 0) ∧
      (∀ u, u < 128 → (s.owner u).eff = p.val + 1 → (s.owner u).busy = false → (s.fence (u / 16)).fenced = false →
        ((s.owner u).valid, (s.owner u).owner) ≠ (true, p.val) → (t.owner u).busy = true) ∧
      ((s.part 0).reset.byPf = false → (t.part p.val).reset.resetting = false ∧ (t.part p.val).reset.done = true ∧
        let f := (s.part p.val).fn
        let v := (s.part p.val).rdVec
        ((s.part p.val).rdItype = 0 →
          if f.msixEn = true ∧ f.fmask = false ∧ Table.get false f.unmasked v = true then t.out = messageOf s p.val v :: s.out
          else (t.part p.val).reset.holdDone = true ∧ t.out = s.out))) ∧
  (∀ (s : State) (p : PartId), let x := s.part p.val
    let record := fun u => x.ctxBase + 8224 * u + 16
    s.workDestroyed p.val = true → s.stop.stopped = false → (x.ctxEn = true ∨ x.ctxBase ≠ 0) → x.pfxLog2n = 0 →
    (∀ u, u < 128 → s.squareOwnedBy u p.val = false) →
    (∀ u, u < 128 → s.checkAcc ⟨unitReset, p.val, record u, 1, .write, true⟩ = 0) →
    ∃ t, exec (.partitionResetComplete p) s = .next t ∧ (∀ u, u < 128 → t.byte (record u) = s.byte (record u) &&& 2) ∧
      ∀ a, (∀ u, u < 128 → a ≠ record u) → t.byte a = s.byte a) ∧
  (∀ (s : State) (p : PartId) (i : Nat), let x := s.part p.val
    let slot := fun k => ofBytes (s.bytes (x.pfxBase + 64 * k) 64)
    let brec := bits (slot i) 128 56
    let word := ofBytes (s.bytes (brec % 2 ^ 44) 8)
    let refs := word % 2 ^ 32 - 1
    s.workDestroyed p.val = true → s.stop.stopped = false → x.ctxEn = false → x.ctxBase = 0 → x.pfxLog2n ≠ 0 → i < 2 ^ x.pfxLog2n →
    (∀ u, u < 128 → s.squareOwnedBy u p.val = false) →
    (∀ k, k < 2 ^ x.pfxLog2n → s.checkAcc ⟨unitReset, p.val, x.pfxBase + 64 * k, 64, .read, true⟩ = 0 ∧
      s.parityOf (x.pfxBase + 64 * k) 64 = 0 ∧ (k ≠ i → bits (slot k) 0 64 < 2 ∨ bits (slot k) 128 56 = 0)) →
    2 ≤ bits (slot i) 0 64 → brec ≠ 0 → s.isLocal brec = true →
    (placeOf s.isM (brec % 2 ^ 44) = .reservoir ∨ ∃ q, placeOf s.isM (brec % 2 ^ 44) = .well q) →
    s.checkAcc ⟨unitReset, p.val, brec % 2 ^ 44, 8, .read, true⟩ = 0 → s.checkAcc ⟨unitReset, p.val, brec % 2 ^ 44, 8, .atom 9 8, false⟩ = 0 →
    s.parityOf (brec % 2 ^ 44) 8 = 0 →
    (brec % 2 ^ 44 + 8 ≤ x.pfxBase ∨ x.pfxBase + 64 * 2 ^ x.pfxLog2n ≤ brec % 2 ^ 44) →
    ∃ t, exec (.partitionResetComplete p) s = .next t ∧ (t.part p.val).pfxLog2n = 0 ∧ sameMemoryBut s t (brec % 2 ^ 44) 8 ∧
      ofBytes (t.bytes (brec % 2 ^ 44) 8) =
        if word.testBit 34 then countWord refs (if refs = 0 then 2 else bits word 32 2) else word) ∧
  (∀ (s : State) (p : PartId) (v : Nat) (e : Moderation), let x := s.part p.val
    x.moderation.find? (fun m => m.target == .msix v) = some e → e.until_ ≤ s.time → x.reset.resetting = false →
    x.reset.holdDone = false →
    (x.fn.msixEn = true → x.fn.fmask = false → Table.get false x.fn.unmasked v = true →
      ∃ t, exec (.interruptModerationExpiry p (.msix v)) s = .next t ∧ sameMemory s t ∧
        t.out = if e.pending then messageOf s p.val v :: s.out else s.out) ∧
    (x.fn.msixEn = false → e.pending = true → exec (.interruptModerationExpiry p (.msix v)) s = .next s)) ∧
  (∀ (s : State) (p : PartId) (v : Fin 2048), let x := s.part p.val
    s.functionPresent p.val = true → s.inService = true → x.fn.msixEn = true → x.fn.fmask = false → x.reset.resetting = false → x.reset.holdDone = false →
    x.fn.pend = [(v.val, true)] → (∀ e, e ∈ x.moderation → e.target ≠ .msix v.val) →
    ∃ t, exec (.msixUnmask p (.vectorUnmask v)) s = .next t ∧ t.out = messageOf s p.val v.val :: s.out ∧ (t.part p.val).fn.pend = [] ∧
      Table.get false (t.part p.val).fn.unmasked v.val = true ∧ sameMemory s t)
/-! Supply, resets of the module, the power controller, Dormant and the time base (13, 15, 16, 17, 19). -/

/-- No erase or programming of the flash is under way, which a reset would cut short (R486; how far it has come is free, LOG 88). -/
def flashQuiet (s : State) : Prop := ∀ p, s.boot.running = some p → (s.part p).mbox.runOp ≠ 1 ∧ (s.part p).mbox.runOp ≠ 2

/-- Every counter keeps its value, but those of the bytes that a quarter sends over a bridge, which the register write itself may move
(R391, R494). -/
def countersKept (s t : State) : Prop :=
  ∀ k, (∀ q b, q < 8 → 6 ≤ b → b < 16 → k ≠ 256 * unitQuarter q + b) → Table.get 0 t.ctr k = Table.get 0 s.ctr k

/-- The module has begun to start anew for a cause (R391, R476): work, memory, tables and keys are gone; the flash, the
anti-rollback counter, the time base and the commands that wait are as before. -/
def startsAnew (s t : State) (cause : Nat) : Prop :=
  t.rstLast = cause ∧ t.boot.phase = 0 ∧ (flashQuiet s → t.boot.flash = s.boot.flash) ∧ t.boot.counter = s.boot.counter ∧
    t.time = s.time ∧ t.pending = s.pending ∧ t.squares = [] ∧ t.queues = [] ∧ t.launches = [] ∧ t.extents = [] ∧ t.fences = [] ∧
    t.links.keys = [] ∧ t.links.pairs = [] ∧ (∀ a, t.byte a = 0) ∧ t.power.energy = s.power.energy

/-- The load range of an image is not refused, as one lost with a quarter is (R478, R558). -/
def loadAllowed (s : State) (load n : Nat) : Prop :=
  (s.assignExtents load n).checkAcc ⟨unitBsc, 0, load, n, .write, true⟩ = 0

/-- HOSTRT's image stands at its load address, unless the load range is refused. -/
def imagePlaced (s t : State) (load : Nat) (image : List Byte) : Prop :=
  loadAllowed s load image.length → placeOf s.isM load ≠ .host → t.bytes load image.length = image

/-- The flash's identity certificate and the helper data can be read, and the certificate is valid for the secret (R467, R468, R473). -/
def identityGood (s : State) : Bool := s.flashGood 0 8192 && s.flashGood 0x4000 8192 && identityOk (s.flash 0 8192) s.secret

/-- A start-up has begun for a cause, and has sampled STRAP_MSTR (R476, R545). -/
def startsFor (s t : State) (cause : Nat) : Prop :=
  t.boot.starting = true ∧ t.boot.startCause = cause ∧ t.boot.elapsed = 0 ∧ t.power.mstrTied = s.power.pinMstr

/-- Resets and start-up (R391 to R394, R472 to R481, R484, R540, R541, R545): COLD, and a REBOOT of Partition 0, start the module anew
and keep the error log and the counters; WARM keeps wells and reservoir and zeroes the cisterns, and ends with HOSTRT loaded again;
PERST_N starts the module anew as it is asserted and lets start-up begin as it is released; start-up without a valid identity
certificate ends in recovery, and with a valid slot A alone it ends in service with A's site, HOSTRT in place and its boot cores
running. Input power comes on with VEN mated and the bus in range, and goes with VEN or with the bus below 36 V; the time base counts
from 0 as it comes on (R489). What a warm and a cold reset keep beside R391's words (LOG 46), the secret's place (LOG 12), and the times
of the steps of a start-up, which the manual bounds alone (LOG 43), are the model's choices: PHASE is VERIFY by 45 ms and LOAD or
RECOVERY by 220 ms, as nanoseconds pass, and START_UP_DONE does what is left. -/
def Obligations.ModuleResetsAndStarts : Prop :=
  (∀ (s : State) (w : RegWrite), writeAllowed s 0x2000400 w .rstCtl → w.val.toNat.testBit 17 = true →
    ∃ t, exec (.cold w) s = .next t ∧ startsAnew s t 2 ∧ startsFor s t 2 ∧ t.elog = s.elog ∧ countersKept s t) ∧
  (∀ (s : State) (p : PartId), p.val = 0 → s.boot.running = some 0 → (s.part 0).mbox.runOp = 8 → (s.part 0).mbox.busy = true →
    s.boot.executed = false → s.power.stoppedFor = 0 →
    ∃ t, exec (.reboot p) s = .next t ∧ startsAnew s t 2 ∧ startsFor s t 2 ∧ t.elog = s.elog ∧ t.ctr = s.ctr) ∧
  (∀ (s : State) (w : RegWrite), writeAllowed s 0x2000400 w .rstCtl → w.val.toNat.testBit 17 = false → w.val.toNat.testBit 16 = true →
    (s.squares.map Prod.fst).Nodup → (s.power.retention.map Prod.fst).Nodup →
    ∃ t, exec (.warm w) s = .next t ∧ t.rstLast = 1 ∧ t.boot.warming = true ∧ t.queues = [] ∧ t.launches = [] ∧ t.extents = [] ∧
      t.links.pairs = [] ∧ t.links.keys = s.links.keys ∧ t.elog = s.elog ∧ countersKept s t ∧ t.time = s.time ∧
      (flashQuiet s → t.boot.flash = s.boot.flash) ∧ t.fences = s.fences ∧
      (∀ c, c < 48 → (t.hart c).halted = true ∧ (t.hart c).startCause = some (if (s.fence (c / 6)).fenced then 4 else 1)) ∧
      (∀ u, (t.sq u).run = .idle ∧ (t.sq u).ftn.jready =
        (if s.power.state < 2 then (s.sq u).ftn.jready else (Table.get {} s.power.retention u).jready)) ∧
      (∀ a, cisternBase ≤ a → a < cisternBase + 2 ^ 31 → t.byte a = 0) ∧ sameMemoryBut s t cisternBase (2 ^ 31)) ∧
  (∀ (s : State), let v := s.siteOf s.boot.slot s.boot.kept
    let h := entryOf s.boot.kept 4
    let image := s.flash (slotBase s.boot.slot + field h 4 4) (field h 8 4)
    let good := s.componentReads s.boot.slot h = true ∧ sha512 image = slice h 32 64
    s.boot.warming = true →
    ∃ t, exec .warmResetDone s = .next t ∧
      (¬ good → startsAnew s t 2 ∧ startsFor s t 2 ∧ (loadAllowed s (field h 16 8) image.length → t.elog = s.elog)) ∧
      (good → t.boot.warming = false ∧ t.boot.entry = field h 24 8 ∧ t.links.modnum = bits v 60 12 ∧ imagePlaced s t (field h 16 8) image ∧
        ∀ c, c < 48 → v.testBit (112 + c) = true → (t.hart c).valid = true ∧ (t.hart c).part = 0 ∧
          (t.hart c).run = !(s.fence (c / 6)).fenced ∧
          ((s.fence (c / 6)).fenced = false → (t.hart c).halted = false ∧ (t.hart c).a0 = c ∧ (t.hart c).a1 = 1))) ∧
  (∀ (s : State), s.power.gates = true → s.power.perst = false → ∃ t, exec .perstNAssert s = .next t ∧ startsAnew s t 3 ∧
    t.boot.starting = false ∧ t.power.perst = true ∧ t.elog = {} ∧ t.ctr = []) ∧
  (∀ (s : State), s.power.gates = true → s.power.perst = true → ∃ t, exec .perstNRelease s = .next t ∧ startsFor s t 3 ∧
    t.power.perst = false ∧ sameMemory s t) ∧
  (∀ (s t : State), s.pending = [] → s.power.gates = true → s.boot.starting = true → step s = .next t →
    (s.boot.phase = 0 → t.boot.phase = 0 ∨ t.boot.phase = 1) ∧ (s.boot.phase = 0 → 45000000 ≤ s.boot.elapsed + 1 → t.boot.phase = 1) ∧
    (s.boot.phase = 1 → 220000000 ≤ s.boot.elapsed + 1 → t.boot.phase = 2 ∨ t.boot.phase = 4) ∧ sameMemory s t) ∧
  (∀ (s : State), s.boot.starting = true → s.power.gates = true → s.boot.phase ≤ 2 →
    ∃ t, exec .startUpDone s = .next t ∧ t.boot.starting = false ∧ (t.boot.phase = 3 ∨ t.boot.phase = 4)) ∧
  (∀ (s : State), let m := s.manifest 0
    let v := s.siteOf 0 (tableOf m)
    let h := entryOf (tableOf m) 4
    let image := s.flash (0x100000 + field h 4 4) (field h 8 4)
    s.boot.starting = true → s.power.gates = true → s.boot.phase = 0 →
    ∃ t, exec .startUpDone s = .next t ∧
      t.boot.idfail = !identityGood s ∧ t.boot.ddfail = !(s.flashGood 0x2000 8192 && dieDataOk (s.flash 0x2000 8192)) ∧
      (identityGood s = false → t.boot.phase = 4 ∧ t.boot.acause = 6 ∧ t.boot.bcause = 6 ∧ t.boot.serialLo = 0 ∧
        t.boot.serialHi = 0 ∧ sameMemory s t) ∧
      (identityGood s = true → Config.counterKey s.secret = Config.counterKeyInstalled → s.slotCause 0 false = 0 → s.slotCause 1 false ≠ 0 →
        t.boot.phase = 3 ∧ t.boot.slot = 0 ∧ t.boot.svn = field m 8 4 ∧ t.boot.imgVer = field m 16 8 ∧ t.boot.entry = field h 24 8 ∧
        t.links.modnum = bits v 60 12 ∧ t.links.precid = bits v 72 8 ∧ imagePlaced s t (field h 16 8) image ∧
        ∀ c, c < 48 → v.testBit (112 + c) = true → (s.fence (c / 6)).fenced = false → (t.hart c).run = true ∧ (t.hart c).valid = true ∧
          (t.hart c).part = 0 ∧ (t.hart c).halted = false ∧ (t.hart c).a0 = c ∧ (t.hart c).a1 = s.boot.startCause)) ∧
  (∀ (s : State), ∃ t, exec .venMate s = .next t ∧ t = { s with power := t.power } ∧ t.power = { s.power with ven := true }) ∧
  (∀ (s : State), s.power.ven = true → s.power.gates = false → 44000 ≤ s.power.busMv → s.power.busMv ≤ 60000 →
    ∃ t, exec .inputPowerGood s = .next t ∧ t.power.good = true ∧ t.power.gates = true ∧ startsFor s t 0 ∧
      t.power.smbAddr = s.power.pinSmb ∧ t.power.age = 0 ∧ t.time = 0 ∧ t.ctr = [] ∧ (∀ r, r < 22 → t.replica r = 1) ∧ sameMemory s t) ∧
  (∀ (s : State) (mv : Nat), s.power.gates = true → mv < 36000 →
    ∃ t, exec (.gatePowerLoss mv) s = .next t ∧ t.power.gates = false ∧ t.power.ven = s.power.ven ∧ t.power.busMv = mv ∧ t.time = 0 ∧
      (flashQuiet s → t.boot.flash = s.boot.flash) ∧ t.boot.counter = s.boot.counter ∧ t.squares = [] ∧ t.elog = {} ∧ ∀ a, t.byte a = 0) ∧
  (∀ (s : State) (mv : Nat), s.power.gates = false → mv < 36000 →
    ∃ t, exec (.gatePowerLoss mv) s = .next t ∧ t = { s with power := { s.power with busMv := mv } }) ∧
  (∀ (s : State), ∃ t, exec .venBreak s = .next t ∧ t.power.ven = false ∧ (flashQuiet s → t.boot.flash = s.boot.flash) ∧ t.boot.counter = s.boot.counter ∧
    t.power.gates = false ∧ (s.power.gates = true → t.squares = [] ∧ ∀ a, t.byte a = 0))

/-- Every quarter is out of service at once and one record of the power unit is made (R445). No byte of memory changes, unless an atomic
that its home has accepted awaits its second parity attempt (R295). -/
def supplyStopped (s t : State) : Prop :=
  (∀ q, q < 8 → (t.fence q).fenced = true ∧ (t.fence q).busy = false) ∧ (∀ u, u < 128 → t.sq u = {}) ∧
    (∃ e, e ∈ t.elog.transit ∧ e.code = 11 ∧ e.unit = 0xC1 ∧ e.part = 0 ∧ e.stamp = s.time) ∧ (s.retries = [] → sameMemory s t)

/-- The supply (R442 to R445, R454 to R456): SAG and BRAKE bring the allowance to at most 900 W, and end as the bus has been back for
1 ms and as the pin is released; a bus below 40 V, one below 44 V for 10 ms and one above 60 V for 1 ms stop every quarter; 100 ms in
range after a supply-loss stop, and 70 degrees after a thermal stop, start the module anew, during start-up as well. -/
def Obligations.SupplyEventsAct : Prop :=
  (∀ (s : State) (mv : Nat), s.power.gates = true → mv < 44000 → ∃ t, exec (.sagDetect mv) s = .next t ∧ t.power.sag = true ∧
    t.power.busMv = mv ∧ t.power.sagSince = some (s.power.sagSince.getD s.time) ∧ t.power.inRangeSince = none ∧
    (s.power.state = 0 → t.power.allowance ≤ 900000) ∧ t.squares = s.squares ∧ sameMemory s t) ∧
  (∀ (s : State) (mv : Nat), s.power.gates = false → mv < 44000 →
    ∃ t, exec (.sagDetect mv) s = .next t ∧ t = { s with power := { s.power with busMv := mv } }) ∧
  (∀ (s : State) (x : Nat), s.power.sag = true → s.power.aboveSince = some x → x + 1000000 ≤ s.time →
    ∃ t, exec .sagHoldExpiry s = .next t ∧ t.power.sag = false ∧ t.squares = s.squares ∧ sameMemory s t) ∧
  (∀ (s : State) (mv : Nat), 44000 ≤ mv → mv ≤ 60000 → ∃ t, exec (.busRecovery mv) s = .next t ∧ t = { s with power := t.power } ∧
    t.power = { s.power with
      busMv := mv, sagSince := none, overSince := none, inRangeSince := some (s.power.inRangeSince.getD s.time)
      aboveSince := some (s.power.aboveSince.getD s.time) }) ∧
  (∀ (s : State) (mv : Nat), 60000 < mv → ∃ t, exec (.busOvervoltage mv) s = .next t ∧ t = { s with power := t.power } ∧
    t.power = { s.power with
      busMv := mv, sagSince := none, inRangeSince := none, overSince := some (s.power.overSince.getD s.time)
      aboveSince := some (s.power.aboveSince.getD s.time) }) ∧
  (∀ (s : State), ∃ t, exec .brakeAssert s = .next t ∧ t.power.brakePin = true ∧
    (s.power.gates = true → t.power.brake = true ∧ (s.power.state = 0 → t.power.allowance ≤ 900000)) ∧ sameMemory s t) ∧
  (∀ (s : State), ∃ t, exec .brakeRelease s = .next t ∧ t.power.brakePin = false ∧ (s.power.gates = true → t.power.brake = false) ∧
    sameMemory s t) ∧
  (∀ (s : State) (mv : Nat), s.power.gates = true → mv < 40000 → s.power.stoppedFor = 0 →
    ∃ t, exec (.supplyLossStop mv) s = .next t ∧ supplyStopped s t ∧ t.power.loss = true ∧ t.power.stoppedFor = 1 ∧ t.power.sag = true) ∧
  (∀ (s : State) (x : Nat), s.power.sagSince = some x → x + 10000000 ≤ s.time → s.power.stoppedFor = 0 →
    ∃ t, exec .sagDurationExpiry s = .next t ∧ supplyStopped s t ∧ t.power.loss = true ∧ t.power.stoppedFor = 1) ∧
  (∀ (s : State) (x : Nat), s.power.gates = true → s.power.overSince = some x → x + 1000000 ≤ s.time → s.power.stoppedFor = 0 →
    ∃ t, exec .overvoltageExpiry s = .next t ∧ supplyStopped s t ∧ t.power.loss = true ∧ t.power.stoppedFor = 1) ∧
  (∀ (s : State) (x : Nat), s.power.stoppedFor = 1 → s.power.inRangeSince = some x → x + 100000000 ≤ s.time →
    ∃ t, exec .supplyRecoveryExpiry s = .next t ∧ startsAnew s t 2 ∧ startsFor s t 2 ∧ t.power.loss = s.power.loss ∧
      t.elog = s.elog) ∧
  (∀ (s : State), s.power.stoppedFor = 2 → s.power.tmax < 70 →
    ∃ t, exec .thermalRecovery s = .next t ∧ startsAnew s t 2 ∧ startsFor s t 2 ∧ t.power.trip = s.power.trip ∧ t.elog = s.elog)

/-- The controller, Dormant and the replicas of the time base (R446, R447, R453, R455, R457, R459 to R462, R491): a sample stores what
it measured, adds its energy and takes the thermal stop at 110 degrees; an evaluation takes the least of the caps in force as the
allowance and adds the time passed to the durations of the reasons that were active; ENTER starts the entry when R459's conditions
hold and sets DENY, and nothing else, otherwise; entry saves every fountain and gates squares and cisterns; a wake that has run its time returns to
service with the fountains back; a starting replica loads the time base and marks its stamps for 2,000 ns. How far RAMP lets the
estimate rise between evaluations, and what the estimate holds, are the model's choices (LOG 44, LOG 76). -/
def Obligations.PowerControllerAndDormant : Prop :=
  (∀ (s : State) (x : Telemetry), s.withinRamp x = false → exec (.telemetrySample x) s = .next s) ∧
  (∀ (s : State) (x : Telemetry), s.power.gates = true → s.power.lastSample + 50000 ≤ s.time → s.withinRamp x = true →
    let mw := x.vin * x.iin / 100
    ∃ t, exec (.telemetrySample x) s = .next t ∧ t.power.vin = x.vin ∧ t.power.iin = x.iin ∧ t.power.pin = mw / 1000 ∧
      t.power.energy = (s.power.energy + mw / 20) % 2 ^ 64 ∧ t.power.tmax = x.temps.foldl max 0 ∧ t.power.lastSample = s.time ∧
      t.power.avg = s.power.avg + ((mw : Int) - s.power.avg) / ((20 * s.power.window : Nat) : Int) ∧
      (∀ d, d < 10 → let e := Table.get {} t.power.dies d
        e.tj = x.temps.getD d 0 ∧ e.speed = x.speeds.getD d 0 ∧ e.volt = x.volts.getD d 0 ∧ e.amp = x.amps.getD d 0) ∧ sameMemory s t ∧
      (x.temps.foldl max 0 < 110 → t.squares = s.squares ∧ t.fences = s.fences ∧ t.power.stoppedFor = s.power.stoppedFor) ∧
      (110 ≤ x.temps.foldl max 0 → s.power.stoppedFor = 0 → supplyStopped s t ∧ t.power.trip = true ∧ t.power.stoppedFor = 2)) ∧
  (∀ (s : State), s.power.gates = true → s.power.lastEval + 1000 ≤ s.time →
    ∃ t, exec .controllerEvaluation s = .next t ∧ t.power.lastEval = s.time ∧ t.squares = s.squares ∧ sameMemory s t ∧
      (∀ r, r < 5 → Table.get 0 t.power.thrDur r = if s.power.thr.testBit r then
        (Table.get 0 s.power.thrDur r + (s.time - s.power.lastEval)) % 2 ^ 64 else Table.get 0 s.power.thrDur r) ∧
      (s.power.state = 0 → t.power.allowance ≤ 3400000 ∧ t.power.allowance ≤ s.power.peakCap ∧
        (s.power.sag = true ∨ s.power.brake = true → t.power.allowance ≤ 900000) ∧
        (t.power.allowance = 3400000 ∨ t.power.allowance = 900000 ∨ t.power.allowance = s.power.peakCap ∨
          t.power.allowance = s.power.estimate + ((s.power.ramp * 1000 * ((s.time - s.power.lastEval) / 1000) : Nat) : Int)))) ∧
  (∀ (s : State) (w : RegWrite), writeAllowed s 0x6000008 w (.pwr 8) → w.val.toNat.testBit 0 = true → w.val.toNat.testBit 1 = false →
    (s.mayEnter = true → ∃ t, exec (.enter w) s = .next t ∧ answered s t w ∧ t.power.state = 1 ∧ t.power.enterAt = some s.time ∧
      t.power.ramp = max 1 (min 50 (bits w.val.toNat 8 10)) ∧ t.squares = s.squares ∧ sameMemory s t) ∧
    (s.mayEnter = false → ∃ t, exec (.enter w) s = .next t ∧ answered s t w ∧ t = { s with power := t.power, out := t.out, ctr := t.ctr } ∧
      t.power = { s.power with deny := true })) ∧
  (∀ (s : State) (w : RegWrite), writeAllowed s 0x6000008 w (.pwr 8) → w.val.toNat.testBit 0 = false → w.val.toNat.testBit 1 = true →
    s.power.state = 2 → ∃ t, exec (.wake w) s = .next t ∧ answered s t w ∧ t.power.state = 3 ∧ t.power.wakeAt = some s.time ∧ sameMemory s t ∧
      ∀ q, q < 8 → (s.fence q).fenced = false → (Table.get {} t.power.dies q).off = false ∧ t.replica q = 1) ∧
  (∀ (s : State), s.power.state = 1 → s.power.wakePending = false →
    ∃ t, exec .dormantEntryDone s = .next t ∧ t.power.state = 2 ∧ t.squares = [] ∧ t.sqCtr = [] ∧
      (∀ u, u < 128 → Table.get {} t.power.retention u = (s.sq u).ftn) ∧ (∀ c, c < 48 → t.hart c = (s.hart c).lose 5) ∧
      (∀ a, cisternBase ≤ a → a < cisternBase + 2 ^ 31 → t.byte a = 0) ∧ sameMemoryBut s t cisternBase (2 ^ 31)) ∧
  (∀ (s : State) (x : Nat), s.power.state = 3 → s.power.wakeAt = some x → x + 1199000 ≤ s.time → s.held = [] → s.heldResets = [] →
    s.power.wien = false → (s.power.retention.map Prod.fst).Nodup →
    ∃ t, exec .fullService s = .next t ∧ t.power.state = 0 ∧ t.power.wakeAt = none ∧ t.power.retention = [] ∧ sameMemory s t ∧
      (∀ u, u ∈ s.power.retention.map Prod.fst → (t.sq u).ftn = Table.get {} s.power.retention u) ∧
      ∀ u, u ∉ s.power.retention.map Prod.fst → t.sq u = s.sq u) ∧
  (∀ (s : State) (r : RegionId),
    (s.replica r.val = 1 → ∃ t, exec (.replicaLoad r) s = .next t ∧ t = { s with replicas := t.replicas } ∧
      t.replica r.val = 2 + s.time + 2000 ∧ ∀ k, k ≠ r.val → t.replica k = s.replica k) ∧
    (2 ≤ s.replica r.val → s.replica r.val ≤ 2 + s.time → ∃ t, exec (.resyncWindowExpiry r) s = .next t ∧
      t = { s with replicas := t.replicas } ∧ t.replica r.val = 0 ∧ ∀ k, k ≠ r.val → t.replica k = s.replica k))
/-! The boot mailbox (16). -/

/-- The command that partition p's mailbox asked for with an OP is the running one and has not been executed (R486). -/
def mailboxRuns (s : State) (p : PartId) (op : Nat) : Prop :=
  s.boot.running = some p.val ∧ (s.part p.val).mbox.runOp = op ∧ (s.part p.val).mbox.busy = true ∧ s.boot.executed = false ∧
    s.power.stoppedFor = 0

/-- The command has been executed and will end with a code. -/
def mailboxExecuted (s t : State) (code : Nat) : Prop :=
  t.boot.executed = true ∧ t.boot.outcome = code ∧ t.boot.running = s.boot.running ∧ t.parts = s.parts ∧ t.squares = s.squares

/-- A byte of the flash; an erased one is 0xFF. -/
def flashByte (s : State) (a : Nat) : Byte := Table.get 255 s.boot.flash a

/-- Byte `b` lies in the first sector of a slot that a command on `n` bytes from `a` must erase first (R485). -/
def guardErases (s : State) (a n b : Nat) : Prop :=
  ∃ k, 0 < n ∧ k < 2 ∧ a < slotBase k + slotSize ∧ slotBase k + 65536 < a + n ∧ (if k = 0 then s.boot.erasedA else s.boot.erasedB) = false ∧
    slotBase k ≤ b ∧ b < slotBase k + 65536

/-- The attestation report of a partition for a nonce (R487, R488): its signed part, both signatures under the identity keys, and zeros to
4,096 bytes; the second one is made with 32 fresh random bytes. -/
def signedReport (s : State) (p : Nat) (nonce : List Byte) : List Byte :=
  let body := s.reportBytes p nonce
  let msg := ascii "UW96-ATTEST" ++ body
  let full := body ++ edSign (edSeed s.secret) msg ++
    mldsaSign (mldsaSeed s.secret) ((cryptoBytes (Config.trueRandom s.freeCtr)).take 32) msg
  (full ++ List.replicate (4096 - full.length) 0).take 4096

/-- The mailbox commands (R475, R482, R484 to R487): the running one of a partition that may run it has the effect of its row and keeps
its outcome, until it ends with DONE and the next pending one is chosen; FERASE leaves its range erased, FWRITE programs its range
from the buffer and compares, FREAD copies its range, COMMIT raises the counter to the running SVN, ATTEST writes its signed report, the
certificate and zeros over its area, KEYLOAD installs the key and zeroes its source, KEYCLEAR empties the slot; a command that its
partition or phase may not run, and an ATTEST without an identity or outside a sealed region, is executed as PERMISSION and does
nothing else. The codes of an FREAD of no byte or of more than 65,536, and of one whose bytes cannot be read, are the model's choice
(LOG 42). -/
def Obligations.MailboxCommandsRun : Prop :=
  (∀ (s : State) (p : PartId), mailboxRuns s p 1 → p.val = 0 →
    let a := (s.part 0).mbox.runArg0.toNat
    let n := (s.part 0).mbox.runArg1.toNat
    a % 65536 = 0 → n % 65536 = 0 → (n = 0 ∨ s.flashRange a n = 0) →
    ∃ t, exec (.ferase p) s = .next t ∧ mailboxExecuted s t 0 ∧ sameMemory s t ∧
      (∀ b, a ≤ b → b < a + n → flashByte t b = 255) ∧ (∀ b, guardErases s a n b → flashByte t b = 255) ∧
      ∀ b, (b < a ∨ a + n ≤ b) → ¬ guardErases s a n b → flashByte t b = flashByte s b) ∧
  (∀ (s : State) (p : PartId) (old : Nat → Byte), mailboxRuns s p 2 → p.val = 0 →
    let a := (s.part 0).mbox.runArg0.toNat
    let n := (s.part 0).mbox.runArg1.toNat
    let src := fun i => Table.get 0 s.boot.mbBuf i
    a % 256 = 0 → 1 ≤ n → n ≤ 65536 → s.flashRange a n = 0 →
    (∀ b, guardErases s a n b → old b = 255) → (∀ b, ¬ guardErases s a n b → old b = flashByte s b) →
    ∃ t, exec (.fwrite p) s = .next t ∧ (∀ i, i < n → flashByte t (a + i) = src i &&& old (a + i)) ∧
      (∀ b, (b < a ∨ a + n ≤ b) → flashByte t b = old b) ∧ t.boot.mbBuf = s.boot.mbBuf ∧ sameMemory s t ∧
      ((∀ i, i < n → src i &&& old (a + i) = src i) → s.flashGood a n = true → mailboxExecuted s t 0) ∧
      ((∃ i, i < n ∧ src i &&& old (a + i) ≠ src i) ∨ s.flashGood a n = false → mailboxExecuted s t 3)) ∧
  (∀ (s : State) (p : PartId), mailboxRuns s p 3 → p.val = 0 →
    let a := (s.part 0).mbox.runArg0.toNat
    let n := (s.part 0).mbox.runArg1.toNat
    (1 ≤ n → n ≤ 65536 → a + n ≤ 0x3F00000 → s.flashGood a n = false →
      ∃ t, exec (.fread p) s = .next t ∧ mailboxExecuted s t 3 ∧ t.boot.mbBuf = s.boot.mbBuf) ∧
    (1 ≤ n → n ≤ 65536 → 0x3F00000 < a + n → ∃ t, exec (.fread p) s = .next t ∧ mailboxExecuted s t 1 ∧ t.boot.mbBuf = s.boot.mbBuf) ∧
    (1 ≤ n → n ≤ 65536 → a + n ≤ 0x3F00000 → s.flashGood a n = true → ∃ t, exec (.fread p) s = .next t ∧ mailboxExecuted s t 0 ∧
      (∀ i, Table.get 0 t.boot.mbBuf i = if i < n then flashByte s (a + i) else Table.get 0 s.boot.mbBuf i) ∧
      t.boot.flash = s.boot.flash ∧ sameMemory s t) ∧
    (n = 0 ∨ 65536 < n → ∃ t, exec (.fread p) s = .next t ∧ mailboxExecuted s t 12 ∧ t.boot.mbBuf = s.boot.mbBuf)) ∧
  (∀ (s : State) (p : PartId), mailboxRuns s p 4 → p.val = 0 → s.boot.phase ≠ 4 →
    ∃ t, exec (.commit p) s = .next t ∧ mailboxExecuted s t 0 ∧ t.boot.counter = max s.boot.counter s.boot.svn ∧
      t.boot.flash = s.boot.flash ∧ sameMemory s t) ∧
  (∀ (s : State) (p : PartId), mailboxRuns s p 5 → s.boot.phase ≠ 4 → s.boot.idfail = false →
    let g := (s.part p.val).mbox.runArg0.toNat
    let a := g % 2 ^ 44
    g % 4096 = 0 → s.isLocal g = true → s.inSealedRegion unitBsc p.val a 16384 = true → s.extentOk p.val a = true →
    s.extentOk p.val (a + 16383) = true → s.checkAcc ⟨unitBsc, p.val, a, 64, .read, true⟩ = 0 → s.parityOf a 64 = 0 →
    s.checkAcc ⟨unitBsc, p.val, a, 16384, .write, true⟩ = 0 → placeOf s.isM a ≠ .host →
    ∃ t, exec (.attest p) s = .next t ∧ mailboxExecuted s t 0 ∧ t.elog = s.elog ∧ sameMemoryBut s t a 16384 ∧
      t.bytes a 4096 = signedReport s p.val (s.bytes a 64) ∧
      (∀ i, i < 8192 → t.byte (a + 4096 + i) = flashByte s i) ∧ ∀ i, 12288 ≤ i → i < 16384 → t.byte (a + i) = 0) ∧
  (∀ (s : State) (p : PartId), mailboxRuns s p 5 → s.boot.phase ≠ 4 →
    let g := (s.part p.val).mbox.runArg0.toNat
    let a := g % 2 ^ 44
    let held := s.isLocal g = true ∧ s.inSealedRegion unitBsc p.val a 16384 = true ∧ s.extentOk p.val a = true ∧
      s.extentOk p.val (a + 16383) = true
    (s.boot.idfail = true ∨ ¬ held → ∃ t, exec (.attest p) s = .next t ∧ mailboxExecuted s t 2 ∧ t = { s with boot := t.boot }) ∧
    (s.boot.idfail = false → held → g % 4096 ≠ 0 →
      ∃ t, exec (.attest p) s = .next t ∧ mailboxExecuted s t 4 ∧ t = { s with boot := t.boot })) ∧
  (∀ (s : State) (p : PartId), mailboxRuns s p 6 → p.val = 0 → s.boot.phase ≠ 4 →
    let slot := (s.part 0).mbox.runArg0.toNat
    let g := (s.part 0).mbox.runArg1.toNat
    let a := g % 2 ^ 44
    slot < 1024 → g % 32 = 0 → s.isLocal g = true → s.inSealedRegion unitBsc 0 a 32 = true →
    s.checkAcc ⟨unitBsc, 0, a, 32, .read, true⟩ = 0 → s.parityOf a 32 = 0 →
    s.checkAcc ⟨unitBsc, 0, a, 32, .write, true⟩ = 0 → placeOf s.isM a ≠ .host →
    ∃ t, exec (.keyload p) s = .next t ∧ mailboxExecuted s t 0 ∧ t.bytes a 32 = List.replicate 32 0 ∧ sameMemoryBut s t a 32 ∧
      Table.get none t.links.keys slot = some (BitVec.ofNat 256 (ofBytes (s.bytes a 32))) ∧
      ∀ k, k ≠ slot → Table.get none t.links.keys k = Table.get none s.links.keys k) ∧
  (∀ (s : State) (p : PartId), mailboxRuns s p 7 → p.val = 0 → s.boot.phase ≠ 4 →
    let slot := (s.part 0).mbox.runArg0.toNat
    slot < 1024 → ∃ t, exec (.keyclear p) s = .next t ∧ mailboxExecuted s t 0 ∧ Table.get none t.links.keys slot = none ∧
      (∀ k, k ≠ slot → Table.get none t.links.keys k = Table.get none s.links.keys k) ∧ sameMemory s t) ∧
  (∀ (s : State) (p : PartId) (i : Instr) (op : Nat),
    (i, op) ∈ [(.ferase p, 1), (.fwrite p, 2), (.fread p, 3), (.commit p, 4), (.keyload p, 6), (.keyclear p, 7), (.reboot p, 8)] →
    mailboxRuns s p op → p.val ≠ 0 → ∃ t, exec i s = .next t ∧ mailboxExecuted s t 2 ∧ t = { s with boot := t.boot } ∧
      t.boot.flash = s.boot.flash ∧ t.boot.counter = s.boot.counter) ∧
  (∀ (s : State) (p : PartId) (i : Instr) (op : Nat), (i, op) ∈ [(.commit p, 4), (.attest p, 5), (.keyload p, 6), (.keyclear p, 7)] →
    mailboxRuns s p op → s.boot.phase = 4 → ∃ t, exec i s = .next t ∧ mailboxExecuted s t 2 ∧ t = { s with boot := t.boot } ∧
      t.boot.flash = s.boot.flash ∧ t.boot.counter = s.boot.counter) ∧
  (∀ (s : State) (p : PartId), s.boot.running = some p.val → s.boot.executed = false →
    (s.part p.val).mbox.runOp = 0 ∨ 8 < (s.part p.val).mbox.runOp →
    ∃ t, exec .mailboxCommandDone s = .next t ∧
      (t.part p.val).mbox = { (s.part p.val).mbox with err := 12, done := true, busy := false } ∧
      (∀ q, q ≠ p.val → t.part q = s.part q) ∧ sameMemory s t) ∧
  (∀ (s : State) (p : PartId), s.boot.running = some p.val → s.boot.executed = true →
    ∃ t, exec .mailboxCommandDone s = .next t ∧ t.boot.executed = false ∧ t.boot.lastServed = p.val ∧
      (t.part p.val).mbox = { (s.part p.val).mbox with err := s.boot.outcome, done := true, busy := false } ∧
      (∀ q, q ≠ p.val → t.part q = s.part q) ∧ sameMemory s t ∧
      (∀ q, q ≠ p.val → q < 16 → (s.part q).mbox.busy = true →
        (∀ r, r < 16 → (r + 15 - p.val) % 16 < (q + 15 - p.val) % 16 → r = p.val ∨ (s.part r).mbox.busy = false) →
        t.boot.running = some q) ∧
      ((∀ q, q ≠ p.val → q < 16 → (s.part q).mbox.busy = false) → t.boot.running = none))

/-! Links (13). -/

/-- A DATA, IDLE or NAK flit that an UP port takes for its header: its CRC is right and its frame decoded (R402). -/
def flitHeard (s : State) (n : Nat) (f : Flit) (ft : Fin 4) : Prop := (s.port n).state = 2 ∧ f.ft = ft ∧ flitGood f = true

/-- The command by which a DATA flit, a MARK or a resume MARK reaches a port (R399, R439, R518). -/
def orderedFlit (port : PortId) (f : Flit) (i : Instr) : Prop :=
  (f.ft = 0 ∧ i = .dataFlit port f) ∨ (f.ft = 3 ∧ markId f < 2 ^ 31 ∧ i = .mark port f) ∨
    (f.ft = 3 ∧ 2 ^ 31 ≤ markId f ∧ i = .resumeMark port f)

/-- Only port `n`, counters and what leaves the module differ. -/
def portOnly (s t : State) (n : Nat) : Prop :=
  t = { s with links := { s.links with ports := t.links.ports }, ctr := t.ctr, out := t.out } ∧ ∀ m, m ≠ n → t.port m = s.port m

/-- The port after the header of a flit: the acknowledgement's flits leave the replay buffer and the credits arrive
(R403, R404). -/
def headerTaken (p : Port) (f : Flit) (ack : Bool) : Port := (if ack then p.acked f.ackSeq.toNat else p).credited f

/-- Port `p` became port `q` by sending flits `fs` of its queue in order: each is kept for replay, and each DATA flit took a
credit of its channel (R403, R404). -/
def flitsSent (p q : Port) (fs : List SentFlit) : Prop :=
  q.replay = p.replay ++ fs ∧
    ∀ ch, ch < 2 → q.credit ch + (fs.filter (fun x => x.kind != 3 && x.ch == ch)).length = p.credit ch

/-- A received transaction without what it holds of the receive buffer and without the stamp of its arrival. -/
def bare (x : Txn) : Txn := { x with flits := 0, at_ := 0 }

/-- A port that has left UP for training (R406, R407): one retrain counted, its buffers and partial transactions discarded, full
credits, and HELLO sent. -/
def portRetrains (s t : State) (n : Nat) : Prop :=
  let p := s.port n
  let q := t.port n
  q.state = 1 ∧ q.retrains = min 255 (p.retrains + 1) ∧ q.replay = [] ∧ q.txq = [] ∧ q.partialReq = [] ∧ q.partialRsp = [] ∧
    q.partialCtl = [] ∧ q.rxSeq = 0 ∧ q.txSeq = 0 ∧ q.credReq = 1024 ∧ q.credRsp = 1024 ∧ q.credCtl = 32 ∧
    Out.ctl n 1 (s.helloTxn n).wire ∈ t.out ∧ ∀ m, m ≠ n → t.port m = s.port m

/-- Flits and ports (R402 to R404, R406 to R408, R430, R431): an UP port accepts a good DATA flit that carries its next SEQ,
acknowledges it and keeps the transactions that its body completes, and a MARK likewise; it discards any other, with one NAK that
names the last flit accepted until the next accepted flit; an IDLE flit's acknowledgement and credits let waiting flits go; a NAK, or 2,500 ns without an acknowledgement, has the replay
buffer sent again, and a ninth time in a row takes the port out of UP; a HELLO in training brings the port UP with its peer's fields,
or reports LOOP; two masters that meet set CONFLICT; a write of LNK_PORT_n with EN clear takes the port DOWN, and one with EN set
trains a DOWN port. That the ninth replay is the one that leaves UP (LOG 25), that sequence numbers and credits start anew in training
(LOG 24), and that the record of a stream that cannot be parsed names partition 0 (LOG 29) are the model's choices. -/
def Obligations.PortsCarryFlits : Prop :=
  (∀ (s : State) (port : PortId) (f : Flit), flitHeard s port.val f 0 → f.seq.toNat = (s.port port.val).rxSeq → f.ch.val ≠ 3 →
    let n := port.val
    let p := s.port n
    let r := parseStream 8 (stretch p f)
    (r.2.2 = none → ∃ t, exec (.dataFlit port f) s = .next t ∧ portOnly s t n ∧ (t.port n).rxSeq = (p.rxSeq + 1) % 65536 ∧
      (t.port n).nakSent = false ∧ ((t.port n).partialOf f.ch.val).1 = r.2.1 ∧
      ((t.port n).received f.ch.val).map bare = (p.received f.ch.val ++ r.1).map bare ∧
      ∃ x y z, t.out.head? = some (.idle n f.seq.toNat x y z (t.port n).txSeq)) ∧
    (∀ x, r.2.2 = some x → ∃ t e, exec (.dataFlit port f) s = .next t ∧ (t.port n).state = 1 ∧
      (t.port n).retrains = min 255 (p.retrains + 1) ∧ t.elog.transit = s.elog.transit ++ [e] ∧ e.code = eIllegal ∧
      e.unit = unitPort n ∧ e.part = 0 ∧ e.srcm = x.srcm ∧ sameMemory s t)) ∧
  (∀ (s : State) (port : PortId) (f : Flit) (i : Instr), flitHeard s port.val f 3 → f.seq.toNat = (s.port port.val).rxSeq →
    f.ch.val ≠ 3 → orderedFlit port f i →
    ∃ t, exec i s = .next t ∧ (t.port port.val).rxSeq = ((s.port port.val).rxSeq + 1) % 65536 ∧
      (t.port port.val).nakSent = false) ∧
  (∀ (s : State) (port : PortId) (f : Flit) (i : Instr), (s.port port.val).state = 2 → orderedFlit port f i →
    flitGood f = false ∨ f.seq.toNat ≠ (s.port port.val).rxSeq ∨ f.ch.val = 3 →
    ((s.port port.val).nakSent = true → exec i s = .next s) ∧
    ((s.port port.val).nakSent = false → ∃ t, exec i s = .next t ∧ portOnly s t port.val ∧
      t.port port.val = { s.port port.val with nakSent := true } ∧
      t.out = .nak port.val (s.port port.val).lastSeq (s.port port.val).txSeq :: s.out)) ∧
  (∀ (s : State) (port : PortId) (f : Flit), flitHeard s port.val f 1 →
    ∃ t fs, exec (.idleFlit port f) s = .next t ∧ portOnly s t port.val ∧
      flitsSent (headerTaken (s.port port.val) f f.ackV) (t.port port.val) fs ∧
      t.out = (fs.map (Out.flit port.val)).reverse ++ s.out) ∧
  (∀ (s : State) (port : PortId) (f : Flit), flitHeard s port.val f 2 →
    let n := port.val
    let p := headerTaken (s.port n) f f.ackV
    (p.replays < 8 → ∃ t fs, exec (.nak port f) s = .next t ∧ portOnly s t n ∧
      (t.port n).replay.map SentFlit.seq = (p.replay ++ fs).map SentFlit.seq ∧
      (t.port n).replays = (if p.replay ++ fs = [] then p.replays else p.replays + 1) ∧
      (∀ x, x ∈ (t.port n).replay → x.at_ = s.time) ∧
      t.out = ((t.port n).replay.map (Out.flit n)).reverse ++ (fs.map (Out.flit n)).reverse ++ s.out) ∧
    (8 ≤ p.replays → p.replay ≠ [] → ∃ t, exec (.nak port f) s = .next t ∧ portRetrains s t n ∧ sameMemory s t)) ∧
  (∀ (s : State) (port : PortId) (f : SentFlit), (s.port port.val).replay.head? = some f → (s.port port.val).state = 2 →
    let n := port.val
    let p := s.port n
    (s.time < f.at_ + 2500 → exec (.replayTimeout port) s = .next s) ∧
    (f.at_ + 2500 ≤ s.time → p.replays < 8 → ∃ t, exec (.replayTimeout port) s = .next t ∧ portOnly s t n ∧
      t.port n = { p with
        replay := p.replay.map (fun x => { x with at_ := s.time, ack := p.lastSeq, ackV := p.rxAny }), replays := p.replays + 1 } ∧
      t.out = ((t.port n).replay.map (Out.flit n)).reverse ++ s.out) ∧
    (f.at_ + 2500 ≤ s.time → 8 ≤ p.replays → ∃ t, exec (.replayTimeout port) s = .next t ∧ portRetrains s t n ∧ sameMemory s t)) ∧
  (∀ (s : State) (port : PortId),
    ((s.port port.val).state = 2 → ∃ t, exec (.portLeaveUp port) s = .next t ∧ portRetrains s t port.val ∧ sameMemory s t ∧
      t.squares = s.squares) ∧
    ((s.port port.val).state ≠ 2 → exec (.portLeaveUp port) s = .next s)) ∧
  (∀ (s : State) (port : PortId) (h : HelloMsg), (s.port port.val).state = 1 →
    let n := port.val
    let loop := h.modnum.toNat = s.links.modnum ∧ h.precid.toNat = s.links.precid
    let meets := s.links.role = 1 ∧ h.role = 1 ∧ h.precid.toNat = s.links.precid
    (¬ loop → ∃ t, exec (.hello port h) s = .next t ∧ (t.port n).state = 2 ∧ (t.port n).peerM = h.modnum.toNat ∧
      (t.port n).peerP = h.port.toNat % 128 ∧ (t.port n).peerPrec = h.precid.toNat ∧ (t.port n).loop = false ∧
      (meets → t.links.conflict = true ∧ t.links.role = (if s.links.modnum ≤ h.modnum.toNat then 1 else 0)) ∧
      (¬ meets → t.links.conflict = s.links.conflict ∧ t.links.role = s.links.role) ∧
      (∀ m, m ≠ n → t.port m = s.port m) ∧ sameMemory s t) ∧
    (loop → ∃ t, exec (.hello port h) s = .next t ∧ portOnly s t n ∧ t.out = s.out ∧
      t.port n = { s.port n with peerM := h.modnum.toNat, peerP := h.port.toNat % 128, peerPrec := h.precid.toNat, loop := true })) ∧
  (∀ (s : State) (port : PortId) (w : RegWrite), writeAllowed s (0x8001000 + 8 * port.val) w (.lnkPort port.val) →
    let n := port.val
    let p := s.port n
    let en := w.val.toNat.testBit 6
    ∃ t, exec (.lnkPortWrite port w) s = .next t ∧ answered s t w ∧ sameMemory s t ∧ (t.port n).en = en ∧
      (t.port n).child = w.val.toNat.testBit 7 ∧ (∀ m, m ≠ n → t.port m = s.port m) ∧
      (p.state = 3 → (t.port n).state = 3) ∧
      (p.state ≠ 3 → en = false → (t.port n).state = 0 ∧
        (t.port n).retrains = (if p.state = 2 then min 255 (p.retrains + 1) else p.retrains)) ∧
      (p.state = 0 → en = true → (t.port n).state = 1 ∧ Out.ctl n 1 (s.helloTxn n).wire ∈ t.out) ∧
      (p.state = 1 ∨ p.state = 2 → en = true → (t.port n).state = p.state))

/-! Transactions between modules (13). -/

/-- The commands that process the first transaction received on a channel of a port, with the channel and the type that each
names (R412, R431). -/
def linkCommands (port : PortId) (cr : Crypt) : List (Instr × Nat × (Txn → Bool)) :=
  [(.put port cr, 0, isType 1), (.get port cr, 0, isType 2), (.atom port cr, 0, isType 3), (.signal port cr, 0, isType 4),
   (.ack port cr, 1, isType 5), (.data port cr, 1, isType 6), (.err port cr, 1, isType 7), (.treq port cr, 2, isControl 2),
   (.tresp port cr, 2, isControl 3), (.eprep port cr, 2, isControl 4), (.eack port cr, 2, isControl 5),
   (.ecommit port cr, 2, isControl 6), (.eabandon port cr, 2, isControl 7), (.stopreq port cr, 2, isControl 8)]

/-- `x` is the transaction that a port serves next on a channel (R377, R423). -/
def txnServed (s : State) (n ch : Nat) (x : Txn) : Prop := (s.takeInbound n ch).map Prod.fst = some x

/-- What the channel holds once that transaction has left it. -/
def receivedAfter (s : State) (n ch : Nat) : List Txn := ((s.takeInbound n ch).map (fun e => e.2.received ch)).getD []

/-- `x` is the transaction that a port serves next on a channel, its route ends here, and no stop holds it (R514, R518). -/
def txnDue (s : State) (n ch : Nat) (x : Txn) : Prop := txnServed s n ch x ∧ s.linksHeld = false ∧ x.hops ≤ x.hptr

/-- The last stream counter handed on of the transaction's stream (R417). -/
def lastOf (s : State) (x : Txn) : Nat := Table.get 0 s.links.recvCtr x.streamOf

/-- `x` is due, passes checks 2 to 4 of R427, is the next of its stream, and nothing of its stream is held ahead of a gap. -/
def txnNext (s : State) (n ch : Nat) (x : Txn) (cr : Crypt) : Prop :=
  txnDue s n ch x ∧ x.dstm = s.links.modnum ∧ s.pairChecked n x = true ∧ (s.openTxn x cr).isSome = true ∧
    cr.ctr = lastOf s x + 1 ∧ ∀ h, h ∈ s.links.gap → h.txn.streamOf ≠ x.streamOf

/-- The record that a link tile's refusal of a transaction makes (R427, R557). -/
def linkRecord (s t : State) (n code addr : Nat) (x : Txn) : Prop :=
  ∃ e, t.elog.transit = s.elog.transit ++ [e] ∧ e.code = code ∧ e.unit = unitPort n ∧ e.part = x.dpart ∧ e.srcm = x.srcm ∧
    e.addr = s.recordAddr addr ∧ e.stamp = s.time

/-- Transaction `r` has been handed to port `n`: each of its flits waits there or has been sent (R399, R410). -/
def carried (t : State) (n : Nat) (r : Txn) : Prop :=
  ∀ f, f ∈ flitsOf r → (∃ g, g ∈ (t.port n).txq ∧ g.txn = r ∧ g.idx = f.idx) ∨ ∃ g, Out.flit n g ∈ t.out ∧ g.txn = r ∧ g.idx = f.idx

/-- The response to request `q` leaves the module (R412, R415). -/
def answers (t : State) (q : Txn) (type code : Nat) (payload : List Byte) : Prop :=
  ∃ n r, carried t n r ∧ r.type = type ∧ r.code = code ∧ r.payload = payload ∧ r.ch = 1 ∧ r.tid = q.tid ∧ r.dstm = q.srcm ∧
    r.spart = q.dpart ∧ r.dpart = q.spart

/-- Request `q` may be performed at its home in this module's memory and its answer has a way back (R293, R427). -/
def homeServes (s : State) (n : Nat) (q : Txn) : Prop :=
  s.power.state = 0 ∧ (s.part q.dpart).reset.resetting = false ∧ s.chooseRoute q.srcm q.dpart ≠ none ∧
    placeOf s.isM q.addr ≠ .reg ∧ placeOf s.isM q.addr ≠ .host ∧
    (q.blk = false → s.checkAcc (accFor (unitPort n) q.dpart q.addr q.access true) = 0)

/-- A transaction has been handed on: its stream's counter is the last one, and it no longer waits at its port (R417). -/
def handedOn (s t : State) (n ch : Nat) (x : Txn) (cr : Crypt) : Prop :=
  lastOf t x = cr.ctr ∧ (t.port n).received ch = receivedAfter s n ch

/-- Requests of other modules (R412, R413, R417, R421, R427): a transaction that fails one of checks 2 to 4 is dropped with one
record; one ahead of a gap is held; the next of its stream is handed on. A PUT writes its bytes and is acknowledged, a GET is
answered with the bytes, an ATOM leaves the new value and answers the old one, a SIGNAL adds to its word or to a square's
counter; block-mode PUTs and GETs move the granules that their count map names; a request of a partition under reset ends with
PERMISSION. A transaction in transit goes on to its next hop, and without an UP port to it is dropped with UNREACHABLE. In a stop whose
resume has begun, the last of them ends the stop (R518): the states named here are those before that. -/
def Obligations.LinkRequestsServed : Prop :=
  (∀ (s : State) (port : PortId) (cr : Crypt) (i : Instr) (ch : Nat) (mine : Txn → Bool) (x : Txn),
    (i, ch, mine) ∈ linkCommands port cr → mine x = true →
    (¬ txnDue s port.val ch x → txnServed s port.val ch x → exec i s = .next s.settleStop) ∧
    (txnDue s port.val ch x →
      let dropped := fun code addr => ∃ t, exec i s = .next t.settleStop ∧ linkRecord s t port.val code addr x ∧ sameMemory s t ∧
        (t.port port.val).received ch = receivedAfter s port.val ch ∧ t.links.recvCtr = s.links.recvCtr ∧
        t.links.reqs = s.links.reqs ∧ t.squares = s.squares
      (x.dstm ≠ s.links.modnum → dropped eUnreachable (x.dstm * 2 ^ 44 + x.addr)) ∧
      (x.dstm = s.links.modnum →
        s.pairChecked port.val x = false ∨ s.openTxn x cr = none ∨ cr.ctr ≤ lastOf s x → dropped ePermission (globalOf x.addr)) ∧
      (∀ plain, x.dstm = s.links.modnum → s.pairChecked port.val x = true → s.openTxn x cr = some plain → lastOf s x + 1 < cr.ctr →
        ∃ t, exec i s = .next t.settleStop ∧ t.links.gap = s.links.gap ++ [⟨port.val, s.time, x, cr, plain⟩] ∧ sameMemory s t ∧ t.elog = s.elog ∧
          t.out = s.out ∧ t.links.recvCtr = s.links.recvCtr ∧ t.squares = s.squares))) ∧
  (∀ (s : State) (port : PortId) (cr : Crypt) (x : Txn), txnNext s port.val 0 x cr → x.type ≤ 4 →
    (s.part x.dpart).reset.resetting = true → s.power.state = 0 →
    ∀ (i : Instr) (mine : Txn → Bool), (i, 0, mine) ∈ linkCommands port cr → mine x = true →
    ∃ t, exec i s = .next t.settleStop ∧ linkRecord s t port.val ePermission (globalOf x.addr) x ∧ handedOn s t port.val 0 x cr ∧
      sameMemory s t) ∧
  (∀ (s : State) (port : PortId) (cr : Crypt) (x : Txn), txnNext s port.val 0 x cr →
    let n := port.val
    let q := s.opened x cr
    let w := if x.asz = 1 then 16 else 8
    let size := if x.asz = 1 then 16 else if x.asz = 2 then 4 else 8
    let old := ofBytes (s.bytes x.addr size)
    homeServes s n q → x.blk = false →
    (x.type = 1 → ∃ t, exec (.put port cr) s = .next t.settleStop ∧ handedOn s t n 0 x cr ∧ t.bytes x.addr x.len = q.payload ∧
      sameMemoryBut s t x.addr x.len ∧ answers t x 5 0 [] ∧ t.elog = s.elog ∧ t.squares = s.squares) ∧
    (x.type = 2 → s.parityOf x.addr x.len = 0 → ∃ t, exec (.get port cr) s = .next t.settleStop ∧ handedOn s t n 0 x cr ∧ sameMemory s t ∧
      answers t x 6 0 (s.bytes x.addr x.len) ∧ t.elog = s.elog) ∧
    (x.type = 3 → (if x.asz = 1 then x.aop = 9 else x.aop ≤ 9) → s.parityOf x.addr size = 0 →
      ∃ t, exec (.atom port cr) s = .next t.settleStop ∧ handedOn s t n 0 x cr ∧ sameMemoryBut s t x.addr size ∧ t.elog = s.elog ∧
        t.bytes x.addr size =
          toBytes size (atomicRule x.aop (8 * size) old (ofBytes (slice q.payload 0 w)) (ofBytes (slice q.payload w w))) ∧
        answers t x 6 0 (toBytes w old)) ∧
    (x.type = 4 → s.parityOf x.addr size = 0 →
      x.asz ≠ 1 → ∃ t, exec (.signal port cr) s = .next t.settleStop ∧ handedOn s t n 0 x cr ∧ sameMemoryBut s t x.addr size ∧
        t.bytes x.addr size = toBytes size ((old + ofBytes (slice q.payload 0 8)) % 2 ^ (8 * size)) ∧ answers t x 5 0 [] ∧
        t.elog = s.elog)) ∧
  (∀ (s : State) (port : PortId) (cr : Crypt) (x : Txn) (u : SquareId) (c : Fin 64), txnNext s port.val 0 x cr → x.type = 4 →
    x.asz = 3 → x.blk = false → x.addr = regBase + 0x4000000 + 0x200 * u.val + 8 * c.val → s.power.state = 0 →
    s.liveDie (u.val / 16) = true → s.hasRoute (dieOfUnit (unitPort port.val)) (u.val / 16) = true →
    (s.part x.dpart).reset.resetting = false → s.squareOwnedBy u.val x.dpart = true →
    Table.get false s.badWrite (unitPort port.val) = false → s.chooseRoute x.srcm x.dpart ≠ none →
    ∃ t, exec (.signal port cr) s = .next t.settleStop ∧ handedOn s t port.val 0 x cr ∧ sameMemory s t ∧ answers t x 5 0 [] ∧
      t.squareCounter u.val c.val = s.squareCounter u.val c.val + BitVec.ofNat 64 (ofBytes (slice (s.opened x cr).payload 0 8)) ∧
      ∀ k, k ≠ 64 * u.val + c.val → Table.get 0 t.sqCtr k = Table.get 0 s.sqCtr k) ∧
  (∀ (s : State) (port : PortId) (cr : Crypt) (x : Txn), txnNext s port.val 0 x cr →
    let n := port.val
    let q := s.opened x cr
    let count := fun i => (q.payload.getD i 0).toNat
    homeServes s n q → x.blk = true → x.addr % 256 = 0 → q.mapOk = true → x.nb ≤ x.len → s.slotsSealed n q = .ok false →
    (∀ e, e ∈ q.slots → s.slotCode n q e = 0 ∧ placeOf s.isM e.1 ≠ .host) →
    (x.type = 1 → ∃ t, exec (.put port cr) s = .next t.settleStop ∧ handedOn s t n 0 x cr ∧ answers t x 5 0 [] ∧ t.elog = s.elog ∧
      (∀ i, i < x.nb → t.bytes (x.addr + 256 * i) (32 * count i) =
        slice q.payload (pad16 x.nb + 32 * ((List.range i).map count).sum) (32 * count i)) ∧
      ∀ b, (∀ i, i < x.nb → b < x.addr + 256 * i ∨ x.addr + 256 * i + 32 * count i ≤ b) → t.byte b = s.byte b) ∧
    (x.type = 2 → (∀ e, e ∈ q.slots → s.parityOf e.1 e.2 = 0) → ∃ t, exec (.get port cr) s = .next t.settleStop ∧
      handedOn s t n 0 x cr ∧ sameMemory s t ∧ t.elog = s.elog ∧
      answers t x 6 0 ((List.range x.nb).flatMap (fun i => s.bytes (x.addr + 256 * i) (32 * count i))))) ∧
  (∀ (s : State) (port : PortId) (ch : Fin 2) (x : Txn), txnServed s port.val ch.val x →
    s.linksHeld = false → x.hptr < x.hops →
    (s.hopPorts (hopOf x.route x.hptr) ≠ [] → ∃ t m, exec (.transitForward port ch) s = .next t.settleStop ∧
      m ∈ s.hopPorts (hopOf x.route x.hptr) ∧ carried t m { x with hptr := x.hptr + 1, flits := 0 } ∧ sameMemory s t ∧
      (t.port port.val).received ch.val = receivedAfter s port.val ch.val) ∧
    (s.hopPorts (hopOf x.route x.hptr) = [] → ∃ t, exec (.transitForward port ch) s = .next t.settleStop ∧ sameMemory s t ∧
      linkRecord s t port.val eUnreachable (x.dstm * 2 ^ 44 + x.addr) x ∧
      (t.port port.val).received ch.val = receivedAfter s port.val ch.val)) ∧
  (∀ (s : State) (port : PortId) (ch : Fin 2) (x : Txn), txnServed s port.val ch.val x → s.linksHeld = true ∨ x.hops ≤ x.hptr →
    exec (.transitForward port ch) s = .next s.settleStop)

/-- No request waits for room (R415). -/
def noneWaits (s : State) : Prop := ∀ y, y ∈ s.links.reqs → y.unsent = none

/-- Whether an error response to a requester is logged whatever came before it: not one to a pump, whose first alone is (R155), nor one
to a square that has stopped (R142). -/
def logsError (s : State) (w : Waiter) : Prop :=
  match w with
  | .atRow u _ _ => (s.sq u).run = .running
  | .command id u => (s.sq u).run = .running ∧ (s.sq u).launch = id
  | .pumpRead _ _ => False
  | .pumpWrite _ => False
  | .pumpSignal _ => False
  | _ => True

/-- Responses and link timers (R415 to R417): a response that answers an outstanding request ends it, and reaches its requester with
its payload, or as an error with one record of the requester's; one that no request waits for is counted, and an ERR whose code no
module reports is dropped with a record (the model's choice, LOG 29); a request that has
waited for the link timeout ends with one TIMEOUT record, and a gap that has stayed open for its time is closed with one record. That
a gap's time counts from the first transaction held ahead of it (LOG 34), and a request's from when it is handed whole to its port
(LOG 49), is read from the manual. -/
def Obligations.LinkResponsesAndTimers : Prop :=
  (∀ (s : State) (port : PortId) (cr : Crypt) (x : Txn) (r : LinkReq), txnNext s port.val 1 x cr →
    s.links.reqs.find? (answersReq (s.opened x cr)) = some r → noneWaits s →
    ∀ (i : Instr), (x.type = 5 ∧ i = .ack port cr) ∨ (x.type = 6 ∧ i = .data port cr) →
    ∃ t, exec i s = .next t.settleStop ∧ handedOn s t port.val 1 x cr ∧ (∀ y, y ∈ t.links.reqs → y.tid ≠ r.tid) ∧ sameMemory s t ∧
      (∀ c, r.waiter = .core c → t.out.head? = some (.resp (unitCore c) 0 (s.opened x cr).payload)) ∧
      (∀ u, r.waiter = .pumpSignal u → ∀ p, (s.sq u).pump.cur = some p →
        (t.sq u).pump.cur = some { p with sigDone := true })) ∧
  (∀ (s : State) (port : PortId) (cr : Crypt) (x : Txn) (r : LinkReq), txnNext s port.val 1 x cr → x.type = 7 →
    1 ≤ x.code → x.code ≤ 14 → s.links.reqs.find? (answersReq (s.opened x cr)) = some r → noneWaits s → logsError s r.waiter →
    ∃ t e, exec (.err port cr) s = .next t.settleStop ∧ handedOn s t port.val 1 x cr ∧ sameMemory s t ∧
      t.links.reqs = s.links.reqs.filter (fun y => y.tid != r.tid) ∧
      t.elog.transit = s.elog.transit ++ [e] ∧ e.code = x.code ∧ e.unit = r.unit ∧ e.part = r.part ∧
      e.addr = s.recordAddr r.addr ∧ e.reply = replyOf r.waiter x.code) ∧
  (∀ (s : State) (port : PortId) (cr : Crypt) (x : Txn), txnNext s port.val 1 x cr →
    s.links.reqs.find? (answersReq (s.opened x cr)) = none →
    ∀ (i : Instr), (x.type = 5 ∧ i = .ack port cr) ∨ (x.type = 6 ∧ i = .data port cr) ∨
        (x.type = 7 ∧ 1 ≤ x.code ∧ x.code ≤ 14 ∧ i = .err port cr) →
    ∃ t, exec i s = .next t.settleStop ∧ handedOn s t port.val 1 x cr ∧ sameMemory s t ∧ t.elog = s.elog ∧ t.squares = s.squares ∧
      t.links.reqs = s.links.reqs ∧
      Table.get 0 t.ctr (256 * unitPort port.val + 7) = Table.get 0 s.ctr (256 * unitPort port.val + 7) + 1) ∧
  (∀ (s : State) (port : PortId) (cr : Crypt) (x : Txn), txnNext s port.val 1 x cr → x.type = 7 → x.code = 0 ∨ 14 < x.code →
    ∃ t, exec (.err port cr) s = .next t.settleStop ∧ handedOn s t port.val 1 x cr ∧ linkRecord s t port.val eIllegal (globalOf x.addr) x ∧
      sameMemory s t ∧ t.links.reqs = s.links.reqs ∧ t.squares = s.squares) ∧
  (∀ (s : State) (tid : BitVec 16) (r : LinkReq), s.links.reqs.find? (fun y => y.tid == tid.toNat) = some r →
    let due := s.stop.stopped = false ∧ r.sent + s.links.timeout * 100000 ≤ s.time
    (due → noneWaits s → logsError s r.waiter → ∃ t e, exec (.linkTimeoutExpiry tid) s = .next t ∧ sameMemory s t ∧
      t.links.reqs = s.links.reqs.filter (fun y => y.tid != tid.toNat) ∧
      t.elog.transit = s.elog.transit ++ [e] ∧ e.code = eTimeout ∧ e.unit = r.unit ∧ e.part = r.part ∧
      e.addr = s.recordAddr r.addr ∧ e.reply = replyOf r.waiter eTimeout) ∧
    (¬ due → exec (.linkTimeoutExpiry tid) s = .next s)) ∧
  (∀ (s : State) (k : StreamId) (f h : HeldTxn), let key := streamKey k.srcm k.spart k.dpart k.ch
    s.links.gap.find? (fun y => y.txn.streamOf == key) = some f → h ∈ s.links.gap → h.txn.streamOf = key →
    (∀ y, y ∈ s.links.gap → y.txn.streamOf = key → y ≠ h → h.cr.ctr < y.cr.ctr) →
    let due := s.stop.stopped = false ∧ f.at_ + s.links.timeout * 25000 ≤ s.time
    (due → ∃ t e rest, exec (.gapTimeout k) s = .next t ∧ t.elog.transit = s.elog.transit ++ e :: rest ∧ e.code = eTimeout ∧
      e.unit = unitPort h.port ∧ e.part = h.txn.dpart ∧ e.srcm = h.txn.srcm ∧ ∀ y, y ∈ t.links.gap → y ≠ h) ∧
    (¬ due → exec (.gapTimeout k) s = .next s))

/-! The precinct: identity, time and epochs (13). -/

/-- A control message leaves port `n` for its peer, where the Partition 0 pair, its key and the port let it (R431). -/
def ctlSent (s t : State) (n code : Nat) (payload : List Byte) : Prop :=
  s.canCtl n = true → ∃ r, carried t n r ∧ r.type = 8 ∧ r.ch = 2 ∧ r.code = code ∧ r.payload = payload ∧
    r.dstm = (s.port n).peerM ∧ r.spart = 0 ∧ r.dpart = 0

/-- A control message of a code is the next transaction of channel 2 of a port. -/
def ctlNext (s : State) (n code : Nat) (x : Txn) (cr : Crypt) : Prop :=
  txnNext s n 2 x cr ∧ x.type = 8 ∧ x.code = code

/-- The epoch counter advances and the active bank flips (R438). -/
def flipped (s t : State) (epoch : Nat) (late : Prop) : Prop :=
  t.links.active = 1 - s.links.active ∧ t.links.epochCur = epoch % 2 ^ 24 ∧ t.links.armed = false ∧ t.links.inProg = false ∧
    (t.links.late = true ↔ s.links.late = true ∨ late)

/-- Precinct identity and time (R429, R433, R434): a write that changes LNK_ID retrains every UP port; a module with a parent sends
TREQ every 125 µs; a TREQ is answered with the time its flit came and the time the answer leaves; a TRESP from the parent gives offset and delay (half of an odd
number of nanoseconds is a free choice of the model, LOG 27), eight exchanges in a row within 4 ns set TLOCK, an offset above 1 µs
clears it, and the time base is stepped at the first exchange, or forward while it is unlocked, and steered by 200 ppm otherwise (LOG 35); 5 ms without an exchange clear TLOCK;
a write of PARENT clears it, or sets it for 0x7F. That a message which does not come along the tree does nothing is read from the manual
(LOG 32). -/
def Obligations.PrecinctKeepsTime : Prop :=
  (∀ (s : State) (w : RegWrite), writeAllowed s 0x8000000 w (.lnk 0) →
    let m := bits w.val.toNat 0 12
    let p := bits w.val.toNat 16 8
    ∃ t, exec (.lnkIdWrite w) s = .next t ∧ answered s t w ∧ t.links.modnum = m ∧ t.links.precid = p ∧ sameMemory s t ∧
      t.squares = s.squares ∧
      (m = s.links.modnum ∧ p = s.links.precid → ∀ n, t.port n = s.port n) ∧
      (m ≠ s.links.modnum ∨ p ≠ s.links.precid → ∀ n, n < 96 →
        ((s.port n).state = 2 → (t.port n).state = 1 ∧ (t.port n).retrains = min 255 ((s.port n).retrains + 1)) ∧
        ((s.port n).state ≠ 2 → t.port n = s.port n))) ∧
  (∀ s : State, let due := s.links.parentPort < 96 ∧ s.stop.stopped = false ∧ (s.links.t1 = 0 ∨ s.links.t1 + 125000 ≤ s.time)
    (due → ∃ t, exec .timeExchange s = .next t ∧ t.links.t1 = s.time ∧ ctlSent s t s.links.parentPort 2 (toBytes 8 s.time) ∧
      sameMemory s t ∧ t.elog = s.elog ∧ t.time = s.time) ∧
    (¬ due → exec .timeExchange s = .next s)) ∧
  (∀ (s : State) (port : PortId) (cr : Crypt) (x : Txn), ctlNext s port.val 2 x cr → x.len = 8 →
    ∃ t, exec (.treq port cr) s = .next t.settleStop ∧ handedOn s t port.val 2 x cr ∧ sameMemory s t ∧ t.elog = s.elog ∧ t.time = s.time ∧
      ctlSent s t port.val 3 (slice (s.opened x cr).payload 0 8 ++ toBytes 8 x.at_ ++ toBytes 8 s.time)) ∧
  (∀ (s : State) (port : PortId) (cr : Crypt) (x : Txn), ctlNext s port.val 3 x cr →
    let b := (s.opened x cr).payload
    let t1 : Int := (ofBytes (slice b 0 8) : Nat)
    let t2 : Int := (ofBytes (slice b 8 8) : Nat)
    let t3 : Int := (ofBytes (slice b 16 8) : Nat)
    let t4 : Int := (x.at_ : Nat)
    (port.val = s.links.parentPort → ∃ t, ∃ d : Int, exec (.tresp port cr) s = .next t.settleStop ∧ handedOn s t port.val 2 x cr ∧
      sameMemory s t ∧ t.elog = s.elog ∧
      let o := t.links.offset
      (2 * o - ((t1 - t2) + (t4 - t3))).natAbs ≤ 1 ∧ (2 * d - ((t4 - t1) - (t3 - t2))).natAbs ≤ 1 ∧ t.links.delay = pattern 16 d ∧
      t.links.exchanges = (if o.natAbs ≤ 4 then s.links.exchanges + 1 else 0) ∧ t.links.loaded = true ∧
      (t.links.tlock = true ↔ o.natAbs ≤ 1000 ∧ (s.links.tlock = true ∨ 8 ≤ t.links.exchanges)) ∧
      let steps := s.links.loaded = false ∨ (t.links.tlock = false ∧ o < -1000)
      (steps → t.time = ((s.time : Int) - o).toNat % 2 ^ 64 ∧ t.links.slew = 0) ∧
      (¬ steps → t.time = s.time ∧ t.links.slew = o)) ∧
    (port.val ≠ s.links.parentPort → ∃ t, exec (.tresp port cr) s = .next t.settleStop ∧ handedOn s t port.val 2 x cr ∧ sameMemory s t ∧
      t.time = s.time ∧ t.links.offset = s.links.offset ∧ t.links.tlock = s.links.tlock)) ∧
  (∀ s : State,
    let due := s.links.parent ≠ 0x7F ∧ s.links.tlock = true ∧ s.links.lastExchange + 5000000 ≤ s.time
    (due → exec .tlockTimeout s = .next { s with links := { s.links with tlock := false, exchanges := 0 } }) ∧
    (¬ due → exec .tlockTimeout s = .next s)) ∧
  (∀ (s : State) (w : RegWrite), writeAllowed s 0x8000018 w (.lnk 0x18) →
    ∃ t, exec (.lnkTimeWrite w) s = .next t ∧ answered s t w ∧ t = { s with links := t.links, out := t.out, ctr := t.ctr } ∧
      t.links = { s.links with parent := bits w.val.toNat 55 7, tlock := decide (bits w.val.toNat 55 7 = 0x7F), exchanges := 0, slew := 0 })

/-- Epochs (R438): GO on an armed master starts the next epoch with EPREP to every child port; a module that its parent prepares passes
EPREP on and answers once its children have, with their count and whether all of them are armed for that epoch; the master commits
when every member has agreed before Tc and abandons when one has not; ECOMMIT and EABANDON are passed on, and the bank flips at Tc,
or at once and LATE; at Tc an uncommitted master abandons, and at Tc + 10 ms so does a member that received nothing (R519). That LATE
and ABANDONED stay set until software clears them (LOG 33), and that a message from elsewhere in the tree does nothing (LOG 32), are read
from the manual. -/
def Obligations.EpochsPrepareAndCommit : Prop :=
  (∀ (s : State) (w : RegWrite), writeAllowed s 0x8000028 w (.lnk 0x28) →
    let v := w.val.toNat
    let e := (s.links.epochCur + 1) % 2 ^ 24
    let tc := s.time + bits v 0 24 * 1000
    let starts := v.testBit 63 = true ∧ s.links.role = 1 ∧ s.links.armed = true ∧ s.links.epochArm = e ∧ s.links.inProg = false
    (starts → ∃ t, exec (.lnkEpochGo w) s = .next t ∧ answered s t w ∧ sameMemory s t ∧ t.links.inProg = true ∧
      t.links.epoch = e ∧ t.links.epochTc = tc ∧ t.links.epochCount = 1 ∧ t.links.epochWait = s.childPorts ∧
      t.links.active = s.links.active ∧ t.links.epochCur = s.links.epochCur ∧
      (∀ n, n ∈ s.childPorts → ctlSent s t n 4 (toBytes 4 e ++ toBytes 8 tc)) ∧
      (t.links.committed = true ↔ s.links.nmem ≤ 1 ∧ s.time < tc)) ∧
    (¬ starts → ∃ t, exec (.lnkEpochGo w) s = .next t ∧ answered s t w ∧ t = { s with out := t.out, ctr := t.ctr })) ∧
  (∀ (s : State) (port : PortId) (cr : Crypt) (x : Txn), ctlNext s port.val 4 x cr → port.val = s.links.parent → s.links.role ≠ 1 →
    let b := (s.opened x cr).payload
    let e := ofBytes (slice b 0 4)
    ∃ t, exec (.eprep port cr) s = .next t.settleStop ∧ handedOn s t port.val 2 x cr ∧ sameMemory s t ∧ t.elog = s.elog ∧
      t.links.inProg = true ∧ t.links.epoch = e ∧ t.links.epochTc = ofBytes (slice b 4 8) ∧ t.links.epochWait = s.childPorts ∧
      t.links.epochCount = 1 ∧ t.links.committed = false ∧ (∀ n, n ∈ s.childPorts → ctlSent s t n 4 (b.take 12)) ∧
      (s.childPorts = [] → ctlSent s t s.links.parent 5 (toBytes 4 e ++ toBytes 2 1 ++
        toBytes 1 (if s.links.armed = true ∧ s.links.epochArm = e then 1 else 0)))) ∧
  (∀ (s : State) (port : PortId) (cr : Crypt) (x : Txn), ctlNext s port.val 5 x cr → s.links.inProg = true →
    s.links.epochWait.contains port.val = true →
    let b := (s.opened x cr).payload
    s.links.epoch = ofBytes (slice b 0 4) →
    let count := s.links.epochCount + ofBytes (slice b 4 2)
    let ok := s.links.epochOk = true ∧ ofBytes (slice b 6 1) = 1
    let wait := s.links.epochWait.filter (· != port.val)
    ∃ t, exec (.eack port cr) s = .next t.settleStop ∧ handedOn s t port.val 2 x cr ∧ sameMemory s t ∧ t.elog = s.elog ∧
      t.links.epochWait = wait ∧ t.links.epochCount = count ∧ (t.links.epochOk = true ↔ ok) ∧
      (s.links.role ≠ 1 → wait = [] → ctlSent s t s.links.parent 5 (toBytes 4 s.links.epoch ++ toBytes 2 count ++
        toBytes 1 (bitN (t.links.epochOk && s.links.armed && s.links.epochArm == s.links.epoch)))) ∧
      (s.links.role = 1 → s.links.committed = false → ok → s.links.nmem ≤ count → s.time < s.links.epochTc →
        t.links.committed = true ∧
          ∀ n, n ∈ s.childPorts → ctlSent s t n 6 (toBytes 4 s.links.epoch ++ toBytes 8 s.links.epochTc)) ∧
      (s.links.role = 1 → s.links.committed = false → ¬ ok → t.links.abandoned = true ∧ t.links.inProg = false ∧
        ∀ n, n ∈ s.childPorts → ctlSent s t n 7 (toBytes 4 s.links.epoch))) ∧
  (∀ (s : State) (port : PortId) (cr : Crypt) (x : Txn), ctlNext s port.val 6 x cr → port.val = s.links.parent → s.links.role ≠ 1 →
    s.links.inProg = true →
    let b := (s.opened x cr).payload
    let tc := ofBytes (slice b 4 8)
    s.links.epoch = ofBytes (slice b 0 4) →
    ∃ t, exec (.ecommit port cr) s = .next t.settleStop ∧ handedOn s t port.val 2 x cr ∧ sameMemory s t ∧
      (∀ n, n ∈ s.childPorts → ctlSent s t n 6 (b.take 12)) ∧
      (s.time < tc → t.links.committed = true ∧ t.links.active = s.links.active ∧ t.links.epochTc = tc) ∧
      (tc ≤ s.time → flipped s t s.links.epoch (tc < s.time))) ∧
  (∀ (s : State) (port : PortId) (cr : Crypt) (x : Txn), ctlNext s port.val 7 x cr → port.val = s.links.parent → s.links.role ≠ 1 →
    s.links.inProg = true → s.links.epoch = ofBytes (slice (s.opened x cr).payload 0 4) →
    ∃ t, exec (.eabandon port cr) s = .next t.settleStop ∧ handedOn s t port.val 2 x cr ∧ sameMemory s t ∧ t.links.abandoned = true ∧
      t.links.inProg = false ∧ t.links.active = s.links.active ∧ t.links.epochCur = s.links.epochCur ∧
      ∀ n, n ∈ s.childPorts → ctlSent s t n 7 ((s.opened x cr).payload.take 4)) ∧
  (∀ s : State, s.links.inProg = true →
    (s.time < s.links.epochTc → exec .epochCommitTime s = .next s) ∧
    (s.links.epochTc ≤ s.time → s.links.committed = true →
      ∃ t, exec .epochCommitTime s = .next t ∧ flipped s t s.links.epoch False ∧ sameMemory s t) ∧
    (s.links.epochTc ≤ s.time → s.links.committed = false → s.links.role = 1 →
      ∃ t, exec .epochCommitTime s = .next t ∧ t.links.abandoned = true ∧ t.links.inProg = false ∧
        t.links.active = s.links.active ∧ sameMemory s t ∧
        ∀ n, n ∈ s.childPorts → ctlSent s t n 7 (toBytes 4 s.links.epoch))) ∧
  (∀ s : State, s.links.inProg = true → s.links.committed = false →
    (s.time < s.links.epochTc + 10000000 ∨ s.epochHeld = true → exec .epochAbandonTimeout s = .next s) ∧
    (s.links.epochTc + 10000000 ≤ s.time → s.epochHeld = false → ∃ t, exec .epochAbandonTimeout s = .next t ∧ t = { s with links := t.links } ∧
      t.links = { s.links with inProg := false, abandoned := true }))

/-! The global stop, snapshots, the error log and traces (15). -/

/-- A MARK of channel `ch` with an identity, made at a time, waits at port `n` or has been sent (R439). -/
def markPlaced (t : State) (n ch id now : Nat) : Prop :=
  ∃ g : SentFlit, g.kind = 3 ∧ g.ch = ch ∧ g.txn.addr = id ∧ g.txn.ctr = now ∧ (g ∈ (t.port n).txq ∨ Out.flit n g ∈ t.out)

/-- The module has entered a stop (R439, R514, R515, R517): its identity and cause, T0, a stamp for every powered unit, and MARKs on
channels 0 to 2 of every UP port to a module of its precinct. -/
def stopEntered (s t : State) (id cause : Nat) : Prop :=
  t.stop.stopped = true ∧ t.stop.all = true ∧ t.stop.id = id ∧ t.stop.cause = cause ∧ t.stop.t0 = s.time ∧ t.stop.reqOut = false ∧
    (∀ u, Table.get 0 t.stop.stamps u = if u ∈ s.poweredUnits then s.time else 0) ∧
    (∀ n ch, n < 96 → ch < 3 → (s.port n).state = 2 → (s.port n).peerPrec = s.links.precid → markPlaced t n ch id s.time) ∧
    sameMemory s t ∧ t.squares = s.squares

/-- The module has left a stop (R516, R518): resume MARKs where its MARKs went, and the timers of outstanding requests go on from where
they stood. With nothing held nothing else of memory or squares changes. -/
def stopLeft (s t : State) : Prop :=
  t.stop.stopped = false ∧ t.stop.all = false ∧ t.stop.heldWrites = [] ∧ t.stop.heldResets = [] ∧
    (s.stop.heldWrites = [] → s.stop.heldResets = [] →
      (∀ n ch, n ∈ s.stop.markPorts → ch < 3 → markPlaced t n ch (s.stop.id + 2 ^ 31) s.time) ∧
      t.links.reqs = s.links.reqs.map (fun r =>
        { r with sent := if r.sent < s.stop.t0 then r.sent + (s.time - s.stop.t0) else r.sent + (s.time - r.sent) }) ∧
      sameMemory s t ∧ t.squares = s.squares)

/-- A resume has begun (R518): with nothing received that waits at a port the stop ends at once; else the module stays stopped until the
links have handed on what they hold, and nothing else of the stop, of memory or of the squares changes. -/
def stopResumes (s t : State) : Prop :=
  (s.holdsFrom s.time = false → stopLeft s t) ∧
  (s.holdsFrom s.time = true → t.stop = { s.stop with ctlId := t.stop.ctlId, resuming := some s.time } ∧ sameMemory s t ∧
    t.squares = s.squares ∧ ∀ n ch, n ∈ s.stop.markPorts → ch < 3 → markPlaced t n ch (s.stop.id + 2 ^ 31) s.time)

/-- A MARK flit that an UP port accepts next (R402, R439). -/
def markTaken (s : State) (n : Nat) (f : Flit) : Prop :=
  flitHeard s n f 3 ∧ f.seq.toNat = (s.port n).rxSeq ∧ f.ch.val ≠ 3

/-- The global stop (R439, R440, R513, R518): GO on the stop owner, a STOPREQ that a child port of the owner receives, and the first
MARK stop the module; another module asks its parent with STOPREQ, once it can be sent; RESUME on a stopped owner and the stop's resume MARK begin
the resume, and the links hand on what they hold before the stop ends. That ALL sets with the stop (LOG 45), and that a module asks once
for a stop (LOG 68), are read from the manual. -/
def Obligations.StopsEnterAndLeave : Prop :=
  (∀ (s : State) (port : PortId) (f : Flit), markTaken s port.val f → markId f < 2 ^ 31 →
    (s.stop.stopped = false → ∃ t, exec (.mark port f) s = .next t ∧ stopEntered s t (markId f) 3) ∧
    (s.stop.stopped = true → ∃ t, exec (.mark port f) s = .next t ∧ t.stop = s.stop ∧ sameMemory s t ∧ t.squares = s.squares ∧
      (t.port port.val).rxSeq = ((s.port port.val).rxSeq + 1) % 65536)) ∧
  (∀ (s : State) (port : PortId) (f : Flit), markTaken s port.val f → 2 ^ 31 ≤ markId f →
    (s.linksHeld = true → s.stop.id = markId f - 2 ^ 31 → ∃ t, exec (.resumeMark port f) s = .next t ∧ stopResumes s t) ∧
    (s.linksHeld = false ∨ s.stop.id ≠ markId f - 2 ^ 31 →
      ∃ t, exec (.resumeMark port f) s = .next t ∧ t.stop = s.stop ∧ sameMemory s t ∧ t.squares = s.squares)) ∧
  (∀ (s : State) (port : PortId) (cr : Crypt) (x : Txn), ctlNext s port.val 8 x cr → s.stop.reqOut = false →
    (s.port port.val).child = true →
    let id := ofBytes (slice (s.opened x cr).payload 0 4) % 2 ^ 31
    let origin := ofBytes (slice (s.opened x cr).payload 4 2)
    (s.stopOwner = true → ∃ t, exec (.stopreq port cr) s = .next t.settleStop ∧ handedOn s t port.val 2 x cr ∧ stopEntered s t id 4) ∧
    (s.stopOwner = false → ∃ t, exec (.stopreq port cr) s = .next t.settleStop ∧ handedOn s t port.val 2 x cr ∧
      t.stop.reqOut = s.canCtl s.links.parent ∧ t.stop.stopped = false ∧ sameMemory s t ∧
      ctlSent s t s.links.parent 8 (toBytes 4 id ++ toBytes 2 origin))) ∧
  (∀ (s : State) (w : RegWrite), writeAllowed s 0x7000300 w (.stop 0) → w.val.toNat.testBit 0 = true → w.val.toNat.testBit 1 = false →
    let id := bits w.val.toNat 32 31
    (s.stop.stopped = false → s.stop.reqOut = false → s.stopOwner = true →
      ∃ t, exec (.obsStopGo w) s = .next t ∧ answered s t w ∧ t.stop.ctlId = id ∧ stopEntered s t id 1) ∧
    (s.stop.stopped = false → s.stop.reqOut = false → s.stopOwner = false →
      ∃ t, exec (.obsStopGo w) s = .next t ∧ answered s t w ∧ t.stop.ctlId = id ∧ t.stop.reqOut = s.canCtl s.links.parent ∧
        t.stop.stopped = false ∧ sameMemory s t ∧ ctlSent s t s.links.parent 8 (toBytes 4 id ++ toBytes 2 s.links.modnum)) ∧
    (s.stop.stopped = true ∨ s.stop.reqOut = true → ∃ t, exec (.obsStopGo w) s = .next t ∧ answered s t w ∧
      t = { s with stop := { s.stop with ctlId := id }, out := t.out, ctr := t.ctr })) ∧
  (∀ (s : State) (w : RegWrite), writeAllowed s 0x7000300 w (.stop 0) → w.val.toNat.testBit 0 = false → w.val.toNat.testBit 1 = true →
    (s.linksHeld = true → s.stopOwner = true → ∃ t, exec (.obsStopResume w) s = .next t ∧ stopResumes s t) ∧
    (s.linksHeld = false ∨ s.stopOwner = false → ∃ t, exec (.obsStopResume w) s = .next t ∧ answered s t w ∧
      t = { s with stop := { s.stop with ctlId := bits w.val.toNat 32 31 }, out := t.out, ctr := t.ctr }))

/-- Snapshots (R495 to R497, R501): GO sets LATE, or arms the tick and the window's end; as a tick is latched, the shadow of every unit
that was powered at it takes the counters as they stood then, and when the last tick is latched DONE sets, BUSY clears and UV names the
units that latched every tick. -/
def Obligations.SnapshotsLatch : Prop :=
  (∀ (s : State) (w : RegWrite), writeAllowed s 0x7000020 w (.snap 0x20) → w.val.toNat.testBit 0 = true →
    let n := s.snap
    let late := n.t < s.time + 1000 ∨ (n.end_ ≠ 0 ∧ n.end_ ≤ n.t)
    ∃ t, exec (.snapshotArm w) s = .next t ∧ answered s t w ∧ t = { s with snap := t.snap, out := t.out, ctr := t.ctr } ∧
      t.snap.done = (n.done && !w.val.toNat.testBit 9) ∧
      (n.busy = true → t.snap = { n with late := n.late && !w.val.toNat.testBit 10, done := t.snap.done }) ∧
      (n.busy = false → late → t.snap.late = true ∧ t.snap.busy = false) ∧
      (n.busy = false → ¬ late → t.snap.busy = true ∧ t.snap.armT = n.t ∧ t.snap.armEnd = n.end_ ∧ t.snap.held0 = none ∧
        t.snap.held1 = none ∧ t.snap.latched0 = false ∧ t.snap.late = (n.late && !w.val.toNat.testBit 10))) ∧
  (∀ (s : State) (h : SnapHold), s.snap.busy = true → s.snap.latched0 = false → s.snap.held0 = some h →
    ∃ t, exec .snapshotTick s = .next t ∧ t = { s with snap := t.snap } ∧
      (Table.wf 0 h.ctr = true → ∀ k, Table.get 0 t.snap.bank0 k =
        if k / 256 ∈ h.units then Table.get 0 h.ctr k else Table.get 0 s.snap.bank0 k) ∧
      (s.snap.armEnd = 0 → t.snap.done = true ∧ t.snap.busy = false ∧
        ∀ u, Table.get false t.snap.uv u = true ↔ u ∈ h.units) ∧
      (s.snap.armEnd ≠ 0 → t.snap.busy = true ∧ t.snap.latched0 = true ∧ t.snap.done = s.snap.done ∧ t.snap.uv = s.snap.uv)) ∧
  (∀ (s : State) (h : SnapHold), s.snap.busy = true → s.snap.latched0 = true → s.snap.held1 = some h →
    ∃ t, exec .snapshotTick s = .next t ∧ t = { s with snap := t.snap } ∧ t.snap.done = true ∧ t.snap.busy = false ∧
      (Table.wf 0 h.ctr = true → ∀ k, Table.get 0 t.snap.bank1 k =
        if k / 256 ∈ h.units then Table.get 0 h.ctr k else Table.get 0 s.snap.bank1 k) ∧
      ∀ u, Table.get false t.snap.uv u = true ↔ u ∈ h.units ∧ Table.get false s.snap.uvNext u = true)

/-- A ring in this module's memory may be written at slot `k` by a unit for a partition. -/
def slotWritable (s : State) (unit p base log2n k : Nat) : Prop :=
  writable s unit p (base + 32 * (k % 2 ^ log2n)) 32 true

/-- Records on their way (R502 to R506, R508 to R512, R563, R564): a record that arrives is queued, or dropped and counted when 256 wait;
the log numbers the record it accepts, keeps the last 8,192, writes it to the enabled ring, and lets its response go; enabling an
error ring copies the stored records to it in order; a trace mark is queued while class 5 is enabled; a trace record that reaches
the collector is written to its ring, or lost and counted; enabling a trace ring empties it. -/
def Obligations.RecordsReachTheirRings : Prop :=
  (∀ (s : State) (idx : Nat) (r : ErrRecord), s.elog.transit[idx]? = some r →
    (s.elog.queue.length < 256 → exec (.errorRecordArrive idx) s = .next { s with elog := { s.elog with
      transit := s.elog.transit.eraseIdx idx, queue := s.elog.queue ++ [r] } }) ∧
    (256 ≤ s.elog.queue.length → ∃ t, exec (.errorRecordArrive idx) s = .next t ∧ t.elog.queue = s.elog.queue ∧
      t.elog.store = s.elog.store ∧ t.elog.drop = min (s.elog.drop + 1) 4294967295 ∧ sameMemory s t ∧
      ∀ o, r.reply = .out o → t.out = o :: s.out)) ∧
  (∀ (s : State) (r : ErrRecord) (rest : List ErrRecord), s.elog.queue = r :: rest →
    let a := { r with seq := s.elog.next % 2 ^ 32, reply := .none }
    ∃ t, exec .errorRecordAccept s = .next t ∧ t.elog.queue = rest ∧ t.elog.next = s.elog.next + 1 ∧
      t.elog.store = (s.elog.store ++ [a]).drop (s.elog.store.length + 1 - 8192) ∧
      (∀ o, r.reply = .out o → t.out.head? = some o) ∧
      (s.elog.stopMask.testBit r.code = true → s.stop.stopped = false → s.stop.reqOut = false → s.stopOwner = true →
        t.stop.stopped = true ∧ t.stop.cause = 2 ∧ t.stop.id = s.elog.next % 2 ^ 32 % 2 ^ 31) ∧
      ((s.part 0).elog.log2n = 0 → (s.part r.part).elog.log2n = 0 → sameMemory s t) ∧
      (∀ p, p = r.part → (p = 0 ∨ (s.part 0).elog.log2n = 0) → r.bad = false →
        let g := (s.part p).elog
        g.log2n ≠ 0 → g.tail - g.head < 2 ^ g.log2n → slotWritable s unitElog p g.base g.log2n g.tail →
        let at_ := (g.base + 32 * (g.tail % 2 ^ g.log2n)) % 2 ^ 44
        t.bytes at_ 32 = recordBytes a ∧ sameMemoryBut s t at_ 32 ∧ (t.part p).elog.tail = g.tail + 1)) ∧
  (∀ (s : State) (p : PartId) (w : RegWrite), writeAllowed s (0x7001000 + 0x40 * p.val) w (.elog p.val 0) →
    let g := (s.part p.val).elog
    let base := w.val.toNat % 2 ^ 56 / 32 * 32
    let n := w.val.toNat % 32
    let m := max 4 (min 16 n)
    let due := s.elog.store.filter (fun r => decide (g.from_ ≤ r.seq) && (p.val == 0 || r.part == p.val))
    (n = 0 → ∃ t, exec (.obsElogRingWrite p w) s = .next t ∧ answered s t w ∧ sameMemory s t ∧
      (t.part p.val).elog = { g with base := base, log2n := 0 } ∧ ∀ q, q ≠ p.val → t.part q = s.part q) ∧
    (n ≠ 0 → g.ien = false → due.length ≤ 2 ^ m → (∀ r, r ∈ due → r.bad = false) →
      (∀ k, k < due.length → slotWritable s unitElog p.val base m k) →
      ∃ t, exec (.obsElogRingWrite p w) s = .next t ∧ answered s t w ∧
        (t.part p.val).elog = { g with base := base, log2n := m, tail := due.length } ∧
        (∀ k, (h : k < due.length) → t.bytes (base % 2 ^ 44 + 32 * k) 32 = recordBytes due[k]) ∧
        sameMemoryBut s t (base % 2 ^ 44) (32 * due.length))) ∧
  (∀ (s : State) (p : PartId) (w : RegWrite), writeAllowed s (0x7002000 + 0x40 * p.val) w (.trc p.val 0) →
    let g := (s.part p.val).trc
    let n := w.val.toNat % 32
    ∃ t, exec (.obsTrcRingWrite p w) s = .next t ∧ answered s t w ∧ t = { s with parts := t.parts, out := t.out, ctr := t.ctr } ∧
      (t.part p.val).trc = (if n = 0 then { g with base := w.val.toNat % 2 ^ 56 / 32 * 32, log2n := 0 }
        else { g with base := w.val.toNat % 2 ^ 56 / 32 * 32, log2n := max 6 (min 20 n), tail := 0, loss := 0 }) ∧
      ∀ q, q ≠ p.val → t.part q = s.part q) ∧
  (∀ (s : State) (p : PartId) (w : RegWrite), writeAllowed s (0x7002000 + 0x40 * p.val + 0x28) w (.trc p.val 0x28) →
    ((s.part p.val).trc.en.testBit 5 = true → (s.trcQ.filter (fun r => r.unit == w.unit)).length < 64 →
      ∃ t, exec (.obsTrcMark p w) s = .next t ∧ answered s t w ∧ t = { s with trcQ := t.trcQ, out := t.out, ctr := t.ctr } ∧
        t.trcQ = s.trcQ ++ [⟨p.val, 0x0B, p.val, w.unit, s.time, s.uncertain w.unit, w.val, 0⟩]) ∧
    ((s.part p.val).trc.en.testBit 5 = false →
      ∃ t, exec (.obsTrcMark p w) s = .next t ∧ answered s t w ∧ t = { s with out := t.out, ctr := t.ctr })) ∧
  (∀ (s : State) (idx : Nat) (r : TrcRecord), s.trcQ[idx]? = some r →
    (s.trcQ.take idx).any (fun x => x.unit == r.unit && x.ring == r.ring) = false →
    let g := (s.part r.ring).trc
    g.loss = 0 →
    (g.log2n = 0 → exec (.traceRecord idx) s = .next { s with trcQ := s.trcQ.eraseIdx idx }) ∧
    (g.log2n ≠ 0 → g.tail - g.head + 2 ≤ 2 ^ g.log2n → slotWritable s unitTrace r.ring g.base g.log2n g.tail →
      let at_ := (g.base + 32 * (g.tail % 2 ^ g.log2n)) % 2 ^ 44
      ∃ t, exec (.traceRecord idx) s = .next t ∧ t.trcQ = s.trcQ.eraseIdx idx ∧ t.bytes at_ 32 = traceBytes r ∧
        sameMemoryBut s t at_ 32 ∧ (t.part r.ring).trc = { g with tail := g.tail + 1 }) ∧
    (g.log2n ≠ 0 → 2 ^ g.log2n < g.tail - g.head + 2 →
      ∃ t, exec (.traceRecord idx) s = .next t ∧ t.trcQ = s.trcQ.eraseIdx idx ∧ sameMemory s t ∧
        (t.part r.ring).trc = { g with loss := 1, lossStamp := r.stamp, lost := min (g.lost + 1) 4294967295 }))

/-! The host port and the SMBus (18). -/

/-- A function of the port takes a memory request now: the port presents it, memory space is enabled, the request lies in its BAR, its
partition is not being reset, and in RECOVERY it reaches the recovery function's registers (R522 to R526). -/
def hostTaken (s : State) (r : HostRequest) : Prop :=
  s.portPresents = true ∧ s.functionPresent r.fn.val = true ∧ barTakes (s.part r.fn.val).fn r = true ∧
    (s.part r.fn.val).reset.resetting = false ∧ (s.boot.phase = 4 → recoveryTakes r = true)

/-- Register `r` lies at an offset of the register space, and a unit may reach it (R269, R293). -/
def registerAt (s : State) (unit off : Nat) (r : Reg) : Prop := off % 8 = 0 ∧ s.findReg unit (regBase + off) = .ok r

/-- Host requests (R523 to R530, R533, R534, R536, R537): a memory request that no function takes is Unsupported Request, or
dropped when it is a write; a read through BAR2 completes with the bytes, a write stores them, and one through BAR0 reads or writes
a register, and one through BAR4 an MSI-X table entry or the pending bits; a failing read completes with the status of its cause once
its record is accepted; no AtomicOp is completed otherwise; a configuration request is retried before the function is ready and has its
field's effect after; the last completion of an access gives its requester the bytes, and the first error or timeout an error; the SMBus
answers Block Reads of the listed codes at the module's address. From when the 20 ms count (LOG 37), the numbers of the completion
statuses (LOG 38), what a configuration write changes beside its field (LOG 39), and the entry's layout, the error bits and the Packet
Error Check (LOG 89) are the model's. -/
def Obligations.HostRequestsWork : Prop :=
  (∀ (s : State) (r : HostRequest), let p := r.fn.val
    (¬ hostTaken s r → r.write = true → exec (.hostMemRequest r) s = .next s) ∧
    (¬ hostTaken s r → r.write = false → ∃ t, exec (.hostMemRequest r) s = .next t ∧ t.out = .hostCpl p r.tag 1 [] :: s.out ∧
      t = { s with ctr := t.ctr, out := t.out }) ∧
    (hostTaken s r → s.power.state = 0 → (r.write = true → s.heldBehind (unitHost p) = false) → r.bar = .bar2 →
      let a := (s.part p).fn.haper + r.off
      placeOf s.isM a ≠ .reg → placeOf s.isM a ≠ .host → a < hostBase →
      let code := s.checkAcc (accFor (unitHost p) p a (hostKind r) true)
      (r.write = false → code = 0 → s.parityOf a r.len = 0 → ∃ t, exec (.hostMemRequest r) s = .next t ∧
        t.out = .hostCpl p r.tag 0 (s.bytes a r.len) :: s.out ∧ sameMemory s t ∧ t.elog = s.elog ∧ t.squares = s.squares) ∧
      (r.write = true → code = 0 → ∃ t, exec (.hostMemRequest r) s = .next t ∧ t.bytes a r.bytes.length = r.bytes ∧
        sameMemoryBut s t a r.bytes.length ∧ t.elog = s.elog ∧ t.out = s.out ∧ t.squares = s.squares) ∧
      (code ≠ 0 → ∃ t e, exec (.hostMemRequest r) s = .next t ∧ sameMemory s t ∧ t.elog.transit = s.elog.transit ++ [e] ∧
        e.code = code ∧ e.unit = unitHost p ∧ e.part = p ∧ e.addr = s.recordAddr (globalOf a) ∧ t.out = s.out ∧
        (t.part p).fn.aer = Nat.lor (s.part p).fn.aer (2 ^ if code = eUnmapped then 20 else 15) ∧ e.reply = (if r.write = true then .none else
          .out (.hostCpl p r.tag (if code = eUnmapped then 1 else 4) [])))) ∧
    (∀ x, hostTaken s r → s.power.state = 0 → (r.write = true → s.heldBehind (unitHost p) = false) → r.bar = .bar0 →
      registerAt s (unitHost p) r.off x →
      (r.write = false → r.len = 8 → s.mayRead x p = true → ∃ t, exec (.hostMemRequest r) s = .next t ∧
        t = { s with out := t.out, ctr := t.ctr } ∧ t.out = .hostCpl p r.tag 0 (toBytes 8 (s.regValue x p)) :: s.out) ∧
      (r.write = true → r.bytes.length = 8 → s.mayWrite x p = true → Table.get false s.badWrite (unitHost p) = false →
        let w := s.regWrite x ⟨unitHost p, r.fn, .full, BitVec.ofNat 64 (ofBytes r.bytes)⟩
        w.2 = 0 → ∃ t, exec (.hostMemRequest r) s = .next t ∧ t = { w.1 with ctr := t.ctr })) ∧
    (hostTaken s r → (r.write = true → s.heldBehind (unitHost p) = false) → r.bar = .bar4 → s.boot.phase ≠ 4 →
      let f := (s.part p).fn
      (∀ v, v < 2048 → r.off = 16 * v → r.len = 16 → r.write = false → Table.get 0 f.msixData v < 2 ^ 32 →
        exec (.hostMemRequest r) s = .next (s.emit (.hostCpl p r.tag 0 (toBytes 8 (Table.get 0 f.msixAddr v).toNat ++
          toBytes 4 (Table.get 0 f.msixData v) ++ toBytes 4 (if Table.get false f.unmasked v then 0 else 1))))) ∧
      (∀ v, v < 256 → r.off = 0x8000 + v → r.len = 1 → r.write = false → ∃ b : Byte,
        exec (.hostMemRequest r) s = .next (s.emit (.hostCpl p r.tag 0 [b])) ∧
          ∀ k, k < 8 → b.getLsbD k = Table.get false f.pend (8 * v + k)) ∧
      (∀ v, v < 2048 → r.off = 16 * v → r.bytes.length = 16 → r.write = true → f.pend = [] → (s.part p).reset.holdDone = false →
        ∃ t, exec (.hostMemRequest r) s = .next t ∧ t = { s with parts := t.parts } ∧ (∀ q, q ≠ p → t.part q = s.part q) ∧
          Table.get 0 (t.part p).fn.msixAddr v = BitVec.ofNat 64 (ofBytes (r.bytes.take 8) / 4 * 4) ∧
          Table.get 0 (t.part p).fn.msixData v = ofBytes (slice r.bytes 8 4) ∧
          Table.get false (t.part p).fn.unmasked v = !(ofBytes (slice r.bytes 12 4)).testBit 0))) ∧
  (∀ (s : State) (fn : PartId) (tag : Nat), ∃ t, exec (.hostAtomicop fn tag) s = .next t ∧
    t.out = .hostCpl fn.val tag 1 [] :: s.out ∧ t = { s with ctr := t.ctr, out := t.out }) ∧
  (∀ (s : State) (fn : PartId) (c : ConfigReq), let p := fn.val
    let f := (s.part p).fn
    let there := 3 ≤ s.boot.phase ∧ s.functionPresent p = true
    (s.boot.phase < 3 → exec (.configRequest fn c) s = .next (s.emit (.config p 2 0))) ∧
    (3 ≤ s.boot.phase → ¬ there → exec (.configRequest fn c) s = .next (s.emit (.config p 1 0))) ∧
    (there → c = .readId → exec (.configRequest fn c) s = .next (s.emit (.config p 0 (0x1F9E + 2 ^ 16 *
      (if s.boot.phase = 4 then 0x0C71 else if p = 0 then 0x0C70 else 0x0C72))))) ∧
    (there → c = .readSerial → exec (.configRequest fn c) s = .next (s.emit (.config p 0 s.boot.serialLo.toNat))) ∧
    (∀ x, there → c = .read x → exec (.configRequest fn c) s = .next (s.emit (.config p 0 (s.configField p x)))) ∧
    (there → c = .read .totalVfs → exec (.configRequest fn c) s =
      .next (s.emit (.config p 0 (if s.boot.phase = 3 ∧ p = 0 then 15 else 0)))) ∧
    (∀ b, there → ∃ t, exec (.configRequest fn c) s = .next t ∧ t.out.head? = some (.config p 0 (s.configRead p c)) ∧
      sameMemory s t ∧
      (c = .powerState b → (t.part p).fn = { f with d3 := b }) ∧ (c = .memorySpace b → (t.part p).fn = { f with memSpace := b }) ∧
      (c = .busMaster b → (t.part p).fn = { f with busMaster := b }) ∧
      (c = .atomicEnable b → (t.part p).fn = { f with atomicEn := b }) ∧
      (c = .msixEnable b → s.boot.phase = 3 → (t.part p).fn.msixEn = b) ∧
      (c = .functionMask b → s.boot.phase = 3 → (t.part p).fn.fmask = b) ∧
      (∀ n, c = .maxPayload n → (t.part p).fn = { f with mps := n }) ∧ (∀ n, c = .maxReadRequest n → (t.part p).fn = { f with mrrs := n }) ∧
      (∀ m i, c = .aerClear m → (t.part p).fn.aer.testBit i = (f.aer.testBit i && !m.testBit i)) ∧
      ∀ k, c = .bar2Size k → s.boot.phase = 3 → 28 ≤ k → k ≤ 42 →
        (t.part p).fn = { f with bar2 := k, haper := f.haper / 2 ^ k * 2 ^ k })) ∧
  (∀ (s : State) (tag : Nat) (r : HostReq) (e : HostTag), r ∈ s.hostReqs → e ∈ r.tags → e.tag = tag → s.hostTags.Nodup →
    (∀ y, y ∈ s.hostReqs → y.sent = y.len ∧ y.tags ≠ []) →
    let got := fun (bs : List Byte) => Table.set [] r.got e.off ((bs ++ List.replicate e.len 0).take e.len)
    (∀ bs, r.tags = [e] → r.failed = false → ∃ t, exec (.hostWindowCompletion tag (.success bs)) s = .next t ∧
      (∀ y, y ∈ t.hostReqs → ∀ x, x ∈ y.tags → x.tag ≠ tag) ∧ sameMemory s t ∧
      ∀ c, r.waiter = .core c → t.out = .resp (unitCore c) 0 ((got bs).flatMap Prod.snd) :: s.out) ∧
    (∀ bs, r.tags ≠ [e] → ∃ t, exec (.hostWindowCompletion tag (.success bs)) s = .next t ∧ t = { s with hostReqs := t.hostReqs } ∧
      { r with tags := r.tags.filter (fun x => x.tag != tag), got := got bs } ∈ t.hostReqs) ∧
    (∀ (i : Instr) (code : Nat), (i, code) ∈ [(.hostWindowCompletion tag .unsupportedRequest, eUnmapped),
        (.hostWindowCompletion tag .completerAbort, ePermission), (.hostWindowCompletion tag .requestRetry, ePermission),
        (.hostWindowCompletion tag .poisoned, eParity), (.hostCompletionTimeout tag, eTimeout)] →
      (r.failed = false → logsError s r.waiter → ∃ t x, exec i s = .next t ∧
        (∀ y, y ∈ t.hostReqs → ∀ z, z ∈ y.tags → z.tag ≠ tag) ∧ sameMemory s t ∧ t.elog.transit = s.elog.transit ++ [x] ∧ x.code = code ∧
        x.unit = r.unit ∧ x.part = r.part ∧ x.addr = s.recordAddr (globalOf r.addr) ∧ x.reply = replyOf r.waiter code) ∧
      (r.failed = true → ∃ t, exec i s = .next t ∧ t = { s with hostReqs := t.hostReqs } ∧
        ∀ y, y ∈ t.hostReqs → ∀ z, z ∈ y.tags → z.tag ≠ tag))) ∧
  (∀ (s : State) (x : SmbusTransaction) (code : BitVec 8),
    let ours := x.addr.toNat = 0x58 + s.power.smbAddr % 4
    let live := s.power.gates = true ∧ 20000000 ≤ s.power.age
    let answer := fun (bs : List Byte) => if x.pec then bs ++ pecOf x.addr.toNat code.toNat bs else bs
    (live → ours → x.kind = .blockRead code → ∀ bs, s.smbusValue code.toNat = some bs →
      exec (.smbusBlockRead x) s = .next (s.emit (.smbus true (answer bs)))) ∧
    (live → ours → x.kind = .blockRead code → code = 0 →
      exec (.smbusBlockRead x) s = .next (s.emit (.smbus true (answer (toBytes 8 (0xB0 + s.boot.identPart * 2 ^ 8)))))) ∧
    (live → ours → x.kind = .blockRead code → code = 9 →
      exec (.smbusBlockRead x) s = .next (s.emit (.smbus true (answer (toBytes 8 (s.regValue .fenceSts 0)))))) ∧
    (live → ours → (x.kind = .blockRead code ∧ 10 ≤ code.toNat) ∨ x.kind = .write code →
      exec (.smbusBlockRead x) s = .next (s.emit (.smbus false []))) ∧
    (¬ live ∨ ¬ ours → exec (.smbusBlockRead x) s = .next s))

/-! Register writes (00, 10). -/

/-- The offset that a write of a half names: the upper half lies 4 bytes on (R7). -/
def halfOffset (off : Nat) (h : Half) : Nat := off / 8 * 8 + (if h = .hi then 4 else 0)

/-- A write to an offset of the register space is performed now: nothing holds it, and recovery does not hide the register (R311, R324,
R481, R514). -/
def writeGoes (s : State) (off : Nat) (w : RegWrite) : Prop :=
  s.registerReached off = true ∧ s.coreHolds w.unit = false ∧ s.heldBehind w.unit = false

/-- A write of any half that reaches register `r` from a unit that may write it, with its data whole (R7, R291, R293). -/
def writeReaches (s : State) (off : Nat) (w : RegWrite) (r : Reg) : Prop :=
  s.findReg w.unit (regBase + halfOffset off w.half) = .ok r ∧ s.mayWrite r w.part.val = true ∧ writeGoes s off w ∧
    Table.get false s.badWrite w.unit = false

/-- Writes of the registers whose write has no further effect (R6, R7, R133, R205, R250, R351, R376, R381, R418, R419, R425, R464,
R483, R507, R520, R532): a write of 64 bits, or of one half, sets the fields it covers, by their access codes, and is answered; one
that its unit may not make, or that finds no register, changes nothing but the log, with one record. Hall counters take 64 bits
only. -/
def Obligations.RegistersTakeWrites : Prop :=
  (∀ (s : State) (off code : Nat) (w : RegWrite), s.findReg w.unit (regBase + halfOffset off w.half) = .error code → code ≠ 0 →
    s.power.state = 0 → writeGoes s off w →
    ∃ t e, exec (.registerWrite off w) s = .next t ∧ t = { s with elog := { s.elog with transit := s.elog.transit ++ [e] } } ∧
      e.code = code ∧ e.unit = w.unit ∧ e.part = w.part.val ∧ e.reply = .out (.resp w.unit code [])) ∧
  (∀ (s : State) (off : Nat) (w : RegWrite) (r : Reg), w.half = .full → s.findReg w.unit (regBase + halfOffset off .full) = .ok r →
    s.mayWrite r w.part.val = false → (r.wakes = true → s.power.state = 0) → writeGoes s off w →
    ∃ t e, exec (.registerWrite off w) s = .next t ∧ t = { s with elog := { s.elog with transit := s.elog.transit ++ [e] } } ∧
      e.code = ePermission ∧ e.unit = w.unit ∧ e.part = w.part.val ∧ e.addr = s.recordAddr (globalOf (regBase + off / 8 * 8)) ∧
      e.reply = .out (.resp w.unit ePermission [])) ∧
  (∀ (s : State) (off : Nat) (w : RegWrite) (r : Reg), writeReaches s off w r →
    let v := w.val.toNat
    let merged := mergeHalf w.half
    let becomes := fun (u : State) => ∃ t, exec (.registerWrite off w) s = .next t ∧ t = { u with out := t.out, ctr := t.ctr } ∧
      t.out = .resp w.unit 0 [] :: u.out
    (∀ c, r = .hallCtr c → w.half = .full → becomes { s with hallCtr := Table.set 0 s.hallCtr c w.val }) ∧
    (∀ c, r = .hallCtr c → w.half ≠ .full → ∃ t e, exec (.registerWrite off w) s = .next t ∧
      t = { s with elog := { s.elog with transit := s.elog.transit ++ [e] } } ∧ e.code = eAlign) ∧
    (∀ p, r = .qos p → w.half ≠ .hi → becomes (s.modPart p (fun x =>
      { x with qosHall := bits v 0 8, qosMem := bits v 8 8, qosBrg := bits v 16 8, qosLnk := bits v 24 8 }))) ∧
    (∀ p, r = .hostWin p 8 → becomes (s.modPart p (fun x => { x with fn := { x.fn with hbase := merged x.fn.hbase v / 4096 * 4096 } }))) ∧
    (r = .bootEntry → becomes { s with boot := { s.boot with entry := merged s.boot.entry v % 2 ^ 56 / 4 * 4 } }) ∧
    (∀ p, r = .mbArg p 0 → becomes (s.modPart p (fun x =>
      { x with mbox := { x.mbox with arg0 := BitVec.ofNat 64 (merged x.mbox.arg0.toNat v) } }))) ∧
    (∀ p, r = .rtab p false → becomes (s.modPart p (fun x => { x with rtabBase := merged x.rtabBase v % 2 ^ 44 / 32 * 32 }))) ∧
    (∀ p, r = .rtab p true → w.half ≠ .hi → becomes (s.modPart p (fun x => { x with rtabCnt := min 64 (v % 128) }))) ∧
    (∀ p, r = .pfx p 0 → becomes (s.modPart p (fun x => { x with pfxBase := merged x.pfxBase v % 2 ^ 44 / 64 * 64 }))) ∧
    (r = .stopMask → w.half ≠ .hi → becomes { s with elog := { s.elog with stopMask := v % 65536 } }) ∧
    (r = .snap 0x10 → becomes { s with snap := { s.snap with t := merged s.snap.t v } }) ∧
    (r = .snap 0x18 → becomes { s with snap := { s.snap with end_ := merged s.snap.end_ v } }) ∧
    (r = .lnk 0x10 → w.half ≠ .hi → becomes { s with links := { s.links with timeout := max 1 (v % 65536) } }) ∧
    (r = .pwr 0x10 → w.half ≠ .hi → becomes { s with power := { s.power with
      window := max 1 (min 20 (bits v 16 5)), limit := max 1000 (min 3400 (v % 4096)) } }) ∧
    (∀ b m i, r = .route b m i → let k := 16384 * b + 4 * m + i
      let x := merged (Table.get 0 s.links.route k).toNat v
      let word := BitVec.ofNat 64 (x % 2 ^ 45 + (if x.testBit 63 then 2 ^ 63 else 0))
      becomes { s with links := { s.links with route := Table.set 0 s.links.route k word } }) ∧
    (∀ i, r = .pair i → w.half = .full →
      let entry : Pair := ⟨v.testBit 63, bits v 32 12, bits v 24 4, bits v 16 4, bits v 0 10⟩
      becomes { s with links := { s.links with pairs := Table.set {} s.links.pairs i entry } }))

/-- What reset leaves (R405, R429, R430, R434, R436, R437, R464, R474, R499, R507, R532; the values that the Reset columns give): the
links are DOWN with full credits, the module has no identity, free-runs locked, and no epoch runs; the power registers hold their
limits; every queue, extent, square and host-class core is unowned, cores halted; no launch, record, snapshot or stop exists. Memory is canonical
and lists nothing, no command waits and nothing has left the module: these three are the model's (LOG 1, LOG 4, LOG 9). -/
def Obligations.ResetLeavesRegisters : Prop :=
  let s := State.reset
  (∀ n, (s.port n).state = 0 ∧ (s.port n).en = true ∧ (s.port n).child = false ∧ (s.port n).peerM = 0xFFF ∧ (s.port n).peerP = 0x7F ∧
    (s.port n).retrains = 0 ∧ (s.port n).credReq = 1024 ∧ (s.port n).credRsp = 1024 ∧ (s.port n).credCtl = 32) ∧
  s.links.modnum = 0xFFF ∧ s.links.precid = 0 ∧ s.links.parent = 0x7F ∧ s.links.tlock = true ∧ s.links.timeout = 100 ∧
  s.links.nmem = 1 ∧ s.links.role = 0 ∧ s.links.epochCur = 0 ∧ s.links.inProg = false ∧ s.links.active = 0 ∧
  s.power.limit = 3200 ∧ s.power.window = 2 ∧ s.power.tjt = 95 ∧ s.power.ramp = 10 ∧ s.power.target = 1200 ∧ s.power.state = 0 ∧
  (∀ q, (s.queue q).bound = false) ∧ (∀ n, (s.extent n).valid = false) ∧ (∀ u, (s.owner u).valid = false) ∧
  (∀ c, (s.hart c).halted = true ∧ (s.hart c).valid = false) ∧ (∀ u c, s.squareCounter u c = 0) ∧ (∀ c, s.hallCounter c = 0) ∧
  (∀ p, (s.part p).qosHall = 0x10 ∧ (s.part p).qosMem = 0x10 ∧ (s.part p).qosBrg = 0x10 ∧ (s.part p).qosLnk = 0x10 ∧
    (s.part p).fn.haper = 0 ∧ (s.part p).fn.hbase = 0 ∧ (s.part p).fn.hsize = 0) ∧
  s.launches = [] ∧ s.elog.store = [] ∧ s.snap.busy = false ∧ s.stop.stopped = false ∧ s.time = 0 ∧
  (∀ a, s.byte a = 0) ∧ Memory.wf s.mem = true ∧ s.pending = [] ∧ s.out = []
end

