-- ==== Sys2Proof/Laws/Table.lean ====
section
/-! SUPPORT. The laws of the sparse tables: what a read finds after a write, an erasure, a clearing or a range write, and
that every one of them keeps the canonical form. -/

namespace Sys2Proof.Machine

variable {α : Type}

/-! Reading after writing. -/

theorem Table.get_erase (d : α) (t : Table α) (k j : Nat) :
    Table.get d (Table.erase t k) j = if j = k then d else Table.get d t j := by
  induction t with
  | nil => simp [Table.erase, Table.get]
  | cons e r ih =>
    by_cases h : e.1 = k
    · simp only [Table.erase, h, if_true, ih, Table.get]
      by_cases hj : j = k
      · simp [hj]
      · have : ¬ k = j := fun x => hj x.symm
        simp [hj, this]
    · simp only [Table.erase, h, if_false, Table.get, ih]
      by_cases hj : j = k
      · subst hj; simp [h]
      · simp [hj]

theorem Table.get_insert (d : α) (t : Table α) (k : Nat) (v : α) (j : Nat)
    (hk : ∀ e, e ∈ t → e.1 ≠ k) : Table.get d (Table.insert t k v) j = if j = k then v else Table.get d t j := by
  induction t with
  | nil =>
    by_cases hj : j = k
    · rw [if_pos hj, hj]; exact if_pos rfl
    · rw [if_neg hj]; exact if_neg (fun x => hj x.symm)
  | cons e r ih =>
    have hr : ∀ x, x ∈ r → x.1 ≠ k := fun x hx => hk x (List.mem_cons_of_mem _ hx)
    have he : e.1 ≠ k := hk e (List.mem_cons_self ..)
    by_cases hlt : k < e.1
    · simp only [Table.insert, hlt, if_true, Table.get]
      by_cases hj : j = k
      · simp [hj]
      · have : ¬ k = j := fun x => hj x.symm
        simp [hj, this]
    · simp only [Table.insert, hlt, if_false, Table.get, ih hr]
      by_cases hj : j = k
      · subst hj; simp [he]
      · simp [hj]

theorem Table.not_mem_erase (t : Table α) (k : Nat) : ∀ e, e ∈ Table.erase t k → e.1 ≠ k := by
  induction t with
  | nil => simp [Table.erase]
  | cons x r ih =>
    intro e he
    by_cases h : x.1 = k
    · simp only [Table.erase, h, if_true] at he; exact ih e he
    · simp only [Table.erase, h, if_false, List.mem_cons] at he
      rcases he with rfl | he
      · exact h
      · exact ih e he

/-- A read after a write of one key. -/
theorem Table.get_set [DecidableEq α] (d : α) (t : Table α) (k : Nat) (v : α) (j : Nat) :
    Table.get d (Table.set d t k v) j = if j = k then v else Table.get d t j := by
  unfold Table.set
  by_cases hv : v = d
  · simp only [hv, if_true, Table.get_erase]
  · simp only [hv, if_false]
    rw [Table.get_insert _ _ _ _ _ (Table.not_mem_erase t k), Table.get_erase]
    by_cases hj : j = k <;> simp [hj]

@[simp] theorem Table.get_set_same [DecidableEq α] (d : α) (t : Table α) (k : Nat) (v : α) :
    Table.get d (Table.set d t k v) k = v := by simp [Table.get_set]

theorem Table.get_set_other [DecidableEq α] (d : α) (t : Table α) (k : Nat) (v : α) (j : Nat) (h : j ≠ k) :
    Table.get d (Table.set d t k v) j = Table.get d t j := by simp [Table.get_set, h]

/-- A read after the write of a list: inside the range the list's value, elsewhere what was there. -/
theorem Table.get_setList [DecidableEq α] (d : α) (vs : List α) (t : Table α) (k j : Nat) :
    Table.get d (Table.setList d t k vs) j = if k ≤ j ∧ j < k + vs.length then vs.getD (j - k) d else Table.get d t j := by
  induction vs generalizing t k with
  | nil => rw [if_neg (by simp only [List.length_nil]; omega)]; rfl
  | cons v r ih =>
    rw [Table.setList, ih, Table.get_set, List.length_cons]
    by_cases h1 : k + 1 ≤ j ∧ j < k + 1 + r.length
    · have h2 : k ≤ j ∧ j < k + (r.length + 1) := by omega
      have h3 : j - k = (j - (k + 1)) + 1 := by omega
      rw [if_pos h1, if_pos h2, h3]; rfl
    · rw [if_neg h1]
      by_cases h4 : j = k
      · have h3 : k ≤ j ∧ j < k + (r.length + 1) := by omega
        have h5 : j - k = 0 := by omega
        rw [if_pos h4, if_pos h3, h5]; rfl
      · have h2 : ¬ (k ≤ j ∧ j < k + (r.length + 1)) := by omega
        rw [if_neg h4, if_neg h2]

/-- A read after a range is cleared. -/
theorem Table.get_clear (d : α) (t : Table α) (lo hi j : Nat) :
    Table.get d (Table.clear t lo hi) j = if lo ≤ j ∧ j < hi then d else Table.get d t j := by
  induction t with
  | nil => simp [Table.clear, Table.get]
  | cons e r ih =>
    have hc : Table.clear (e :: r) lo hi = if lo ≤ e.1 ∧ e.1 < hi then Table.clear r lo hi else e :: Table.clear r lo hi := by
      by_cases h : lo ≤ e.1 ∧ e.1 < hi
      · simp [Table.clear, List.filter, h]
      · have : (decide (lo ≤ e.1) && decide (e.1 < hi)) = false := by simpa using h
        simp [Table.clear, List.filter, h, this]
    rw [hc]
    by_cases h : lo ≤ e.1 ∧ e.1 < hi
    · simp only [h, and_self, if_true, ih, Table.get]
      by_cases he : e.1 = j
      · subst he; simp [h]
      · simp [he]
    · simp only [h, if_false, Table.get, ih]
      by_cases he : e.1 = j
      · subst he; simp [h]
      · simp [he]

@[simp] theorem Table.length_getList (d : α) (t : Table α) (k n : Nat) : (Table.getList d t k n).length = n := by
  induction n generalizing k with
  | zero => rfl
  | succ n ih => simp [Table.getList, ih]

theorem Table.getElem_getList (d : α) (t : Table α) (k n i : Nat) (h : i < (Table.getList d t k n).length) :
    (Table.getList d t k n)[i] = Table.get d t (k + i) := by
  induction n generalizing k i with
  | zero => simp at h
  | succ n ih =>
    cases i with
    | zero => rfl
    | succ i => simp only [Table.getList, List.getElem_cons_succ, ih]; congr 1; omega

/-- What was written as a list reads back as it. -/
theorem Table.getList_setList [DecidableEq α] (d : α) (vs : List α) (t : Table α) (k : Nat) :
    Table.getList d (Table.setList d t k vs) k vs.length = vs := by
  apply List.ext_getElem (by simp)
  intro i h1 h2
  rw [Table.getElem_getList, Table.get_setList]
  simp [h2]

/-- Two tables that read alike over a range list alike. -/
theorem Table.getList_congr (d : α) (t u : Table α) (k n : Nat) (h : ∀ j, k ≤ j → j < k + n → Table.get d t j = Table.get d u j) :
    Table.getList d t k n = Table.getList d u k n := by
  apply List.ext_getElem (by simp)
  intro i h1 h2
  rw [Table.getElem_getList, Table.getElem_getList]
  exact h _ (by omega) (by simp at h1; omega)

/-! The canonical form. -/

variable [DecidableEq α]

theorem Table.wfFrom_mono {d : α} {m n : Nat} {t : Table α} (h : m ≤ n) (w : Table.wfFrom d n t = true) :
    Table.wfFrom d m t = true := by
  cases t with
  | nil => rfl
  | cons e r => simp only [Table.wfFrom, Bool.and_eq_true, decide_eq_true_eq] at *; exact ⟨⟨by omega, w.1.2⟩, w.2⟩

theorem Table.wfFrom_erase {d : α} {n : Nat} {t : Table α} (k : Nat) (w : Table.wfFrom d n t = true) :
    Table.wfFrom d n (Table.erase t k) = true := by
  induction t generalizing n with
  | nil => rfl
  | cons e r ih =>
    simp only [Table.wfFrom, Bool.and_eq_true, decide_eq_true_eq] at w
    by_cases h : e.1 = k
    · simp only [Table.erase, h, if_true]
      exact Table.wfFrom_mono (by omega) (ih w.2)
    · simp only [Table.erase, h, if_false, Table.wfFrom, Bool.and_eq_true, decide_eq_true_eq]
      exact ⟨w.1, ih w.2⟩

theorem Table.wfFrom_insert {d v : α} {n k : Nat} {t : Table α} (hv : v ≠ d) (hn : n ≤ k) (hk : ∀ e, e ∈ t → e.1 ≠ k)
    (w : Table.wfFrom d n t = true) : Table.wfFrom d n (Table.insert t k v) = true := by
  induction t generalizing n with
  | nil => simp [Table.insert, Table.wfFrom, hv, hn]
  | cons e r ih =>
    simp only [Table.wfFrom, Bool.and_eq_true, decide_eq_true_eq] at w
    have he : e.1 ≠ k := hk e (List.mem_cons_self ..)
    by_cases h : k < e.1
    · simp only [Table.insert, h, if_true, Table.wfFrom, Bool.and_eq_true, decide_eq_true_eq]
      exact ⟨⟨hn, hv⟩, ⟨by omega, w.1.2⟩, w.2⟩
    · simp only [Table.insert, h, if_false, Table.wfFrom, Bool.and_eq_true, decide_eq_true_eq]
      exact ⟨w.1, ih (by omega) (fun x hx => hk x (List.mem_cons_of_mem _ hx)) w.2⟩

/-- A write keeps the canonical form. -/
theorem Table.wf_set {d : α} {t : Table α} (k : Nat) (v : α) (w : Table.wf d t = true) : Table.wf d (Table.set d t k v) = true := by
  unfold Table.wf Table.set at *
  by_cases hv : v = d
  · simp only [hv, if_true]; exact Table.wfFrom_erase k w
  · simp only [hv, if_false]
    exact Table.wfFrom_insert hv (Nat.zero_le _) (Table.not_mem_erase t k) (Table.wfFrom_erase k w)

/-- The write of a list keeps the canonical form. -/
theorem Table.wf_setList {d : α} (vs : List α) {t : Table α} (k : Nat) (w : Table.wf d t = true) :
    Table.wf d (Table.setList d t k vs) = true := by
  induction vs generalizing t k with
  | nil => exact w
  | cons v r ih => exact ih _ (Table.wf_set k v w)

theorem Table.wfFrom_filter {d : α} {n : Nat} {t : Table α} (p : Nat × α → Bool) (w : Table.wfFrom d n t = true) :
    Table.wfFrom d n (t.filter p) = true := by
  induction t generalizing n with
  | nil => rfl
  | cons e r ih =>
    simp only [Table.wfFrom, Bool.and_eq_true, decide_eq_true_eq] at w
    by_cases h : p e = true
    · simp only [List.filter, h, Table.wfFrom, Bool.and_eq_true, decide_eq_true_eq]; exact ⟨w.1, ih w.2⟩
    · simp only [List.filter, h]; exact Table.wfFrom_mono (by omega) (ih w.2)

/-- Clearing a range keeps the canonical form. -/
theorem Table.wf_clear {d : α} {t : Table α} (lo hi : Nat) (w : Table.wf d t = true) : Table.wf d (Table.clear t lo hi) = true :=
  Table.wfFrom_filter _ w

/-! Range writes in one pass. -/

theorem Table.wfFrom_append {d : α} {n m : Nat} {t u : Table α} (ht : Table.wfFrom d n t = true)
    (hb : ∀ e, e ∈ t → e.1 < m) (hn : n ≤ m) (hu : Table.wfFrom d m u = true) : Table.wfFrom d n (t ++ u) = true := by
  induction t generalizing n with
  | nil => exact Table.wfFrom_mono hn hu
  | cons e r ih =>
    simp only [Table.wfFrom, Bool.and_eq_true, decide_eq_true_eq] at ht
    simp only [List.cons_append, Table.wfFrom, Bool.and_eq_true, decide_eq_true_eq]
    have he := hb e (List.mem_cons_self ..)
    exact ⟨ht.1, ih ht.2 (fun x hx => hb x (List.mem_cons_of_mem _ hx)) (by omega)⟩

theorem Table.wfFrom_above {d : α} {n m : Nat} {t : Table α} (ht : Table.wfFrom d n t = true) (hb : ∀ e, e ∈ t → m ≤ e.1) :
    Table.wfFrom d m t = true := by
  cases t with
  | nil => rfl
  | cons e r =>
    simp only [Table.wfFrom, Bool.and_eq_true, decide_eq_true_eq] at *
    exact ⟨⟨hb e (List.mem_cons_self ..), ht.1.2⟩, ht.2⟩

theorem Table.wfFrom_numbered {d : α} (vs : List α) (lo k : Nat) :
    Table.wfFrom d (lo + k) (((vs.zipIdx k).map (fun x => (lo + x.2, x.1))).filter (fun e => decide (e.2 ≠ d))) = true := by
  induction vs generalizing k with
  | nil => rfl
  | cons v r ih =>
    have h := ih (k + 1)
    by_cases hv : v = d
    · simp only [List.zipIdx_cons, List.map_cons, List.filter, hv, ne_eq, not_true_eq_false, decide_false]
      exact Table.wfFrom_mono (by omega) h
    · simp only [List.zipIdx_cons, List.map_cons, List.filter, ne_eq, hv, not_false_eq_true, decide_true, Table.wfFrom,
        Bool.and_eq_true, decide_eq_true_eq]
      exact ⟨⟨Nat.le_refl _, trivial⟩, h⟩

/-- The write of a range in one pass keeps the canonical form. -/
theorem Table.wf_putRange {d : α} {t : Table α} (lo : Nat) (vs : List α) (w : Table.wf d t = true) :
    Table.wf d (Table.putRange d t lo vs) = true := by
  unfold Table.wf Table.putRange at *
  have mid := Table.wfFrom_numbered (d := d) vs lo 0
  have hi := Table.wfFrom_above (m := lo + vs.length) (Table.wfFrom_filter (fun e => decide (lo + vs.length ≤ e.1)) w)
    (fun e he => by simpa using (List.mem_filter.mp he).2)
  refine Table.wfFrom_append (m := lo + vs.length) ?_ ?_ (Nat.zero_le _) hi
  · refine Table.wfFrom_append (m := lo) (Table.wfFrom_filter _ w) ?_ (Nat.zero_le _) (by simpa using mid)
    intro e he; simpa using (List.mem_filter.mp he).2
  · intro e he
    rcases List.mem_append.mp he with he | he
    · have := (List.mem_filter.mp he).2; simp at this; omega
    · have h := (List.mem_filter.mp he).1
      obtain ⟨x, hx, rfl⟩ := List.mem_map.mp h
      have := List.snd_lt_of_mem_zipIdx hx
      simp at this ⊢; omega

end Sys2Proof.Machine
end

