-- ==== Sys2Proof/Laws/State.lean ====
section
/-! SUPPORT. What each named update of the state leaves alone: one lemma per field, and per accessor, per update; and what an
accessor reads after the update of its own table. -/

namespace Sys2Proof.Machine

variable (s : State)

/-! `setSq` -/

@[simp] theorem State.setSq_pending (u : Nat) (v : Square) : (s.setSq u v).pending = s.pending := rfl
@[simp] theorem State.setSq_out (u : Nat) (v : Square) : (s.setSq u v).out = s.out := rfl
@[simp] theorem State.setSq_freeCtr (u : Nat) (v : Square) : (s.setSq u v).freeCtr = s.freeCtr := rfl
@[simp] theorem State.setSq_isM (u : Nat) (v : Square) : (s.setSq u v).isM = s.isM := rfl
@[simp] theorem State.setSq_time (u : Nat) (v : Square) : (s.setSq u v).time = s.time := rfl
@[simp] theorem State.setSq_replicas (u : Nat) (v : Square) : (s.setSq u v).replicas = s.replicas := rfl
@[simp] theorem State.setSq_mem (u : Nat) (v : Square) : (s.setSq u v).mem = s.mem := rfl
@[simp] theorem State.setSq_parity (u : Nat) (v : Square) : (s.setSq u v).parity = s.parity := rfl
@[simp] theorem State.setSq_retries (u : Nat) (v : Square) : (s.setSq u v).retries = s.retries := rfl
@[simp] theorem State.setSq_resv (u : Nat) (v : Square) : (s.setSq u v).resv = s.resv := rfl
@[simp] theorem State.setSq_badWrite (u : Nat) (v : Square) : (s.setSq u v).badWrite = s.badWrite := rfl
@[simp] theorem State.setSq_sqCtr (u : Nat) (v : Square) : (s.setSq u v).sqCtr = s.sqCtr := rfl
@[simp] theorem State.setSq_sqOwn (u : Nat) (v : Square) : (s.setSq u v).sqOwn = s.sqOwn := rfl
@[simp] theorem State.setSq_extents (u : Nat) (v : Square) : (s.setSq u v).extents = s.extents := rfl
@[simp] theorem State.setSq_fences (u : Nat) (v : Square) : (s.setSq u v).fences = s.fences := rfl
@[simp] theorem State.setSq_harts (u : Nat) (v : Square) : (s.setSq u v).harts = s.harts := rfl
@[simp] theorem State.setSq_parts (u : Nat) (v : Square) : (s.setSq u v).parts = s.parts := rfl
@[simp] theorem State.setSq_mintHart (u : Nat) (v : Square) : (s.setSq u v).mintHart = s.mintHart := rfl
@[simp] theorem State.setSq_mintVec (u : Nat) (v : Square) : (s.setSq u v).mintVec = s.mintVec := rfl
@[simp] theorem State.setSq_mintItype (u : Nat) (v : Square) : (s.setSq u v).mintItype = s.mintItype := rfl
@[simp] theorem State.setSq_rstLast (u : Nat) (v : Square) : (s.setSq u v).rstLast = s.rstLast := rfl
@[simp] theorem State.setSq_numVfs (u : Nat) (v : Square) : (s.setSq u v).numVfs = s.numVfs := rfl
@[simp] theorem State.setSq_vfEnable (u : Nat) (v : Square) : (s.setSq u v).vfEnable = s.vfEnable := rfl
@[simp] theorem State.setSq_queues (u : Nat) (v : Square) : (s.setSq u v).queues = s.queues := rfl
@[simp] theorem State.setSq_hall (u : Nat) (v : Square) : (s.setSq u v).hall = s.hall := rfl
@[simp] theorem State.setSq_launches (u : Nat) (v : Square) : (s.setSq u v).launches = s.launches := rfl
@[simp] theorem State.setSq_nextLaunch (u : Nat) (v : Square) : (s.setSq u v).nextLaunch = s.nextLaunch := rfl
@[simp] theorem State.setSq_hallCtr (u : Nat) (v : Square) : (s.setSq u v).hallCtr = s.hallCtr := rfl
@[simp] theorem State.setSq_seals (u : Nat) (v : Square) : (s.setSq u v).seals = s.seals := rfl
@[simp] theorem State.setSq_handles (u : Nat) (v : Square) : (s.setSq u v).handles = s.handles := rfl
@[simp] theorem State.setSq_hostReqs (u : Nat) (v : Square) : (s.setSq u v).hostReqs = s.hostReqs := rfl
@[simp] theorem State.setSq_far (u : Nat) (v : Square) : (s.setSq u v).far = s.far := rfl
@[simp] theorem State.setSq_nextFar (u : Nat) (v : Square) : (s.setSq u v).nextFar = s.nextFar := rfl
@[simp] theorem State.setSq_ftnG (u : Nat) (v : Square) : (s.setSq u v).ftnG = s.ftnG := rfl
@[simp] theorem State.setSq_links (u : Nat) (v : Square) : (s.setSq u v).links = s.links := rfl
@[simp] theorem State.setSq_power (u : Nat) (v : Square) : (s.setSq u v).power = s.power := rfl
@[simp] theorem State.setSq_boot (u : Nat) (v : Square) : (s.setSq u v).boot = s.boot := rfl
@[simp] theorem State.setSq_held (u : Nat) (v : Square) : (s.setSq u v).held = s.held := rfl
@[simp] theorem State.setSq_heldResets (u : Nat) (v : Square) : (s.setSq u v).heldResets = s.heldResets := rfl
@[simp] theorem State.setSq_elog (u : Nat) (v : Square) : (s.setSq u v).elog = s.elog := rfl
@[simp] theorem State.setSq_trcQ (u : Nat) (v : Square) : (s.setSq u v).trcQ = s.trcQ := rfl
@[simp] theorem State.setSq_ctr (u : Nat) (v : Square) : (s.setSq u v).ctr = s.ctr := rfl
@[simp] theorem State.setSq_ctrEpoch (u : Nat) (v : Square) : (s.setSq u v).ctrEpoch = s.ctrEpoch := rfl
@[simp] theorem State.setSq_ctrAge (u : Nat) (v : Square) : (s.setSq u v).ctrAge = s.ctrAge := rfl
@[simp] theorem State.setSq_snap (u : Nat) (v : Square) : (s.setSq u v).snap = s.snap := rfl
@[simp] theorem State.setSq_stop (u : Nat) (v : Square) : (s.setSq u v).stop = s.stop := rfl
@[simp] theorem State.setSq_part (u : Nat) (v : Square) (k : Nat) : (s.setSq u v).part k = s.part k := rfl
@[simp] theorem State.setSq_queue (u : Nat) (v : Square) (k : Nat) : (s.setSq u v).queue k = s.queue k := rfl
@[simp] theorem State.setSq_port (u : Nat) (v : Square) (k : Nat) : (s.setSq u v).port k = s.port k := rfl
@[simp] theorem State.setSq_fence (u : Nat) (v : Square) (k : Nat) : (s.setSq u v).fence k = s.fence k := rfl
@[simp] theorem State.setSq_hart (u : Nat) (v : Square) (k : Nat) : (s.setSq u v).hart k = s.hart k := rfl
@[simp] theorem State.setSq_extent (u : Nat) (v : Square) (k : Nat) : (s.setSq u v).extent k = s.extent k := rfl
@[simp] theorem State.setSq_owner (u : Nat) (v : Square) (k : Nat) : (s.setSq u v).owner k = s.owner k := rfl
@[simp] theorem State.setSq_seal (u : Nat) (v : Square) (k : Nat) : (s.setSq u v).seal k = s.seal k := rfl
@[simp] theorem State.setSq_squareCounter (u : Nat) (v : Square) (k j : Nat) : (s.setSq u v).squareCounter k j = s.squareCounter k j := rfl
@[simp] theorem State.setSq_hallCounter (u : Nat) (v : Square) (k : Nat) : (s.setSq u v).hallCounter k = s.hallCounter k := rfl
@[simp] theorem State.setSq_launch (u : Nat) (v : Square) (k : Nat) : (s.setSq u v).launch k = s.launch k := rfl
@[simp] theorem State.setSq_byte (u : Nat) (v : Square) (k : Nat) : (s.setSq u v).byte k = s.byte k := rfl
@[simp] theorem State.setSq_bytes (u : Nat) (v : Square) (k j : Nat) : (s.setSq u v).bytes k j = s.bytes k j := rfl

/-! `modSq` -/

@[simp] theorem State.modSq_pending (u : Nat) (f : Square → Square) : (s.modSq u f).pending = s.pending := rfl
@[simp] theorem State.modSq_out (u : Nat) (f : Square → Square) : (s.modSq u f).out = s.out := rfl
@[simp] theorem State.modSq_freeCtr (u : Nat) (f : Square → Square) : (s.modSq u f).freeCtr = s.freeCtr := rfl
@[simp] theorem State.modSq_isM (u : Nat) (f : Square → Square) : (s.modSq u f).isM = s.isM := rfl
@[simp] theorem State.modSq_time (u : Nat) (f : Square → Square) : (s.modSq u f).time = s.time := rfl
@[simp] theorem State.modSq_replicas (u : Nat) (f : Square → Square) : (s.modSq u f).replicas = s.replicas := rfl
@[simp] theorem State.modSq_mem (u : Nat) (f : Square → Square) : (s.modSq u f).mem = s.mem := rfl
@[simp] theorem State.modSq_parity (u : Nat) (f : Square → Square) : (s.modSq u f).parity = s.parity := rfl
@[simp] theorem State.modSq_retries (u : Nat) (f : Square → Square) : (s.modSq u f).retries = s.retries := rfl
@[simp] theorem State.modSq_resv (u : Nat) (f : Square → Square) : (s.modSq u f).resv = s.resv := rfl
@[simp] theorem State.modSq_badWrite (u : Nat) (f : Square → Square) : (s.modSq u f).badWrite = s.badWrite := rfl
@[simp] theorem State.modSq_sqCtr (u : Nat) (f : Square → Square) : (s.modSq u f).sqCtr = s.sqCtr := rfl
@[simp] theorem State.modSq_sqOwn (u : Nat) (f : Square → Square) : (s.modSq u f).sqOwn = s.sqOwn := rfl
@[simp] theorem State.modSq_extents (u : Nat) (f : Square → Square) : (s.modSq u f).extents = s.extents := rfl
@[simp] theorem State.modSq_fences (u : Nat) (f : Square → Square) : (s.modSq u f).fences = s.fences := rfl
@[simp] theorem State.modSq_harts (u : Nat) (f : Square → Square) : (s.modSq u f).harts = s.harts := rfl
@[simp] theorem State.modSq_parts (u : Nat) (f : Square → Square) : (s.modSq u f).parts = s.parts := rfl
@[simp] theorem State.modSq_mintHart (u : Nat) (f : Square → Square) : (s.modSq u f).mintHart = s.mintHart := rfl
@[simp] theorem State.modSq_mintVec (u : Nat) (f : Square → Square) : (s.modSq u f).mintVec = s.mintVec := rfl
@[simp] theorem State.modSq_mintItype (u : Nat) (f : Square → Square) : (s.modSq u f).mintItype = s.mintItype := rfl
@[simp] theorem State.modSq_rstLast (u : Nat) (f : Square → Square) : (s.modSq u f).rstLast = s.rstLast := rfl
@[simp] theorem State.modSq_numVfs (u : Nat) (f : Square → Square) : (s.modSq u f).numVfs = s.numVfs := rfl
@[simp] theorem State.modSq_vfEnable (u : Nat) (f : Square → Square) : (s.modSq u f).vfEnable = s.vfEnable := rfl
@[simp] theorem State.modSq_queues (u : Nat) (f : Square → Square) : (s.modSq u f).queues = s.queues := rfl
@[simp] theorem State.modSq_hall (u : Nat) (f : Square → Square) : (s.modSq u f).hall = s.hall := rfl
@[simp] theorem State.modSq_launches (u : Nat) (f : Square → Square) : (s.modSq u f).launches = s.launches := rfl
@[simp] theorem State.modSq_nextLaunch (u : Nat) (f : Square → Square) : (s.modSq u f).nextLaunch = s.nextLaunch := rfl
@[simp] theorem State.modSq_hallCtr (u : Nat) (f : Square → Square) : (s.modSq u f).hallCtr = s.hallCtr := rfl
@[simp] theorem State.modSq_seals (u : Nat) (f : Square → Square) : (s.modSq u f).seals = s.seals := rfl
@[simp] theorem State.modSq_handles (u : Nat) (f : Square → Square) : (s.modSq u f).handles = s.handles := rfl
@[simp] theorem State.modSq_hostReqs (u : Nat) (f : Square → Square) : (s.modSq u f).hostReqs = s.hostReqs := rfl
@[simp] theorem State.modSq_far (u : Nat) (f : Square → Square) : (s.modSq u f).far = s.far := rfl
@[simp] theorem State.modSq_nextFar (u : Nat) (f : Square → Square) : (s.modSq u f).nextFar = s.nextFar := rfl
@[simp] theorem State.modSq_ftnG (u : Nat) (f : Square → Square) : (s.modSq u f).ftnG = s.ftnG := rfl
@[simp] theorem State.modSq_links (u : Nat) (f : Square → Square) : (s.modSq u f).links = s.links := rfl
@[simp] theorem State.modSq_power (u : Nat) (f : Square → Square) : (s.modSq u f).power = s.power := rfl
@[simp] theorem State.modSq_boot (u : Nat) (f : Square → Square) : (s.modSq u f).boot = s.boot := rfl
@[simp] theorem State.modSq_held (u : Nat) (f : Square → Square) : (s.modSq u f).held = s.held := rfl
@[simp] theorem State.modSq_heldResets (u : Nat) (f : Square → Square) : (s.modSq u f).heldResets = s.heldResets := rfl
@[simp] theorem State.modSq_elog (u : Nat) (f : Square → Square) : (s.modSq u f).elog = s.elog := rfl
@[simp] theorem State.modSq_trcQ (u : Nat) (f : Square → Square) : (s.modSq u f).trcQ = s.trcQ := rfl
@[simp] theorem State.modSq_ctr (u : Nat) (f : Square → Square) : (s.modSq u f).ctr = s.ctr := rfl
@[simp] theorem State.modSq_ctrEpoch (u : Nat) (f : Square → Square) : (s.modSq u f).ctrEpoch = s.ctrEpoch := rfl
@[simp] theorem State.modSq_ctrAge (u : Nat) (f : Square → Square) : (s.modSq u f).ctrAge = s.ctrAge := rfl
@[simp] theorem State.modSq_snap (u : Nat) (f : Square → Square) : (s.modSq u f).snap = s.snap := rfl
@[simp] theorem State.modSq_stop (u : Nat) (f : Square → Square) : (s.modSq u f).stop = s.stop := rfl
@[simp] theorem State.modSq_part (u : Nat) (f : Square → Square) (k : Nat) : (s.modSq u f).part k = s.part k := rfl
@[simp] theorem State.modSq_queue (u : Nat) (f : Square → Square) (k : Nat) : (s.modSq u f).queue k = s.queue k := rfl
@[simp] theorem State.modSq_port (u : Nat) (f : Square → Square) (k : Nat) : (s.modSq u f).port k = s.port k := rfl
@[simp] theorem State.modSq_fence (u : Nat) (f : Square → Square) (k : Nat) : (s.modSq u f).fence k = s.fence k := rfl
@[simp] theorem State.modSq_hart (u : Nat) (f : Square → Square) (k : Nat) : (s.modSq u f).hart k = s.hart k := rfl
@[simp] theorem State.modSq_extent (u : Nat) (f : Square → Square) (k : Nat) : (s.modSq u f).extent k = s.extent k := rfl
@[simp] theorem State.modSq_owner (u : Nat) (f : Square → Square) (k : Nat) : (s.modSq u f).owner k = s.owner k := rfl
@[simp] theorem State.modSq_seal (u : Nat) (f : Square → Square) (k : Nat) : (s.modSq u f).seal k = s.seal k := rfl
@[simp] theorem State.modSq_squareCounter (u : Nat) (f : Square → Square) (k j : Nat) : (s.modSq u f).squareCounter k j = s.squareCounter k j := rfl
@[simp] theorem State.modSq_hallCounter (u : Nat) (f : Square → Square) (k : Nat) : (s.modSq u f).hallCounter k = s.hallCounter k := rfl
@[simp] theorem State.modSq_launch (u : Nat) (f : Square → Square) (k : Nat) : (s.modSq u f).launch k = s.launch k := rfl
@[simp] theorem State.modSq_byte (u : Nat) (f : Square → Square) (k : Nat) : (s.modSq u f).byte k = s.byte k := rfl
@[simp] theorem State.modSq_bytes (u : Nat) (f : Square → Square) (k j : Nat) : (s.modSq u f).bytes k j = s.bytes k j := rfl

/-! `setPart` -/

@[simp] theorem State.setPart_pending (p : Nat) (v : Part) : (s.setPart p v).pending = s.pending := rfl
@[simp] theorem State.setPart_out (p : Nat) (v : Part) : (s.setPart p v).out = s.out := rfl
@[simp] theorem State.setPart_freeCtr (p : Nat) (v : Part) : (s.setPart p v).freeCtr = s.freeCtr := rfl
@[simp] theorem State.setPart_isM (p : Nat) (v : Part) : (s.setPart p v).isM = s.isM := rfl
@[simp] theorem State.setPart_time (p : Nat) (v : Part) : (s.setPart p v).time = s.time := rfl
@[simp] theorem State.setPart_replicas (p : Nat) (v : Part) : (s.setPart p v).replicas = s.replicas := rfl
@[simp] theorem State.setPart_mem (p : Nat) (v : Part) : (s.setPart p v).mem = s.mem := rfl
@[simp] theorem State.setPart_parity (p : Nat) (v : Part) : (s.setPart p v).parity = s.parity := rfl
@[simp] theorem State.setPart_retries (p : Nat) (v : Part) : (s.setPart p v).retries = s.retries := rfl
@[simp] theorem State.setPart_resv (p : Nat) (v : Part) : (s.setPart p v).resv = s.resv := rfl
@[simp] theorem State.setPart_badWrite (p : Nat) (v : Part) : (s.setPart p v).badWrite = s.badWrite := rfl
@[simp] theorem State.setPart_squares (p : Nat) (v : Part) : (s.setPart p v).squares = s.squares := rfl
@[simp] theorem State.setPart_sqCtr (p : Nat) (v : Part) : (s.setPart p v).sqCtr = s.sqCtr := rfl
@[simp] theorem State.setPart_sqOwn (p : Nat) (v : Part) : (s.setPart p v).sqOwn = s.sqOwn := rfl
@[simp] theorem State.setPart_extents (p : Nat) (v : Part) : (s.setPart p v).extents = s.extents := rfl
@[simp] theorem State.setPart_fences (p : Nat) (v : Part) : (s.setPart p v).fences = s.fences := rfl
@[simp] theorem State.setPart_harts (p : Nat) (v : Part) : (s.setPart p v).harts = s.harts := rfl
@[simp] theorem State.setPart_mintHart (p : Nat) (v : Part) : (s.setPart p v).mintHart = s.mintHart := rfl
@[simp] theorem State.setPart_mintVec (p : Nat) (v : Part) : (s.setPart p v).mintVec = s.mintVec := rfl
@[simp] theorem State.setPart_mintItype (p : Nat) (v : Part) : (s.setPart p v).mintItype = s.mintItype := rfl
@[simp] theorem State.setPart_rstLast (p : Nat) (v : Part) : (s.setPart p v).rstLast = s.rstLast := rfl
@[simp] theorem State.setPart_numVfs (p : Nat) (v : Part) : (s.setPart p v).numVfs = s.numVfs := rfl
@[simp] theorem State.setPart_vfEnable (p : Nat) (v : Part) : (s.setPart p v).vfEnable = s.vfEnable := rfl
@[simp] theorem State.setPart_queues (p : Nat) (v : Part) : (s.setPart p v).queues = s.queues := rfl
@[simp] theorem State.setPart_hall (p : Nat) (v : Part) : (s.setPart p v).hall = s.hall := rfl
@[simp] theorem State.setPart_launches (p : Nat) (v : Part) : (s.setPart p v).launches = s.launches := rfl
@[simp] theorem State.setPart_nextLaunch (p : Nat) (v : Part) : (s.setPart p v).nextLaunch = s.nextLaunch := rfl
@[simp] theorem State.setPart_hallCtr (p : Nat) (v : Part) : (s.setPart p v).hallCtr = s.hallCtr := rfl
@[simp] theorem State.setPart_seals (p : Nat) (v : Part) : (s.setPart p v).seals = s.seals := rfl
@[simp] theorem State.setPart_handles (p : Nat) (v : Part) : (s.setPart p v).handles = s.handles := rfl
@[simp] theorem State.setPart_hostReqs (p : Nat) (v : Part) : (s.setPart p v).hostReqs = s.hostReqs := rfl
@[simp] theorem State.setPart_far (p : Nat) (v : Part) : (s.setPart p v).far = s.far := rfl
@[simp] theorem State.setPart_nextFar (p : Nat) (v : Part) : (s.setPart p v).nextFar = s.nextFar := rfl
@[simp] theorem State.setPart_ftnG (p : Nat) (v : Part) : (s.setPart p v).ftnG = s.ftnG := rfl
@[simp] theorem State.setPart_links (p : Nat) (v : Part) : (s.setPart p v).links = s.links := rfl
@[simp] theorem State.setPart_power (p : Nat) (v : Part) : (s.setPart p v).power = s.power := rfl
@[simp] theorem State.setPart_boot (p : Nat) (v : Part) : (s.setPart p v).boot = s.boot := rfl
@[simp] theorem State.setPart_held (p : Nat) (v : Part) : (s.setPart p v).held = s.held := rfl
@[simp] theorem State.setPart_heldResets (p : Nat) (v : Part) : (s.setPart p v).heldResets = s.heldResets := rfl
@[simp] theorem State.setPart_elog (p : Nat) (v : Part) : (s.setPart p v).elog = s.elog := rfl
@[simp] theorem State.setPart_trcQ (p : Nat) (v : Part) : (s.setPart p v).trcQ = s.trcQ := rfl
@[simp] theorem State.setPart_ctr (p : Nat) (v : Part) : (s.setPart p v).ctr = s.ctr := rfl
@[simp] theorem State.setPart_ctrEpoch (p : Nat) (v : Part) : (s.setPart p v).ctrEpoch = s.ctrEpoch := rfl
@[simp] theorem State.setPart_ctrAge (p : Nat) (v : Part) : (s.setPart p v).ctrAge = s.ctrAge := rfl
@[simp] theorem State.setPart_snap (p : Nat) (v : Part) : (s.setPart p v).snap = s.snap := rfl
@[simp] theorem State.setPart_stop (p : Nat) (v : Part) : (s.setPart p v).stop = s.stop := rfl
@[simp] theorem State.setPart_sq (p : Nat) (v : Part) (k : Nat) : (s.setPart p v).sq k = s.sq k := rfl
@[simp] theorem State.setPart_queue (p : Nat) (v : Part) (k : Nat) : (s.setPart p v).queue k = s.queue k := rfl
@[simp] theorem State.setPart_port (p : Nat) (v : Part) (k : Nat) : (s.setPart p v).port k = s.port k := rfl
@[simp] theorem State.setPart_fence (p : Nat) (v : Part) (k : Nat) : (s.setPart p v).fence k = s.fence k := rfl
@[simp] theorem State.setPart_hart (p : Nat) (v : Part) (k : Nat) : (s.setPart p v).hart k = s.hart k := rfl
@[simp] theorem State.setPart_extent (p : Nat) (v : Part) (k : Nat) : (s.setPart p v).extent k = s.extent k := rfl
@[simp] theorem State.setPart_owner (p : Nat) (v : Part) (k : Nat) : (s.setPart p v).owner k = s.owner k := rfl
@[simp] theorem State.setPart_seal (p : Nat) (v : Part) (k : Nat) : (s.setPart p v).seal k = s.seal k := rfl
@[simp] theorem State.setPart_squareCounter (p : Nat) (v : Part) (k j : Nat) : (s.setPart p v).squareCounter k j = s.squareCounter k j := rfl
@[simp] theorem State.setPart_hallCounter (p : Nat) (v : Part) (k : Nat) : (s.setPart p v).hallCounter k = s.hallCounter k := rfl
@[simp] theorem State.setPart_launch (p : Nat) (v : Part) (k : Nat) : (s.setPart p v).launch k = s.launch k := rfl
@[simp] theorem State.setPart_byte (p : Nat) (v : Part) (k : Nat) : (s.setPart p v).byte k = s.byte k := rfl
@[simp] theorem State.setPart_bytes (p : Nat) (v : Part) (k j : Nat) : (s.setPart p v).bytes k j = s.bytes k j := rfl

/-! `modPart` -/

@[simp] theorem State.modPart_pending (p : Nat) (f : Part → Part) : (s.modPart p f).pending = s.pending := rfl
@[simp] theorem State.modPart_out (p : Nat) (f : Part → Part) : (s.modPart p f).out = s.out := rfl
@[simp] theorem State.modPart_freeCtr (p : Nat) (f : Part → Part) : (s.modPart p f).freeCtr = s.freeCtr := rfl
@[simp] theorem State.modPart_isM (p : Nat) (f : Part → Part) : (s.modPart p f).isM = s.isM := rfl
@[simp] theorem State.modPart_time (p : Nat) (f : Part → Part) : (s.modPart p f).time = s.time := rfl
@[simp] theorem State.modPart_replicas (p : Nat) (f : Part → Part) : (s.modPart p f).replicas = s.replicas := rfl
@[simp] theorem State.modPart_mem (p : Nat) (f : Part → Part) : (s.modPart p f).mem = s.mem := rfl
@[simp] theorem State.modPart_parity (p : Nat) (f : Part → Part) : (s.modPart p f).parity = s.parity := rfl
@[simp] theorem State.modPart_retries (p : Nat) (f : Part → Part) : (s.modPart p f).retries = s.retries := rfl
@[simp] theorem State.modPart_resv (p : Nat) (f : Part → Part) : (s.modPart p f).resv = s.resv := rfl
@[simp] theorem State.modPart_badWrite (p : Nat) (f : Part → Part) : (s.modPart p f).badWrite = s.badWrite := rfl
@[simp] theorem State.modPart_squares (p : Nat) (f : Part → Part) : (s.modPart p f).squares = s.squares := rfl
@[simp] theorem State.modPart_sqCtr (p : Nat) (f : Part → Part) : (s.modPart p f).sqCtr = s.sqCtr := rfl
@[simp] theorem State.modPart_sqOwn (p : Nat) (f : Part → Part) : (s.modPart p f).sqOwn = s.sqOwn := rfl
@[simp] theorem State.modPart_extents (p : Nat) (f : Part → Part) : (s.modPart p f).extents = s.extents := rfl
@[simp] theorem State.modPart_fences (p : Nat) (f : Part → Part) : (s.modPart p f).fences = s.fences := rfl
@[simp] theorem State.modPart_harts (p : Nat) (f : Part → Part) : (s.modPart p f).harts = s.harts := rfl
@[simp] theorem State.modPart_mintHart (p : Nat) (f : Part → Part) : (s.modPart p f).mintHart = s.mintHart := rfl
@[simp] theorem State.modPart_mintVec (p : Nat) (f : Part → Part) : (s.modPart p f).mintVec = s.mintVec := rfl
@[simp] theorem State.modPart_mintItype (p : Nat) (f : Part → Part) : (s.modPart p f).mintItype = s.mintItype := rfl
@[simp] theorem State.modPart_rstLast (p : Nat) (f : Part → Part) : (s.modPart p f).rstLast = s.rstLast := rfl
@[simp] theorem State.modPart_numVfs (p : Nat) (f : Part → Part) : (s.modPart p f).numVfs = s.numVfs := rfl
@[simp] theorem State.modPart_vfEnable (p : Nat) (f : Part → Part) : (s.modPart p f).vfEnable = s.vfEnable := rfl
@[simp] theorem State.modPart_queues (p : Nat) (f : Part → Part) : (s.modPart p f).queues = s.queues := rfl
@[simp] theorem State.modPart_hall (p : Nat) (f : Part → Part) : (s.modPart p f).hall = s.hall := rfl
@[simp] theorem State.modPart_launches (p : Nat) (f : Part → Part) : (s.modPart p f).launches = s.launches := rfl
@[simp] theorem State.modPart_nextLaunch (p : Nat) (f : Part → Part) : (s.modPart p f).nextLaunch = s.nextLaunch := rfl
@[simp] theorem State.modPart_hallCtr (p : Nat) (f : Part → Part) : (s.modPart p f).hallCtr = s.hallCtr := rfl
@[simp] theorem State.modPart_seals (p : Nat) (f : Part → Part) : (s.modPart p f).seals = s.seals := rfl
@[simp] theorem State.modPart_handles (p : Nat) (f : Part → Part) : (s.modPart p f).handles = s.handles := rfl
@[simp] theorem State.modPart_hostReqs (p : Nat) (f : Part → Part) : (s.modPart p f).hostReqs = s.hostReqs := rfl
@[simp] theorem State.modPart_far (p : Nat) (f : Part → Part) : (s.modPart p f).far = s.far := rfl
@[simp] theorem State.modPart_nextFar (p : Nat) (f : Part → Part) : (s.modPart p f).nextFar = s.nextFar := rfl
@[simp] theorem State.modPart_ftnG (p : Nat) (f : Part → Part) : (s.modPart p f).ftnG = s.ftnG := rfl
@[simp] theorem State.modPart_links (p : Nat) (f : Part → Part) : (s.modPart p f).links = s.links := rfl
@[simp] theorem State.modPart_power (p : Nat) (f : Part → Part) : (s.modPart p f).power = s.power := rfl
@[simp] theorem State.modPart_boot (p : Nat) (f : Part → Part) : (s.modPart p f).boot = s.boot := rfl
@[simp] theorem State.modPart_held (p : Nat) (f : Part → Part) : (s.modPart p f).held = s.held := rfl
@[simp] theorem State.modPart_heldResets (p : Nat) (f : Part → Part) : (s.modPart p f).heldResets = s.heldResets := rfl
@[simp] theorem State.modPart_elog (p : Nat) (f : Part → Part) : (s.modPart p f).elog = s.elog := rfl
@[simp] theorem State.modPart_trcQ (p : Nat) (f : Part → Part) : (s.modPart p f).trcQ = s.trcQ := rfl
@[simp] theorem State.modPart_ctr (p : Nat) (f : Part → Part) : (s.modPart p f).ctr = s.ctr := rfl
@[simp] theorem State.modPart_ctrEpoch (p : Nat) (f : Part → Part) : (s.modPart p f).ctrEpoch = s.ctrEpoch := rfl
@[simp] theorem State.modPart_ctrAge (p : Nat) (f : Part → Part) : (s.modPart p f).ctrAge = s.ctrAge := rfl
@[simp] theorem State.modPart_snap (p : Nat) (f : Part → Part) : (s.modPart p f).snap = s.snap := rfl
@[simp] theorem State.modPart_stop (p : Nat) (f : Part → Part) : (s.modPart p f).stop = s.stop := rfl
@[simp] theorem State.modPart_sq (p : Nat) (f : Part → Part) (k : Nat) : (s.modPart p f).sq k = s.sq k := rfl
@[simp] theorem State.modPart_queue (p : Nat) (f : Part → Part) (k : Nat) : (s.modPart p f).queue k = s.queue k := rfl
@[simp] theorem State.modPart_port (p : Nat) (f : Part → Part) (k : Nat) : (s.modPart p f).port k = s.port k := rfl
@[simp] theorem State.modPart_fence (p : Nat) (f : Part → Part) (k : Nat) : (s.modPart p f).fence k = s.fence k := rfl
@[simp] theorem State.modPart_hart (p : Nat) (f : Part → Part) (k : Nat) : (s.modPart p f).hart k = s.hart k := rfl
@[simp] theorem State.modPart_extent (p : Nat) (f : Part → Part) (k : Nat) : (s.modPart p f).extent k = s.extent k := rfl
@[simp] theorem State.modPart_owner (p : Nat) (f : Part → Part) (k : Nat) : (s.modPart p f).owner k = s.owner k := rfl
@[simp] theorem State.modPart_seal (p : Nat) (f : Part → Part) (k : Nat) : (s.modPart p f).seal k = s.seal k := rfl
@[simp] theorem State.modPart_squareCounter (p : Nat) (f : Part → Part) (k j : Nat) : (s.modPart p f).squareCounter k j = s.squareCounter k j := rfl
@[simp] theorem State.modPart_hallCounter (p : Nat) (f : Part → Part) (k : Nat) : (s.modPart p f).hallCounter k = s.hallCounter k := rfl
@[simp] theorem State.modPart_launch (p : Nat) (f : Part → Part) (k : Nat) : (s.modPart p f).launch k = s.launch k := rfl
@[simp] theorem State.modPart_byte (p : Nat) (f : Part → Part) (k : Nat) : (s.modPart p f).byte k = s.byte k := rfl
@[simp] theorem State.modPart_bytes (p : Nat) (f : Part → Part) (k j : Nat) : (s.modPart p f).bytes k j = s.bytes k j := rfl

/-! `setQueue` -/

@[simp] theorem State.setQueue_pending (q : Nat) (v : Queue) : (s.setQueue q v).pending = s.pending := rfl
@[simp] theorem State.setQueue_out (q : Nat) (v : Queue) : (s.setQueue q v).out = s.out := rfl
@[simp] theorem State.setQueue_freeCtr (q : Nat) (v : Queue) : (s.setQueue q v).freeCtr = s.freeCtr := rfl
@[simp] theorem State.setQueue_isM (q : Nat) (v : Queue) : (s.setQueue q v).isM = s.isM := rfl
@[simp] theorem State.setQueue_time (q : Nat) (v : Queue) : (s.setQueue q v).time = s.time := rfl
@[simp] theorem State.setQueue_replicas (q : Nat) (v : Queue) : (s.setQueue q v).replicas = s.replicas := rfl
@[simp] theorem State.setQueue_mem (q : Nat) (v : Queue) : (s.setQueue q v).mem = s.mem := rfl
@[simp] theorem State.setQueue_parity (q : Nat) (v : Queue) : (s.setQueue q v).parity = s.parity := rfl
@[simp] theorem State.setQueue_retries (q : Nat) (v : Queue) : (s.setQueue q v).retries = s.retries := rfl
@[simp] theorem State.setQueue_resv (q : Nat) (v : Queue) : (s.setQueue q v).resv = s.resv := rfl
@[simp] theorem State.setQueue_badWrite (q : Nat) (v : Queue) : (s.setQueue q v).badWrite = s.badWrite := rfl
@[simp] theorem State.setQueue_squares (q : Nat) (v : Queue) : (s.setQueue q v).squares = s.squares := rfl
@[simp] theorem State.setQueue_sqCtr (q : Nat) (v : Queue) : (s.setQueue q v).sqCtr = s.sqCtr := rfl
@[simp] theorem State.setQueue_sqOwn (q : Nat) (v : Queue) : (s.setQueue q v).sqOwn = s.sqOwn := rfl
@[simp] theorem State.setQueue_extents (q : Nat) (v : Queue) : (s.setQueue q v).extents = s.extents := rfl
@[simp] theorem State.setQueue_fences (q : Nat) (v : Queue) : (s.setQueue q v).fences = s.fences := rfl
@[simp] theorem State.setQueue_harts (q : Nat) (v : Queue) : (s.setQueue q v).harts = s.harts := rfl
@[simp] theorem State.setQueue_parts (q : Nat) (v : Queue) : (s.setQueue q v).parts = s.parts := rfl
@[simp] theorem State.setQueue_mintHart (q : Nat) (v : Queue) : (s.setQueue q v).mintHart = s.mintHart := rfl
@[simp] theorem State.setQueue_mintVec (q : Nat) (v : Queue) : (s.setQueue q v).mintVec = s.mintVec := rfl
@[simp] theorem State.setQueue_mintItype (q : Nat) (v : Queue) : (s.setQueue q v).mintItype = s.mintItype := rfl
@[simp] theorem State.setQueue_rstLast (q : Nat) (v : Queue) : (s.setQueue q v).rstLast = s.rstLast := rfl
@[simp] theorem State.setQueue_numVfs (q : Nat) (v : Queue) : (s.setQueue q v).numVfs = s.numVfs := rfl
@[simp] theorem State.setQueue_vfEnable (q : Nat) (v : Queue) : (s.setQueue q v).vfEnable = s.vfEnable := rfl
@[simp] theorem State.setQueue_hall (q : Nat) (v : Queue) : (s.setQueue q v).hall = s.hall := rfl
@[simp] theorem State.setQueue_launches (q : Nat) (v : Queue) : (s.setQueue q v).launches = s.launches := rfl
@[simp] theorem State.setQueue_nextLaunch (q : Nat) (v : Queue) : (s.setQueue q v).nextLaunch = s.nextLaunch := rfl
@[simp] theorem State.setQueue_hallCtr (q : Nat) (v : Queue) : (s.setQueue q v).hallCtr = s.hallCtr := rfl
@[simp] theorem State.setQueue_seals (q : Nat) (v : Queue) : (s.setQueue q v).seals = s.seals := rfl
@[simp] theorem State.setQueue_handles (q : Nat) (v : Queue) : (s.setQueue q v).handles = s.handles := rfl
@[simp] theorem State.setQueue_hostReqs (q : Nat) (v : Queue) : (s.setQueue q v).hostReqs = s.hostReqs := rfl
@[simp] theorem State.setQueue_far (q : Nat) (v : Queue) : (s.setQueue q v).far = s.far := rfl
@[simp] theorem State.setQueue_nextFar (q : Nat) (v : Queue) : (s.setQueue q v).nextFar = s.nextFar := rfl
@[simp] theorem State.setQueue_ftnG (q : Nat) (v : Queue) : (s.setQueue q v).ftnG = s.ftnG := rfl
@[simp] theorem State.setQueue_links (q : Nat) (v : Queue) : (s.setQueue q v).links = s.links := rfl
@[simp] theorem State.setQueue_power (q : Nat) (v : Queue) : (s.setQueue q v).power = s.power := rfl
@[simp] theorem State.setQueue_boot (q : Nat) (v : Queue) : (s.setQueue q v).boot = s.boot := rfl
@[simp] theorem State.setQueue_held (q : Nat) (v : Queue) : (s.setQueue q v).held = s.held := rfl
@[simp] theorem State.setQueue_heldResets (q : Nat) (v : Queue) : (s.setQueue q v).heldResets = s.heldResets := rfl
@[simp] theorem State.setQueue_elog (q : Nat) (v : Queue) : (s.setQueue q v).elog = s.elog := rfl
@[simp] theorem State.setQueue_trcQ (q : Nat) (v : Queue) : (s.setQueue q v).trcQ = s.trcQ := rfl
@[simp] theorem State.setQueue_ctr (q : Nat) (v : Queue) : (s.setQueue q v).ctr = s.ctr := rfl
@[simp] theorem State.setQueue_ctrEpoch (q : Nat) (v : Queue) : (s.setQueue q v).ctrEpoch = s.ctrEpoch := rfl
@[simp] theorem State.setQueue_ctrAge (q : Nat) (v : Queue) : (s.setQueue q v).ctrAge = s.ctrAge := rfl
@[simp] theorem State.setQueue_snap (q : Nat) (v : Queue) : (s.setQueue q v).snap = s.snap := rfl
@[simp] theorem State.setQueue_stop (q : Nat) (v : Queue) : (s.setQueue q v).stop = s.stop := rfl
@[simp] theorem State.setQueue_sq (q : Nat) (v : Queue) (k : Nat) : (s.setQueue q v).sq k = s.sq k := rfl
@[simp] theorem State.setQueue_part (q : Nat) (v : Queue) (k : Nat) : (s.setQueue q v).part k = s.part k := rfl
@[simp] theorem State.setQueue_port (q : Nat) (v : Queue) (k : Nat) : (s.setQueue q v).port k = s.port k := rfl
@[simp] theorem State.setQueue_fence (q : Nat) (v : Queue) (k : Nat) : (s.setQueue q v).fence k = s.fence k := rfl
@[simp] theorem State.setQueue_hart (q : Nat) (v : Queue) (k : Nat) : (s.setQueue q v).hart k = s.hart k := rfl
@[simp] theorem State.setQueue_extent (q : Nat) (v : Queue) (k : Nat) : (s.setQueue q v).extent k = s.extent k := rfl
@[simp] theorem State.setQueue_owner (q : Nat) (v : Queue) (k : Nat) : (s.setQueue q v).owner k = s.owner k := rfl
@[simp] theorem State.setQueue_seal (q : Nat) (v : Queue) (k : Nat) : (s.setQueue q v).seal k = s.seal k := rfl
@[simp] theorem State.setQueue_squareCounter (q : Nat) (v : Queue) (k j : Nat) : (s.setQueue q v).squareCounter k j = s.squareCounter k j := rfl
@[simp] theorem State.setQueue_hallCounter (q : Nat) (v : Queue) (k : Nat) : (s.setQueue q v).hallCounter k = s.hallCounter k := rfl
@[simp] theorem State.setQueue_launch (q : Nat) (v : Queue) (k : Nat) : (s.setQueue q v).launch k = s.launch k := rfl
@[simp] theorem State.setQueue_byte (q : Nat) (v : Queue) (k : Nat) : (s.setQueue q v).byte k = s.byte k := rfl
@[simp] theorem State.setQueue_bytes (q : Nat) (v : Queue) (k j : Nat) : (s.setQueue q v).bytes k j = s.bytes k j := rfl

/-! `modQueue` -/

@[simp] theorem State.modQueue_pending (q : Nat) (f : Queue → Queue) : (s.modQueue q f).pending = s.pending := rfl
@[simp] theorem State.modQueue_out (q : Nat) (f : Queue → Queue) : (s.modQueue q f).out = s.out := rfl
@[simp] theorem State.modQueue_freeCtr (q : Nat) (f : Queue → Queue) : (s.modQueue q f).freeCtr = s.freeCtr := rfl
@[simp] theorem State.modQueue_isM (q : Nat) (f : Queue → Queue) : (s.modQueue q f).isM = s.isM := rfl
@[simp] theorem State.modQueue_time (q : Nat) (f : Queue → Queue) : (s.modQueue q f).time = s.time := rfl
@[simp] theorem State.modQueue_replicas (q : Nat) (f : Queue → Queue) : (s.modQueue q f).replicas = s.replicas := rfl
@[simp] theorem State.modQueue_mem (q : Nat) (f : Queue → Queue) : (s.modQueue q f).mem = s.mem := rfl
@[simp] theorem State.modQueue_parity (q : Nat) (f : Queue → Queue) : (s.modQueue q f).parity = s.parity := rfl
@[simp] theorem State.modQueue_retries (q : Nat) (f : Queue → Queue) : (s.modQueue q f).retries = s.retries := rfl
@[simp] theorem State.modQueue_resv (q : Nat) (f : Queue → Queue) : (s.modQueue q f).resv = s.resv := rfl
@[simp] theorem State.modQueue_badWrite (q : Nat) (f : Queue → Queue) : (s.modQueue q f).badWrite = s.badWrite := rfl
@[simp] theorem State.modQueue_squares (q : Nat) (f : Queue → Queue) : (s.modQueue q f).squares = s.squares := rfl
@[simp] theorem State.modQueue_sqCtr (q : Nat) (f : Queue → Queue) : (s.modQueue q f).sqCtr = s.sqCtr := rfl
@[simp] theorem State.modQueue_sqOwn (q : Nat) (f : Queue → Queue) : (s.modQueue q f).sqOwn = s.sqOwn := rfl
@[simp] theorem State.modQueue_extents (q : Nat) (f : Queue → Queue) : (s.modQueue q f).extents = s.extents := rfl
@[simp] theorem State.modQueue_fences (q : Nat) (f : Queue → Queue) : (s.modQueue q f).fences = s.fences := rfl
@[simp] theorem State.modQueue_harts (q : Nat) (f : Queue → Queue) : (s.modQueue q f).harts = s.harts := rfl
@[simp] theorem State.modQueue_parts (q : Nat) (f : Queue → Queue) : (s.modQueue q f).parts = s.parts := rfl
@[simp] theorem State.modQueue_mintHart (q : Nat) (f : Queue → Queue) : (s.modQueue q f).mintHart = s.mintHart := rfl
@[simp] theorem State.modQueue_mintVec (q : Nat) (f : Queue → Queue) : (s.modQueue q f).mintVec = s.mintVec := rfl
@[simp] theorem State.modQueue_mintItype (q : Nat) (f : Queue → Queue) : (s.modQueue q f).mintItype = s.mintItype := rfl
@[simp] theorem State.modQueue_rstLast (q : Nat) (f : Queue → Queue) : (s.modQueue q f).rstLast = s.rstLast := rfl
@[simp] theorem State.modQueue_numVfs (q : Nat) (f : Queue → Queue) : (s.modQueue q f).numVfs = s.numVfs := rfl
@[simp] theorem State.modQueue_vfEnable (q : Nat) (f : Queue → Queue) : (s.modQueue q f).vfEnable = s.vfEnable := rfl
@[simp] theorem State.modQueue_hall (q : Nat) (f : Queue → Queue) : (s.modQueue q f).hall = s.hall := rfl
@[simp] theorem State.modQueue_launches (q : Nat) (f : Queue → Queue) : (s.modQueue q f).launches = s.launches := rfl
@[simp] theorem State.modQueue_nextLaunch (q : Nat) (f : Queue → Queue) : (s.modQueue q f).nextLaunch = s.nextLaunch := rfl
@[simp] theorem State.modQueue_hallCtr (q : Nat) (f : Queue → Queue) : (s.modQueue q f).hallCtr = s.hallCtr := rfl
@[simp] theorem State.modQueue_seals (q : Nat) (f : Queue → Queue) : (s.modQueue q f).seals = s.seals := rfl
@[simp] theorem State.modQueue_handles (q : Nat) (f : Queue → Queue) : (s.modQueue q f).handles = s.handles := rfl
@[simp] theorem State.modQueue_hostReqs (q : Nat) (f : Queue → Queue) : (s.modQueue q f).hostReqs = s.hostReqs := rfl
@[simp] theorem State.modQueue_far (q : Nat) (f : Queue → Queue) : (s.modQueue q f).far = s.far := rfl
@[simp] theorem State.modQueue_nextFar (q : Nat) (f : Queue → Queue) : (s.modQueue q f).nextFar = s.nextFar := rfl
@[simp] theorem State.modQueue_ftnG (q : Nat) (f : Queue → Queue) : (s.modQueue q f).ftnG = s.ftnG := rfl
@[simp] theorem State.modQueue_links (q : Nat) (f : Queue → Queue) : (s.modQueue q f).links = s.links := rfl
@[simp] theorem State.modQueue_power (q : Nat) (f : Queue → Queue) : (s.modQueue q f).power = s.power := rfl
@[simp] theorem State.modQueue_boot (q : Nat) (f : Queue → Queue) : (s.modQueue q f).boot = s.boot := rfl
@[simp] theorem State.modQueue_held (q : Nat) (f : Queue → Queue) : (s.modQueue q f).held = s.held := rfl
@[simp] theorem State.modQueue_heldResets (q : Nat) (f : Queue → Queue) : (s.modQueue q f).heldResets = s.heldResets := rfl
@[simp] theorem State.modQueue_elog (q : Nat) (f : Queue → Queue) : (s.modQueue q f).elog = s.elog := rfl
@[simp] theorem State.modQueue_trcQ (q : Nat) (f : Queue → Queue) : (s.modQueue q f).trcQ = s.trcQ := rfl
@[simp] theorem State.modQueue_ctr (q : Nat) (f : Queue → Queue) : (s.modQueue q f).ctr = s.ctr := rfl
@[simp] theorem State.modQueue_ctrEpoch (q : Nat) (f : Queue → Queue) : (s.modQueue q f).ctrEpoch = s.ctrEpoch := rfl
@[simp] theorem State.modQueue_ctrAge (q : Nat) (f : Queue → Queue) : (s.modQueue q f).ctrAge = s.ctrAge := rfl
@[simp] theorem State.modQueue_snap (q : Nat) (f : Queue → Queue) : (s.modQueue q f).snap = s.snap := rfl
@[simp] theorem State.modQueue_stop (q : Nat) (f : Queue → Queue) : (s.modQueue q f).stop = s.stop := rfl
@[simp] theorem State.modQueue_sq (q : Nat) (f : Queue → Queue) (k : Nat) : (s.modQueue q f).sq k = s.sq k := rfl
@[simp] theorem State.modQueue_part (q : Nat) (f : Queue → Queue) (k : Nat) : (s.modQueue q f).part k = s.part k := rfl
@[simp] theorem State.modQueue_port (q : Nat) (f : Queue → Queue) (k : Nat) : (s.modQueue q f).port k = s.port k := rfl
@[simp] theorem State.modQueue_fence (q : Nat) (f : Queue → Queue) (k : Nat) : (s.modQueue q f).fence k = s.fence k := rfl
@[simp] theorem State.modQueue_hart (q : Nat) (f : Queue → Queue) (k : Nat) : (s.modQueue q f).hart k = s.hart k := rfl
@[simp] theorem State.modQueue_extent (q : Nat) (f : Queue → Queue) (k : Nat) : (s.modQueue q f).extent k = s.extent k := rfl
@[simp] theorem State.modQueue_owner (q : Nat) (f : Queue → Queue) (k : Nat) : (s.modQueue q f).owner k = s.owner k := rfl
@[simp] theorem State.modQueue_seal (q : Nat) (f : Queue → Queue) (k : Nat) : (s.modQueue q f).seal k = s.seal k := rfl
@[simp] theorem State.modQueue_squareCounter (q : Nat) (f : Queue → Queue) (k j : Nat) : (s.modQueue q f).squareCounter k j = s.squareCounter k j := rfl
@[simp] theorem State.modQueue_hallCounter (q : Nat) (f : Queue → Queue) (k : Nat) : (s.modQueue q f).hallCounter k = s.hallCounter k := rfl
@[simp] theorem State.modQueue_launch (q : Nat) (f : Queue → Queue) (k : Nat) : (s.modQueue q f).launch k = s.launch k := rfl
@[simp] theorem State.modQueue_byte (q : Nat) (f : Queue → Queue) (k : Nat) : (s.modQueue q f).byte k = s.byte k := rfl
@[simp] theorem State.modQueue_bytes (q : Nat) (f : Queue → Queue) (k j : Nat) : (s.modQueue q f).bytes k j = s.bytes k j := rfl

/-! `setPort` -/

@[simp] theorem State.setPort_pending (n : Nat) (v : Port) : (s.setPort n v).pending = s.pending := rfl
@[simp] theorem State.setPort_out (n : Nat) (v : Port) : (s.setPort n v).out = s.out := rfl
@[simp] theorem State.setPort_freeCtr (n : Nat) (v : Port) : (s.setPort n v).freeCtr = s.freeCtr := rfl
@[simp] theorem State.setPort_isM (n : Nat) (v : Port) : (s.setPort n v).isM = s.isM := rfl
@[simp] theorem State.setPort_time (n : Nat) (v : Port) : (s.setPort n v).time = s.time := rfl
@[simp] theorem State.setPort_replicas (n : Nat) (v : Port) : (s.setPort n v).replicas = s.replicas := rfl
@[simp] theorem State.setPort_mem (n : Nat) (v : Port) : (s.setPort n v).mem = s.mem := rfl
@[simp] theorem State.setPort_parity (n : Nat) (v : Port) : (s.setPort n v).parity = s.parity := rfl
@[simp] theorem State.setPort_retries (n : Nat) (v : Port) : (s.setPort n v).retries = s.retries := rfl
@[simp] theorem State.setPort_resv (n : Nat) (v : Port) : (s.setPort n v).resv = s.resv := rfl
@[simp] theorem State.setPort_badWrite (n : Nat) (v : Port) : (s.setPort n v).badWrite = s.badWrite := rfl
@[simp] theorem State.setPort_squares (n : Nat) (v : Port) : (s.setPort n v).squares = s.squares := rfl
@[simp] theorem State.setPort_sqCtr (n : Nat) (v : Port) : (s.setPort n v).sqCtr = s.sqCtr := rfl
@[simp] theorem State.setPort_sqOwn (n : Nat) (v : Port) : (s.setPort n v).sqOwn = s.sqOwn := rfl
@[simp] theorem State.setPort_extents (n : Nat) (v : Port) : (s.setPort n v).extents = s.extents := rfl
@[simp] theorem State.setPort_fences (n : Nat) (v : Port) : (s.setPort n v).fences = s.fences := rfl
@[simp] theorem State.setPort_harts (n : Nat) (v : Port) : (s.setPort n v).harts = s.harts := rfl
@[simp] theorem State.setPort_parts (n : Nat) (v : Port) : (s.setPort n v).parts = s.parts := rfl
@[simp] theorem State.setPort_mintHart (n : Nat) (v : Port) : (s.setPort n v).mintHart = s.mintHart := rfl
@[simp] theorem State.setPort_mintVec (n : Nat) (v : Port) : (s.setPort n v).mintVec = s.mintVec := rfl
@[simp] theorem State.setPort_mintItype (n : Nat) (v : Port) : (s.setPort n v).mintItype = s.mintItype := rfl
@[simp] theorem State.setPort_rstLast (n : Nat) (v : Port) : (s.setPort n v).rstLast = s.rstLast := rfl
@[simp] theorem State.setPort_numVfs (n : Nat) (v : Port) : (s.setPort n v).numVfs = s.numVfs := rfl
@[simp] theorem State.setPort_vfEnable (n : Nat) (v : Port) : (s.setPort n v).vfEnable = s.vfEnable := rfl
@[simp] theorem State.setPort_queues (n : Nat) (v : Port) : (s.setPort n v).queues = s.queues := rfl
@[simp] theorem State.setPort_hall (n : Nat) (v : Port) : (s.setPort n v).hall = s.hall := rfl
@[simp] theorem State.setPort_launches (n : Nat) (v : Port) : (s.setPort n v).launches = s.launches := rfl
@[simp] theorem State.setPort_nextLaunch (n : Nat) (v : Port) : (s.setPort n v).nextLaunch = s.nextLaunch := rfl
@[simp] theorem State.setPort_hallCtr (n : Nat) (v : Port) : (s.setPort n v).hallCtr = s.hallCtr := rfl
@[simp] theorem State.setPort_seals (n : Nat) (v : Port) : (s.setPort n v).seals = s.seals := rfl
@[simp] theorem State.setPort_handles (n : Nat) (v : Port) : (s.setPort n v).handles = s.handles := rfl
@[simp] theorem State.setPort_hostReqs (n : Nat) (v : Port) : (s.setPort n v).hostReqs = s.hostReqs := rfl
@[simp] theorem State.setPort_far (n : Nat) (v : Port) : (s.setPort n v).far = s.far := rfl
@[simp] theorem State.setPort_nextFar (n : Nat) (v : Port) : (s.setPort n v).nextFar = s.nextFar := rfl
@[simp] theorem State.setPort_ftnG (n : Nat) (v : Port) : (s.setPort n v).ftnG = s.ftnG := rfl
@[simp] theorem State.setPort_power (n : Nat) (v : Port) : (s.setPort n v).power = s.power := rfl
@[simp] theorem State.setPort_boot (n : Nat) (v : Port) : (s.setPort n v).boot = s.boot := rfl
@[simp] theorem State.setPort_held (n : Nat) (v : Port) : (s.setPort n v).held = s.held := rfl
@[simp] theorem State.setPort_heldResets (n : Nat) (v : Port) : (s.setPort n v).heldResets = s.heldResets := rfl
@[simp] theorem State.setPort_elog (n : Nat) (v : Port) : (s.setPort n v).elog = s.elog := rfl
@[simp] theorem State.setPort_trcQ (n : Nat) (v : Port) : (s.setPort n v).trcQ = s.trcQ := rfl
@[simp] theorem State.setPort_ctr (n : Nat) (v : Port) : (s.setPort n v).ctr = s.ctr := rfl
@[simp] theorem State.setPort_ctrEpoch (n : Nat) (v : Port) : (s.setPort n v).ctrEpoch = s.ctrEpoch := rfl
@[simp] theorem State.setPort_ctrAge (n : Nat) (v : Port) : (s.setPort n v).ctrAge = s.ctrAge := rfl
@[simp] theorem State.setPort_snap (n : Nat) (v : Port) : (s.setPort n v).snap = s.snap := rfl
@[simp] theorem State.setPort_stop (n : Nat) (v : Port) : (s.setPort n v).stop = s.stop := rfl
@[simp] theorem State.setPort_sq (n : Nat) (v : Port) (k : Nat) : (s.setPort n v).sq k = s.sq k := rfl
@[simp] theorem State.setPort_part (n : Nat) (v : Port) (k : Nat) : (s.setPort n v).part k = s.part k := rfl
@[simp] theorem State.setPort_queue (n : Nat) (v : Port) (k : Nat) : (s.setPort n v).queue k = s.queue k := rfl
@[simp] theorem State.setPort_fence (n : Nat) (v : Port) (k : Nat) : (s.setPort n v).fence k = s.fence k := rfl
@[simp] theorem State.setPort_hart (n : Nat) (v : Port) (k : Nat) : (s.setPort n v).hart k = s.hart k := rfl
@[simp] theorem State.setPort_extent (n : Nat) (v : Port) (k : Nat) : (s.setPort n v).extent k = s.extent k := rfl
@[simp] theorem State.setPort_owner (n : Nat) (v : Port) (k : Nat) : (s.setPort n v).owner k = s.owner k := rfl
@[simp] theorem State.setPort_seal (n : Nat) (v : Port) (k : Nat) : (s.setPort n v).seal k = s.seal k := rfl
@[simp] theorem State.setPort_squareCounter (n : Nat) (v : Port) (k j : Nat) : (s.setPort n v).squareCounter k j = s.squareCounter k j := rfl
@[simp] theorem State.setPort_hallCounter (n : Nat) (v : Port) (k : Nat) : (s.setPort n v).hallCounter k = s.hallCounter k := rfl
@[simp] theorem State.setPort_launch (n : Nat) (v : Port) (k : Nat) : (s.setPort n v).launch k = s.launch k := rfl
@[simp] theorem State.setPort_byte (n : Nat) (v : Port) (k : Nat) : (s.setPort n v).byte k = s.byte k := rfl
@[simp] theorem State.setPort_bytes (n : Nat) (v : Port) (k j : Nat) : (s.setPort n v).bytes k j = s.bytes k j := rfl

/-! `modPort` -/

@[simp] theorem State.modPort_pending (n : Nat) (f : Port → Port) : (s.modPort n f).pending = s.pending := rfl
@[simp] theorem State.modPort_out (n : Nat) (f : Port → Port) : (s.modPort n f).out = s.out := rfl
@[simp] theorem State.modPort_freeCtr (n : Nat) (f : Port → Port) : (s.modPort n f).freeCtr = s.freeCtr := rfl
@[simp] theorem State.modPort_isM (n : Nat) (f : Port → Port) : (s.modPort n f).isM = s.isM := rfl
@[simp] theorem State.modPort_time (n : Nat) (f : Port → Port) : (s.modPort n f).time = s.time := rfl
@[simp] theorem State.modPort_replicas (n : Nat) (f : Port → Port) : (s.modPort n f).replicas = s.replicas := rfl
@[simp] theorem State.modPort_mem (n : Nat) (f : Port → Port) : (s.modPort n f).mem = s.mem := rfl
@[simp] theorem State.modPort_parity (n : Nat) (f : Port → Port) : (s.modPort n f).parity = s.parity := rfl
@[simp] theorem State.modPort_retries (n : Nat) (f : Port → Port) : (s.modPort n f).retries = s.retries := rfl
@[simp] theorem State.modPort_resv (n : Nat) (f : Port → Port) : (s.modPort n f).resv = s.resv := rfl
@[simp] theorem State.modPort_badWrite (n : Nat) (f : Port → Port) : (s.modPort n f).badWrite = s.badWrite := rfl
@[simp] theorem State.modPort_squares (n : Nat) (f : Port → Port) : (s.modPort n f).squares = s.squares := rfl
@[simp] theorem State.modPort_sqCtr (n : Nat) (f : Port → Port) : (s.modPort n f).sqCtr = s.sqCtr := rfl
@[simp] theorem State.modPort_sqOwn (n : Nat) (f : Port → Port) : (s.modPort n f).sqOwn = s.sqOwn := rfl
@[simp] theorem State.modPort_extents (n : Nat) (f : Port → Port) : (s.modPort n f).extents = s.extents := rfl
@[simp] theorem State.modPort_fences (n : Nat) (f : Port → Port) : (s.modPort n f).fences = s.fences := rfl
@[simp] theorem State.modPort_harts (n : Nat) (f : Port → Port) : (s.modPort n f).harts = s.harts := rfl
@[simp] theorem State.modPort_parts (n : Nat) (f : Port → Port) : (s.modPort n f).parts = s.parts := rfl
@[simp] theorem State.modPort_mintHart (n : Nat) (f : Port → Port) : (s.modPort n f).mintHart = s.mintHart := rfl
@[simp] theorem State.modPort_mintVec (n : Nat) (f : Port → Port) : (s.modPort n f).mintVec = s.mintVec := rfl
@[simp] theorem State.modPort_mintItype (n : Nat) (f : Port → Port) : (s.modPort n f).mintItype = s.mintItype := rfl
@[simp] theorem State.modPort_rstLast (n : Nat) (f : Port → Port) : (s.modPort n f).rstLast = s.rstLast := rfl
@[simp] theorem State.modPort_numVfs (n : Nat) (f : Port → Port) : (s.modPort n f).numVfs = s.numVfs := rfl
@[simp] theorem State.modPort_vfEnable (n : Nat) (f : Port → Port) : (s.modPort n f).vfEnable = s.vfEnable := rfl
@[simp] theorem State.modPort_queues (n : Nat) (f : Port → Port) : (s.modPort n f).queues = s.queues := rfl
@[simp] theorem State.modPort_hall (n : Nat) (f : Port → Port) : (s.modPort n f).hall = s.hall := rfl
@[simp] theorem State.modPort_launches (n : Nat) (f : Port → Port) : (s.modPort n f).launches = s.launches := rfl
@[simp] theorem State.modPort_nextLaunch (n : Nat) (f : Port → Port) : (s.modPort n f).nextLaunch = s.nextLaunch := rfl
@[simp] theorem State.modPort_hallCtr (n : Nat) (f : Port → Port) : (s.modPort n f).hallCtr = s.hallCtr := rfl
@[simp] theorem State.modPort_seals (n : Nat) (f : Port → Port) : (s.modPort n f).seals = s.seals := rfl
@[simp] theorem State.modPort_handles (n : Nat) (f : Port → Port) : (s.modPort n f).handles = s.handles := rfl
@[simp] theorem State.modPort_hostReqs (n : Nat) (f : Port → Port) : (s.modPort n f).hostReqs = s.hostReqs := rfl
@[simp] theorem State.modPort_far (n : Nat) (f : Port → Port) : (s.modPort n f).far = s.far := rfl
@[simp] theorem State.modPort_nextFar (n : Nat) (f : Port → Port) : (s.modPort n f).nextFar = s.nextFar := rfl
@[simp] theorem State.modPort_ftnG (n : Nat) (f : Port → Port) : (s.modPort n f).ftnG = s.ftnG := rfl
@[simp] theorem State.modPort_power (n : Nat) (f : Port → Port) : (s.modPort n f).power = s.power := rfl
@[simp] theorem State.modPort_boot (n : Nat) (f : Port → Port) : (s.modPort n f).boot = s.boot := rfl
@[simp] theorem State.modPort_held (n : Nat) (f : Port → Port) : (s.modPort n f).held = s.held := rfl
@[simp] theorem State.modPort_heldResets (n : Nat) (f : Port → Port) : (s.modPort n f).heldResets = s.heldResets := rfl
@[simp] theorem State.modPort_elog (n : Nat) (f : Port → Port) : (s.modPort n f).elog = s.elog := rfl
@[simp] theorem State.modPort_trcQ (n : Nat) (f : Port → Port) : (s.modPort n f).trcQ = s.trcQ := rfl
@[simp] theorem State.modPort_ctr (n : Nat) (f : Port → Port) : (s.modPort n f).ctr = s.ctr := rfl
@[simp] theorem State.modPort_ctrEpoch (n : Nat) (f : Port → Port) : (s.modPort n f).ctrEpoch = s.ctrEpoch := rfl
@[simp] theorem State.modPort_ctrAge (n : Nat) (f : Port → Port) : (s.modPort n f).ctrAge = s.ctrAge := rfl
@[simp] theorem State.modPort_snap (n : Nat) (f : Port → Port) : (s.modPort n f).snap = s.snap := rfl
@[simp] theorem State.modPort_stop (n : Nat) (f : Port → Port) : (s.modPort n f).stop = s.stop := rfl
@[simp] theorem State.modPort_sq (n : Nat) (f : Port → Port) (k : Nat) : (s.modPort n f).sq k = s.sq k := rfl
@[simp] theorem State.modPort_part (n : Nat) (f : Port → Port) (k : Nat) : (s.modPort n f).part k = s.part k := rfl
@[simp] theorem State.modPort_queue (n : Nat) (f : Port → Port) (k : Nat) : (s.modPort n f).queue k = s.queue k := rfl
@[simp] theorem State.modPort_fence (n : Nat) (f : Port → Port) (k : Nat) : (s.modPort n f).fence k = s.fence k := rfl
@[simp] theorem State.modPort_hart (n : Nat) (f : Port → Port) (k : Nat) : (s.modPort n f).hart k = s.hart k := rfl
@[simp] theorem State.modPort_extent (n : Nat) (f : Port → Port) (k : Nat) : (s.modPort n f).extent k = s.extent k := rfl
@[simp] theorem State.modPort_owner (n : Nat) (f : Port → Port) (k : Nat) : (s.modPort n f).owner k = s.owner k := rfl
@[simp] theorem State.modPort_seal (n : Nat) (f : Port → Port) (k : Nat) : (s.modPort n f).seal k = s.seal k := rfl
@[simp] theorem State.modPort_squareCounter (n : Nat) (f : Port → Port) (k j : Nat) : (s.modPort n f).squareCounter k j = s.squareCounter k j := rfl
@[simp] theorem State.modPort_hallCounter (n : Nat) (f : Port → Port) (k : Nat) : (s.modPort n f).hallCounter k = s.hallCounter k := rfl
@[simp] theorem State.modPort_launch (n : Nat) (f : Port → Port) (k : Nat) : (s.modPort n f).launch k = s.launch k := rfl
@[simp] theorem State.modPort_byte (n : Nat) (f : Port → Port) (k : Nat) : (s.modPort n f).byte k = s.byte k := rfl
@[simp] theorem State.modPort_bytes (n : Nat) (f : Port → Port) (k j : Nat) : (s.modPort n f).bytes k j = s.bytes k j := rfl

/-! `modFence` -/

@[simp] theorem State.modFence_pending (q : Nat) (f : QuarterFence → QuarterFence) : (s.modFence q f).pending = s.pending := rfl
@[simp] theorem State.modFence_out (q : Nat) (f : QuarterFence → QuarterFence) : (s.modFence q f).out = s.out := rfl
@[simp] theorem State.modFence_freeCtr (q : Nat) (f : QuarterFence → QuarterFence) : (s.modFence q f).freeCtr = s.freeCtr := rfl
@[simp] theorem State.modFence_isM (q : Nat) (f : QuarterFence → QuarterFence) : (s.modFence q f).isM = s.isM := rfl
@[simp] theorem State.modFence_time (q : Nat) (f : QuarterFence → QuarterFence) : (s.modFence q f).time = s.time := rfl
@[simp] theorem State.modFence_replicas (q : Nat) (f : QuarterFence → QuarterFence) : (s.modFence q f).replicas = s.replicas := rfl
@[simp] theorem State.modFence_mem (q : Nat) (f : QuarterFence → QuarterFence) : (s.modFence q f).mem = s.mem := rfl
@[simp] theorem State.modFence_parity (q : Nat) (f : QuarterFence → QuarterFence) : (s.modFence q f).parity = s.parity := rfl
@[simp] theorem State.modFence_retries (q : Nat) (f : QuarterFence → QuarterFence) : (s.modFence q f).retries = s.retries := rfl
@[simp] theorem State.modFence_resv (q : Nat) (f : QuarterFence → QuarterFence) : (s.modFence q f).resv = s.resv := rfl
@[simp] theorem State.modFence_badWrite (q : Nat) (f : QuarterFence → QuarterFence) : (s.modFence q f).badWrite = s.badWrite := rfl
@[simp] theorem State.modFence_squares (q : Nat) (f : QuarterFence → QuarterFence) : (s.modFence q f).squares = s.squares := rfl
@[simp] theorem State.modFence_sqCtr (q : Nat) (f : QuarterFence → QuarterFence) : (s.modFence q f).sqCtr = s.sqCtr := rfl
@[simp] theorem State.modFence_sqOwn (q : Nat) (f : QuarterFence → QuarterFence) : (s.modFence q f).sqOwn = s.sqOwn := rfl
@[simp] theorem State.modFence_extents (q : Nat) (f : QuarterFence → QuarterFence) : (s.modFence q f).extents = s.extents := rfl
@[simp] theorem State.modFence_harts (q : Nat) (f : QuarterFence → QuarterFence) : (s.modFence q f).harts = s.harts := rfl
@[simp] theorem State.modFence_parts (q : Nat) (f : QuarterFence → QuarterFence) : (s.modFence q f).parts = s.parts := rfl
@[simp] theorem State.modFence_mintHart (q : Nat) (f : QuarterFence → QuarterFence) : (s.modFence q f).mintHart = s.mintHart := rfl
@[simp] theorem State.modFence_mintVec (q : Nat) (f : QuarterFence → QuarterFence) : (s.modFence q f).mintVec = s.mintVec := rfl
@[simp] theorem State.modFence_mintItype (q : Nat) (f : QuarterFence → QuarterFence) : (s.modFence q f).mintItype = s.mintItype := rfl
@[simp] theorem State.modFence_rstLast (q : Nat) (f : QuarterFence → QuarterFence) : (s.modFence q f).rstLast = s.rstLast := rfl
@[simp] theorem State.modFence_numVfs (q : Nat) (f : QuarterFence → QuarterFence) : (s.modFence q f).numVfs = s.numVfs := rfl
@[simp] theorem State.modFence_vfEnable (q : Nat) (f : QuarterFence → QuarterFence) : (s.modFence q f).vfEnable = s.vfEnable := rfl
@[simp] theorem State.modFence_queues (q : Nat) (f : QuarterFence → QuarterFence) : (s.modFence q f).queues = s.queues := rfl
@[simp] theorem State.modFence_hall (q : Nat) (f : QuarterFence → QuarterFence) : (s.modFence q f).hall = s.hall := rfl
@[simp] theorem State.modFence_launches (q : Nat) (f : QuarterFence → QuarterFence) : (s.modFence q f).launches = s.launches := rfl
@[simp] theorem State.modFence_nextLaunch (q : Nat) (f : QuarterFence → QuarterFence) : (s.modFence q f).nextLaunch = s.nextLaunch := rfl
@[simp] theorem State.modFence_hallCtr (q : Nat) (f : QuarterFence → QuarterFence) : (s.modFence q f).hallCtr = s.hallCtr := rfl
@[simp] theorem State.modFence_seals (q : Nat) (f : QuarterFence → QuarterFence) : (s.modFence q f).seals = s.seals := rfl
@[simp] theorem State.modFence_handles (q : Nat) (f : QuarterFence → QuarterFence) : (s.modFence q f).handles = s.handles := rfl
@[simp] theorem State.modFence_hostReqs (q : Nat) (f : QuarterFence → QuarterFence) : (s.modFence q f).hostReqs = s.hostReqs := rfl
@[simp] theorem State.modFence_far (q : Nat) (f : QuarterFence → QuarterFence) : (s.modFence q f).far = s.far := rfl
@[simp] theorem State.modFence_nextFar (q : Nat) (f : QuarterFence → QuarterFence) : (s.modFence q f).nextFar = s.nextFar := rfl
@[simp] theorem State.modFence_ftnG (q : Nat) (f : QuarterFence → QuarterFence) : (s.modFence q f).ftnG = s.ftnG := rfl
@[simp] theorem State.modFence_links (q : Nat) (f : QuarterFence → QuarterFence) : (s.modFence q f).links = s.links := rfl
@[simp] theorem State.modFence_power (q : Nat) (f : QuarterFence → QuarterFence) : (s.modFence q f).power = s.power := rfl
@[simp] theorem State.modFence_boot (q : Nat) (f : QuarterFence → QuarterFence) : (s.modFence q f).boot = s.boot := rfl
@[simp] theorem State.modFence_held (q : Nat) (f : QuarterFence → QuarterFence) : (s.modFence q f).held = s.held := rfl
@[simp] theorem State.modFence_heldResets (q : Nat) (f : QuarterFence → QuarterFence) : (s.modFence q f).heldResets = s.heldResets := rfl
@[simp] theorem State.modFence_elog (q : Nat) (f : QuarterFence → QuarterFence) : (s.modFence q f).elog = s.elog := rfl
@[simp] theorem State.modFence_trcQ (q : Nat) (f : QuarterFence → QuarterFence) : (s.modFence q f).trcQ = s.trcQ := rfl
@[simp] theorem State.modFence_ctr (q : Nat) (f : QuarterFence → QuarterFence) : (s.modFence q f).ctr = s.ctr := rfl
@[simp] theorem State.modFence_ctrEpoch (q : Nat) (f : QuarterFence → QuarterFence) : (s.modFence q f).ctrEpoch = s.ctrEpoch := rfl
@[simp] theorem State.modFence_ctrAge (q : Nat) (f : QuarterFence → QuarterFence) : (s.modFence q f).ctrAge = s.ctrAge := rfl
@[simp] theorem State.modFence_snap (q : Nat) (f : QuarterFence → QuarterFence) : (s.modFence q f).snap = s.snap := rfl
@[simp] theorem State.modFence_stop (q : Nat) (f : QuarterFence → QuarterFence) : (s.modFence q f).stop = s.stop := rfl
@[simp] theorem State.modFence_sq (q : Nat) (f : QuarterFence → QuarterFence) (k : Nat) : (s.modFence q f).sq k = s.sq k := rfl
@[simp] theorem State.modFence_part (q : Nat) (f : QuarterFence → QuarterFence) (k : Nat) : (s.modFence q f).part k = s.part k := rfl
@[simp] theorem State.modFence_queue (q : Nat) (f : QuarterFence → QuarterFence) (k : Nat) : (s.modFence q f).queue k = s.queue k := rfl
@[simp] theorem State.modFence_port (q : Nat) (f : QuarterFence → QuarterFence) (k : Nat) : (s.modFence q f).port k = s.port k := rfl
@[simp] theorem State.modFence_hart (q : Nat) (f : QuarterFence → QuarterFence) (k : Nat) : (s.modFence q f).hart k = s.hart k := rfl
@[simp] theorem State.modFence_extent (q : Nat) (f : QuarterFence → QuarterFence) (k : Nat) : (s.modFence q f).extent k = s.extent k := rfl
@[simp] theorem State.modFence_owner (q : Nat) (f : QuarterFence → QuarterFence) (k : Nat) : (s.modFence q f).owner k = s.owner k := rfl
@[simp] theorem State.modFence_seal (q : Nat) (f : QuarterFence → QuarterFence) (k : Nat) : (s.modFence q f).seal k = s.seal k := rfl
@[simp] theorem State.modFence_squareCounter (q : Nat) (f : QuarterFence → QuarterFence) (k j : Nat) : (s.modFence q f).squareCounter k j = s.squareCounter k j := rfl
@[simp] theorem State.modFence_hallCounter (q : Nat) (f : QuarterFence → QuarterFence) (k : Nat) : (s.modFence q f).hallCounter k = s.hallCounter k := rfl
@[simp] theorem State.modFence_launch (q : Nat) (f : QuarterFence → QuarterFence) (k : Nat) : (s.modFence q f).launch k = s.launch k := rfl
@[simp] theorem State.modFence_byte (q : Nat) (f : QuarterFence → QuarterFence) (k : Nat) : (s.modFence q f).byte k = s.byte k := rfl
@[simp] theorem State.modFence_bytes (q : Nat) (f : QuarterFence → QuarterFence) (k j : Nat) : (s.modFence q f).bytes k j = s.bytes k j := rfl

/-! `modHart` -/

@[simp] theorem State.modHart_pending (c : Nat) (f : Hart → Hart) : (s.modHart c f).pending = s.pending := rfl
@[simp] theorem State.modHart_out (c : Nat) (f : Hart → Hart) : (s.modHart c f).out = s.out := rfl
@[simp] theorem State.modHart_freeCtr (c : Nat) (f : Hart → Hart) : (s.modHart c f).freeCtr = s.freeCtr := rfl
@[simp] theorem State.modHart_isM (c : Nat) (f : Hart → Hart) : (s.modHart c f).isM = s.isM := rfl
@[simp] theorem State.modHart_time (c : Nat) (f : Hart → Hart) : (s.modHart c f).time = s.time := rfl
@[simp] theorem State.modHart_replicas (c : Nat) (f : Hart → Hart) : (s.modHart c f).replicas = s.replicas := rfl
@[simp] theorem State.modHart_mem (c : Nat) (f : Hart → Hart) : (s.modHart c f).mem = s.mem := rfl
@[simp] theorem State.modHart_parity (c : Nat) (f : Hart → Hart) : (s.modHart c f).parity = s.parity := rfl
@[simp] theorem State.modHart_retries (c : Nat) (f : Hart → Hart) : (s.modHart c f).retries = s.retries := rfl
@[simp] theorem State.modHart_resv (c : Nat) (f : Hart → Hart) : (s.modHart c f).resv = s.resv := rfl
@[simp] theorem State.modHart_badWrite (c : Nat) (f : Hart → Hart) : (s.modHart c f).badWrite = s.badWrite := rfl
@[simp] theorem State.modHart_squares (c : Nat) (f : Hart → Hart) : (s.modHart c f).squares = s.squares := rfl
@[simp] theorem State.modHart_sqCtr (c : Nat) (f : Hart → Hart) : (s.modHart c f).sqCtr = s.sqCtr := rfl
@[simp] theorem State.modHart_sqOwn (c : Nat) (f : Hart → Hart) : (s.modHart c f).sqOwn = s.sqOwn := rfl
@[simp] theorem State.modHart_extents (c : Nat) (f : Hart → Hart) : (s.modHart c f).extents = s.extents := rfl
@[simp] theorem State.modHart_fences (c : Nat) (f : Hart → Hart) : (s.modHart c f).fences = s.fences := rfl
@[simp] theorem State.modHart_parts (c : Nat) (f : Hart → Hart) : (s.modHart c f).parts = s.parts := rfl
@[simp] theorem State.modHart_mintHart (c : Nat) (f : Hart → Hart) : (s.modHart c f).mintHart = s.mintHart := rfl
@[simp] theorem State.modHart_mintVec (c : Nat) (f : Hart → Hart) : (s.modHart c f).mintVec = s.mintVec := rfl
@[simp] theorem State.modHart_mintItype (c : Nat) (f : Hart → Hart) : (s.modHart c f).mintItype = s.mintItype := rfl
@[simp] theorem State.modHart_rstLast (c : Nat) (f : Hart → Hart) : (s.modHart c f).rstLast = s.rstLast := rfl
@[simp] theorem State.modHart_numVfs (c : Nat) (f : Hart → Hart) : (s.modHart c f).numVfs = s.numVfs := rfl
@[simp] theorem State.modHart_vfEnable (c : Nat) (f : Hart → Hart) : (s.modHart c f).vfEnable = s.vfEnable := rfl
@[simp] theorem State.modHart_queues (c : Nat) (f : Hart → Hart) : (s.modHart c f).queues = s.queues := rfl
@[simp] theorem State.modHart_hall (c : Nat) (f : Hart → Hart) : (s.modHart c f).hall = s.hall := rfl
@[simp] theorem State.modHart_launches (c : Nat) (f : Hart → Hart) : (s.modHart c f).launches = s.launches := rfl
@[simp] theorem State.modHart_nextLaunch (c : Nat) (f : Hart → Hart) : (s.modHart c f).nextLaunch = s.nextLaunch := rfl
@[simp] theorem State.modHart_hallCtr (c : Nat) (f : Hart → Hart) : (s.modHart c f).hallCtr = s.hallCtr := rfl
@[simp] theorem State.modHart_seals (c : Nat) (f : Hart → Hart) : (s.modHart c f).seals = s.seals := rfl
@[simp] theorem State.modHart_handles (c : Nat) (f : Hart → Hart) : (s.modHart c f).handles = s.handles := rfl
@[simp] theorem State.modHart_hostReqs (c : Nat) (f : Hart → Hart) : (s.modHart c f).hostReqs = s.hostReqs := rfl
@[simp] theorem State.modHart_far (c : Nat) (f : Hart → Hart) : (s.modHart c f).far = s.far := rfl
@[simp] theorem State.modHart_nextFar (c : Nat) (f : Hart → Hart) : (s.modHart c f).nextFar = s.nextFar := rfl
@[simp] theorem State.modHart_ftnG (c : Nat) (f : Hart → Hart) : (s.modHart c f).ftnG = s.ftnG := rfl
@[simp] theorem State.modHart_links (c : Nat) (f : Hart → Hart) : (s.modHart c f).links = s.links := rfl
@[simp] theorem State.modHart_power (c : Nat) (f : Hart → Hart) : (s.modHart c f).power = s.power := rfl
@[simp] theorem State.modHart_boot (c : Nat) (f : Hart → Hart) : (s.modHart c f).boot = s.boot := rfl
@[simp] theorem State.modHart_held (c : Nat) (f : Hart → Hart) : (s.modHart c f).held = s.held := rfl
@[simp] theorem State.modHart_heldResets (c : Nat) (f : Hart → Hart) : (s.modHart c f).heldResets = s.heldResets := rfl
@[simp] theorem State.modHart_elog (c : Nat) (f : Hart → Hart) : (s.modHart c f).elog = s.elog := rfl
@[simp] theorem State.modHart_trcQ (c : Nat) (f : Hart → Hart) : (s.modHart c f).trcQ = s.trcQ := rfl
@[simp] theorem State.modHart_ctr (c : Nat) (f : Hart → Hart) : (s.modHart c f).ctr = s.ctr := rfl
@[simp] theorem State.modHart_ctrEpoch (c : Nat) (f : Hart → Hart) : (s.modHart c f).ctrEpoch = s.ctrEpoch := rfl
@[simp] theorem State.modHart_ctrAge (c : Nat) (f : Hart → Hart) : (s.modHart c f).ctrAge = s.ctrAge := rfl
@[simp] theorem State.modHart_snap (c : Nat) (f : Hart → Hart) : (s.modHart c f).snap = s.snap := rfl
@[simp] theorem State.modHart_stop (c : Nat) (f : Hart → Hart) : (s.modHart c f).stop = s.stop := rfl
@[simp] theorem State.modHart_sq (c : Nat) (f : Hart → Hart) (k : Nat) : (s.modHart c f).sq k = s.sq k := rfl
@[simp] theorem State.modHart_part (c : Nat) (f : Hart → Hart) (k : Nat) : (s.modHart c f).part k = s.part k := rfl
@[simp] theorem State.modHart_queue (c : Nat) (f : Hart → Hart) (k : Nat) : (s.modHart c f).queue k = s.queue k := rfl
@[simp] theorem State.modHart_port (c : Nat) (f : Hart → Hart) (k : Nat) : (s.modHart c f).port k = s.port k := rfl
@[simp] theorem State.modHart_fence (c : Nat) (f : Hart → Hart) (k : Nat) : (s.modHart c f).fence k = s.fence k := rfl
@[simp] theorem State.modHart_extent (c : Nat) (f : Hart → Hart) (k : Nat) : (s.modHart c f).extent k = s.extent k := rfl
@[simp] theorem State.modHart_owner (c : Nat) (f : Hart → Hart) (k : Nat) : (s.modHart c f).owner k = s.owner k := rfl
@[simp] theorem State.modHart_seal (c : Nat) (f : Hart → Hart) (k : Nat) : (s.modHart c f).seal k = s.seal k := rfl
@[simp] theorem State.modHart_squareCounter (c : Nat) (f : Hart → Hart) (k j : Nat) : (s.modHart c f).squareCounter k j = s.squareCounter k j := rfl
@[simp] theorem State.modHart_hallCounter (c : Nat) (f : Hart → Hart) (k : Nat) : (s.modHart c f).hallCounter k = s.hallCounter k := rfl
@[simp] theorem State.modHart_launch (c : Nat) (f : Hart → Hart) (k : Nat) : (s.modHart c f).launch k = s.launch k := rfl
@[simp] theorem State.modHart_byte (c : Nat) (f : Hart → Hart) (k : Nat) : (s.modHart c f).byte k = s.byte k := rfl
@[simp] theorem State.modHart_bytes (c : Nat) (f : Hart → Hart) (k j : Nat) : (s.modHart c f).bytes k j = s.bytes k j := rfl

/-! `setExtent` -/

@[simp] theorem State.setExtent_pending (n : Nat) (e : Extent) : (s.setExtent n e).pending = s.pending := rfl
@[simp] theorem State.setExtent_out (n : Nat) (e : Extent) : (s.setExtent n e).out = s.out := rfl
@[simp] theorem State.setExtent_freeCtr (n : Nat) (e : Extent) : (s.setExtent n e).freeCtr = s.freeCtr := rfl
@[simp] theorem State.setExtent_isM (n : Nat) (e : Extent) : (s.setExtent n e).isM = s.isM := rfl
@[simp] theorem State.setExtent_time (n : Nat) (e : Extent) : (s.setExtent n e).time = s.time := rfl
@[simp] theorem State.setExtent_replicas (n : Nat) (e : Extent) : (s.setExtent n e).replicas = s.replicas := rfl
@[simp] theorem State.setExtent_mem (n : Nat) (e : Extent) : (s.setExtent n e).mem = s.mem := rfl
@[simp] theorem State.setExtent_parity (n : Nat) (e : Extent) : (s.setExtent n e).parity = s.parity := rfl
@[simp] theorem State.setExtent_retries (n : Nat) (e : Extent) : (s.setExtent n e).retries = s.retries := rfl
@[simp] theorem State.setExtent_resv (n : Nat) (e : Extent) : (s.setExtent n e).resv = s.resv := rfl
@[simp] theorem State.setExtent_badWrite (n : Nat) (e : Extent) : (s.setExtent n e).badWrite = s.badWrite := rfl
@[simp] theorem State.setExtent_squares (n : Nat) (e : Extent) : (s.setExtent n e).squares = s.squares := rfl
@[simp] theorem State.setExtent_sqCtr (n : Nat) (e : Extent) : (s.setExtent n e).sqCtr = s.sqCtr := rfl
@[simp] theorem State.setExtent_sqOwn (n : Nat) (e : Extent) : (s.setExtent n e).sqOwn = s.sqOwn := rfl
@[simp] theorem State.setExtent_fences (n : Nat) (e : Extent) : (s.setExtent n e).fences = s.fences := rfl
@[simp] theorem State.setExtent_harts (n : Nat) (e : Extent) : (s.setExtent n e).harts = s.harts := rfl
@[simp] theorem State.setExtent_parts (n : Nat) (e : Extent) : (s.setExtent n e).parts = s.parts := rfl
@[simp] theorem State.setExtent_mintHart (n : Nat) (e : Extent) : (s.setExtent n e).mintHart = s.mintHart := rfl
@[simp] theorem State.setExtent_mintVec (n : Nat) (e : Extent) : (s.setExtent n e).mintVec = s.mintVec := rfl
@[simp] theorem State.setExtent_mintItype (n : Nat) (e : Extent) : (s.setExtent n e).mintItype = s.mintItype := rfl
@[simp] theorem State.setExtent_rstLast (n : Nat) (e : Extent) : (s.setExtent n e).rstLast = s.rstLast := rfl
@[simp] theorem State.setExtent_numVfs (n : Nat) (e : Extent) : (s.setExtent n e).numVfs = s.numVfs := rfl
@[simp] theorem State.setExtent_vfEnable (n : Nat) (e : Extent) : (s.setExtent n e).vfEnable = s.vfEnable := rfl
@[simp] theorem State.setExtent_queues (n : Nat) (e : Extent) : (s.setExtent n e).queues = s.queues := rfl
@[simp] theorem State.setExtent_hall (n : Nat) (e : Extent) : (s.setExtent n e).hall = s.hall := rfl
@[simp] theorem State.setExtent_launches (n : Nat) (e : Extent) : (s.setExtent n e).launches = s.launches := rfl
@[simp] theorem State.setExtent_nextLaunch (n : Nat) (e : Extent) : (s.setExtent n e).nextLaunch = s.nextLaunch := rfl
@[simp] theorem State.setExtent_hallCtr (n : Nat) (e : Extent) : (s.setExtent n e).hallCtr = s.hallCtr := rfl
@[simp] theorem State.setExtent_seals (n : Nat) (e : Extent) : (s.setExtent n e).seals = s.seals := rfl
@[simp] theorem State.setExtent_handles (n : Nat) (e : Extent) : (s.setExtent n e).handles = s.handles := rfl
@[simp] theorem State.setExtent_hostReqs (n : Nat) (e : Extent) : (s.setExtent n e).hostReqs = s.hostReqs := rfl
@[simp] theorem State.setExtent_far (n : Nat) (e : Extent) : (s.setExtent n e).far = s.far := rfl
@[simp] theorem State.setExtent_nextFar (n : Nat) (e : Extent) : (s.setExtent n e).nextFar = s.nextFar := rfl
@[simp] theorem State.setExtent_ftnG (n : Nat) (e : Extent) : (s.setExtent n e).ftnG = s.ftnG := rfl
@[simp] theorem State.setExtent_links (n : Nat) (e : Extent) : (s.setExtent n e).links = s.links := rfl
@[simp] theorem State.setExtent_power (n : Nat) (e : Extent) : (s.setExtent n e).power = s.power := rfl
@[simp] theorem State.setExtent_boot (n : Nat) (e : Extent) : (s.setExtent n e).boot = s.boot := rfl
@[simp] theorem State.setExtent_held (n : Nat) (e : Extent) : (s.setExtent n e).held = s.held := rfl
@[simp] theorem State.setExtent_heldResets (n : Nat) (e : Extent) : (s.setExtent n e).heldResets = s.heldResets := rfl
@[simp] theorem State.setExtent_elog (n : Nat) (e : Extent) : (s.setExtent n e).elog = s.elog := rfl
@[simp] theorem State.setExtent_trcQ (n : Nat) (e : Extent) : (s.setExtent n e).trcQ = s.trcQ := rfl
@[simp] theorem State.setExtent_ctr (n : Nat) (e : Extent) : (s.setExtent n e).ctr = s.ctr := rfl
@[simp] theorem State.setExtent_ctrEpoch (n : Nat) (e : Extent) : (s.setExtent n e).ctrEpoch = s.ctrEpoch := rfl
@[simp] theorem State.setExtent_ctrAge (n : Nat) (e : Extent) : (s.setExtent n e).ctrAge = s.ctrAge := rfl
@[simp] theorem State.setExtent_snap (n : Nat) (e : Extent) : (s.setExtent n e).snap = s.snap := rfl
@[simp] theorem State.setExtent_stop (n : Nat) (e : Extent) : (s.setExtent n e).stop = s.stop := rfl
@[simp] theorem State.setExtent_sq (n : Nat) (e : Extent) (k : Nat) : (s.setExtent n e).sq k = s.sq k := rfl
@[simp] theorem State.setExtent_part (n : Nat) (e : Extent) (k : Nat) : (s.setExtent n e).part k = s.part k := rfl
@[simp] theorem State.setExtent_queue (n : Nat) (e : Extent) (k : Nat) : (s.setExtent n e).queue k = s.queue k := rfl
@[simp] theorem State.setExtent_port (n : Nat) (e : Extent) (k : Nat) : (s.setExtent n e).port k = s.port k := rfl
@[simp] theorem State.setExtent_fence (n : Nat) (e : Extent) (k : Nat) : (s.setExtent n e).fence k = s.fence k := rfl
@[simp] theorem State.setExtent_hart (n : Nat) (e : Extent) (k : Nat) : (s.setExtent n e).hart k = s.hart k := rfl
@[simp] theorem State.setExtent_owner (n : Nat) (e : Extent) (k : Nat) : (s.setExtent n e).owner k = s.owner k := rfl
@[simp] theorem State.setExtent_seal (n : Nat) (e : Extent) (k : Nat) : (s.setExtent n e).seal k = s.seal k := rfl
@[simp] theorem State.setExtent_squareCounter (n : Nat) (e : Extent) (k j : Nat) : (s.setExtent n e).squareCounter k j = s.squareCounter k j := rfl
@[simp] theorem State.setExtent_hallCounter (n : Nat) (e : Extent) (k : Nat) : (s.setExtent n e).hallCounter k = s.hallCounter k := rfl
@[simp] theorem State.setExtent_launch (n : Nat) (e : Extent) (k : Nat) : (s.setExtent n e).launch k = s.launch k := rfl
@[simp] theorem State.setExtent_byte (n : Nat) (e : Extent) (k : Nat) : (s.setExtent n e).byte k = s.byte k := rfl
@[simp] theorem State.setExtent_bytes (n : Nat) (e : Extent) (k j : Nat) : (s.setExtent n e).bytes k j = s.bytes k j := rfl

/-! `setOwner` -/

@[simp] theorem State.setOwner_pending (u : Nat) (o : SquareOwner) : (s.setOwner u o).pending = s.pending := rfl
@[simp] theorem State.setOwner_out (u : Nat) (o : SquareOwner) : (s.setOwner u o).out = s.out := rfl
@[simp] theorem State.setOwner_freeCtr (u : Nat) (o : SquareOwner) : (s.setOwner u o).freeCtr = s.freeCtr := rfl
@[simp] theorem State.setOwner_isM (u : Nat) (o : SquareOwner) : (s.setOwner u o).isM = s.isM := rfl
@[simp] theorem State.setOwner_time (u : Nat) (o : SquareOwner) : (s.setOwner u o).time = s.time := rfl
@[simp] theorem State.setOwner_replicas (u : Nat) (o : SquareOwner) : (s.setOwner u o).replicas = s.replicas := rfl
@[simp] theorem State.setOwner_mem (u : Nat) (o : SquareOwner) : (s.setOwner u o).mem = s.mem := rfl
@[simp] theorem State.setOwner_parity (u : Nat) (o : SquareOwner) : (s.setOwner u o).parity = s.parity := rfl
@[simp] theorem State.setOwner_retries (u : Nat) (o : SquareOwner) : (s.setOwner u o).retries = s.retries := rfl
@[simp] theorem State.setOwner_resv (u : Nat) (o : SquareOwner) : (s.setOwner u o).resv = s.resv := rfl
@[simp] theorem State.setOwner_badWrite (u : Nat) (o : SquareOwner) : (s.setOwner u o).badWrite = s.badWrite := rfl
@[simp] theorem State.setOwner_squares (u : Nat) (o : SquareOwner) : (s.setOwner u o).squares = s.squares := rfl
@[simp] theorem State.setOwner_sqCtr (u : Nat) (o : SquareOwner) : (s.setOwner u o).sqCtr = s.sqCtr := rfl
@[simp] theorem State.setOwner_extents (u : Nat) (o : SquareOwner) : (s.setOwner u o).extents = s.extents := rfl
@[simp] theorem State.setOwner_fences (u : Nat) (o : SquareOwner) : (s.setOwner u o).fences = s.fences := rfl
@[simp] theorem State.setOwner_harts (u : Nat) (o : SquareOwner) : (s.setOwner u o).harts = s.harts := rfl
@[simp] theorem State.setOwner_parts (u : Nat) (o : SquareOwner) : (s.setOwner u o).parts = s.parts := rfl
@[simp] theorem State.setOwner_mintHart (u : Nat) (o : SquareOwner) : (s.setOwner u o).mintHart = s.mintHart := rfl
@[simp] theorem State.setOwner_mintVec (u : Nat) (o : SquareOwner) : (s.setOwner u o).mintVec = s.mintVec := rfl
@[simp] theorem State.setOwner_mintItype (u : Nat) (o : SquareOwner) : (s.setOwner u o).mintItype = s.mintItype := rfl
@[simp] theorem State.setOwner_rstLast (u : Nat) (o : SquareOwner) : (s.setOwner u o).rstLast = s.rstLast := rfl
@[simp] theorem State.setOwner_numVfs (u : Nat) (o : SquareOwner) : (s.setOwner u o).numVfs = s.numVfs := rfl
@[simp] theorem State.setOwner_vfEnable (u : Nat) (o : SquareOwner) : (s.setOwner u o).vfEnable = s.vfEnable := rfl
@[simp] theorem State.setOwner_queues (u : Nat) (o : SquareOwner) : (s.setOwner u o).queues = s.queues := rfl
@[simp] theorem State.setOwner_hall (u : Nat) (o : SquareOwner) : (s.setOwner u o).hall = s.hall := rfl
@[simp] theorem State.setOwner_launches (u : Nat) (o : SquareOwner) : (s.setOwner u o).launches = s.launches := rfl
@[simp] theorem State.setOwner_nextLaunch (u : Nat) (o : SquareOwner) : (s.setOwner u o).nextLaunch = s.nextLaunch := rfl
@[simp] theorem State.setOwner_hallCtr (u : Nat) (o : SquareOwner) : (s.setOwner u o).hallCtr = s.hallCtr := rfl
@[simp] theorem State.setOwner_seals (u : Nat) (o : SquareOwner) : (s.setOwner u o).seals = s.seals := rfl
@[simp] theorem State.setOwner_handles (u : Nat) (o : SquareOwner) : (s.setOwner u o).handles = s.handles := rfl
@[simp] theorem State.setOwner_hostReqs (u : Nat) (o : SquareOwner) : (s.setOwner u o).hostReqs = s.hostReqs := rfl
@[simp] theorem State.setOwner_far (u : Nat) (o : SquareOwner) : (s.setOwner u o).far = s.far := rfl
@[simp] theorem State.setOwner_nextFar (u : Nat) (o : SquareOwner) : (s.setOwner u o).nextFar = s.nextFar := rfl
@[simp] theorem State.setOwner_ftnG (u : Nat) (o : SquareOwner) : (s.setOwner u o).ftnG = s.ftnG := rfl
@[simp] theorem State.setOwner_links (u : Nat) (o : SquareOwner) : (s.setOwner u o).links = s.links := rfl
@[simp] theorem State.setOwner_power (u : Nat) (o : SquareOwner) : (s.setOwner u o).power = s.power := rfl
@[simp] theorem State.setOwner_boot (u : Nat) (o : SquareOwner) : (s.setOwner u o).boot = s.boot := rfl
@[simp] theorem State.setOwner_held (u : Nat) (o : SquareOwner) : (s.setOwner u o).held = s.held := rfl
@[simp] theorem State.setOwner_heldResets (u : Nat) (o : SquareOwner) : (s.setOwner u o).heldResets = s.heldResets := rfl
@[simp] theorem State.setOwner_elog (u : Nat) (o : SquareOwner) : (s.setOwner u o).elog = s.elog := rfl
@[simp] theorem State.setOwner_trcQ (u : Nat) (o : SquareOwner) : (s.setOwner u o).trcQ = s.trcQ := rfl
@[simp] theorem State.setOwner_ctr (u : Nat) (o : SquareOwner) : (s.setOwner u o).ctr = s.ctr := rfl
@[simp] theorem State.setOwner_ctrEpoch (u : Nat) (o : SquareOwner) : (s.setOwner u o).ctrEpoch = s.ctrEpoch := rfl
@[simp] theorem State.setOwner_ctrAge (u : Nat) (o : SquareOwner) : (s.setOwner u o).ctrAge = s.ctrAge := rfl
@[simp] theorem State.setOwner_snap (u : Nat) (o : SquareOwner) : (s.setOwner u o).snap = s.snap := rfl
@[simp] theorem State.setOwner_stop (u : Nat) (o : SquareOwner) : (s.setOwner u o).stop = s.stop := rfl
@[simp] theorem State.setOwner_sq (u : Nat) (o : SquareOwner) (k : Nat) : (s.setOwner u o).sq k = s.sq k := rfl
@[simp] theorem State.setOwner_part (u : Nat) (o : SquareOwner) (k : Nat) : (s.setOwner u o).part k = s.part k := rfl
@[simp] theorem State.setOwner_queue (u : Nat) (o : SquareOwner) (k : Nat) : (s.setOwner u o).queue k = s.queue k := rfl
@[simp] theorem State.setOwner_port (u : Nat) (o : SquareOwner) (k : Nat) : (s.setOwner u o).port k = s.port k := rfl
@[simp] theorem State.setOwner_fence (u : Nat) (o : SquareOwner) (k : Nat) : (s.setOwner u o).fence k = s.fence k := rfl
@[simp] theorem State.setOwner_hart (u : Nat) (o : SquareOwner) (k : Nat) : (s.setOwner u o).hart k = s.hart k := rfl
@[simp] theorem State.setOwner_extent (u : Nat) (o : SquareOwner) (k : Nat) : (s.setOwner u o).extent k = s.extent k := rfl
@[simp] theorem State.setOwner_seal (u : Nat) (o : SquareOwner) (k : Nat) : (s.setOwner u o).seal k = s.seal k := rfl
@[simp] theorem State.setOwner_squareCounter (u : Nat) (o : SquareOwner) (k j : Nat) : (s.setOwner u o).squareCounter k j = s.squareCounter k j := rfl
@[simp] theorem State.setOwner_hallCounter (u : Nat) (o : SquareOwner) (k : Nat) : (s.setOwner u o).hallCounter k = s.hallCounter k := rfl
@[simp] theorem State.setOwner_launch (u : Nat) (o : SquareOwner) (k : Nat) : (s.setOwner u o).launch k = s.launch k := rfl
@[simp] theorem State.setOwner_byte (u : Nat) (o : SquareOwner) (k : Nat) : (s.setOwner u o).byte k = s.byte k := rfl
@[simp] theorem State.setOwner_bytes (u : Nat) (o : SquareOwner) (k j : Nat) : (s.setOwner u o).bytes k j = s.bytes k j := rfl

/-! `setSeal` -/

@[simp] theorem State.setSeal_pending (n : Nat) (r : SealRange) : (s.setSeal n r).pending = s.pending := rfl
@[simp] theorem State.setSeal_out (n : Nat) (r : SealRange) : (s.setSeal n r).out = s.out := rfl
@[simp] theorem State.setSeal_freeCtr (n : Nat) (r : SealRange) : (s.setSeal n r).freeCtr = s.freeCtr := rfl
@[simp] theorem State.setSeal_isM (n : Nat) (r : SealRange) : (s.setSeal n r).isM = s.isM := rfl
@[simp] theorem State.setSeal_time (n : Nat) (r : SealRange) : (s.setSeal n r).time = s.time := rfl
@[simp] theorem State.setSeal_replicas (n : Nat) (r : SealRange) : (s.setSeal n r).replicas = s.replicas := rfl
@[simp] theorem State.setSeal_mem (n : Nat) (r : SealRange) : (s.setSeal n r).mem = s.mem := rfl
@[simp] theorem State.setSeal_parity (n : Nat) (r : SealRange) : (s.setSeal n r).parity = s.parity := rfl
@[simp] theorem State.setSeal_retries (n : Nat) (r : SealRange) : (s.setSeal n r).retries = s.retries := rfl
@[simp] theorem State.setSeal_resv (n : Nat) (r : SealRange) : (s.setSeal n r).resv = s.resv := rfl
@[simp] theorem State.setSeal_badWrite (n : Nat) (r : SealRange) : (s.setSeal n r).badWrite = s.badWrite := rfl
@[simp] theorem State.setSeal_squares (n : Nat) (r : SealRange) : (s.setSeal n r).squares = s.squares := rfl
@[simp] theorem State.setSeal_sqCtr (n : Nat) (r : SealRange) : (s.setSeal n r).sqCtr = s.sqCtr := rfl
@[simp] theorem State.setSeal_sqOwn (n : Nat) (r : SealRange) : (s.setSeal n r).sqOwn = s.sqOwn := rfl
@[simp] theorem State.setSeal_extents (n : Nat) (r : SealRange) : (s.setSeal n r).extents = s.extents := rfl
@[simp] theorem State.setSeal_fences (n : Nat) (r : SealRange) : (s.setSeal n r).fences = s.fences := rfl
@[simp] theorem State.setSeal_harts (n : Nat) (r : SealRange) : (s.setSeal n r).harts = s.harts := rfl
@[simp] theorem State.setSeal_parts (n : Nat) (r : SealRange) : (s.setSeal n r).parts = s.parts := rfl
@[simp] theorem State.setSeal_mintHart (n : Nat) (r : SealRange) : (s.setSeal n r).mintHart = s.mintHart := rfl
@[simp] theorem State.setSeal_mintVec (n : Nat) (r : SealRange) : (s.setSeal n r).mintVec = s.mintVec := rfl
@[simp] theorem State.setSeal_mintItype (n : Nat) (r : SealRange) : (s.setSeal n r).mintItype = s.mintItype := rfl
@[simp] theorem State.setSeal_rstLast (n : Nat) (r : SealRange) : (s.setSeal n r).rstLast = s.rstLast := rfl
@[simp] theorem State.setSeal_numVfs (n : Nat) (r : SealRange) : (s.setSeal n r).numVfs = s.numVfs := rfl
@[simp] theorem State.setSeal_vfEnable (n : Nat) (r : SealRange) : (s.setSeal n r).vfEnable = s.vfEnable := rfl
@[simp] theorem State.setSeal_queues (n : Nat) (r : SealRange) : (s.setSeal n r).queues = s.queues := rfl
@[simp] theorem State.setSeal_hall (n : Nat) (r : SealRange) : (s.setSeal n r).hall = s.hall := rfl
@[simp] theorem State.setSeal_launches (n : Nat) (r : SealRange) : (s.setSeal n r).launches = s.launches := rfl
@[simp] theorem State.setSeal_nextLaunch (n : Nat) (r : SealRange) : (s.setSeal n r).nextLaunch = s.nextLaunch := rfl
@[simp] theorem State.setSeal_hallCtr (n : Nat) (r : SealRange) : (s.setSeal n r).hallCtr = s.hallCtr := rfl
@[simp] theorem State.setSeal_handles (n : Nat) (r : SealRange) : (s.setSeal n r).handles = s.handles := rfl
@[simp] theorem State.setSeal_hostReqs (n : Nat) (r : SealRange) : (s.setSeal n r).hostReqs = s.hostReqs := rfl
@[simp] theorem State.setSeal_far (n : Nat) (r : SealRange) : (s.setSeal n r).far = s.far := rfl
@[simp] theorem State.setSeal_nextFar (n : Nat) (r : SealRange) : (s.setSeal n r).nextFar = s.nextFar := rfl
@[simp] theorem State.setSeal_ftnG (n : Nat) (r : SealRange) : (s.setSeal n r).ftnG = s.ftnG := rfl
@[simp] theorem State.setSeal_links (n : Nat) (r : SealRange) : (s.setSeal n r).links = s.links := rfl
@[simp] theorem State.setSeal_power (n : Nat) (r : SealRange) : (s.setSeal n r).power = s.power := rfl
@[simp] theorem State.setSeal_boot (n : Nat) (r : SealRange) : (s.setSeal n r).boot = s.boot := rfl
@[simp] theorem State.setSeal_held (n : Nat) (r : SealRange) : (s.setSeal n r).held = s.held := rfl
@[simp] theorem State.setSeal_heldResets (n : Nat) (r : SealRange) : (s.setSeal n r).heldResets = s.heldResets := rfl
@[simp] theorem State.setSeal_elog (n : Nat) (r : SealRange) : (s.setSeal n r).elog = s.elog := rfl
@[simp] theorem State.setSeal_trcQ (n : Nat) (r : SealRange) : (s.setSeal n r).trcQ = s.trcQ := rfl
@[simp] theorem State.setSeal_ctr (n : Nat) (r : SealRange) : (s.setSeal n r).ctr = s.ctr := rfl
@[simp] theorem State.setSeal_ctrEpoch (n : Nat) (r : SealRange) : (s.setSeal n r).ctrEpoch = s.ctrEpoch := rfl
@[simp] theorem State.setSeal_ctrAge (n : Nat) (r : SealRange) : (s.setSeal n r).ctrAge = s.ctrAge := rfl
@[simp] theorem State.setSeal_snap (n : Nat) (r : SealRange) : (s.setSeal n r).snap = s.snap := rfl
@[simp] theorem State.setSeal_stop (n : Nat) (r : SealRange) : (s.setSeal n r).stop = s.stop := rfl
@[simp] theorem State.setSeal_sq (n : Nat) (r : SealRange) (k : Nat) : (s.setSeal n r).sq k = s.sq k := rfl
@[simp] theorem State.setSeal_part (n : Nat) (r : SealRange) (k : Nat) : (s.setSeal n r).part k = s.part k := rfl
@[simp] theorem State.setSeal_queue (n : Nat) (r : SealRange) (k : Nat) : (s.setSeal n r).queue k = s.queue k := rfl
@[simp] theorem State.setSeal_port (n : Nat) (r : SealRange) (k : Nat) : (s.setSeal n r).port k = s.port k := rfl
@[simp] theorem State.setSeal_fence (n : Nat) (r : SealRange) (k : Nat) : (s.setSeal n r).fence k = s.fence k := rfl
@[simp] theorem State.setSeal_hart (n : Nat) (r : SealRange) (k : Nat) : (s.setSeal n r).hart k = s.hart k := rfl
@[simp] theorem State.setSeal_extent (n : Nat) (r : SealRange) (k : Nat) : (s.setSeal n r).extent k = s.extent k := rfl
@[simp] theorem State.setSeal_owner (n : Nat) (r : SealRange) (k : Nat) : (s.setSeal n r).owner k = s.owner k := rfl
@[simp] theorem State.setSeal_squareCounter (n : Nat) (r : SealRange) (k j : Nat) : (s.setSeal n r).squareCounter k j = s.squareCounter k j := rfl
@[simp] theorem State.setSeal_hallCounter (n : Nat) (r : SealRange) (k : Nat) : (s.setSeal n r).hallCounter k = s.hallCounter k := rfl
@[simp] theorem State.setSeal_launch (n : Nat) (r : SealRange) (k : Nat) : (s.setSeal n r).launch k = s.launch k := rfl
@[simp] theorem State.setSeal_byte (n : Nat) (r : SealRange) (k : Nat) : (s.setSeal n r).byte k = s.byte k := rfl
@[simp] theorem State.setSeal_bytes (n : Nat) (r : SealRange) (k j : Nat) : (s.setSeal n r).bytes k j = s.bytes k j := rfl

/-! `setSquareCounter` -/

@[simp] theorem State.setSquareCounter_pending (u c : Nat) (v : Reg64) : (s.setSquareCounter u c v).pending = s.pending := rfl
@[simp] theorem State.setSquareCounter_out (u c : Nat) (v : Reg64) : (s.setSquareCounter u c v).out = s.out := rfl
@[simp] theorem State.setSquareCounter_freeCtr (u c : Nat) (v : Reg64) : (s.setSquareCounter u c v).freeCtr = s.freeCtr := rfl
@[simp] theorem State.setSquareCounter_isM (u c : Nat) (v : Reg64) : (s.setSquareCounter u c v).isM = s.isM := rfl
@[simp] theorem State.setSquareCounter_time (u c : Nat) (v : Reg64) : (s.setSquareCounter u c v).time = s.time := rfl
@[simp] theorem State.setSquareCounter_replicas (u c : Nat) (v : Reg64) : (s.setSquareCounter u c v).replicas = s.replicas := rfl
@[simp] theorem State.setSquareCounter_mem (u c : Nat) (v : Reg64) : (s.setSquareCounter u c v).mem = s.mem := rfl
@[simp] theorem State.setSquareCounter_parity (u c : Nat) (v : Reg64) : (s.setSquareCounter u c v).parity = s.parity := rfl
@[simp] theorem State.setSquareCounter_retries (u c : Nat) (v : Reg64) : (s.setSquareCounter u c v).retries = s.retries := rfl
@[simp] theorem State.setSquareCounter_resv (u c : Nat) (v : Reg64) : (s.setSquareCounter u c v).resv = s.resv := rfl
@[simp] theorem State.setSquareCounter_badWrite (u c : Nat) (v : Reg64) : (s.setSquareCounter u c v).badWrite = s.badWrite := rfl
@[simp] theorem State.setSquareCounter_squares (u c : Nat) (v : Reg64) : (s.setSquareCounter u c v).squares = s.squares := rfl
@[simp] theorem State.setSquareCounter_sqOwn (u c : Nat) (v : Reg64) : (s.setSquareCounter u c v).sqOwn = s.sqOwn := rfl
@[simp] theorem State.setSquareCounter_extents (u c : Nat) (v : Reg64) : (s.setSquareCounter u c v).extents = s.extents := rfl
@[simp] theorem State.setSquareCounter_fences (u c : Nat) (v : Reg64) : (s.setSquareCounter u c v).fences = s.fences := rfl
@[simp] theorem State.setSquareCounter_harts (u c : Nat) (v : Reg64) : (s.setSquareCounter u c v).harts = s.harts := rfl
@[simp] theorem State.setSquareCounter_parts (u c : Nat) (v : Reg64) : (s.setSquareCounter u c v).parts = s.parts := rfl
@[simp] theorem State.setSquareCounter_mintHart (u c : Nat) (v : Reg64) : (s.setSquareCounter u c v).mintHart = s.mintHart := rfl
@[simp] theorem State.setSquareCounter_mintVec (u c : Nat) (v : Reg64) : (s.setSquareCounter u c v).mintVec = s.mintVec := rfl
@[simp] theorem State.setSquareCounter_mintItype (u c : Nat) (v : Reg64) : (s.setSquareCounter u c v).mintItype = s.mintItype := rfl
@[simp] theorem State.setSquareCounter_rstLast (u c : Nat) (v : Reg64) : (s.setSquareCounter u c v).rstLast = s.rstLast := rfl
@[simp] theorem State.setSquareCounter_numVfs (u c : Nat) (v : Reg64) : (s.setSquareCounter u c v).numVfs = s.numVfs := rfl
@[simp] theorem State.setSquareCounter_vfEnable (u c : Nat) (v : Reg64) : (s.setSquareCounter u c v).vfEnable = s.vfEnable := rfl
@[simp] theorem State.setSquareCounter_queues (u c : Nat) (v : Reg64) : (s.setSquareCounter u c v).queues = s.queues := rfl
@[simp] theorem State.setSquareCounter_hall (u c : Nat) (v : Reg64) : (s.setSquareCounter u c v).hall = s.hall := rfl
@[simp] theorem State.setSquareCounter_launches (u c : Nat) (v : Reg64) : (s.setSquareCounter u c v).launches = s.launches := rfl
@[simp] theorem State.setSquareCounter_nextLaunch (u c : Nat) (v : Reg64) : (s.setSquareCounter u c v).nextLaunch = s.nextLaunch := rfl
@[simp] theorem State.setSquareCounter_hallCtr (u c : Nat) (v : Reg64) : (s.setSquareCounter u c v).hallCtr = s.hallCtr := rfl
@[simp] theorem State.setSquareCounter_seals (u c : Nat) (v : Reg64) : (s.setSquareCounter u c v).seals = s.seals := rfl
@[simp] theorem State.setSquareCounter_handles (u c : Nat) (v : Reg64) : (s.setSquareCounter u c v).handles = s.handles := rfl
@[simp] theorem State.setSquareCounter_hostReqs (u c : Nat) (v : Reg64) : (s.setSquareCounter u c v).hostReqs = s.hostReqs := rfl
@[simp] theorem State.setSquareCounter_far (u c : Nat) (v : Reg64) : (s.setSquareCounter u c v).far = s.far := rfl
@[simp] theorem State.setSquareCounter_nextFar (u c : Nat) (v : Reg64) : (s.setSquareCounter u c v).nextFar = s.nextFar := rfl
@[simp] theorem State.setSquareCounter_ftnG (u c : Nat) (v : Reg64) : (s.setSquareCounter u c v).ftnG = s.ftnG := rfl
@[simp] theorem State.setSquareCounter_links (u c : Nat) (v : Reg64) : (s.setSquareCounter u c v).links = s.links := rfl
@[simp] theorem State.setSquareCounter_power (u c : Nat) (v : Reg64) : (s.setSquareCounter u c v).power = s.power := rfl
@[simp] theorem State.setSquareCounter_boot (u c : Nat) (v : Reg64) : (s.setSquareCounter u c v).boot = s.boot := rfl
@[simp] theorem State.setSquareCounter_held (u c : Nat) (v : Reg64) : (s.setSquareCounter u c v).held = s.held := rfl
@[simp] theorem State.setSquareCounter_heldResets (u c : Nat) (v : Reg64) : (s.setSquareCounter u c v).heldResets = s.heldResets := rfl
@[simp] theorem State.setSquareCounter_elog (u c : Nat) (v : Reg64) : (s.setSquareCounter u c v).elog = s.elog := rfl
@[simp] theorem State.setSquareCounter_trcQ (u c : Nat) (v : Reg64) : (s.setSquareCounter u c v).trcQ = s.trcQ := rfl
@[simp] theorem State.setSquareCounter_ctr (u c : Nat) (v : Reg64) : (s.setSquareCounter u c v).ctr = s.ctr := rfl
@[simp] theorem State.setSquareCounter_ctrEpoch (u c : Nat) (v : Reg64) : (s.setSquareCounter u c v).ctrEpoch = s.ctrEpoch := rfl
@[simp] theorem State.setSquareCounter_ctrAge (u c : Nat) (v : Reg64) : (s.setSquareCounter u c v).ctrAge = s.ctrAge := rfl
@[simp] theorem State.setSquareCounter_snap (u c : Nat) (v : Reg64) : (s.setSquareCounter u c v).snap = s.snap := rfl
@[simp] theorem State.setSquareCounter_stop (u c : Nat) (v : Reg64) : (s.setSquareCounter u c v).stop = s.stop := rfl
@[simp] theorem State.setSquareCounter_sq (u c : Nat) (v : Reg64) (k : Nat) : (s.setSquareCounter u c v).sq k = s.sq k := rfl
@[simp] theorem State.setSquareCounter_part (u c : Nat) (v : Reg64) (k : Nat) : (s.setSquareCounter u c v).part k = s.part k := rfl
@[simp] theorem State.setSquareCounter_queue (u c : Nat) (v : Reg64) (k : Nat) : (s.setSquareCounter u c v).queue k = s.queue k := rfl
@[simp] theorem State.setSquareCounter_port (u c : Nat) (v : Reg64) (k : Nat) : (s.setSquareCounter u c v).port k = s.port k := rfl
@[simp] theorem State.setSquareCounter_fence (u c : Nat) (v : Reg64) (k : Nat) : (s.setSquareCounter u c v).fence k = s.fence k := rfl
@[simp] theorem State.setSquareCounter_hart (u c : Nat) (v : Reg64) (k : Nat) : (s.setSquareCounter u c v).hart k = s.hart k := rfl
@[simp] theorem State.setSquareCounter_extent (u c : Nat) (v : Reg64) (k : Nat) : (s.setSquareCounter u c v).extent k = s.extent k := rfl
@[simp] theorem State.setSquareCounter_owner (u c : Nat) (v : Reg64) (k : Nat) : (s.setSquareCounter u c v).owner k = s.owner k := rfl
@[simp] theorem State.setSquareCounter_seal (u c : Nat) (v : Reg64) (k : Nat) : (s.setSquareCounter u c v).seal k = s.seal k := rfl
@[simp] theorem State.setSquareCounter_hallCounter (u c : Nat) (v : Reg64) (k : Nat) : (s.setSquareCounter u c v).hallCounter k = s.hallCounter k := rfl
@[simp] theorem State.setSquareCounter_launch (u c : Nat) (v : Reg64) (k : Nat) : (s.setSquareCounter u c v).launch k = s.launch k := rfl
@[simp] theorem State.setSquareCounter_byte (u c : Nat) (v : Reg64) (k : Nat) : (s.setSquareCounter u c v).byte k = s.byte k := rfl
@[simp] theorem State.setSquareCounter_bytes (u c : Nat) (v : Reg64) (k j : Nat) : (s.setSquareCounter u c v).bytes k j = s.bytes k j := rfl

/-! `setHallCounter` -/

@[simp] theorem State.setHallCounter_pending (c : Nat) (v : Reg64) : (s.setHallCounter c v).pending = s.pending := rfl
@[simp] theorem State.setHallCounter_out (c : Nat) (v : Reg64) : (s.setHallCounter c v).out = s.out := rfl
@[simp] theorem State.setHallCounter_freeCtr (c : Nat) (v : Reg64) : (s.setHallCounter c v).freeCtr = s.freeCtr := rfl
@[simp] theorem State.setHallCounter_isM (c : Nat) (v : Reg64) : (s.setHallCounter c v).isM = s.isM := rfl
@[simp] theorem State.setHallCounter_time (c : Nat) (v : Reg64) : (s.setHallCounter c v).time = s.time := rfl
@[simp] theorem State.setHallCounter_replicas (c : Nat) (v : Reg64) : (s.setHallCounter c v).replicas = s.replicas := rfl
@[simp] theorem State.setHallCounter_mem (c : Nat) (v : Reg64) : (s.setHallCounter c v).mem = s.mem := rfl
@[simp] theorem State.setHallCounter_parity (c : Nat) (v : Reg64) : (s.setHallCounter c v).parity = s.parity := rfl
@[simp] theorem State.setHallCounter_retries (c : Nat) (v : Reg64) : (s.setHallCounter c v).retries = s.retries := rfl
@[simp] theorem State.setHallCounter_resv (c : Nat) (v : Reg64) : (s.setHallCounter c v).resv = s.resv := rfl
@[simp] theorem State.setHallCounter_badWrite (c : Nat) (v : Reg64) : (s.setHallCounter c v).badWrite = s.badWrite := rfl
@[simp] theorem State.setHallCounter_squares (c : Nat) (v : Reg64) : (s.setHallCounter c v).squares = s.squares := rfl
@[simp] theorem State.setHallCounter_sqCtr (c : Nat) (v : Reg64) : (s.setHallCounter c v).sqCtr = s.sqCtr := rfl
@[simp] theorem State.setHallCounter_sqOwn (c : Nat) (v : Reg64) : (s.setHallCounter c v).sqOwn = s.sqOwn := rfl
@[simp] theorem State.setHallCounter_extents (c : Nat) (v : Reg64) : (s.setHallCounter c v).extents = s.extents := rfl
@[simp] theorem State.setHallCounter_fences (c : Nat) (v : Reg64) : (s.setHallCounter c v).fences = s.fences := rfl
@[simp] theorem State.setHallCounter_harts (c : Nat) (v : Reg64) : (s.setHallCounter c v).harts = s.harts := rfl
@[simp] theorem State.setHallCounter_parts (c : Nat) (v : Reg64) : (s.setHallCounter c v).parts = s.parts := rfl
@[simp] theorem State.setHallCounter_mintHart (c : Nat) (v : Reg64) : (s.setHallCounter c v).mintHart = s.mintHart := rfl
@[simp] theorem State.setHallCounter_mintVec (c : Nat) (v : Reg64) : (s.setHallCounter c v).mintVec = s.mintVec := rfl
@[simp] theorem State.setHallCounter_mintItype (c : Nat) (v : Reg64) : (s.setHallCounter c v).mintItype = s.mintItype := rfl
@[simp] theorem State.setHallCounter_rstLast (c : Nat) (v : Reg64) : (s.setHallCounter c v).rstLast = s.rstLast := rfl
@[simp] theorem State.setHallCounter_numVfs (c : Nat) (v : Reg64) : (s.setHallCounter c v).numVfs = s.numVfs := rfl
@[simp] theorem State.setHallCounter_vfEnable (c : Nat) (v : Reg64) : (s.setHallCounter c v).vfEnable = s.vfEnable := rfl
@[simp] theorem State.setHallCounter_queues (c : Nat) (v : Reg64) : (s.setHallCounter c v).queues = s.queues := rfl
@[simp] theorem State.setHallCounter_hall (c : Nat) (v : Reg64) : (s.setHallCounter c v).hall = s.hall := rfl
@[simp] theorem State.setHallCounter_launches (c : Nat) (v : Reg64) : (s.setHallCounter c v).launches = s.launches := rfl
@[simp] theorem State.setHallCounter_nextLaunch (c : Nat) (v : Reg64) : (s.setHallCounter c v).nextLaunch = s.nextLaunch := rfl
@[simp] theorem State.setHallCounter_seals (c : Nat) (v : Reg64) : (s.setHallCounter c v).seals = s.seals := rfl
@[simp] theorem State.setHallCounter_handles (c : Nat) (v : Reg64) : (s.setHallCounter c v).handles = s.handles := rfl
@[simp] theorem State.setHallCounter_hostReqs (c : Nat) (v : Reg64) : (s.setHallCounter c v).hostReqs = s.hostReqs := rfl
@[simp] theorem State.setHallCounter_far (c : Nat) (v : Reg64) : (s.setHallCounter c v).far = s.far := rfl
@[simp] theorem State.setHallCounter_nextFar (c : Nat) (v : Reg64) : (s.setHallCounter c v).nextFar = s.nextFar := rfl
@[simp] theorem State.setHallCounter_ftnG (c : Nat) (v : Reg64) : (s.setHallCounter c v).ftnG = s.ftnG := rfl
@[simp] theorem State.setHallCounter_links (c : Nat) (v : Reg64) : (s.setHallCounter c v).links = s.links := rfl
@[simp] theorem State.setHallCounter_power (c : Nat) (v : Reg64) : (s.setHallCounter c v).power = s.power := rfl
@[simp] theorem State.setHallCounter_boot (c : Nat) (v : Reg64) : (s.setHallCounter c v).boot = s.boot := rfl
@[simp] theorem State.setHallCounter_held (c : Nat) (v : Reg64) : (s.setHallCounter c v).held = s.held := rfl
@[simp] theorem State.setHallCounter_heldResets (c : Nat) (v : Reg64) : (s.setHallCounter c v).heldResets = s.heldResets := rfl
@[simp] theorem State.setHallCounter_elog (c : Nat) (v : Reg64) : (s.setHallCounter c v).elog = s.elog := rfl
@[simp] theorem State.setHallCounter_trcQ (c : Nat) (v : Reg64) : (s.setHallCounter c v).trcQ = s.trcQ := rfl
@[simp] theorem State.setHallCounter_ctr (c : Nat) (v : Reg64) : (s.setHallCounter c v).ctr = s.ctr := rfl
@[simp] theorem State.setHallCounter_ctrEpoch (c : Nat) (v : Reg64) : (s.setHallCounter c v).ctrEpoch = s.ctrEpoch := rfl
@[simp] theorem State.setHallCounter_ctrAge (c : Nat) (v : Reg64) : (s.setHallCounter c v).ctrAge = s.ctrAge := rfl
@[simp] theorem State.setHallCounter_snap (c : Nat) (v : Reg64) : (s.setHallCounter c v).snap = s.snap := rfl
@[simp] theorem State.setHallCounter_stop (c : Nat) (v : Reg64) : (s.setHallCounter c v).stop = s.stop := rfl
@[simp] theorem State.setHallCounter_sq (c : Nat) (v : Reg64) (k : Nat) : (s.setHallCounter c v).sq k = s.sq k := rfl
@[simp] theorem State.setHallCounter_part (c : Nat) (v : Reg64) (k : Nat) : (s.setHallCounter c v).part k = s.part k := rfl
@[simp] theorem State.setHallCounter_queue (c : Nat) (v : Reg64) (k : Nat) : (s.setHallCounter c v).queue k = s.queue k := rfl
@[simp] theorem State.setHallCounter_port (c : Nat) (v : Reg64) (k : Nat) : (s.setHallCounter c v).port k = s.port k := rfl
@[simp] theorem State.setHallCounter_fence (c : Nat) (v : Reg64) (k : Nat) : (s.setHallCounter c v).fence k = s.fence k := rfl
@[simp] theorem State.setHallCounter_hart (c : Nat) (v : Reg64) (k : Nat) : (s.setHallCounter c v).hart k = s.hart k := rfl
@[simp] theorem State.setHallCounter_extent (c : Nat) (v : Reg64) (k : Nat) : (s.setHallCounter c v).extent k = s.extent k := rfl
@[simp] theorem State.setHallCounter_owner (c : Nat) (v : Reg64) (k : Nat) : (s.setHallCounter c v).owner k = s.owner k := rfl
@[simp] theorem State.setHallCounter_seal (c : Nat) (v : Reg64) (k : Nat) : (s.setHallCounter c v).seal k = s.seal k := rfl
@[simp] theorem State.setHallCounter_squareCounter (c : Nat) (v : Reg64) (k j : Nat) : (s.setHallCounter c v).squareCounter k j = s.squareCounter k j := rfl
@[simp] theorem State.setHallCounter_launch (c : Nat) (v : Reg64) (k : Nat) : (s.setHallCounter c v).launch k = s.launch k := rfl
@[simp] theorem State.setHallCounter_byte (c : Nat) (v : Reg64) (k : Nat) : (s.setHallCounter c v).byte k = s.byte k := rfl
@[simp] theorem State.setHallCounter_bytes (c : Nat) (v : Reg64) (k j : Nat) : (s.setHallCounter c v).bytes k j = s.bytes k j := rfl

/-! `modLaunch` -/

@[simp] theorem State.modLaunch_pending (id : Nat) (f : Launch → Launch) : (s.modLaunch id f).pending = s.pending := rfl
@[simp] theorem State.modLaunch_out (id : Nat) (f : Launch → Launch) : (s.modLaunch id f).out = s.out := rfl
@[simp] theorem State.modLaunch_freeCtr (id : Nat) (f : Launch → Launch) : (s.modLaunch id f).freeCtr = s.freeCtr := rfl
@[simp] theorem State.modLaunch_isM (id : Nat) (f : Launch → Launch) : (s.modLaunch id f).isM = s.isM := rfl
@[simp] theorem State.modLaunch_time (id : Nat) (f : Launch → Launch) : (s.modLaunch id f).time = s.time := rfl
@[simp] theorem State.modLaunch_replicas (id : Nat) (f : Launch → Launch) : (s.modLaunch id f).replicas = s.replicas := rfl
@[simp] theorem State.modLaunch_mem (id : Nat) (f : Launch → Launch) : (s.modLaunch id f).mem = s.mem := rfl
@[simp] theorem State.modLaunch_parity (id : Nat) (f : Launch → Launch) : (s.modLaunch id f).parity = s.parity := rfl
@[simp] theorem State.modLaunch_retries (id : Nat) (f : Launch → Launch) : (s.modLaunch id f).retries = s.retries := rfl
@[simp] theorem State.modLaunch_resv (id : Nat) (f : Launch → Launch) : (s.modLaunch id f).resv = s.resv := rfl
@[simp] theorem State.modLaunch_badWrite (id : Nat) (f : Launch → Launch) : (s.modLaunch id f).badWrite = s.badWrite := rfl
@[simp] theorem State.modLaunch_squares (id : Nat) (f : Launch → Launch) : (s.modLaunch id f).squares = s.squares := rfl
@[simp] theorem State.modLaunch_sqCtr (id : Nat) (f : Launch → Launch) : (s.modLaunch id f).sqCtr = s.sqCtr := rfl
@[simp] theorem State.modLaunch_sqOwn (id : Nat) (f : Launch → Launch) : (s.modLaunch id f).sqOwn = s.sqOwn := rfl
@[simp] theorem State.modLaunch_extents (id : Nat) (f : Launch → Launch) : (s.modLaunch id f).extents = s.extents := rfl
@[simp] theorem State.modLaunch_fences (id : Nat) (f : Launch → Launch) : (s.modLaunch id f).fences = s.fences := rfl
@[simp] theorem State.modLaunch_harts (id : Nat) (f : Launch → Launch) : (s.modLaunch id f).harts = s.harts := rfl
@[simp] theorem State.modLaunch_parts (id : Nat) (f : Launch → Launch) : (s.modLaunch id f).parts = s.parts := rfl
@[simp] theorem State.modLaunch_mintHart (id : Nat) (f : Launch → Launch) : (s.modLaunch id f).mintHart = s.mintHart := rfl
@[simp] theorem State.modLaunch_mintVec (id : Nat) (f : Launch → Launch) : (s.modLaunch id f).mintVec = s.mintVec := rfl
@[simp] theorem State.modLaunch_mintItype (id : Nat) (f : Launch → Launch) : (s.modLaunch id f).mintItype = s.mintItype := rfl
@[simp] theorem State.modLaunch_rstLast (id : Nat) (f : Launch → Launch) : (s.modLaunch id f).rstLast = s.rstLast := rfl
@[simp] theorem State.modLaunch_numVfs (id : Nat) (f : Launch → Launch) : (s.modLaunch id f).numVfs = s.numVfs := rfl
@[simp] theorem State.modLaunch_vfEnable (id : Nat) (f : Launch → Launch) : (s.modLaunch id f).vfEnable = s.vfEnable := rfl
@[simp] theorem State.modLaunch_queues (id : Nat) (f : Launch → Launch) : (s.modLaunch id f).queues = s.queues := rfl
@[simp] theorem State.modLaunch_hall (id : Nat) (f : Launch → Launch) : (s.modLaunch id f).hall = s.hall := rfl
@[simp] theorem State.modLaunch_nextLaunch (id : Nat) (f : Launch → Launch) : (s.modLaunch id f).nextLaunch = s.nextLaunch := rfl
@[simp] theorem State.modLaunch_hallCtr (id : Nat) (f : Launch → Launch) : (s.modLaunch id f).hallCtr = s.hallCtr := rfl
@[simp] theorem State.modLaunch_seals (id : Nat) (f : Launch → Launch) : (s.modLaunch id f).seals = s.seals := rfl
@[simp] theorem State.modLaunch_handles (id : Nat) (f : Launch → Launch) : (s.modLaunch id f).handles = s.handles := rfl
@[simp] theorem State.modLaunch_hostReqs (id : Nat) (f : Launch → Launch) : (s.modLaunch id f).hostReqs = s.hostReqs := rfl
@[simp] theorem State.modLaunch_far (id : Nat) (f : Launch → Launch) : (s.modLaunch id f).far = s.far := rfl
@[simp] theorem State.modLaunch_nextFar (id : Nat) (f : Launch → Launch) : (s.modLaunch id f).nextFar = s.nextFar := rfl
@[simp] theorem State.modLaunch_ftnG (id : Nat) (f : Launch → Launch) : (s.modLaunch id f).ftnG = s.ftnG := rfl
@[simp] theorem State.modLaunch_links (id : Nat) (f : Launch → Launch) : (s.modLaunch id f).links = s.links := rfl
@[simp] theorem State.modLaunch_power (id : Nat) (f : Launch → Launch) : (s.modLaunch id f).power = s.power := rfl
@[simp] theorem State.modLaunch_boot (id : Nat) (f : Launch → Launch) : (s.modLaunch id f).boot = s.boot := rfl
@[simp] theorem State.modLaunch_held (id : Nat) (f : Launch → Launch) : (s.modLaunch id f).held = s.held := rfl
@[simp] theorem State.modLaunch_heldResets (id : Nat) (f : Launch → Launch) : (s.modLaunch id f).heldResets = s.heldResets := rfl
@[simp] theorem State.modLaunch_elog (id : Nat) (f : Launch → Launch) : (s.modLaunch id f).elog = s.elog := rfl
@[simp] theorem State.modLaunch_trcQ (id : Nat) (f : Launch → Launch) : (s.modLaunch id f).trcQ = s.trcQ := rfl
@[simp] theorem State.modLaunch_ctr (id : Nat) (f : Launch → Launch) : (s.modLaunch id f).ctr = s.ctr := rfl
@[simp] theorem State.modLaunch_ctrEpoch (id : Nat) (f : Launch → Launch) : (s.modLaunch id f).ctrEpoch = s.ctrEpoch := rfl
@[simp] theorem State.modLaunch_ctrAge (id : Nat) (f : Launch → Launch) : (s.modLaunch id f).ctrAge = s.ctrAge := rfl
@[simp] theorem State.modLaunch_snap (id : Nat) (f : Launch → Launch) : (s.modLaunch id f).snap = s.snap := rfl
@[simp] theorem State.modLaunch_stop (id : Nat) (f : Launch → Launch) : (s.modLaunch id f).stop = s.stop := rfl
@[simp] theorem State.modLaunch_sq (id : Nat) (f : Launch → Launch) (k : Nat) : (s.modLaunch id f).sq k = s.sq k := rfl
@[simp] theorem State.modLaunch_part (id : Nat) (f : Launch → Launch) (k : Nat) : (s.modLaunch id f).part k = s.part k := rfl
@[simp] theorem State.modLaunch_queue (id : Nat) (f : Launch → Launch) (k : Nat) : (s.modLaunch id f).queue k = s.queue k := rfl
@[simp] theorem State.modLaunch_port (id : Nat) (f : Launch → Launch) (k : Nat) : (s.modLaunch id f).port k = s.port k := rfl
@[simp] theorem State.modLaunch_fence (id : Nat) (f : Launch → Launch) (k : Nat) : (s.modLaunch id f).fence k = s.fence k := rfl
@[simp] theorem State.modLaunch_hart (id : Nat) (f : Launch → Launch) (k : Nat) : (s.modLaunch id f).hart k = s.hart k := rfl
@[simp] theorem State.modLaunch_extent (id : Nat) (f : Launch → Launch) (k : Nat) : (s.modLaunch id f).extent k = s.extent k := rfl
@[simp] theorem State.modLaunch_owner (id : Nat) (f : Launch → Launch) (k : Nat) : (s.modLaunch id f).owner k = s.owner k := rfl
@[simp] theorem State.modLaunch_seal (id : Nat) (f : Launch → Launch) (k : Nat) : (s.modLaunch id f).seal k = s.seal k := rfl
@[simp] theorem State.modLaunch_squareCounter (id : Nat) (f : Launch → Launch) (k j : Nat) : (s.modLaunch id f).squareCounter k j = s.squareCounter k j := rfl
@[simp] theorem State.modLaunch_hallCounter (id : Nat) (f : Launch → Launch) (k : Nat) : (s.modLaunch id f).hallCounter k = s.hallCounter k := rfl
@[simp] theorem State.modLaunch_byte (id : Nat) (f : Launch → Launch) (k : Nat) : (s.modLaunch id f).byte k = s.byte k := rfl
@[simp] theorem State.modLaunch_bytes (id : Nat) (f : Launch → Launch) (k j : Nat) : (s.modLaunch id f).bytes k j = s.bytes k j := rfl

/-! `emit` -/

@[simp] theorem State.emit_pending (o : Out) : (s.emit o).pending = s.pending := rfl
@[simp] theorem State.emit_freeCtr (o : Out) : (s.emit o).freeCtr = s.freeCtr := rfl
@[simp] theorem State.emit_isM (o : Out) : (s.emit o).isM = s.isM := rfl
@[simp] theorem State.emit_time (o : Out) : (s.emit o).time = s.time := rfl
@[simp] theorem State.emit_replicas (o : Out) : (s.emit o).replicas = s.replicas := rfl
@[simp] theorem State.emit_mem (o : Out) : (s.emit o).mem = s.mem := rfl
@[simp] theorem State.emit_parity (o : Out) : (s.emit o).parity = s.parity := rfl
@[simp] theorem State.emit_retries (o : Out) : (s.emit o).retries = s.retries := rfl
@[simp] theorem State.emit_resv (o : Out) : (s.emit o).resv = s.resv := rfl
@[simp] theorem State.emit_badWrite (o : Out) : (s.emit o).badWrite = s.badWrite := rfl
@[simp] theorem State.emit_squares (o : Out) : (s.emit o).squares = s.squares := rfl
@[simp] theorem State.emit_sqCtr (o : Out) : (s.emit o).sqCtr = s.sqCtr := rfl
@[simp] theorem State.emit_sqOwn (o : Out) : (s.emit o).sqOwn = s.sqOwn := rfl
@[simp] theorem State.emit_extents (o : Out) : (s.emit o).extents = s.extents := rfl
@[simp] theorem State.emit_fences (o : Out) : (s.emit o).fences = s.fences := rfl
@[simp] theorem State.emit_harts (o : Out) : (s.emit o).harts = s.harts := rfl
@[simp] theorem State.emit_parts (o : Out) : (s.emit o).parts = s.parts := rfl
@[simp] theorem State.emit_mintHart (o : Out) : (s.emit o).mintHart = s.mintHart := rfl
@[simp] theorem State.emit_mintVec (o : Out) : (s.emit o).mintVec = s.mintVec := rfl
@[simp] theorem State.emit_mintItype (o : Out) : (s.emit o).mintItype = s.mintItype := rfl
@[simp] theorem State.emit_rstLast (o : Out) : (s.emit o).rstLast = s.rstLast := rfl
@[simp] theorem State.emit_numVfs (o : Out) : (s.emit o).numVfs = s.numVfs := rfl
@[simp] theorem State.emit_vfEnable (o : Out) : (s.emit o).vfEnable = s.vfEnable := rfl
@[simp] theorem State.emit_queues (o : Out) : (s.emit o).queues = s.queues := rfl
@[simp] theorem State.emit_hall (o : Out) : (s.emit o).hall = s.hall := rfl
@[simp] theorem State.emit_launches (o : Out) : (s.emit o).launches = s.launches := rfl
@[simp] theorem State.emit_nextLaunch (o : Out) : (s.emit o).nextLaunch = s.nextLaunch := rfl
@[simp] theorem State.emit_hallCtr (o : Out) : (s.emit o).hallCtr = s.hallCtr := rfl
@[simp] theorem State.emit_seals (o : Out) : (s.emit o).seals = s.seals := rfl
@[simp] theorem State.emit_handles (o : Out) : (s.emit o).handles = s.handles := rfl
@[simp] theorem State.emit_hostReqs (o : Out) : (s.emit o).hostReqs = s.hostReqs := rfl
@[simp] theorem State.emit_far (o : Out) : (s.emit o).far = s.far := rfl
@[simp] theorem State.emit_nextFar (o : Out) : (s.emit o).nextFar = s.nextFar := rfl
@[simp] theorem State.emit_ftnG (o : Out) : (s.emit o).ftnG = s.ftnG := rfl
@[simp] theorem State.emit_links (o : Out) : (s.emit o).links = s.links := rfl
@[simp] theorem State.emit_power (o : Out) : (s.emit o).power = s.power := rfl
@[simp] theorem State.emit_boot (o : Out) : (s.emit o).boot = s.boot := rfl
@[simp] theorem State.emit_held (o : Out) : (s.emit o).held = s.held := rfl
@[simp] theorem State.emit_heldResets (o : Out) : (s.emit o).heldResets = s.heldResets := rfl
@[simp] theorem State.emit_elog (o : Out) : (s.emit o).elog = s.elog := rfl
@[simp] theorem State.emit_trcQ (o : Out) : (s.emit o).trcQ = s.trcQ := rfl
@[simp] theorem State.emit_ctr (o : Out) : (s.emit o).ctr = s.ctr := rfl
@[simp] theorem State.emit_ctrEpoch (o : Out) : (s.emit o).ctrEpoch = s.ctrEpoch := rfl
@[simp] theorem State.emit_ctrAge (o : Out) : (s.emit o).ctrAge = s.ctrAge := rfl
@[simp] theorem State.emit_snap (o : Out) : (s.emit o).snap = s.snap := rfl
@[simp] theorem State.emit_stop (o : Out) : (s.emit o).stop = s.stop := rfl
@[simp] theorem State.emit_sq (o : Out) (k : Nat) : (s.emit o).sq k = s.sq k := rfl
@[simp] theorem State.emit_part (o : Out) (k : Nat) : (s.emit o).part k = s.part k := rfl
@[simp] theorem State.emit_queue (o : Out) (k : Nat) : (s.emit o).queue k = s.queue k := rfl
@[simp] theorem State.emit_port (o : Out) (k : Nat) : (s.emit o).port k = s.port k := rfl
@[simp] theorem State.emit_fence (o : Out) (k : Nat) : (s.emit o).fence k = s.fence k := rfl
@[simp] theorem State.emit_hart (o : Out) (k : Nat) : (s.emit o).hart k = s.hart k := rfl
@[simp] theorem State.emit_extent (o : Out) (k : Nat) : (s.emit o).extent k = s.extent k := rfl
@[simp] theorem State.emit_owner (o : Out) (k : Nat) : (s.emit o).owner k = s.owner k := rfl
@[simp] theorem State.emit_seal (o : Out) (k : Nat) : (s.emit o).seal k = s.seal k := rfl
@[simp] theorem State.emit_squareCounter (o : Out) (k j : Nat) : (s.emit o).squareCounter k j = s.squareCounter k j := rfl
@[simp] theorem State.emit_hallCounter (o : Out) (k : Nat) : (s.emit o).hallCounter k = s.hallCounter k := rfl
@[simp] theorem State.emit_launch (o : Out) (k : Nat) : (s.emit o).launch k = s.launch k := rfl
@[simp] theorem State.emit_byte (o : Out) (k : Nat) : (s.emit o).byte k = s.byte k := rfl
@[simp] theorem State.emit_bytes (o : Out) (k j : Nat) : (s.emit o).bytes k j = s.bytes k j := rfl

/-! `modPower` -/

@[simp] theorem State.modPower_pending (f : Power → Power) : (s.modPower f).pending = s.pending := rfl
@[simp] theorem State.modPower_out (f : Power → Power) : (s.modPower f).out = s.out := rfl
@[simp] theorem State.modPower_freeCtr (f : Power → Power) : (s.modPower f).freeCtr = s.freeCtr := rfl
@[simp] theorem State.modPower_isM (f : Power → Power) : (s.modPower f).isM = s.isM := rfl
@[simp] theorem State.modPower_time (f : Power → Power) : (s.modPower f).time = s.time := rfl
@[simp] theorem State.modPower_replicas (f : Power → Power) : (s.modPower f).replicas = s.replicas := rfl
@[simp] theorem State.modPower_mem (f : Power → Power) : (s.modPower f).mem = s.mem := rfl
@[simp] theorem State.modPower_parity (f : Power → Power) : (s.modPower f).parity = s.parity := rfl
@[simp] theorem State.modPower_retries (f : Power → Power) : (s.modPower f).retries = s.retries := rfl
@[simp] theorem State.modPower_resv (f : Power → Power) : (s.modPower f).resv = s.resv := rfl
@[simp] theorem State.modPower_badWrite (f : Power → Power) : (s.modPower f).badWrite = s.badWrite := rfl
@[simp] theorem State.modPower_squares (f : Power → Power) : (s.modPower f).squares = s.squares := rfl
@[simp] theorem State.modPower_sqCtr (f : Power → Power) : (s.modPower f).sqCtr = s.sqCtr := rfl
@[simp] theorem State.modPower_sqOwn (f : Power → Power) : (s.modPower f).sqOwn = s.sqOwn := rfl
@[simp] theorem State.modPower_extents (f : Power → Power) : (s.modPower f).extents = s.extents := rfl
@[simp] theorem State.modPower_fences (f : Power → Power) : (s.modPower f).fences = s.fences := rfl
@[simp] theorem State.modPower_harts (f : Power → Power) : (s.modPower f).harts = s.harts := rfl
@[simp] theorem State.modPower_parts (f : Power → Power) : (s.modPower f).parts = s.parts := rfl
@[simp] theorem State.modPower_mintHart (f : Power → Power) : (s.modPower f).mintHart = s.mintHart := rfl
@[simp] theorem State.modPower_mintVec (f : Power → Power) : (s.modPower f).mintVec = s.mintVec := rfl
@[simp] theorem State.modPower_mintItype (f : Power → Power) : (s.modPower f).mintItype = s.mintItype := rfl
@[simp] theorem State.modPower_rstLast (f : Power → Power) : (s.modPower f).rstLast = s.rstLast := rfl
@[simp] theorem State.modPower_numVfs (f : Power → Power) : (s.modPower f).numVfs = s.numVfs := rfl
@[simp] theorem State.modPower_vfEnable (f : Power → Power) : (s.modPower f).vfEnable = s.vfEnable := rfl
@[simp] theorem State.modPower_queues (f : Power → Power) : (s.modPower f).queues = s.queues := rfl
@[simp] theorem State.modPower_hall (f : Power → Power) : (s.modPower f).hall = s.hall := rfl
@[simp] theorem State.modPower_launches (f : Power → Power) : (s.modPower f).launches = s.launches := rfl
@[simp] theorem State.modPower_nextLaunch (f : Power → Power) : (s.modPower f).nextLaunch = s.nextLaunch := rfl
@[simp] theorem State.modPower_hallCtr (f : Power → Power) : (s.modPower f).hallCtr = s.hallCtr := rfl
@[simp] theorem State.modPower_seals (f : Power → Power) : (s.modPower f).seals = s.seals := rfl
@[simp] theorem State.modPower_handles (f : Power → Power) : (s.modPower f).handles = s.handles := rfl
@[simp] theorem State.modPower_hostReqs (f : Power → Power) : (s.modPower f).hostReqs = s.hostReqs := rfl
@[simp] theorem State.modPower_far (f : Power → Power) : (s.modPower f).far = s.far := rfl
@[simp] theorem State.modPower_nextFar (f : Power → Power) : (s.modPower f).nextFar = s.nextFar := rfl
@[simp] theorem State.modPower_ftnG (f : Power → Power) : (s.modPower f).ftnG = s.ftnG := rfl
@[simp] theorem State.modPower_links (f : Power → Power) : (s.modPower f).links = s.links := rfl
@[simp] theorem State.modPower_boot (f : Power → Power) : (s.modPower f).boot = s.boot := rfl
@[simp] theorem State.modPower_held (f : Power → Power) : (s.modPower f).held = s.held := rfl
@[simp] theorem State.modPower_heldResets (f : Power → Power) : (s.modPower f).heldResets = s.heldResets := rfl
@[simp] theorem State.modPower_elog (f : Power → Power) : (s.modPower f).elog = s.elog := rfl
@[simp] theorem State.modPower_trcQ (f : Power → Power) : (s.modPower f).trcQ = s.trcQ := rfl
@[simp] theorem State.modPower_ctr (f : Power → Power) : (s.modPower f).ctr = s.ctr := rfl
@[simp] theorem State.modPower_ctrEpoch (f : Power → Power) : (s.modPower f).ctrEpoch = s.ctrEpoch := rfl
@[simp] theorem State.modPower_ctrAge (f : Power → Power) : (s.modPower f).ctrAge = s.ctrAge := rfl
@[simp] theorem State.modPower_snap (f : Power → Power) : (s.modPower f).snap = s.snap := rfl
@[simp] theorem State.modPower_stop (f : Power → Power) : (s.modPower f).stop = s.stop := rfl
@[simp] theorem State.modPower_sq (f : Power → Power) (k : Nat) : (s.modPower f).sq k = s.sq k := rfl
@[simp] theorem State.modPower_part (f : Power → Power) (k : Nat) : (s.modPower f).part k = s.part k := rfl
@[simp] theorem State.modPower_queue (f : Power → Power) (k : Nat) : (s.modPower f).queue k = s.queue k := rfl
@[simp] theorem State.modPower_port (f : Power → Power) (k : Nat) : (s.modPower f).port k = s.port k := rfl
@[simp] theorem State.modPower_fence (f : Power → Power) (k : Nat) : (s.modPower f).fence k = s.fence k := rfl
@[simp] theorem State.modPower_hart (f : Power → Power) (k : Nat) : (s.modPower f).hart k = s.hart k := rfl
@[simp] theorem State.modPower_extent (f : Power → Power) (k : Nat) : (s.modPower f).extent k = s.extent k := rfl
@[simp] theorem State.modPower_owner (f : Power → Power) (k : Nat) : (s.modPower f).owner k = s.owner k := rfl
@[simp] theorem State.modPower_seal (f : Power → Power) (k : Nat) : (s.modPower f).seal k = s.seal k := rfl
@[simp] theorem State.modPower_squareCounter (f : Power → Power) (k j : Nat) : (s.modPower f).squareCounter k j = s.squareCounter k j := rfl
@[simp] theorem State.modPower_hallCounter (f : Power → Power) (k : Nat) : (s.modPower f).hallCounter k = s.hallCounter k := rfl
@[simp] theorem State.modPower_launch (f : Power → Power) (k : Nat) : (s.modPower f).launch k = s.launch k := rfl
@[simp] theorem State.modPower_byte (f : Power → Power) (k : Nat) : (s.modPower f).byte k = s.byte k := rfl
@[simp] theorem State.modPower_bytes (f : Power → Power) (k j : Nat) : (s.modPower f).bytes k j = s.bytes k j := rfl

/-! `modLinks` -/

@[simp] theorem State.modLinks_pending (f : Links → Links) : (s.modLinks f).pending = s.pending := rfl
@[simp] theorem State.modLinks_out (f : Links → Links) : (s.modLinks f).out = s.out := rfl
@[simp] theorem State.modLinks_freeCtr (f : Links → Links) : (s.modLinks f).freeCtr = s.freeCtr := rfl
@[simp] theorem State.modLinks_isM (f : Links → Links) : (s.modLinks f).isM = s.isM := rfl
@[simp] theorem State.modLinks_time (f : Links → Links) : (s.modLinks f).time = s.time := rfl
@[simp] theorem State.modLinks_replicas (f : Links → Links) : (s.modLinks f).replicas = s.replicas := rfl
@[simp] theorem State.modLinks_mem (f : Links → Links) : (s.modLinks f).mem = s.mem := rfl
@[simp] theorem State.modLinks_parity (f : Links → Links) : (s.modLinks f).parity = s.parity := rfl
@[simp] theorem State.modLinks_retries (f : Links → Links) : (s.modLinks f).retries = s.retries := rfl
@[simp] theorem State.modLinks_resv (f : Links → Links) : (s.modLinks f).resv = s.resv := rfl
@[simp] theorem State.modLinks_badWrite (f : Links → Links) : (s.modLinks f).badWrite = s.badWrite := rfl
@[simp] theorem State.modLinks_squares (f : Links → Links) : (s.modLinks f).squares = s.squares := rfl
@[simp] theorem State.modLinks_sqCtr (f : Links → Links) : (s.modLinks f).sqCtr = s.sqCtr := rfl
@[simp] theorem State.modLinks_sqOwn (f : Links → Links) : (s.modLinks f).sqOwn = s.sqOwn := rfl
@[simp] theorem State.modLinks_extents (f : Links → Links) : (s.modLinks f).extents = s.extents := rfl
@[simp] theorem State.modLinks_fences (f : Links → Links) : (s.modLinks f).fences = s.fences := rfl
@[simp] theorem State.modLinks_harts (f : Links → Links) : (s.modLinks f).harts = s.harts := rfl
@[simp] theorem State.modLinks_parts (f : Links → Links) : (s.modLinks f).parts = s.parts := rfl
@[simp] theorem State.modLinks_mintHart (f : Links → Links) : (s.modLinks f).mintHart = s.mintHart := rfl
@[simp] theorem State.modLinks_mintVec (f : Links → Links) : (s.modLinks f).mintVec = s.mintVec := rfl
@[simp] theorem State.modLinks_mintItype (f : Links → Links) : (s.modLinks f).mintItype = s.mintItype := rfl
@[simp] theorem State.modLinks_rstLast (f : Links → Links) : (s.modLinks f).rstLast = s.rstLast := rfl
@[simp] theorem State.modLinks_numVfs (f : Links → Links) : (s.modLinks f).numVfs = s.numVfs := rfl
@[simp] theorem State.modLinks_vfEnable (f : Links → Links) : (s.modLinks f).vfEnable = s.vfEnable := rfl
@[simp] theorem State.modLinks_queues (f : Links → Links) : (s.modLinks f).queues = s.queues := rfl
@[simp] theorem State.modLinks_hall (f : Links → Links) : (s.modLinks f).hall = s.hall := rfl
@[simp] theorem State.modLinks_launches (f : Links → Links) : (s.modLinks f).launches = s.launches := rfl
@[simp] theorem State.modLinks_nextLaunch (f : Links → Links) : (s.modLinks f).nextLaunch = s.nextLaunch := rfl
@[simp] theorem State.modLinks_hallCtr (f : Links → Links) : (s.modLinks f).hallCtr = s.hallCtr := rfl
@[simp] theorem State.modLinks_seals (f : Links → Links) : (s.modLinks f).seals = s.seals := rfl
@[simp] theorem State.modLinks_handles (f : Links → Links) : (s.modLinks f).handles = s.handles := rfl
@[simp] theorem State.modLinks_hostReqs (f : Links → Links) : (s.modLinks f).hostReqs = s.hostReqs := rfl
@[simp] theorem State.modLinks_far (f : Links → Links) : (s.modLinks f).far = s.far := rfl
@[simp] theorem State.modLinks_nextFar (f : Links → Links) : (s.modLinks f).nextFar = s.nextFar := rfl
@[simp] theorem State.modLinks_ftnG (f : Links → Links) : (s.modLinks f).ftnG = s.ftnG := rfl
@[simp] theorem State.modLinks_power (f : Links → Links) : (s.modLinks f).power = s.power := rfl
@[simp] theorem State.modLinks_boot (f : Links → Links) : (s.modLinks f).boot = s.boot := rfl
@[simp] theorem State.modLinks_held (f : Links → Links) : (s.modLinks f).held = s.held := rfl
@[simp] theorem State.modLinks_heldResets (f : Links → Links) : (s.modLinks f).heldResets = s.heldResets := rfl
@[simp] theorem State.modLinks_elog (f : Links → Links) : (s.modLinks f).elog = s.elog := rfl
@[simp] theorem State.modLinks_trcQ (f : Links → Links) : (s.modLinks f).trcQ = s.trcQ := rfl
@[simp] theorem State.modLinks_ctr (f : Links → Links) : (s.modLinks f).ctr = s.ctr := rfl
@[simp] theorem State.modLinks_ctrEpoch (f : Links → Links) : (s.modLinks f).ctrEpoch = s.ctrEpoch := rfl
@[simp] theorem State.modLinks_ctrAge (f : Links → Links) : (s.modLinks f).ctrAge = s.ctrAge := rfl
@[simp] theorem State.modLinks_snap (f : Links → Links) : (s.modLinks f).snap = s.snap := rfl
@[simp] theorem State.modLinks_stop (f : Links → Links) : (s.modLinks f).stop = s.stop := rfl
@[simp] theorem State.modLinks_sq (f : Links → Links) (k : Nat) : (s.modLinks f).sq k = s.sq k := rfl
@[simp] theorem State.modLinks_part (f : Links → Links) (k : Nat) : (s.modLinks f).part k = s.part k := rfl
@[simp] theorem State.modLinks_queue (f : Links → Links) (k : Nat) : (s.modLinks f).queue k = s.queue k := rfl
@[simp] theorem State.modLinks_fence (f : Links → Links) (k : Nat) : (s.modLinks f).fence k = s.fence k := rfl
@[simp] theorem State.modLinks_hart (f : Links → Links) (k : Nat) : (s.modLinks f).hart k = s.hart k := rfl
@[simp] theorem State.modLinks_extent (f : Links → Links) (k : Nat) : (s.modLinks f).extent k = s.extent k := rfl
@[simp] theorem State.modLinks_owner (f : Links → Links) (k : Nat) : (s.modLinks f).owner k = s.owner k := rfl
@[simp] theorem State.modLinks_seal (f : Links → Links) (k : Nat) : (s.modLinks f).seal k = s.seal k := rfl
@[simp] theorem State.modLinks_squareCounter (f : Links → Links) (k j : Nat) : (s.modLinks f).squareCounter k j = s.squareCounter k j := rfl
@[simp] theorem State.modLinks_hallCounter (f : Links → Links) (k : Nat) : (s.modLinks f).hallCounter k = s.hallCounter k := rfl
@[simp] theorem State.modLinks_launch (f : Links → Links) (k : Nat) : (s.modLinks f).launch k = s.launch k := rfl
@[simp] theorem State.modLinks_byte (f : Links → Links) (k : Nat) : (s.modLinks f).byte k = s.byte k := rfl
@[simp] theorem State.modLinks_bytes (f : Links → Links) (k j : Nat) : (s.modLinks f).bytes k j = s.bytes k j := rfl

/-! `modBoot` -/

@[simp] theorem State.modBoot_pending (f : Boot → Boot) : (s.modBoot f).pending = s.pending := rfl
@[simp] theorem State.modBoot_out (f : Boot → Boot) : (s.modBoot f).out = s.out := rfl
@[simp] theorem State.modBoot_freeCtr (f : Boot → Boot) : (s.modBoot f).freeCtr = s.freeCtr := rfl
@[simp] theorem State.modBoot_isM (f : Boot → Boot) : (s.modBoot f).isM = s.isM := rfl
@[simp] theorem State.modBoot_time (f : Boot → Boot) : (s.modBoot f).time = s.time := rfl
@[simp] theorem State.modBoot_replicas (f : Boot → Boot) : (s.modBoot f).replicas = s.replicas := rfl
@[simp] theorem State.modBoot_mem (f : Boot → Boot) : (s.modBoot f).mem = s.mem := rfl
@[simp] theorem State.modBoot_parity (f : Boot → Boot) : (s.modBoot f).parity = s.parity := rfl
@[simp] theorem State.modBoot_retries (f : Boot → Boot) : (s.modBoot f).retries = s.retries := rfl
@[simp] theorem State.modBoot_resv (f : Boot → Boot) : (s.modBoot f).resv = s.resv := rfl
@[simp] theorem State.modBoot_badWrite (f : Boot → Boot) : (s.modBoot f).badWrite = s.badWrite := rfl
@[simp] theorem State.modBoot_squares (f : Boot → Boot) : (s.modBoot f).squares = s.squares := rfl
@[simp] theorem State.modBoot_sqCtr (f : Boot → Boot) : (s.modBoot f).sqCtr = s.sqCtr := rfl
@[simp] theorem State.modBoot_sqOwn (f : Boot → Boot) : (s.modBoot f).sqOwn = s.sqOwn := rfl
@[simp] theorem State.modBoot_extents (f : Boot → Boot) : (s.modBoot f).extents = s.extents := rfl
@[simp] theorem State.modBoot_fences (f : Boot → Boot) : (s.modBoot f).fences = s.fences := rfl
@[simp] theorem State.modBoot_harts (f : Boot → Boot) : (s.modBoot f).harts = s.harts := rfl
@[simp] theorem State.modBoot_parts (f : Boot → Boot) : (s.modBoot f).parts = s.parts := rfl
@[simp] theorem State.modBoot_mintHart (f : Boot → Boot) : (s.modBoot f).mintHart = s.mintHart := rfl
@[simp] theorem State.modBoot_mintVec (f : Boot → Boot) : (s.modBoot f).mintVec = s.mintVec := rfl
@[simp] theorem State.modBoot_mintItype (f : Boot → Boot) : (s.modBoot f).mintItype = s.mintItype := rfl
@[simp] theorem State.modBoot_rstLast (f : Boot → Boot) : (s.modBoot f).rstLast = s.rstLast := rfl
@[simp] theorem State.modBoot_numVfs (f : Boot → Boot) : (s.modBoot f).numVfs = s.numVfs := rfl
@[simp] theorem State.modBoot_vfEnable (f : Boot → Boot) : (s.modBoot f).vfEnable = s.vfEnable := rfl
@[simp] theorem State.modBoot_queues (f : Boot → Boot) : (s.modBoot f).queues = s.queues := rfl
@[simp] theorem State.modBoot_hall (f : Boot → Boot) : (s.modBoot f).hall = s.hall := rfl
@[simp] theorem State.modBoot_launches (f : Boot → Boot) : (s.modBoot f).launches = s.launches := rfl
@[simp] theorem State.modBoot_nextLaunch (f : Boot → Boot) : (s.modBoot f).nextLaunch = s.nextLaunch := rfl
@[simp] theorem State.modBoot_hallCtr (f : Boot → Boot) : (s.modBoot f).hallCtr = s.hallCtr := rfl
@[simp] theorem State.modBoot_seals (f : Boot → Boot) : (s.modBoot f).seals = s.seals := rfl
@[simp] theorem State.modBoot_handles (f : Boot → Boot) : (s.modBoot f).handles = s.handles := rfl
@[simp] theorem State.modBoot_hostReqs (f : Boot → Boot) : (s.modBoot f).hostReqs = s.hostReqs := rfl
@[simp] theorem State.modBoot_far (f : Boot → Boot) : (s.modBoot f).far = s.far := rfl
@[simp] theorem State.modBoot_nextFar (f : Boot → Boot) : (s.modBoot f).nextFar = s.nextFar := rfl
@[simp] theorem State.modBoot_ftnG (f : Boot → Boot) : (s.modBoot f).ftnG = s.ftnG := rfl
@[simp] theorem State.modBoot_links (f : Boot → Boot) : (s.modBoot f).links = s.links := rfl
@[simp] theorem State.modBoot_power (f : Boot → Boot) : (s.modBoot f).power = s.power := rfl
@[simp] theorem State.modBoot_held (f : Boot → Boot) : (s.modBoot f).held = s.held := rfl
@[simp] theorem State.modBoot_heldResets (f : Boot → Boot) : (s.modBoot f).heldResets = s.heldResets := rfl
@[simp] theorem State.modBoot_elog (f : Boot → Boot) : (s.modBoot f).elog = s.elog := rfl
@[simp] theorem State.modBoot_trcQ (f : Boot → Boot) : (s.modBoot f).trcQ = s.trcQ := rfl
@[simp] theorem State.modBoot_ctr (f : Boot → Boot) : (s.modBoot f).ctr = s.ctr := rfl
@[simp] theorem State.modBoot_ctrEpoch (f : Boot → Boot) : (s.modBoot f).ctrEpoch = s.ctrEpoch := rfl
@[simp] theorem State.modBoot_ctrAge (f : Boot → Boot) : (s.modBoot f).ctrAge = s.ctrAge := rfl
@[simp] theorem State.modBoot_snap (f : Boot → Boot) : (s.modBoot f).snap = s.snap := rfl
@[simp] theorem State.modBoot_stop (f : Boot → Boot) : (s.modBoot f).stop = s.stop := rfl
@[simp] theorem State.modBoot_sq (f : Boot → Boot) (k : Nat) : (s.modBoot f).sq k = s.sq k := rfl
@[simp] theorem State.modBoot_part (f : Boot → Boot) (k : Nat) : (s.modBoot f).part k = s.part k := rfl
@[simp] theorem State.modBoot_queue (f : Boot → Boot) (k : Nat) : (s.modBoot f).queue k = s.queue k := rfl
@[simp] theorem State.modBoot_port (f : Boot → Boot) (k : Nat) : (s.modBoot f).port k = s.port k := rfl
@[simp] theorem State.modBoot_fence (f : Boot → Boot) (k : Nat) : (s.modBoot f).fence k = s.fence k := rfl
@[simp] theorem State.modBoot_hart (f : Boot → Boot) (k : Nat) : (s.modBoot f).hart k = s.hart k := rfl
@[simp] theorem State.modBoot_extent (f : Boot → Boot) (k : Nat) : (s.modBoot f).extent k = s.extent k := rfl
@[simp] theorem State.modBoot_owner (f : Boot → Boot) (k : Nat) : (s.modBoot f).owner k = s.owner k := rfl
@[simp] theorem State.modBoot_seal (f : Boot → Boot) (k : Nat) : (s.modBoot f).seal k = s.seal k := rfl
@[simp] theorem State.modBoot_squareCounter (f : Boot → Boot) (k j : Nat) : (s.modBoot f).squareCounter k j = s.squareCounter k j := rfl
@[simp] theorem State.modBoot_hallCounter (f : Boot → Boot) (k : Nat) : (s.modBoot f).hallCounter k = s.hallCounter k := rfl
@[simp] theorem State.modBoot_launch (f : Boot → Boot) (k : Nat) : (s.modBoot f).launch k = s.launch k := rfl
@[simp] theorem State.modBoot_byte (f : Boot → Boot) (k : Nat) : (s.modBoot f).byte k = s.byte k := rfl
@[simp] theorem State.modBoot_bytes (f : Boot → Boot) (k j : Nat) : (s.modBoot f).bytes k j = s.bytes k j := rfl

/-! `modSnap` -/

@[simp] theorem State.modSnap_pending (f : Snap → Snap) : (s.modSnap f).pending = s.pending := rfl
@[simp] theorem State.modSnap_out (f : Snap → Snap) : (s.modSnap f).out = s.out := rfl
@[simp] theorem State.modSnap_freeCtr (f : Snap → Snap) : (s.modSnap f).freeCtr = s.freeCtr := rfl
@[simp] theorem State.modSnap_isM (f : Snap → Snap) : (s.modSnap f).isM = s.isM := rfl
@[simp] theorem State.modSnap_time (f : Snap → Snap) : (s.modSnap f).time = s.time := rfl
@[simp] theorem State.modSnap_replicas (f : Snap → Snap) : (s.modSnap f).replicas = s.replicas := rfl
@[simp] theorem State.modSnap_mem (f : Snap → Snap) : (s.modSnap f).mem = s.mem := rfl
@[simp] theorem State.modSnap_parity (f : Snap → Snap) : (s.modSnap f).parity = s.parity := rfl
@[simp] theorem State.modSnap_retries (f : Snap → Snap) : (s.modSnap f).retries = s.retries := rfl
@[simp] theorem State.modSnap_resv (f : Snap → Snap) : (s.modSnap f).resv = s.resv := rfl
@[simp] theorem State.modSnap_badWrite (f : Snap → Snap) : (s.modSnap f).badWrite = s.badWrite := rfl
@[simp] theorem State.modSnap_squares (f : Snap → Snap) : (s.modSnap f).squares = s.squares := rfl
@[simp] theorem State.modSnap_sqCtr (f : Snap → Snap) : (s.modSnap f).sqCtr = s.sqCtr := rfl
@[simp] theorem State.modSnap_sqOwn (f : Snap → Snap) : (s.modSnap f).sqOwn = s.sqOwn := rfl
@[simp] theorem State.modSnap_extents (f : Snap → Snap) : (s.modSnap f).extents = s.extents := rfl
@[simp] theorem State.modSnap_fences (f : Snap → Snap) : (s.modSnap f).fences = s.fences := rfl
@[simp] theorem State.modSnap_harts (f : Snap → Snap) : (s.modSnap f).harts = s.harts := rfl
@[simp] theorem State.modSnap_parts (f : Snap → Snap) : (s.modSnap f).parts = s.parts := rfl
@[simp] theorem State.modSnap_mintHart (f : Snap → Snap) : (s.modSnap f).mintHart = s.mintHart := rfl
@[simp] theorem State.modSnap_mintVec (f : Snap → Snap) : (s.modSnap f).mintVec = s.mintVec := rfl
@[simp] theorem State.modSnap_mintItype (f : Snap → Snap) : (s.modSnap f).mintItype = s.mintItype := rfl
@[simp] theorem State.modSnap_rstLast (f : Snap → Snap) : (s.modSnap f).rstLast = s.rstLast := rfl
@[simp] theorem State.modSnap_numVfs (f : Snap → Snap) : (s.modSnap f).numVfs = s.numVfs := rfl
@[simp] theorem State.modSnap_vfEnable (f : Snap → Snap) : (s.modSnap f).vfEnable = s.vfEnable := rfl
@[simp] theorem State.modSnap_queues (f : Snap → Snap) : (s.modSnap f).queues = s.queues := rfl
@[simp] theorem State.modSnap_hall (f : Snap → Snap) : (s.modSnap f).hall = s.hall := rfl
@[simp] theorem State.modSnap_launches (f : Snap → Snap) : (s.modSnap f).launches = s.launches := rfl
@[simp] theorem State.modSnap_nextLaunch (f : Snap → Snap) : (s.modSnap f).nextLaunch = s.nextLaunch := rfl
@[simp] theorem State.modSnap_hallCtr (f : Snap → Snap) : (s.modSnap f).hallCtr = s.hallCtr := rfl
@[simp] theorem State.modSnap_seals (f : Snap → Snap) : (s.modSnap f).seals = s.seals := rfl
@[simp] theorem State.modSnap_handles (f : Snap → Snap) : (s.modSnap f).handles = s.handles := rfl
@[simp] theorem State.modSnap_hostReqs (f : Snap → Snap) : (s.modSnap f).hostReqs = s.hostReqs := rfl
@[simp] theorem State.modSnap_far (f : Snap → Snap) : (s.modSnap f).far = s.far := rfl
@[simp] theorem State.modSnap_nextFar (f : Snap → Snap) : (s.modSnap f).nextFar = s.nextFar := rfl
@[simp] theorem State.modSnap_ftnG (f : Snap → Snap) : (s.modSnap f).ftnG = s.ftnG := rfl
@[simp] theorem State.modSnap_links (f : Snap → Snap) : (s.modSnap f).links = s.links := rfl
@[simp] theorem State.modSnap_power (f : Snap → Snap) : (s.modSnap f).power = s.power := rfl
@[simp] theorem State.modSnap_boot (f : Snap → Snap) : (s.modSnap f).boot = s.boot := rfl
@[simp] theorem State.modSnap_held (f : Snap → Snap) : (s.modSnap f).held = s.held := rfl
@[simp] theorem State.modSnap_heldResets (f : Snap → Snap) : (s.modSnap f).heldResets = s.heldResets := rfl
@[simp] theorem State.modSnap_elog (f : Snap → Snap) : (s.modSnap f).elog = s.elog := rfl
@[simp] theorem State.modSnap_trcQ (f : Snap → Snap) : (s.modSnap f).trcQ = s.trcQ := rfl
@[simp] theorem State.modSnap_ctr (f : Snap → Snap) : (s.modSnap f).ctr = s.ctr := rfl
@[simp] theorem State.modSnap_ctrEpoch (f : Snap → Snap) : (s.modSnap f).ctrEpoch = s.ctrEpoch := rfl
@[simp] theorem State.modSnap_ctrAge (f : Snap → Snap) : (s.modSnap f).ctrAge = s.ctrAge := rfl
@[simp] theorem State.modSnap_stop (f : Snap → Snap) : (s.modSnap f).stop = s.stop := rfl
@[simp] theorem State.modSnap_sq (f : Snap → Snap) (k : Nat) : (s.modSnap f).sq k = s.sq k := rfl
@[simp] theorem State.modSnap_part (f : Snap → Snap) (k : Nat) : (s.modSnap f).part k = s.part k := rfl
@[simp] theorem State.modSnap_queue (f : Snap → Snap) (k : Nat) : (s.modSnap f).queue k = s.queue k := rfl
@[simp] theorem State.modSnap_port (f : Snap → Snap) (k : Nat) : (s.modSnap f).port k = s.port k := rfl
@[simp] theorem State.modSnap_fence (f : Snap → Snap) (k : Nat) : (s.modSnap f).fence k = s.fence k := rfl
@[simp] theorem State.modSnap_hart (f : Snap → Snap) (k : Nat) : (s.modSnap f).hart k = s.hart k := rfl
@[simp] theorem State.modSnap_extent (f : Snap → Snap) (k : Nat) : (s.modSnap f).extent k = s.extent k := rfl
@[simp] theorem State.modSnap_owner (f : Snap → Snap) (k : Nat) : (s.modSnap f).owner k = s.owner k := rfl
@[simp] theorem State.modSnap_seal (f : Snap → Snap) (k : Nat) : (s.modSnap f).seal k = s.seal k := rfl
@[simp] theorem State.modSnap_squareCounter (f : Snap → Snap) (k j : Nat) : (s.modSnap f).squareCounter k j = s.squareCounter k j := rfl
@[simp] theorem State.modSnap_hallCounter (f : Snap → Snap) (k : Nat) : (s.modSnap f).hallCounter k = s.hallCounter k := rfl
@[simp] theorem State.modSnap_launch (f : Snap → Snap) (k : Nat) : (s.modSnap f).launch k = s.launch k := rfl
@[simp] theorem State.modSnap_byte (f : Snap → Snap) (k : Nat) : (s.modSnap f).byte k = s.byte k := rfl
@[simp] theorem State.modSnap_bytes (f : Snap → Snap) (k j : Nat) : (s.modSnap f).bytes k j = s.bytes k j := rfl

/-! `modStop` -/

@[simp] theorem State.modStop_pending (f : Stop → Stop) : (s.modStop f).pending = s.pending := rfl
@[simp] theorem State.modStop_out (f : Stop → Stop) : (s.modStop f).out = s.out := rfl
@[simp] theorem State.modStop_freeCtr (f : Stop → Stop) : (s.modStop f).freeCtr = s.freeCtr := rfl
@[simp] theorem State.modStop_isM (f : Stop → Stop) : (s.modStop f).isM = s.isM := rfl
@[simp] theorem State.modStop_time (f : Stop → Stop) : (s.modStop f).time = s.time := rfl
@[simp] theorem State.modStop_replicas (f : Stop → Stop) : (s.modStop f).replicas = s.replicas := rfl
@[simp] theorem State.modStop_mem (f : Stop → Stop) : (s.modStop f).mem = s.mem := rfl
@[simp] theorem State.modStop_parity (f : Stop → Stop) : (s.modStop f).parity = s.parity := rfl
@[simp] theorem State.modStop_retries (f : Stop → Stop) : (s.modStop f).retries = s.retries := rfl
@[simp] theorem State.modStop_resv (f : Stop → Stop) : (s.modStop f).resv = s.resv := rfl
@[simp] theorem State.modStop_badWrite (f : Stop → Stop) : (s.modStop f).badWrite = s.badWrite := rfl
@[simp] theorem State.modStop_squares (f : Stop → Stop) : (s.modStop f).squares = s.squares := rfl
@[simp] theorem State.modStop_sqCtr (f : Stop → Stop) : (s.modStop f).sqCtr = s.sqCtr := rfl
@[simp] theorem State.modStop_sqOwn (f : Stop → Stop) : (s.modStop f).sqOwn = s.sqOwn := rfl
@[simp] theorem State.modStop_extents (f : Stop → Stop) : (s.modStop f).extents = s.extents := rfl
@[simp] theorem State.modStop_fences (f : Stop → Stop) : (s.modStop f).fences = s.fences := rfl
@[simp] theorem State.modStop_harts (f : Stop → Stop) : (s.modStop f).harts = s.harts := rfl
@[simp] theorem State.modStop_parts (f : Stop → Stop) : (s.modStop f).parts = s.parts := rfl
@[simp] theorem State.modStop_mintHart (f : Stop → Stop) : (s.modStop f).mintHart = s.mintHart := rfl
@[simp] theorem State.modStop_mintVec (f : Stop → Stop) : (s.modStop f).mintVec = s.mintVec := rfl
@[simp] theorem State.modStop_mintItype (f : Stop → Stop) : (s.modStop f).mintItype = s.mintItype := rfl
@[simp] theorem State.modStop_rstLast (f : Stop → Stop) : (s.modStop f).rstLast = s.rstLast := rfl
@[simp] theorem State.modStop_numVfs (f : Stop → Stop) : (s.modStop f).numVfs = s.numVfs := rfl
@[simp] theorem State.modStop_vfEnable (f : Stop → Stop) : (s.modStop f).vfEnable = s.vfEnable := rfl
@[simp] theorem State.modStop_queues (f : Stop → Stop) : (s.modStop f).queues = s.queues := rfl
@[simp] theorem State.modStop_hall (f : Stop → Stop) : (s.modStop f).hall = s.hall := rfl
@[simp] theorem State.modStop_launches (f : Stop → Stop) : (s.modStop f).launches = s.launches := rfl
@[simp] theorem State.modStop_nextLaunch (f : Stop → Stop) : (s.modStop f).nextLaunch = s.nextLaunch := rfl
@[simp] theorem State.modStop_hallCtr (f : Stop → Stop) : (s.modStop f).hallCtr = s.hallCtr := rfl
@[simp] theorem State.modStop_seals (f : Stop → Stop) : (s.modStop f).seals = s.seals := rfl
@[simp] theorem State.modStop_handles (f : Stop → Stop) : (s.modStop f).handles = s.handles := rfl
@[simp] theorem State.modStop_hostReqs (f : Stop → Stop) : (s.modStop f).hostReqs = s.hostReqs := rfl
@[simp] theorem State.modStop_far (f : Stop → Stop) : (s.modStop f).far = s.far := rfl
@[simp] theorem State.modStop_nextFar (f : Stop → Stop) : (s.modStop f).nextFar = s.nextFar := rfl
@[simp] theorem State.modStop_ftnG (f : Stop → Stop) : (s.modStop f).ftnG = s.ftnG := rfl
@[simp] theorem State.modStop_links (f : Stop → Stop) : (s.modStop f).links = s.links := rfl
@[simp] theorem State.modStop_power (f : Stop → Stop) : (s.modStop f).power = s.power := rfl
@[simp] theorem State.modStop_boot (f : Stop → Stop) : (s.modStop f).boot = s.boot := rfl
@[simp] theorem State.modStop_held (f : Stop → Stop) : (s.modStop f).held = s.held := rfl
@[simp] theorem State.modStop_heldResets (f : Stop → Stop) : (s.modStop f).heldResets = s.heldResets := rfl
@[simp] theorem State.modStop_elog (f : Stop → Stop) : (s.modStop f).elog = s.elog := rfl
@[simp] theorem State.modStop_trcQ (f : Stop → Stop) : (s.modStop f).trcQ = s.trcQ := rfl
@[simp] theorem State.modStop_ctr (f : Stop → Stop) : (s.modStop f).ctr = s.ctr := rfl
@[simp] theorem State.modStop_ctrEpoch (f : Stop → Stop) : (s.modStop f).ctrEpoch = s.ctrEpoch := rfl
@[simp] theorem State.modStop_ctrAge (f : Stop → Stop) : (s.modStop f).ctrAge = s.ctrAge := rfl
@[simp] theorem State.modStop_snap (f : Stop → Stop) : (s.modStop f).snap = s.snap := rfl
@[simp] theorem State.modStop_sq (f : Stop → Stop) (k : Nat) : (s.modStop f).sq k = s.sq k := rfl
@[simp] theorem State.modStop_part (f : Stop → Stop) (k : Nat) : (s.modStop f).part k = s.part k := rfl
@[simp] theorem State.modStop_queue (f : Stop → Stop) (k : Nat) : (s.modStop f).queue k = s.queue k := rfl
@[simp] theorem State.modStop_port (f : Stop → Stop) (k : Nat) : (s.modStop f).port k = s.port k := rfl
@[simp] theorem State.modStop_fence (f : Stop → Stop) (k : Nat) : (s.modStop f).fence k = s.fence k := rfl
@[simp] theorem State.modStop_hart (f : Stop → Stop) (k : Nat) : (s.modStop f).hart k = s.hart k := rfl
@[simp] theorem State.modStop_extent (f : Stop → Stop) (k : Nat) : (s.modStop f).extent k = s.extent k := rfl
@[simp] theorem State.modStop_owner (f : Stop → Stop) (k : Nat) : (s.modStop f).owner k = s.owner k := rfl
@[simp] theorem State.modStop_seal (f : Stop → Stop) (k : Nat) : (s.modStop f).seal k = s.seal k := rfl
@[simp] theorem State.modStop_squareCounter (f : Stop → Stop) (k j : Nat) : (s.modStop f).squareCounter k j = s.squareCounter k j := rfl
@[simp] theorem State.modStop_hallCounter (f : Stop → Stop) (k : Nat) : (s.modStop f).hallCounter k = s.hallCounter k := rfl
@[simp] theorem State.modStop_launch (f : Stop → Stop) (k : Nat) : (s.modStop f).launch k = s.launch k := rfl
@[simp] theorem State.modStop_byte (f : Stop → Stop) (k : Nat) : (s.modStop f).byte k = s.byte k := rfl
@[simp] theorem State.modStop_bytes (f : Stop → Stop) (k j : Nat) : (s.modStop f).bytes k j = s.bytes k j := rfl

/-! `modElog` -/

@[simp] theorem State.modElog_pending (f : ErrLog → ErrLog) : (s.modElog f).pending = s.pending := rfl
@[simp] theorem State.modElog_out (f : ErrLog → ErrLog) : (s.modElog f).out = s.out := rfl
@[simp] theorem State.modElog_freeCtr (f : ErrLog → ErrLog) : (s.modElog f).freeCtr = s.freeCtr := rfl
@[simp] theorem State.modElog_isM (f : ErrLog → ErrLog) : (s.modElog f).isM = s.isM := rfl
@[simp] theorem State.modElog_time (f : ErrLog → ErrLog) : (s.modElog f).time = s.time := rfl
@[simp] theorem State.modElog_replicas (f : ErrLog → ErrLog) : (s.modElog f).replicas = s.replicas := rfl
@[simp] theorem State.modElog_mem (f : ErrLog → ErrLog) : (s.modElog f).mem = s.mem := rfl
@[simp] theorem State.modElog_parity (f : ErrLog → ErrLog) : (s.modElog f).parity = s.parity := rfl
@[simp] theorem State.modElog_retries (f : ErrLog → ErrLog) : (s.modElog f).retries = s.retries := rfl
@[simp] theorem State.modElog_resv (f : ErrLog → ErrLog) : (s.modElog f).resv = s.resv := rfl
@[simp] theorem State.modElog_badWrite (f : ErrLog → ErrLog) : (s.modElog f).badWrite = s.badWrite := rfl
@[simp] theorem State.modElog_squares (f : ErrLog → ErrLog) : (s.modElog f).squares = s.squares := rfl
@[simp] theorem State.modElog_sqCtr (f : ErrLog → ErrLog) : (s.modElog f).sqCtr = s.sqCtr := rfl
@[simp] theorem State.modElog_sqOwn (f : ErrLog → ErrLog) : (s.modElog f).sqOwn = s.sqOwn := rfl
@[simp] theorem State.modElog_extents (f : ErrLog → ErrLog) : (s.modElog f).extents = s.extents := rfl
@[simp] theorem State.modElog_fences (f : ErrLog → ErrLog) : (s.modElog f).fences = s.fences := rfl
@[simp] theorem State.modElog_harts (f : ErrLog → ErrLog) : (s.modElog f).harts = s.harts := rfl
@[simp] theorem State.modElog_parts (f : ErrLog → ErrLog) : (s.modElog f).parts = s.parts := rfl
@[simp] theorem State.modElog_mintHart (f : ErrLog → ErrLog) : (s.modElog f).mintHart = s.mintHart := rfl
@[simp] theorem State.modElog_mintVec (f : ErrLog → ErrLog) : (s.modElog f).mintVec = s.mintVec := rfl
@[simp] theorem State.modElog_mintItype (f : ErrLog → ErrLog) : (s.modElog f).mintItype = s.mintItype := rfl
@[simp] theorem State.modElog_rstLast (f : ErrLog → ErrLog) : (s.modElog f).rstLast = s.rstLast := rfl
@[simp] theorem State.modElog_numVfs (f : ErrLog → ErrLog) : (s.modElog f).numVfs = s.numVfs := rfl
@[simp] theorem State.modElog_vfEnable (f : ErrLog → ErrLog) : (s.modElog f).vfEnable = s.vfEnable := rfl
@[simp] theorem State.modElog_queues (f : ErrLog → ErrLog) : (s.modElog f).queues = s.queues := rfl
@[simp] theorem State.modElog_hall (f : ErrLog → ErrLog) : (s.modElog f).hall = s.hall := rfl
@[simp] theorem State.modElog_launches (f : ErrLog → ErrLog) : (s.modElog f).launches = s.launches := rfl
@[simp] theorem State.modElog_nextLaunch (f : ErrLog → ErrLog) : (s.modElog f).nextLaunch = s.nextLaunch := rfl
@[simp] theorem State.modElog_hallCtr (f : ErrLog → ErrLog) : (s.modElog f).hallCtr = s.hallCtr := rfl
@[simp] theorem State.modElog_seals (f : ErrLog → ErrLog) : (s.modElog f).seals = s.seals := rfl
@[simp] theorem State.modElog_handles (f : ErrLog → ErrLog) : (s.modElog f).handles = s.handles := rfl
@[simp] theorem State.modElog_hostReqs (f : ErrLog → ErrLog) : (s.modElog f).hostReqs = s.hostReqs := rfl
@[simp] theorem State.modElog_far (f : ErrLog → ErrLog) : (s.modElog f).far = s.far := rfl
@[simp] theorem State.modElog_nextFar (f : ErrLog → ErrLog) : (s.modElog f).nextFar = s.nextFar := rfl
@[simp] theorem State.modElog_ftnG (f : ErrLog → ErrLog) : (s.modElog f).ftnG = s.ftnG := rfl
@[simp] theorem State.modElog_links (f : ErrLog → ErrLog) : (s.modElog f).links = s.links := rfl
@[simp] theorem State.modElog_power (f : ErrLog → ErrLog) : (s.modElog f).power = s.power := rfl
@[simp] theorem State.modElog_boot (f : ErrLog → ErrLog) : (s.modElog f).boot = s.boot := rfl
@[simp] theorem State.modElog_held (f : ErrLog → ErrLog) : (s.modElog f).held = s.held := rfl
@[simp] theorem State.modElog_heldResets (f : ErrLog → ErrLog) : (s.modElog f).heldResets = s.heldResets := rfl
@[simp] theorem State.modElog_trcQ (f : ErrLog → ErrLog) : (s.modElog f).trcQ = s.trcQ := rfl
@[simp] theorem State.modElog_ctr (f : ErrLog → ErrLog) : (s.modElog f).ctr = s.ctr := rfl
@[simp] theorem State.modElog_ctrEpoch (f : ErrLog → ErrLog) : (s.modElog f).ctrEpoch = s.ctrEpoch := rfl
@[simp] theorem State.modElog_ctrAge (f : ErrLog → ErrLog) : (s.modElog f).ctrAge = s.ctrAge := rfl
@[simp] theorem State.modElog_snap (f : ErrLog → ErrLog) : (s.modElog f).snap = s.snap := rfl
@[simp] theorem State.modElog_stop (f : ErrLog → ErrLog) : (s.modElog f).stop = s.stop := rfl
@[simp] theorem State.modElog_sq (f : ErrLog → ErrLog) (k : Nat) : (s.modElog f).sq k = s.sq k := rfl
@[simp] theorem State.modElog_part (f : ErrLog → ErrLog) (k : Nat) : (s.modElog f).part k = s.part k := rfl
@[simp] theorem State.modElog_queue (f : ErrLog → ErrLog) (k : Nat) : (s.modElog f).queue k = s.queue k := rfl
@[simp] theorem State.modElog_port (f : ErrLog → ErrLog) (k : Nat) : (s.modElog f).port k = s.port k := rfl
@[simp] theorem State.modElog_fence (f : ErrLog → ErrLog) (k : Nat) : (s.modElog f).fence k = s.fence k := rfl
@[simp] theorem State.modElog_hart (f : ErrLog → ErrLog) (k : Nat) : (s.modElog f).hart k = s.hart k := rfl
@[simp] theorem State.modElog_extent (f : ErrLog → ErrLog) (k : Nat) : (s.modElog f).extent k = s.extent k := rfl
@[simp] theorem State.modElog_owner (f : ErrLog → ErrLog) (k : Nat) : (s.modElog f).owner k = s.owner k := rfl
@[simp] theorem State.modElog_seal (f : ErrLog → ErrLog) (k : Nat) : (s.modElog f).seal k = s.seal k := rfl
@[simp] theorem State.modElog_squareCounter (f : ErrLog → ErrLog) (k j : Nat) : (s.modElog f).squareCounter k j = s.squareCounter k j := rfl
@[simp] theorem State.modElog_hallCounter (f : ErrLog → ErrLog) (k : Nat) : (s.modElog f).hallCounter k = s.hallCounter k := rfl
@[simp] theorem State.modElog_launch (f : ErrLog → ErrLog) (k : Nat) : (s.modElog f).launch k = s.launch k := rfl
@[simp] theorem State.modElog_byte (f : ErrLog → ErrLog) (k : Nat) : (s.modElog f).byte k = s.byte k := rfl
@[simp] theorem State.modElog_bytes (f : ErrLog → ErrLog) (k j : Nat) : (s.modElog f).bytes k j = s.bytes k j := rfl

/-! `count` -/

@[simp] theorem State.count_pending (unit idx n : Nat) : (s.count unit idx n).pending = s.pending := rfl
@[simp] theorem State.count_out (unit idx n : Nat) : (s.count unit idx n).out = s.out := rfl
@[simp] theorem State.count_freeCtr (unit idx n : Nat) : (s.count unit idx n).freeCtr = s.freeCtr := rfl
@[simp] theorem State.count_isM (unit idx n : Nat) : (s.count unit idx n).isM = s.isM := rfl
@[simp] theorem State.count_time (unit idx n : Nat) : (s.count unit idx n).time = s.time := rfl
@[simp] theorem State.count_replicas (unit idx n : Nat) : (s.count unit idx n).replicas = s.replicas := rfl
@[simp] theorem State.count_mem (unit idx n : Nat) : (s.count unit idx n).mem = s.mem := rfl
@[simp] theorem State.count_parity (unit idx n : Nat) : (s.count unit idx n).parity = s.parity := rfl
@[simp] theorem State.count_retries (unit idx n : Nat) : (s.count unit idx n).retries = s.retries := rfl
@[simp] theorem State.count_resv (unit idx n : Nat) : (s.count unit idx n).resv = s.resv := rfl
@[simp] theorem State.count_badWrite (unit idx n : Nat) : (s.count unit idx n).badWrite = s.badWrite := rfl
@[simp] theorem State.count_squares (unit idx n : Nat) : (s.count unit idx n).squares = s.squares := rfl
@[simp] theorem State.count_sqCtr (unit idx n : Nat) : (s.count unit idx n).sqCtr = s.sqCtr := rfl
@[simp] theorem State.count_sqOwn (unit idx n : Nat) : (s.count unit idx n).sqOwn = s.sqOwn := rfl
@[simp] theorem State.count_extents (unit idx n : Nat) : (s.count unit idx n).extents = s.extents := rfl
@[simp] theorem State.count_fences (unit idx n : Nat) : (s.count unit idx n).fences = s.fences := rfl
@[simp] theorem State.count_harts (unit idx n : Nat) : (s.count unit idx n).harts = s.harts := rfl
@[simp] theorem State.count_parts (unit idx n : Nat) : (s.count unit idx n).parts = s.parts := rfl
@[simp] theorem State.count_mintHart (unit idx n : Nat) : (s.count unit idx n).mintHart = s.mintHart := rfl
@[simp] theorem State.count_mintVec (unit idx n : Nat) : (s.count unit idx n).mintVec = s.mintVec := rfl
@[simp] theorem State.count_mintItype (unit idx n : Nat) : (s.count unit idx n).mintItype = s.mintItype := rfl
@[simp] theorem State.count_rstLast (unit idx n : Nat) : (s.count unit idx n).rstLast = s.rstLast := rfl
@[simp] theorem State.count_numVfs (unit idx n : Nat) : (s.count unit idx n).numVfs = s.numVfs := rfl
@[simp] theorem State.count_vfEnable (unit idx n : Nat) : (s.count unit idx n).vfEnable = s.vfEnable := rfl
@[simp] theorem State.count_queues (unit idx n : Nat) : (s.count unit idx n).queues = s.queues := rfl
@[simp] theorem State.count_hall (unit idx n : Nat) : (s.count unit idx n).hall = s.hall := rfl
@[simp] theorem State.count_launches (unit idx n : Nat) : (s.count unit idx n).launches = s.launches := rfl
@[simp] theorem State.count_nextLaunch (unit idx n : Nat) : (s.count unit idx n).nextLaunch = s.nextLaunch := rfl
@[simp] theorem State.count_hallCtr (unit idx n : Nat) : (s.count unit idx n).hallCtr = s.hallCtr := rfl
@[simp] theorem State.count_seals (unit idx n : Nat) : (s.count unit idx n).seals = s.seals := rfl
@[simp] theorem State.count_handles (unit idx n : Nat) : (s.count unit idx n).handles = s.handles := rfl
@[simp] theorem State.count_hostReqs (unit idx n : Nat) : (s.count unit idx n).hostReqs = s.hostReqs := rfl
@[simp] theorem State.count_far (unit idx n : Nat) : (s.count unit idx n).far = s.far := rfl
@[simp] theorem State.count_nextFar (unit idx n : Nat) : (s.count unit idx n).nextFar = s.nextFar := rfl
@[simp] theorem State.count_ftnG (unit idx n : Nat) : (s.count unit idx n).ftnG = s.ftnG := rfl
@[simp] theorem State.count_links (unit idx n : Nat) : (s.count unit idx n).links = s.links := rfl
@[simp] theorem State.count_power (unit idx n : Nat) : (s.count unit idx n).power = s.power := rfl
@[simp] theorem State.count_boot (unit idx n : Nat) : (s.count unit idx n).boot = s.boot := rfl
@[simp] theorem State.count_held (unit idx n : Nat) : (s.count unit idx n).held = s.held := rfl
@[simp] theorem State.count_heldResets (unit idx n : Nat) : (s.count unit idx n).heldResets = s.heldResets := rfl
@[simp] theorem State.count_elog (unit idx n : Nat) : (s.count unit idx n).elog = s.elog := rfl
@[simp] theorem State.count_trcQ (unit idx n : Nat) : (s.count unit idx n).trcQ = s.trcQ := rfl
@[simp] theorem State.count_ctrEpoch (unit idx n : Nat) : (s.count unit idx n).ctrEpoch = s.ctrEpoch := rfl
@[simp] theorem State.count_ctrAge (unit idx n : Nat) : (s.count unit idx n).ctrAge = s.ctrAge := rfl
@[simp] theorem State.count_snap (unit idx n : Nat) : (s.count unit idx n).snap = s.snap := rfl
@[simp] theorem State.count_stop (unit idx n : Nat) : (s.count unit idx n).stop = s.stop := rfl
@[simp] theorem State.count_sq (unit idx n : Nat) (k : Nat) : (s.count unit idx n).sq k = s.sq k := rfl
@[simp] theorem State.count_part (unit idx n : Nat) (k : Nat) : (s.count unit idx n).part k = s.part k := rfl
@[simp] theorem State.count_queue (unit idx n : Nat) (k : Nat) : (s.count unit idx n).queue k = s.queue k := rfl
@[simp] theorem State.count_port (unit idx n : Nat) (k : Nat) : (s.count unit idx n).port k = s.port k := rfl
@[simp] theorem State.count_fence (unit idx n : Nat) (k : Nat) : (s.count unit idx n).fence k = s.fence k := rfl
@[simp] theorem State.count_hart (unit idx n : Nat) (k : Nat) : (s.count unit idx n).hart k = s.hart k := rfl
@[simp] theorem State.count_extent (unit idx n : Nat) (k : Nat) : (s.count unit idx n).extent k = s.extent k := rfl
@[simp] theorem State.count_owner (unit idx n : Nat) (k : Nat) : (s.count unit idx n).owner k = s.owner k := rfl
@[simp] theorem State.count_seal (unit idx n : Nat) (k : Nat) : (s.count unit idx n).seal k = s.seal k := rfl
@[simp] theorem State.count_squareCounter (unit idx n : Nat) (k j : Nat) : (s.count unit idx n).squareCounter k j = s.squareCounter k j := rfl
@[simp] theorem State.count_hallCounter (unit idx n : Nat) (k : Nat) : (s.count unit idx n).hallCounter k = s.hallCounter k := rfl
@[simp] theorem State.count_launch (unit idx n : Nat) (k : Nat) : (s.count unit idx n).launch k = s.launch k := rfl
@[simp] theorem State.count_byte (unit idx n : Nat) (k : Nat) : (s.count unit idx n).byte k = s.byte k := rfl
@[simp] theorem State.count_bytes (unit idx n : Nat) (k j : Nat) : (s.count unit idx n).bytes k j = s.bytes k j := rfl

/-! `store` -/

@[simp] theorem State.store_pending (a : Nat) (bs : List Byte) : (s.store a bs).pending = s.pending := rfl
@[simp] theorem State.store_out (a : Nat) (bs : List Byte) : (s.store a bs).out = s.out := rfl
@[simp] theorem State.store_freeCtr (a : Nat) (bs : List Byte) : (s.store a bs).freeCtr = s.freeCtr := rfl
@[simp] theorem State.store_isM (a : Nat) (bs : List Byte) : (s.store a bs).isM = s.isM := rfl
@[simp] theorem State.store_time (a : Nat) (bs : List Byte) : (s.store a bs).time = s.time := rfl
@[simp] theorem State.store_replicas (a : Nat) (bs : List Byte) : (s.store a bs).replicas = s.replicas := rfl
@[simp] theorem State.store_retries (a : Nat) (bs : List Byte) : (s.store a bs).retries = s.retries := rfl
@[simp] theorem State.store_badWrite (a : Nat) (bs : List Byte) : (s.store a bs).badWrite = s.badWrite := rfl
@[simp] theorem State.store_squares (a : Nat) (bs : List Byte) : (s.store a bs).squares = s.squares := rfl
@[simp] theorem State.store_sqCtr (a : Nat) (bs : List Byte) : (s.store a bs).sqCtr = s.sqCtr := rfl
@[simp] theorem State.store_sqOwn (a : Nat) (bs : List Byte) : (s.store a bs).sqOwn = s.sqOwn := rfl
@[simp] theorem State.store_extents (a : Nat) (bs : List Byte) : (s.store a bs).extents = s.extents := rfl
@[simp] theorem State.store_fences (a : Nat) (bs : List Byte) : (s.store a bs).fences = s.fences := rfl
@[simp] theorem State.store_harts (a : Nat) (bs : List Byte) : (s.store a bs).harts = s.harts := rfl
@[simp] theorem State.store_parts (a : Nat) (bs : List Byte) : (s.store a bs).parts = s.parts := rfl
@[simp] theorem State.store_mintHart (a : Nat) (bs : List Byte) : (s.store a bs).mintHart = s.mintHart := rfl
@[simp] theorem State.store_mintVec (a : Nat) (bs : List Byte) : (s.store a bs).mintVec = s.mintVec := rfl
@[simp] theorem State.store_mintItype (a : Nat) (bs : List Byte) : (s.store a bs).mintItype = s.mintItype := rfl
@[simp] theorem State.store_rstLast (a : Nat) (bs : List Byte) : (s.store a bs).rstLast = s.rstLast := rfl
@[simp] theorem State.store_numVfs (a : Nat) (bs : List Byte) : (s.store a bs).numVfs = s.numVfs := rfl
@[simp] theorem State.store_vfEnable (a : Nat) (bs : List Byte) : (s.store a bs).vfEnable = s.vfEnable := rfl
@[simp] theorem State.store_queues (a : Nat) (bs : List Byte) : (s.store a bs).queues = s.queues := rfl
@[simp] theorem State.store_hall (a : Nat) (bs : List Byte) : (s.store a bs).hall = s.hall := rfl
@[simp] theorem State.store_launches (a : Nat) (bs : List Byte) : (s.store a bs).launches = s.launches := rfl
@[simp] theorem State.store_nextLaunch (a : Nat) (bs : List Byte) : (s.store a bs).nextLaunch = s.nextLaunch := rfl
@[simp] theorem State.store_hallCtr (a : Nat) (bs : List Byte) : (s.store a bs).hallCtr = s.hallCtr := rfl
@[simp] theorem State.store_seals (a : Nat) (bs : List Byte) : (s.store a bs).seals = s.seals := rfl
@[simp] theorem State.store_handles (a : Nat) (bs : List Byte) : (s.store a bs).handles = s.handles := rfl
@[simp] theorem State.store_hostReqs (a : Nat) (bs : List Byte) : (s.store a bs).hostReqs = s.hostReqs := rfl
@[simp] theorem State.store_far (a : Nat) (bs : List Byte) : (s.store a bs).far = s.far := rfl
@[simp] theorem State.store_nextFar (a : Nat) (bs : List Byte) : (s.store a bs).nextFar = s.nextFar := rfl
@[simp] theorem State.store_ftnG (a : Nat) (bs : List Byte) : (s.store a bs).ftnG = s.ftnG := rfl
@[simp] theorem State.store_links (a : Nat) (bs : List Byte) : (s.store a bs).links = s.links := rfl
@[simp] theorem State.store_power (a : Nat) (bs : List Byte) : (s.store a bs).power = s.power := rfl
@[simp] theorem State.store_boot (a : Nat) (bs : List Byte) : (s.store a bs).boot = s.boot := rfl
@[simp] theorem State.store_held (a : Nat) (bs : List Byte) : (s.store a bs).held = s.held := rfl
@[simp] theorem State.store_heldResets (a : Nat) (bs : List Byte) : (s.store a bs).heldResets = s.heldResets := rfl
@[simp] theorem State.store_elog (a : Nat) (bs : List Byte) : (s.store a bs).elog = s.elog := rfl
@[simp] theorem State.store_trcQ (a : Nat) (bs : List Byte) : (s.store a bs).trcQ = s.trcQ := rfl
@[simp] theorem State.store_ctr (a : Nat) (bs : List Byte) : (s.store a bs).ctr = s.ctr := rfl
@[simp] theorem State.store_ctrEpoch (a : Nat) (bs : List Byte) : (s.store a bs).ctrEpoch = s.ctrEpoch := rfl
@[simp] theorem State.store_ctrAge (a : Nat) (bs : List Byte) : (s.store a bs).ctrAge = s.ctrAge := rfl
@[simp] theorem State.store_snap (a : Nat) (bs : List Byte) : (s.store a bs).snap = s.snap := rfl
@[simp] theorem State.store_stop (a : Nat) (bs : List Byte) : (s.store a bs).stop = s.stop := rfl
@[simp] theorem State.store_sq (a : Nat) (bs : List Byte) (k : Nat) : (s.store a bs).sq k = s.sq k := rfl
@[simp] theorem State.store_part (a : Nat) (bs : List Byte) (k : Nat) : (s.store a bs).part k = s.part k := rfl
@[simp] theorem State.store_queue (a : Nat) (bs : List Byte) (k : Nat) : (s.store a bs).queue k = s.queue k := rfl
@[simp] theorem State.store_port (a : Nat) (bs : List Byte) (k : Nat) : (s.store a bs).port k = s.port k := rfl
@[simp] theorem State.store_fence (a : Nat) (bs : List Byte) (k : Nat) : (s.store a bs).fence k = s.fence k := rfl
@[simp] theorem State.store_hart (a : Nat) (bs : List Byte) (k : Nat) : (s.store a bs).hart k = s.hart k := rfl
@[simp] theorem State.store_extent (a : Nat) (bs : List Byte) (k : Nat) : (s.store a bs).extent k = s.extent k := rfl
@[simp] theorem State.store_owner (a : Nat) (bs : List Byte) (k : Nat) : (s.store a bs).owner k = s.owner k := rfl
@[simp] theorem State.store_seal (a : Nat) (bs : List Byte) (k : Nat) : (s.store a bs).seal k = s.seal k := rfl
@[simp] theorem State.store_squareCounter (a : Nat) (bs : List Byte) (k j : Nat) : (s.store a bs).squareCounter k j = s.squareCounter k j := rfl
@[simp] theorem State.store_hallCounter (a : Nat) (bs : List Byte) (k : Nat) : (s.store a bs).hallCounter k = s.hallCounter k := rfl
@[simp] theorem State.store_launch (a : Nat) (bs : List Byte) (k : Nat) : (s.store a bs).launch k = s.launch k := rfl

/-! `zero` -/

@[simp] theorem State.zero_pending (lo hi : Nat) : (s.zero lo hi).pending = s.pending := rfl
@[simp] theorem State.zero_out (lo hi : Nat) : (s.zero lo hi).out = s.out := rfl
@[simp] theorem State.zero_freeCtr (lo hi : Nat) : (s.zero lo hi).freeCtr = s.freeCtr := rfl
@[simp] theorem State.zero_isM (lo hi : Nat) : (s.zero lo hi).isM = s.isM := rfl
@[simp] theorem State.zero_time (lo hi : Nat) : (s.zero lo hi).time = s.time := rfl
@[simp] theorem State.zero_replicas (lo hi : Nat) : (s.zero lo hi).replicas = s.replicas := rfl
@[simp] theorem State.zero_retries (lo hi : Nat) : (s.zero lo hi).retries = s.retries := rfl
@[simp] theorem State.zero_badWrite (lo hi : Nat) : (s.zero lo hi).badWrite = s.badWrite := rfl
@[simp] theorem State.zero_squares (lo hi : Nat) : (s.zero lo hi).squares = s.squares := rfl
@[simp] theorem State.zero_sqCtr (lo hi : Nat) : (s.zero lo hi).sqCtr = s.sqCtr := rfl
@[simp] theorem State.zero_sqOwn (lo hi : Nat) : (s.zero lo hi).sqOwn = s.sqOwn := rfl
@[simp] theorem State.zero_extents (lo hi : Nat) : (s.zero lo hi).extents = s.extents := rfl
@[simp] theorem State.zero_fences (lo hi : Nat) : (s.zero lo hi).fences = s.fences := rfl
@[simp] theorem State.zero_harts (lo hi : Nat) : (s.zero lo hi).harts = s.harts := rfl
@[simp] theorem State.zero_parts (lo hi : Nat) : (s.zero lo hi).parts = s.parts := rfl
@[simp] theorem State.zero_mintHart (lo hi : Nat) : (s.zero lo hi).mintHart = s.mintHart := rfl
@[simp] theorem State.zero_mintVec (lo hi : Nat) : (s.zero lo hi).mintVec = s.mintVec := rfl
@[simp] theorem State.zero_mintItype (lo hi : Nat) : (s.zero lo hi).mintItype = s.mintItype := rfl
@[simp] theorem State.zero_rstLast (lo hi : Nat) : (s.zero lo hi).rstLast = s.rstLast := rfl
@[simp] theorem State.zero_numVfs (lo hi : Nat) : (s.zero lo hi).numVfs = s.numVfs := rfl
@[simp] theorem State.zero_vfEnable (lo hi : Nat) : (s.zero lo hi).vfEnable = s.vfEnable := rfl
@[simp] theorem State.zero_queues (lo hi : Nat) : (s.zero lo hi).queues = s.queues := rfl
@[simp] theorem State.zero_hall (lo hi : Nat) : (s.zero lo hi).hall = s.hall := rfl
@[simp] theorem State.zero_launches (lo hi : Nat) : (s.zero lo hi).launches = s.launches := rfl
@[simp] theorem State.zero_nextLaunch (lo hi : Nat) : (s.zero lo hi).nextLaunch = s.nextLaunch := rfl
@[simp] theorem State.zero_hallCtr (lo hi : Nat) : (s.zero lo hi).hallCtr = s.hallCtr := rfl
@[simp] theorem State.zero_seals (lo hi : Nat) : (s.zero lo hi).seals = s.seals := rfl
@[simp] theorem State.zero_handles (lo hi : Nat) : (s.zero lo hi).handles = s.handles := rfl
@[simp] theorem State.zero_hostReqs (lo hi : Nat) : (s.zero lo hi).hostReqs = s.hostReqs := rfl
@[simp] theorem State.zero_far (lo hi : Nat) : (s.zero lo hi).far = s.far := rfl
@[simp] theorem State.zero_nextFar (lo hi : Nat) : (s.zero lo hi).nextFar = s.nextFar := rfl
@[simp] theorem State.zero_ftnG (lo hi : Nat) : (s.zero lo hi).ftnG = s.ftnG := rfl
@[simp] theorem State.zero_links (lo hi : Nat) : (s.zero lo hi).links = s.links := rfl
@[simp] theorem State.zero_power (lo hi : Nat) : (s.zero lo hi).power = s.power := rfl
@[simp] theorem State.zero_boot (lo hi : Nat) : (s.zero lo hi).boot = s.boot := rfl
@[simp] theorem State.zero_held (lo hi : Nat) : (s.zero lo hi).held = s.held := rfl
@[simp] theorem State.zero_heldResets (lo hi : Nat) : (s.zero lo hi).heldResets = s.heldResets := rfl
@[simp] theorem State.zero_elog (lo hi : Nat) : (s.zero lo hi).elog = s.elog := rfl
@[simp] theorem State.zero_trcQ (lo hi : Nat) : (s.zero lo hi).trcQ = s.trcQ := rfl
@[simp] theorem State.zero_ctr (lo hi : Nat) : (s.zero lo hi).ctr = s.ctr := rfl
@[simp] theorem State.zero_ctrEpoch (lo hi : Nat) : (s.zero lo hi).ctrEpoch = s.ctrEpoch := rfl
@[simp] theorem State.zero_ctrAge (lo hi : Nat) : (s.zero lo hi).ctrAge = s.ctrAge := rfl
@[simp] theorem State.zero_snap (lo hi : Nat) : (s.zero lo hi).snap = s.snap := rfl
@[simp] theorem State.zero_stop (lo hi : Nat) : (s.zero lo hi).stop = s.stop := rfl
@[simp] theorem State.zero_sq (lo hi : Nat) (k : Nat) : (s.zero lo hi).sq k = s.sq k := rfl
@[simp] theorem State.zero_part (lo hi : Nat) (k : Nat) : (s.zero lo hi).part k = s.part k := rfl
@[simp] theorem State.zero_queue (lo hi : Nat) (k : Nat) : (s.zero lo hi).queue k = s.queue k := rfl
@[simp] theorem State.zero_port (lo hi : Nat) (k : Nat) : (s.zero lo hi).port k = s.port k := rfl
@[simp] theorem State.zero_fence (lo hi : Nat) (k : Nat) : (s.zero lo hi).fence k = s.fence k := rfl
@[simp] theorem State.zero_hart (lo hi : Nat) (k : Nat) : (s.zero lo hi).hart k = s.hart k := rfl
@[simp] theorem State.zero_extent (lo hi : Nat) (k : Nat) : (s.zero lo hi).extent k = s.extent k := rfl
@[simp] theorem State.zero_owner (lo hi : Nat) (k : Nat) : (s.zero lo hi).owner k = s.owner k := rfl
@[simp] theorem State.zero_seal (lo hi : Nat) (k : Nat) : (s.zero lo hi).seal k = s.seal k := rfl
@[simp] theorem State.zero_squareCounter (lo hi : Nat) (k j : Nat) : (s.zero lo hi).squareCounter k j = s.squareCounter k j := rfl
@[simp] theorem State.zero_hallCounter (lo hi : Nat) (k : Nat) : (s.zero lo hi).hallCounter k = s.hallCounter k := rfl
@[simp] theorem State.zero_launch (lo hi : Nat) (k : Nat) : (s.zero lo hi).launch k = s.launch k := rfl

/-! `logErr` -/

@[simp] theorem State.logErr_pending (unit part code addr : Nat) (reply : Reply) (srcm : Nat) : (s.logErr unit part code addr reply srcm).pending = s.pending := rfl
@[simp] theorem State.logErr_out (unit part code addr : Nat) (reply : Reply) (srcm : Nat) : (s.logErr unit part code addr reply srcm).out = s.out := rfl
@[simp] theorem State.logErr_freeCtr (unit part code addr : Nat) (reply : Reply) (srcm : Nat) : (s.logErr unit part code addr reply srcm).freeCtr = s.freeCtr := rfl
@[simp] theorem State.logErr_isM (unit part code addr : Nat) (reply : Reply) (srcm : Nat) : (s.logErr unit part code addr reply srcm).isM = s.isM := rfl
@[simp] theorem State.logErr_time (unit part code addr : Nat) (reply : Reply) (srcm : Nat) : (s.logErr unit part code addr reply srcm).time = s.time := rfl
@[simp] theorem State.logErr_replicas (unit part code addr : Nat) (reply : Reply) (srcm : Nat) : (s.logErr unit part code addr reply srcm).replicas = s.replicas := rfl
@[simp] theorem State.logErr_mem (unit part code addr : Nat) (reply : Reply) (srcm : Nat) : (s.logErr unit part code addr reply srcm).mem = s.mem := rfl
@[simp] theorem State.logErr_parity (unit part code addr : Nat) (reply : Reply) (srcm : Nat) : (s.logErr unit part code addr reply srcm).parity = s.parity := rfl
@[simp] theorem State.logErr_retries (unit part code addr : Nat) (reply : Reply) (srcm : Nat) : (s.logErr unit part code addr reply srcm).retries = s.retries := rfl
@[simp] theorem State.logErr_resv (unit part code addr : Nat) (reply : Reply) (srcm : Nat) : (s.logErr unit part code addr reply srcm).resv = s.resv := rfl
@[simp] theorem State.logErr_badWrite (unit part code addr : Nat) (reply : Reply) (srcm : Nat) : (s.logErr unit part code addr reply srcm).badWrite = s.badWrite := rfl
@[simp] theorem State.logErr_squares (unit part code addr : Nat) (reply : Reply) (srcm : Nat) : (s.logErr unit part code addr reply srcm).squares = s.squares := rfl
@[simp] theorem State.logErr_sqCtr (unit part code addr : Nat) (reply : Reply) (srcm : Nat) : (s.logErr unit part code addr reply srcm).sqCtr = s.sqCtr := rfl
@[simp] theorem State.logErr_sqOwn (unit part code addr : Nat) (reply : Reply) (srcm : Nat) : (s.logErr unit part code addr reply srcm).sqOwn = s.sqOwn := rfl
@[simp] theorem State.logErr_extents (unit part code addr : Nat) (reply : Reply) (srcm : Nat) : (s.logErr unit part code addr reply srcm).extents = s.extents := rfl
@[simp] theorem State.logErr_fences (unit part code addr : Nat) (reply : Reply) (srcm : Nat) : (s.logErr unit part code addr reply srcm).fences = s.fences := rfl
@[simp] theorem State.logErr_harts (unit part code addr : Nat) (reply : Reply) (srcm : Nat) : (s.logErr unit part code addr reply srcm).harts = s.harts := rfl
@[simp] theorem State.logErr_parts (unit part code addr : Nat) (reply : Reply) (srcm : Nat) : (s.logErr unit part code addr reply srcm).parts = s.parts := rfl
@[simp] theorem State.logErr_mintHart (unit part code addr : Nat) (reply : Reply) (srcm : Nat) : (s.logErr unit part code addr reply srcm).mintHart = s.mintHart := rfl
@[simp] theorem State.logErr_mintVec (unit part code addr : Nat) (reply : Reply) (srcm : Nat) : (s.logErr unit part code addr reply srcm).mintVec = s.mintVec := rfl
@[simp] theorem State.logErr_mintItype (unit part code addr : Nat) (reply : Reply) (srcm : Nat) : (s.logErr unit part code addr reply srcm).mintItype = s.mintItype := rfl
@[simp] theorem State.logErr_rstLast (unit part code addr : Nat) (reply : Reply) (srcm : Nat) : (s.logErr unit part code addr reply srcm).rstLast = s.rstLast := rfl
@[simp] theorem State.logErr_numVfs (unit part code addr : Nat) (reply : Reply) (srcm : Nat) : (s.logErr unit part code addr reply srcm).numVfs = s.numVfs := rfl
@[simp] theorem State.logErr_vfEnable (unit part code addr : Nat) (reply : Reply) (srcm : Nat) : (s.logErr unit part code addr reply srcm).vfEnable = s.vfEnable := rfl
@[simp] theorem State.logErr_queues (unit part code addr : Nat) (reply : Reply) (srcm : Nat) : (s.logErr unit part code addr reply srcm).queues = s.queues := rfl
@[simp] theorem State.logErr_hall (unit part code addr : Nat) (reply : Reply) (srcm : Nat) : (s.logErr unit part code addr reply srcm).hall = s.hall := rfl
@[simp] theorem State.logErr_launches (unit part code addr : Nat) (reply : Reply) (srcm : Nat) : (s.logErr unit part code addr reply srcm).launches = s.launches := rfl
@[simp] theorem State.logErr_nextLaunch (unit part code addr : Nat) (reply : Reply) (srcm : Nat) : (s.logErr unit part code addr reply srcm).nextLaunch = s.nextLaunch := rfl
@[simp] theorem State.logErr_hallCtr (unit part code addr : Nat) (reply : Reply) (srcm : Nat) : (s.logErr unit part code addr reply srcm).hallCtr = s.hallCtr := rfl
@[simp] theorem State.logErr_seals (unit part code addr : Nat) (reply : Reply) (srcm : Nat) : (s.logErr unit part code addr reply srcm).seals = s.seals := rfl
@[simp] theorem State.logErr_handles (unit part code addr : Nat) (reply : Reply) (srcm : Nat) : (s.logErr unit part code addr reply srcm).handles = s.handles := rfl
@[simp] theorem State.logErr_hostReqs (unit part code addr : Nat) (reply : Reply) (srcm : Nat) : (s.logErr unit part code addr reply srcm).hostReqs = s.hostReqs := rfl
@[simp] theorem State.logErr_far (unit part code addr : Nat) (reply : Reply) (srcm : Nat) : (s.logErr unit part code addr reply srcm).far = s.far := rfl
@[simp] theorem State.logErr_nextFar (unit part code addr : Nat) (reply : Reply) (srcm : Nat) : (s.logErr unit part code addr reply srcm).nextFar = s.nextFar := rfl
@[simp] theorem State.logErr_ftnG (unit part code addr : Nat) (reply : Reply) (srcm : Nat) : (s.logErr unit part code addr reply srcm).ftnG = s.ftnG := rfl
@[simp] theorem State.logErr_links (unit part code addr : Nat) (reply : Reply) (srcm : Nat) : (s.logErr unit part code addr reply srcm).links = s.links := rfl
@[simp] theorem State.logErr_power (unit part code addr : Nat) (reply : Reply) (srcm : Nat) : (s.logErr unit part code addr reply srcm).power = s.power := rfl
@[simp] theorem State.logErr_boot (unit part code addr : Nat) (reply : Reply) (srcm : Nat) : (s.logErr unit part code addr reply srcm).boot = s.boot := rfl
@[simp] theorem State.logErr_held (unit part code addr : Nat) (reply : Reply) (srcm : Nat) : (s.logErr unit part code addr reply srcm).held = s.held := rfl
@[simp] theorem State.logErr_heldResets (unit part code addr : Nat) (reply : Reply) (srcm : Nat) : (s.logErr unit part code addr reply srcm).heldResets = s.heldResets := rfl
@[simp] theorem State.logErr_trcQ (unit part code addr : Nat) (reply : Reply) (srcm : Nat) : (s.logErr unit part code addr reply srcm).trcQ = s.trcQ := rfl
@[simp] theorem State.logErr_ctr (unit part code addr : Nat) (reply : Reply) (srcm : Nat) : (s.logErr unit part code addr reply srcm).ctr = s.ctr := rfl
@[simp] theorem State.logErr_ctrEpoch (unit part code addr : Nat) (reply : Reply) (srcm : Nat) : (s.logErr unit part code addr reply srcm).ctrEpoch = s.ctrEpoch := rfl
@[simp] theorem State.logErr_ctrAge (unit part code addr : Nat) (reply : Reply) (srcm : Nat) : (s.logErr unit part code addr reply srcm).ctrAge = s.ctrAge := rfl
@[simp] theorem State.logErr_snap (unit part code addr : Nat) (reply : Reply) (srcm : Nat) : (s.logErr unit part code addr reply srcm).snap = s.snap := rfl
@[simp] theorem State.logErr_stop (unit part code addr : Nat) (reply : Reply) (srcm : Nat) : (s.logErr unit part code addr reply srcm).stop = s.stop := rfl
@[simp] theorem State.logErr_sq (unit part code addr : Nat) (reply : Reply) (srcm : Nat) (k : Nat) : (s.logErr unit part code addr reply srcm).sq k = s.sq k := rfl
@[simp] theorem State.logErr_part (unit part code addr : Nat) (reply : Reply) (srcm : Nat) (k : Nat) : (s.logErr unit part code addr reply srcm).part k = s.part k := rfl
@[simp] theorem State.logErr_queue (unit part code addr : Nat) (reply : Reply) (srcm : Nat) (k : Nat) : (s.logErr unit part code addr reply srcm).queue k = s.queue k := rfl
@[simp] theorem State.logErr_port (unit part code addr : Nat) (reply : Reply) (srcm : Nat) (k : Nat) : (s.logErr unit part code addr reply srcm).port k = s.port k := rfl
@[simp] theorem State.logErr_fence (unit part code addr : Nat) (reply : Reply) (srcm : Nat) (k : Nat) : (s.logErr unit part code addr reply srcm).fence k = s.fence k := rfl
@[simp] theorem State.logErr_hart (unit part code addr : Nat) (reply : Reply) (srcm : Nat) (k : Nat) : (s.logErr unit part code addr reply srcm).hart k = s.hart k := rfl
@[simp] theorem State.logErr_extent (unit part code addr : Nat) (reply : Reply) (srcm : Nat) (k : Nat) : (s.logErr unit part code addr reply srcm).extent k = s.extent k := rfl
@[simp] theorem State.logErr_owner (unit part code addr : Nat) (reply : Reply) (srcm : Nat) (k : Nat) : (s.logErr unit part code addr reply srcm).owner k = s.owner k := rfl
@[simp] theorem State.logErr_seal (unit part code addr : Nat) (reply : Reply) (srcm : Nat) (k : Nat) : (s.logErr unit part code addr reply srcm).seal k = s.seal k := rfl
@[simp] theorem State.logErr_squareCounter (unit part code addr : Nat) (reply : Reply) (srcm : Nat) (k j : Nat) : (s.logErr unit part code addr reply srcm).squareCounter k j = s.squareCounter k j := rfl
@[simp] theorem State.logErr_hallCounter (unit part code addr : Nat) (reply : Reply) (srcm : Nat) (k : Nat) : (s.logErr unit part code addr reply srcm).hallCounter k = s.hallCounter k := rfl
@[simp] theorem State.logErr_launch (unit part code addr : Nat) (reply : Reply) (srcm : Nat) (k : Nat) : (s.logErr unit part code addr reply srcm).launch k = s.launch k := rfl
@[simp] theorem State.logErr_byte (unit part code addr : Nat) (reply : Reply) (srcm : Nat) (k : Nat) : (s.logErr unit part code addr reply srcm).byte k = s.byte k := rfl
@[simp] theorem State.logErr_bytes (unit part code addr : Nat) (reply : Reply) (srcm : Nat) (k j : Nat) : (s.logErr unit part code addr reply srcm).bytes k j = s.bytes k j := rfl

/-! What an accessor reads after the update of its own table. -/

theorem State.setSq_sq (u : Nat) (v : Square) (k : Nat) : (s.setSq u v).sq k = if k = u then v else s.sq k :=
  Table.get_set _ _ _ _ _
@[simp] theorem State.setSq_sq_same (u : Nat) (v : Square) : (s.setSq u v).sq u = v := by simp [State.setSq_sq]
theorem State.modSq_sq (u : Nat) (f : Square → Square) (k : Nat) : (s.modSq u f).sq k = if k = u then f (s.sq u) else s.sq k :=
  Table.get_set _ _ _ _ _
@[simp] theorem State.modSq_sq_same (u : Nat) (f : Square → Square) : (s.modSq u f).sq u = f (s.sq u) := by simp [State.modSq_sq]
theorem State.setPart_part (u : Nat) (v : Part) (k : Nat) : (s.setPart u v).part k = if k = u then v else s.part k :=
  Table.get_set _ _ _ _ _
@[simp] theorem State.setPart_part_same (u : Nat) (v : Part) : (s.setPart u v).part u = v := by simp [State.setPart_part]
theorem State.modPart_part (u : Nat) (f : Part → Part) (k : Nat) : (s.modPart u f).part k = if k = u then f (s.part u) else s.part k :=
  Table.get_set _ _ _ _ _
@[simp] theorem State.modPart_part_same (u : Nat) (f : Part → Part) : (s.modPart u f).part u = f (s.part u) := by simp [State.modPart_part]
theorem State.setQueue_queue (u : Nat) (v : Queue) (k : Nat) : (s.setQueue u v).queue k = if k = u then v else s.queue k :=
  Table.get_set _ _ _ _ _
@[simp] theorem State.setQueue_queue_same (u : Nat) (v : Queue) : (s.setQueue u v).queue u = v := by simp [State.setQueue_queue]
theorem State.modQueue_queue (u : Nat) (f : Queue → Queue) (k : Nat) : (s.modQueue u f).queue k = if k = u then f (s.queue u) else s.queue k :=
  Table.get_set _ _ _ _ _
@[simp] theorem State.modQueue_queue_same (u : Nat) (f : Queue → Queue) : (s.modQueue u f).queue u = f (s.queue u) := by simp [State.modQueue_queue]
theorem State.setPort_port (u : Nat) (v : Port) (k : Nat) : (s.setPort u v).port k = if k = u then v else s.port k :=
  Table.get_set _ _ _ _ _
@[simp] theorem State.setPort_port_same (u : Nat) (v : Port) : (s.setPort u v).port u = v := by simp [State.setPort_port]
theorem State.modPort_port (u : Nat) (f : Port → Port) (k : Nat) : (s.modPort u f).port k = if k = u then f (s.port u) else s.port k :=
  Table.get_set _ _ _ _ _
@[simp] theorem State.modPort_port_same (u : Nat) (f : Port → Port) : (s.modPort u f).port u = f (s.port u) := by simp [State.modPort_port]
theorem State.modFence_fence (u : Nat) (f : QuarterFence → QuarterFence) (k : Nat) : (s.modFence u f).fence k = if k = u then f (s.fence u) else s.fence k :=
  Table.get_set _ _ _ _ _
@[simp] theorem State.modFence_fence_same (u : Nat) (f : QuarterFence → QuarterFence) : (s.modFence u f).fence u = f (s.fence u) := by simp [State.modFence_fence]
theorem State.modHart_hart (u : Nat) (f : Hart → Hart) (k : Nat) : (s.modHart u f).hart k = if k = u then f (s.hart u) else s.hart k :=
  Table.get_set _ _ _ _ _
@[simp] theorem State.modHart_hart_same (u : Nat) (f : Hart → Hart) : (s.modHart u f).hart u = f (s.hart u) := by simp [State.modHart_hart]
theorem State.setExtent_extent (u : Nat) (v : Extent) (k : Nat) : (s.setExtent u v).extent k = if k = u then v else s.extent k :=
  Table.get_set _ _ _ _ _
@[simp] theorem State.setExtent_extent_same (u : Nat) (v : Extent) : (s.setExtent u v).extent u = v := by simp [State.setExtent_extent]
theorem State.setOwner_owner (u : Nat) (v : SquareOwner) (k : Nat) : (s.setOwner u v).owner k = if k = u then v else s.owner k :=
  Table.get_set _ _ _ _ _
@[simp] theorem State.setOwner_owner_same (u : Nat) (v : SquareOwner) : (s.setOwner u v).owner u = v := by simp [State.setOwner_owner]
theorem State.setSeal_seal (u : Nat) (v : SealRange) (k : Nat) : (s.setSeal u v).seal k = if k = u then v else s.seal k :=
  Table.get_set _ _ _ _ _
@[simp] theorem State.setSeal_seal_same (u : Nat) (v : SealRange) : (s.setSeal u v).seal u = v := by simp [State.setSeal_seal]
theorem State.setHallCounter_hallCounter (u : Nat) (v : Reg64) (k : Nat) : (s.setHallCounter u v).hallCounter k = if k = u then v else s.hallCounter k :=
  Table.get_set _ _ _ _ _
@[simp] theorem State.setHallCounter_hallCounter_same (u : Nat) (v : Reg64) : (s.setHallCounter u v).hallCounter u = v := by simp [State.setHallCounter_hallCounter]

theorem State.setSquareCounter_squareCounter (u c : Nat) (v : Reg64) (k j : Nat) :
    (s.setSquareCounter u c v).squareCounter k j = if 64 * k + j = 64 * u + c then v else s.squareCounter k j :=
  Table.get_set _ _ _ _ _

/-- The records on their way after one more. -/
@[simp] theorem State.logErr_transit (unit part code addr : Nat) (reply : Reply) (srcm : Nat) :
    (s.logErr unit part code addr reply srcm).elog.transit = s.elog.transit ++
      [{ tu := s.uncertain unit, srcm := srcm, part := part, unit := unit, code := code, addr := s.recordAddr addr,
         stamp := s.time, reply := reply }] := rfl
@[simp] theorem State.logErr_elogQueue (unit part code addr : Nat) (reply : Reply) (srcm : Nat) :
    (s.logErr unit part code addr reply srcm).elog.queue = s.elog.queue := rfl
@[simp] theorem State.logErr_elogStore (unit part code addr : Nat) (reply : Reply) (srcm : Nat) :
    (s.logErr unit part code addr reply srcm).elog.store = s.elog.store := rfl
@[simp] theorem State.emit_out (o : Out) : (s.emit o).out = o :: s.out := rfl

end Sys2Proof.Machine
end

