-- ==== Sys2Proof/Laws/Memory.lean ====
section
/-! SUPPORT. The laws of memory: what every operation on it writes and leaves alone, and that each keeps the canonical form.
Only the operations of this file change the list of bytes. -/

namespace Sys2Proof.Machine

variable (s : State)

/-- Memory after reset is canonical. -/
theorem State.reset_wf : Memory.wf State.reset.mem = true := rfl

/-! A store. -/

theorem State.store_byte (a : Nat) (bs : List Byte) (b : Nat) :
    (s.store a bs).byte b = if a ≤ b ∧ b < a + bs.length then bs.getD (b - a) 0 else s.byte b :=
  Table.get_setList _ _ _ _ _

/-- A store of bytes reads back as them. -/
theorem State.store_bytes (a : Nat) (bs : List Byte) : (s.store a bs).bytes a bs.length = bs :=
  Table.getList_setList _ _ _ _

/-- A store changes its own bytes alone. -/
theorem State.store_sameMemoryBut (a : Nat) (bs : List Byte) : sameMemoryBut s (s.store a bs) a bs.length := by
  intro b hb
  rw [State.store_byte, if_neg (by omega)]

theorem State.store_wf (a : Nat) (bs : List Byte) (w : Memory.wf s.mem = true) : Memory.wf (s.store a bs).mem = true :=
  Table.wf_setList bs a w

/-! Zeroing a range. -/

theorem State.zero_byte (lo hi b : Nat) : (s.zero lo hi).byte b = if lo ≤ b ∧ b < hi then 0 else s.byte b :=
  Table.get_clear _ _ _ _ _

theorem State.zero_wf (lo hi : Nat) (w : Memory.wf s.mem = true) : Memory.wf (s.zero lo hi).mem = true :=
  Table.wf_clear lo hi w

/-! Free values over a range, and the clearing of cisterns at a warm reset. -/

theorem State.freeRange_wf (lo n : Nat) (w : Memory.wf s.mem = true) : Memory.wf (s.freeRange lo n).mem = true :=
  Table.wf_putRange lo _ w

theorem State.clear_wf (lo hi : Nat) (w : Memory.wf s.mem = true) : Memory.wf (Table.clear s.mem lo hi) = true :=
  Table.wf_clear lo hi w

/-! Reading memory that did not change. -/

theorem sameMemory.bytes {s t : State} (h : sameMemory s t) (a n : Nat) : t.bytes a n = s.bytes a n :=
  Table.getList_congr _ _ _ _ _ (fun j _ _ => h j)

theorem sameMemory.refl : sameMemory s s := fun _ => rfl

theorem sameMemory.trans {s t u : State} (h : sameMemory s t) (k : sameMemory t u) : sameMemory s u :=
  fun a => (k a).trans (h a)

theorem sameMemory.of_mem {s t : State} (h : t.mem = s.mem) : sameMemory s t := fun a => by
  unfold State.byte; rw [h]

theorem sameMemoryBut.of_same {s t : State} (h : sameMemory s t) (a n : Nat) : sameMemoryBut s t a n := fun b _ => h b

theorem sameMemoryBut.bytes {s t : State} {a n : Nat} (h : sameMemoryBut s t a n) (b m : Nat) (hb : b + m ≤ a ∨ a + n ≤ b) :
    t.bytes b m = s.bytes b m :=
  Table.getList_congr _ _ _ _ _ (fun j _ _ => h j (by omega))

end Sys2Proof.Machine
end

