-- ==== Sys2Proof/WellFormed.lean ====
section
/-! DEFINITION. Which operands the world outside can give a command: the widths and ranges that the manual gives them
and that the types alone do not say. -/

namespace Sys2Proof

/-- A unit code that the manual lists (R501). -/
def unitOk (u : Nat) : Bool :=
  decide (u < 0xB8) || decide (0xC0 ≤ u ∧ u ≤ 0xC7) || decide (0xD0 ≤ u ∧ u < 0xE0) || decide (0x100 ≤ u ∧ u < 0x160)

/-- A 32-bit write carries nothing outside the half it addresses (R7). -/
def halfOk (h : Half) (v : Reg64) : Bool :=
  match h with
  | .full => true
  | .lo => v >>> 32 == 0
  | .hi => v <<< 32 == 0

/-- A register write (R7, R501). -/
def regWriteOk (w : RegWrite) : Bool := unitOk w.unit && halfOk w.half w.val

/-- Sizes and operations of single accesses (R135, R271, R317). -/
def accessOk (k : AccessKind) : Bool :=
  match k with
  | .load n => n == 1 || n == 2 || n == 4 || n == 8
  | .store bs => bs.length == 1 || bs.length == 2 || bs.length == 4 || bs.length == 8
  | .atom op n _ => decide (op ≤ 8) && (n == 4 || n == 8)
  | .cas n _ _ => n == 4 || n == 8 || n == 16

/-- A load-reserve, store-conditional or AMO of RISC-V: 4 or 8 bytes, and an operation that has an AMO (R311). -/
def syncOk (op : SyncOp) : Bool :=
  match op with
  | .lr n => n == 4 || n == 8
  | .sc n _ => n == 4 || n == 8
  | .amo o n _ => decide (o ≤ 8) && (n == 4 || n == 8)

/-- A core's access names a 56-bit address (R267). -/
def sourceOk (src : AccessSource) : Bool :=
  match src with
  | .square _ _ row => decide (row < 512)
  | .core _ a k => decide (a < 2 ^ 56) && accessOk k
  | .coreSync _ a op _ _ => decide (a < 2 ^ 56) && syncOk op
  | .coreFence _ _ _ => true

/-- An interrupt target (R360, R379). -/
def targetOk (t : IntTarget) : Bool :=
  match t with
  | .msix v => decide (v < 2048)
  | .aia h v => decide (h < 48) && decide (v < 2048)

/-- One sample of ten dies (R446). -/
def telemetryOk (t : Telemetry) : Bool := t.temps.length == 10 && t.speeds.length == 10 && t.volts.length == 10 && t.amps.length == 10 && decide (t.faults < 256)

/-- A flit's body has 240 bytes (R399). -/
def flitOk (f : Flit) : Bool := f.body.length == 240

/-- A 64-bit stream counter that starts at 1 (R426). -/
def cryptOk (cr : Crypt) : Bool := decide (1 ≤ cr.ctr ∧ cr.ctr < 2 ^ 64)

/-- HELLO's role is member or master (R429, R431). -/
def helloOk (h : HelloMsg) : Bool := decide (h.role.toNat ≤ 1) && decide (h.port.toNat < 96)

/-- The fields of a stream (R411, R417). -/
def streamOk (i : StreamId) : Bool :=
  decide (i.srcm < 4096) && decide (i.spart < 16) && decide (i.dpart < 16) && decide (i.ch < 3)

/-- A host request holds at most 4,096 bytes and lies below the largest BAR (R521, R526). -/
def hostRequestOk (r : HostRequest) : Bool :=
  decide (r.len ≤ 4096) && decide (r.off < 2 ^ 42) && (if r.write then r.bytes.length == r.len else r.bytes == [])

/-- A configuration request (R521, R526). -/
def configOk (c : ConfigReq) : Bool :=
  match c with
  | .bar2Size k => decide (28 ≤ k ∧ k ≤ 42)
  | .maxPayload n => decide (n ≤ 2)
  | .maxReadRequest n => decide (n ≤ 5)
  | .aerClear m => decide (m < 2 ^ 32)
  | _ => true

/-- A work item's numbers (R214, R216). -/
def itemOk (i : WorkItem) : Bool := decide (i.record < 65536) && decide (i.head < 256) && decide (i.part < 256)

/-- An 8-byte aligned offset of the register space (R7, R268). -/
def regOffsetOk (o : Nat) : Bool := decide (o < 0x100000000) && o % 8 == 0

/-- Whether a command's operands are ones that can reach the block. -/
def Instr.wellFormed (i : Instr) : Bool :=
  match i with
  | .homeAccess src => sourceOk src
  | .homeAtomic src => sourceOk src
  | .attnWalkBlock _ item => itemOk item
  | .attnFold _ item => itemOk item
  | .attnMerge _ item => itemOk item
  | .attnFinish _ item => itemOk item
  | .bwdAccumulate _ item => itemOk item
  | .pmpTblLoad _ w => regWriteOk w
  | .ftnReload w => regWriteOk w
  | .ftnSelftest w => regWriteOk w
  | .ptnXtentWrite _ w => regWriteOk w
  | .fence w => regWriteOk w
  | .restore w => regWriteOk w
  | .queueBind _ w => regWriteOk w
  | .doorbell _ w => regWriteOk w
  | .queueEnable _ w => regWriteOk w
  | .destroy _ w => regWriteOk w
  | .handover _ w => regWriteOk w
  | .ptnHartWrite _ w => regWriteOk w
  | .prst w => regWriteOk w
  | .warm w => regWriteOk w
  | .cold w => regWriteOk w
  | .enter w => regWriteOk w
  | .wake w => regWriteOk w
  | .lnkIdWrite w => regWriteOk w
  | .lnkTimeWrite w => regWriteOk w
  | .lnkEpochGo w => regWriteOk w
  | .obsStopGo w => regWriteOk w
  | .obsStopResume w => regWriteOk w
  | .snapshotArm w => regWriteOk w
  | .obsElogRingWrite _ w => regWriteOk w
  | .obsTrcRingWrite _ w => regWriteOk w
  | .obsTrcMark _ w => regWriteOk w
  | .lnkPortWrite _ w => regWriteOk w
  | .registerWrite o w => regOffsetOk o && regWriteOk w
  | .interruptModerationExpiry _ t => targetOk t
  | .sagDetect mv => decide (mv < 44000)
  | .supplyLossStop mv => decide (mv < 40000)
  | .gatePowerLoss mv => decide (mv < 36000)
  | .busRecovery mv => decide (44000 ≤ mv ∧ mv ≤ 60000)
  | .busOvervoltage mv => decide (60000 < mv)
  | .telemetrySample t => telemetryOk t
  | .dataFlit _ f => flitOk f
  | .idleFlit _ f => flitOk f
  | .nak _ f => flitOk f
  | .mark _ f => flitOk f
  | .resumeMark _ f => flitOk f
  | .hello _ h => helloOk h
  | .put _ cr => cryptOk cr
  | .get _ cr => cryptOk cr
  | .atom _ cr => cryptOk cr
  | .signal _ cr => cryptOk cr
  | .ack _ cr => cryptOk cr
  | .data _ cr => cryptOk cr
  | .err _ cr => cryptOk cr
  | .treq _ cr => cryptOk cr
  | .tresp _ cr => cryptOk cr
  | .eprep _ cr => cryptOk cr
  | .eack _ cr => cryptOk cr
  | .ecommit _ cr => cryptOk cr
  | .eabandon _ cr => cryptOk cr
  | .stopreq _ cr => cryptOk cr
  | .gapTimeout st => streamOk st
  | .hostMemRequest r => hostRequestOk r
  | .configRequest _ c => configOk c
  | .ctNop _ => true
  | .ctMovi _ => true
  | .ctAdd _ => true
  | .ctSub _ => true
  | .ctMul _ => true
  | .ctAnd _ => true
  | .ctOr _ => true
  | .ctXor _ => true
  | .ctShl _ => true
  | .ctSrl _ => true
  | .ctSra _ => true
  | .ctMin _ => true
  | .ctMax _ => true
  | .ctMinu _ => true
  | .ctMaxu _ => true
  | .ctBeq _ => true
  | .ctBne _ => true
  | .ctBlt _ => true
  | .ctBge _ => true
  | .ctBltu _ => true
  | .ctBgeu _ => true
  | .ctJmp _ => true
  | .ctLoop _ => true
  | .ctNext _ => true
  | .ctRdsr _ => true
  | .ctEnd _ => true
  | .squareEndReport _ => true
  | .mxMma _ => true
  | .mxFill _ => true
  | .mxLdt _ => true
  | .mxStt _ => true
  | .mxRsc _ => true
  | .mxTov _ => true
  | .mxFromv _ => true
  | .mxLdsf _ => true
  | .mxLdcb _ => true
  | .vxAdd _ => true
  | .vxSub _ => true
  | .vxMulsh _ => true
  | .vxRsh _ => true
  | .vxAbs _ => true
  | .vxNeg _ => true
  | .vxMin _ => true
  | .vxMax _ => true
  | .vxAnd _ => true
  | .vxOr _ => true
  | .vxXor _ => true
  | .vxShl _ => true
  | .vxSrl _ => true
  | .vxSra _ => true
  | .vxCmpeq _ => true
  | .vxCmplt _ => true
  | .vxCmple _ => true
  | .vxSel _ => true
  | .vxMov _ => true
  | .vxIota _ => true
  | .vxBcast _ => true
  | .vxTos _ => true
  | .vxLd _ => true
  | .vxSt _ => true
  | .vxRmax _ => true
  | .vxRmin _ => true
  | .vxRamax _ => true
  | .vxRsum _ => true
  | .vxRssq _ => true
  | .vxDsc _ => true
  | .vxQnt _ => true
  | .vxSmul _ => true
  | .vxSrcp _ => true
  | .vxSc64 _ => true
  | .vxSrsq _ => true
  | .vxSfn _ => true
  | .vxTld _ => true
  | .vxTst _ => true
  | .pmEnq _ => true
  | .pmWait _ => true
  | .pmWaitMet _ => true
  | .fnSeed _ => true
  | .fnUni _ => true
  | .fnMask _ => true
  | .fnInit _ => true
  | .fnDraw _ => true
  | .syRel _ => true
  | .syAcq _ => true
  | .syFence _ => true
  | .syFencePass _ => true
  | .syWait _ => true
  | .syWaitMet _ => true
  | .syCset _ => true
  | .syCrd _ => true
  | .atLd _ => true
  | .atSt _ => true
  | .atAtom _ => true
  | .atCas128 _ => true
  | .atVatom _ => true
  | .kernelStop _ => true
  | .pumpDescriptorBegin _ => true
  | .pumpBlock _ => true
  | .pumpSignal _ => true
  | .pumpDescriptorComplete _ => true
  | .tableImageRead _ => true
  | .tableLoadDone _ => true
  | .ftnReloadDone => true
  | .launchStart _ => true
  | .launchEnd _ => true
  | .ringStep _ => true
  | .ringCredit _ => true
  | .ringPoison _ => true
  | .lookupRequest _ _ => true
  | .lookupBlockPin _ _ => true
  | .lookupBlockCommit _ _ => true
  | .lookupResult _ _ => true
  | .parityRetry _ => true
  | .scrubComplete _ => true
  | .bridgeTimeout _ => true
  | .phaseFault _ => true
  | .destroyComplete _ => true
  | .entryFetch _ => true
  | .entryEnd _ => true
  | .dspNop _ => true
  | .dspLaunch _ => true
  | .dspAttn _ => true
  | .dspPlook _ => true
  | .dspBucket _ => true
  | .dspWait _ => true
  | .dspWaitMet _ => true
  | .dspSignal _ => true
  | .dspSync _ => true
  | .dspMovi _ => true
  | .dspAdd _ => true
  | .dspLd _ => true
  | .dspSt _ => true
  | .dspBr _ => true
  | .dspCall _ => true
  | .dspRet _ => true
  | .dspDone _ => true
  | .dspStat _ => true
  | .dspIrq _ => true
  | .dspSeal _ => true
  | .dspPublish _ => true
  | .dspRetire _ => true
  | .sealRangeFree _ => true
  | .handoverClean _ => true
  | .coreHalt _ => true
  | .msixUnmask _ _ => true
  | .functionLevelReset _ => true
  | .vfEnableClear _ _ => true
  | .partitionReset _ => true
  | .partitionResetComplete _ => true
  | .perstNAssert => true
  | .perstNRelease => true
  | .venMate => true
  | .inputPowerGood => true
  | .venBreak => true
  | .sagHoldExpiry => true
  | .brakeAssert => true
  | .brakeRelease => true
  | .sagDurationExpiry => true
  | .overvoltageExpiry => true
  | .supplyRecoveryExpiry => true
  | .thermalRecovery => true
  | .controllerEvaluation => true
  | .dormantEntryDone => true
  | .fullService => true
  | .replicaLoad _ => true
  | .resyncWindowExpiry _ => true
  | .ferase _ => true
  | .fwrite _ => true
  | .fread _ => true
  | .commit _ => true
  | .attest _ => true
  | .keyload _ => true
  | .keyclear _ => true
  | .reboot _ => true
  | .mailboxCommandDone => true
  | .replayTimeout _ => true
  | .portLeaveUp _ => true
  | .transitForward _ _ => true
  | .linkTimeoutExpiry _ => true
  | .timeExchange => true
  | .tlockTimeout => true
  | .epochCommitTime => true
  | .epochAbandonTimeout => true
  | .snapshotTick => true
  | .errorRecordArrive _ => true
  | .errorRecordAccept => true
  | .traceRecord _ => true
  | .hostAtomicop _ _ => true
  | .hostWindowCompletion _ _ => true
  | .smbusBlockRead _ => true
  | .fenceComplete _ => true
  | .restoreDone _ _ => true
  | .startUpDone => true
  | .warmResetDone => true
  | .hostCompletionTimeout _ => true

end Sys2Proof
end

