-- ==== Sys2Proof/Laws/PerInstr.lean ====
section
/-! SUPPORT. The family of statements made per command: the register write that a command carries comes from a unit the
manual lists, and holds nothing outside the half it addresses. -/

namespace Sys2Proof.Laws.Operand

/-- The register write that a command carries, if it is one. -/
def writeOf (i : Instr) : Option RegWrite :=
  match i with
  | .ctNop _ => none
  | .ctMovi _ => none
  | .ctAdd _ => none
  | .ctSub _ => none
  | .ctMul _ => none
  | .ctAnd _ => none
  | .ctOr _ => none
  | .ctXor _ => none
  | .ctShl _ => none
  | .ctSrl _ => none
  | .ctSra _ => none
  | .ctMin _ => none
  | .ctMax _ => none
  | .ctMinu _ => none
  | .ctMaxu _ => none
  | .ctBeq _ => none
  | .ctBne _ => none
  | .ctBlt _ => none
  | .ctBge _ => none
  | .ctBltu _ => none
  | .ctBgeu _ => none
  | .ctJmp _ => none
  | .ctLoop _ => none
  | .ctNext _ => none
  | .ctRdsr _ => none
  | .ctEnd _ => none
  | .squareEndReport _ => none
  | .mxMma _ => none
  | .mxFill _ => none
  | .mxLdt _ => none
  | .mxStt _ => none
  | .mxRsc _ => none
  | .mxTov _ => none
  | .mxFromv _ => none
  | .mxLdsf _ => none
  | .mxLdcb _ => none
  | .vxAdd _ => none
  | .vxSub _ => none
  | .vxMulsh _ => none
  | .vxRsh _ => none
  | .vxAbs _ => none
  | .vxNeg _ => none
  | .vxMin _ => none
  | .vxMax _ => none
  | .vxAnd _ => none
  | .vxOr _ => none
  | .vxXor _ => none
  | .vxShl _ => none
  | .vxSrl _ => none
  | .vxSra _ => none
  | .vxCmpeq _ => none
  | .vxCmplt _ => none
  | .vxCmple _ => none
  | .vxSel _ => none
  | .vxMov _ => none
  | .vxIota _ => none
  | .vxBcast _ => none
  | .vxTos _ => none
  | .vxLd _ => none
  | .vxSt _ => none
  | .vxRmax _ => none
  | .vxRmin _ => none
  | .vxRamax _ => none
  | .vxRsum _ => none
  | .vxRssq _ => none
  | .vxDsc _ => none
  | .vxQnt _ => none
  | .vxSmul _ => none
  | .vxSrcp _ => none
  | .vxSc64 _ => none
  | .vxSrsq _ => none
  | .vxSfn _ => none
  | .vxTld _ => none
  | .vxTst _ => none
  | .pmEnq _ => none
  | .pmWait _ => none
  | .pmWaitMet _ => none
  | .fnSeed _ => none
  | .fnUni _ => none
  | .fnMask _ => none
  | .fnInit _ => none
  | .fnDraw _ => none
  | .syRel _ => none
  | .syAcq _ => none
  | .syFence _ => none
  | .syFencePass _ => none
  | .syWait _ => none
  | .syWaitMet _ => none
  | .syCset _ => none
  | .syCrd _ => none
  | .atLd _ => none
  | .atSt _ => none
  | .atAtom _ => none
  | .atCas128 _ => none
  | .atVatom _ => none
  | .kernelStop _ => none
  | .pumpDescriptorBegin _ => none
  | .pumpBlock _ => none
  | .pumpSignal _ => none
  | .pumpDescriptorComplete _ => none
  | .pmpTblLoad _ w => some w
  | .tableImageRead _ => none
  | .tableLoadDone _ => none
  | .ftnReload w => some w
  | .ftnSelftest w => some w
  | .ftnReloadDone => none
  | .launchStart _ => none
  | .launchEnd _ => none
  | .attnWalkBlock _ _ => none
  | .attnFold _ _ => none
  | .attnMerge _ _ => none
  | .attnFinish _ _ => none
  | .bwdAccumulate _ _ => none
  | .ringStep _ => none
  | .ringCredit _ => none
  | .ringPoison _ => none
  | .lookupRequest _ _ => none
  | .lookupBlockPin _ _ => none
  | .lookupBlockCommit _ _ => none
  | .lookupResult _ _ => none
  | .homeAccess _ => none
  | .homeAtomic _ => none
  | .parityRetry _ => none
  | .ptnXtentWrite _ w => some w
  | .scrubComplete _ => none
  | .fence w => some w
  | .bridgeTimeout _ => none
  | .phaseFault _ => none
  | .restore w => some w
  | .queueBind _ w => some w
  | .doorbell _ w => some w
  | .queueEnable _ w => some w
  | .destroy _ w => some w
  | .destroyComplete _ => none
  | .entryFetch _ => none
  | .entryEnd _ => none
  | .dspNop _ => none
  | .dspLaunch _ => none
  | .dspAttn _ => none
  | .dspPlook _ => none
  | .dspBucket _ => none
  | .dspWait _ => none
  | .dspWaitMet _ => none
  | .dspSignal _ => none
  | .dspSync _ => none
  | .dspMovi _ => none
  | .dspAdd _ => none
  | .dspLd _ => none
  | .dspSt _ => none
  | .dspBr _ => none
  | .dspCall _ => none
  | .dspRet _ => none
  | .dspDone _ => none
  | .dspStat _ => none
  | .dspIrq _ => none
  | .dspSeal _ => none
  | .dspPublish _ => none
  | .dspRetire _ => none
  | .sealRangeFree _ => none
  | .handover _ w => some w
  | .handoverClean _ => none
  | .ptnHartWrite _ w => some w
  | .coreHalt _ => none
  | .interruptModerationExpiry _ _ => none
  | .msixUnmask _ _ => none
  | .prst w => some w
  | .functionLevelReset _ => none
  | .vfEnableClear _ _ => none
  | .partitionReset _ => none
  | .partitionResetComplete _ => none
  | .warm w => some w
  | .cold w => some w
  | .perstNAssert => none
  | .perstNRelease => none
  | .venMate => none
  | .inputPowerGood => none
  | .venBreak => none
  | .sagDetect _ => none
  | .sagHoldExpiry => none
  | .brakeAssert => none
  | .brakeRelease => none
  | .supplyLossStop _ => none
  | .sagDurationExpiry => none
  | .overvoltageExpiry => none
  | .supplyRecoveryExpiry => none
  | .gatePowerLoss _ => none
  | .telemetrySample _ => none
  | .thermalRecovery => none
  | .controllerEvaluation => none
  | .enter w => some w
  | .dormantEntryDone => none
  | .wake w => some w
  | .fullService => none
  | .replicaLoad _ => none
  | .resyncWindowExpiry _ => none
  | .ferase _ => none
  | .fwrite _ => none
  | .fread _ => none
  | .commit _ => none
  | .attest _ => none
  | .keyload _ => none
  | .keyclear _ => none
  | .reboot _ => none
  | .mailboxCommandDone => none
  | .dataFlit _ _ => none
  | .idleFlit _ _ => none
  | .nak _ _ => none
  | .replayTimeout _ => none
  | .portLeaveUp _ => none
  | .hello _ _ => none
  | .put _ _ => none
  | .get _ _ => none
  | .atom _ _ => none
  | .signal _ _ => none
  | .ack _ _ => none
  | .data _ _ => none
  | .err _ _ => none
  | .transitForward _ _ => none
  | .linkTimeoutExpiry _ => none
  | .gapTimeout _ => none
  | .timeExchange => none
  | .treq _ _ => none
  | .tresp _ _ => none
  | .tlockTimeout => none
  | .lnkIdWrite w => some w
  | .lnkTimeWrite w => some w
  | .lnkEpochGo w => some w
  | .eprep _ _ => none
  | .eack _ _ => none
  | .ecommit _ _ => none
  | .eabandon _ _ => none
  | .epochCommitTime => none
  | .epochAbandonTimeout => none
  | .stopreq _ _ => none
  | .mark _ _ => none
  | .resumeMark _ _ => none
  | .obsStopGo w => some w
  | .obsStopResume w => some w
  | .snapshotArm w => some w
  | .snapshotTick => none
  | .errorRecordArrive _ => none
  | .errorRecordAccept => none
  | .obsElogRingWrite _ w => some w
  | .traceRecord _ => none
  | .obsTrcRingWrite _ w => some w
  | .obsTrcMark _ w => some w
  | .hostMemRequest _ => none
  | .hostAtomicop _ _ => none
  | .configRequest _ _ => none
  | .hostWindowCompletion _ _ => none
  | .smbusBlockRead _ => none
  | .registerWrite _ w => some w
  | .lnkPortWrite _ w => some w
  | .fenceComplete _ => none
  | .restoreDone _ _ => none
  | .startUpDone => none
  | .warmResetDone => none
  | .hostCompletionTimeout _ => none
  | .busRecovery _ => none
  | .busOvervoltage _ => none

/-- A well-formed command carries a well-formed register write or none (R7, R501). -/
def Statement (i : Instr) : Prop :=
  i.wellFormed = true → ∀ w, writeOf i = some w → unitOk w.unit = true ∧ halfOk w.half w.val = true

theorem of_none {i : Instr} (h : writeOf i = none) : Statement i := fun _ w hw => by rw [h] at hw; cases hw

theorem of_write {i : Instr} {v : RegWrite} (h : writeOf i = some v) (k : i.wellFormed = true → regWriteOk v = true) : Statement i := by
  intro wf w hw
  rw [h] at hw; cases hw
  simpa [regWriteOk] using k wf

theorem ctNop (sq : SquareId) : Statement (.ctNop sq) := of_none rfl
theorem ctMovi (sq : SquareId) : Statement (.ctMovi sq) := of_none rfl
theorem ctAdd (sq : SquareId) : Statement (.ctAdd sq) := of_none rfl
theorem ctSub (sq : SquareId) : Statement (.ctSub sq) := of_none rfl
theorem ctMul (sq : SquareId) : Statement (.ctMul sq) := of_none rfl
theorem ctAnd (sq : SquareId) : Statement (.ctAnd sq) := of_none rfl
theorem ctOr (sq : SquareId) : Statement (.ctOr sq) := of_none rfl
theorem ctXor (sq : SquareId) : Statement (.ctXor sq) := of_none rfl
theorem ctShl (sq : SquareId) : Statement (.ctShl sq) := of_none rfl
theorem ctSrl (sq : SquareId) : Statement (.ctSrl sq) := of_none rfl
theorem ctSra (sq : SquareId) : Statement (.ctSra sq) := of_none rfl
theorem ctMin (sq : SquareId) : Statement (.ctMin sq) := of_none rfl
theorem ctMax (sq : SquareId) : Statement (.ctMax sq) := of_none rfl
theorem ctMinu (sq : SquareId) : Statement (.ctMinu sq) := of_none rfl
theorem ctMaxu (sq : SquareId) : Statement (.ctMaxu sq) := of_none rfl
theorem ctBeq (sq : SquareId) : Statement (.ctBeq sq) := of_none rfl
theorem ctBne (sq : SquareId) : Statement (.ctBne sq) := of_none rfl
theorem ctBlt (sq : SquareId) : Statement (.ctBlt sq) := of_none rfl
theorem ctBge (sq : SquareId) : Statement (.ctBge sq) := of_none rfl
theorem ctBltu (sq : SquareId) : Statement (.ctBltu sq) := of_none rfl
theorem ctBgeu (sq : SquareId) : Statement (.ctBgeu sq) := of_none rfl
theorem ctJmp (sq : SquareId) : Statement (.ctJmp sq) := of_none rfl
theorem ctLoop (sq : SquareId) : Statement (.ctLoop sq) := of_none rfl
theorem ctNext (sq : SquareId) : Statement (.ctNext sq) := of_none rfl
theorem ctRdsr (sq : SquareId) : Statement (.ctRdsr sq) := of_none rfl
theorem ctEnd (sq : SquareId) : Statement (.ctEnd sq) := of_none rfl
theorem squareEndReport (sq : SquareId) : Statement (.squareEndReport sq) := of_none rfl
theorem mxMma (sq : SquareId) : Statement (.mxMma sq) := of_none rfl
theorem mxFill (sq : SquareId) : Statement (.mxFill sq) := of_none rfl
theorem mxLdt (sq : SquareId) : Statement (.mxLdt sq) := of_none rfl
theorem mxStt (sq : SquareId) : Statement (.mxStt sq) := of_none rfl
theorem mxRsc (sq : SquareId) : Statement (.mxRsc sq) := of_none rfl
theorem mxTov (sq : SquareId) : Statement (.mxTov sq) := of_none rfl
theorem mxFromv (sq : SquareId) : Statement (.mxFromv sq) := of_none rfl
theorem mxLdsf (sq : SquareId) : Statement (.mxLdsf sq) := of_none rfl
theorem mxLdcb (sq : SquareId) : Statement (.mxLdcb sq) := of_none rfl
theorem vxAdd (sq : SquareId) : Statement (.vxAdd sq) := of_none rfl
theorem vxSub (sq : SquareId) : Statement (.vxSub sq) := of_none rfl
theorem vxMulsh (sq : SquareId) : Statement (.vxMulsh sq) := of_none rfl
theorem vxRsh (sq : SquareId) : Statement (.vxRsh sq) := of_none rfl
theorem vxAbs (sq : SquareId) : Statement (.vxAbs sq) := of_none rfl
theorem vxNeg (sq : SquareId) : Statement (.vxNeg sq) := of_none rfl
theorem vxMin (sq : SquareId) : Statement (.vxMin sq) := of_none rfl
theorem vxMax (sq : SquareId) : Statement (.vxMax sq) := of_none rfl
theorem vxAnd (sq : SquareId) : Statement (.vxAnd sq) := of_none rfl
theorem vxOr (sq : SquareId) : Statement (.vxOr sq) := of_none rfl
theorem vxXor (sq : SquareId) : Statement (.vxXor sq) := of_none rfl
theorem vxShl (sq : SquareId) : Statement (.vxShl sq) := of_none rfl
theorem vxSrl (sq : SquareId) : Statement (.vxSrl sq) := of_none rfl
theorem vxSra (sq : SquareId) : Statement (.vxSra sq) := of_none rfl
theorem vxCmpeq (sq : SquareId) : Statement (.vxCmpeq sq) := of_none rfl
theorem vxCmplt (sq : SquareId) : Statement (.vxCmplt sq) := of_none rfl
theorem vxCmple (sq : SquareId) : Statement (.vxCmple sq) := of_none rfl
theorem vxSel (sq : SquareId) : Statement (.vxSel sq) := of_none rfl
theorem vxMov (sq : SquareId) : Statement (.vxMov sq) := of_none rfl
theorem vxIota (sq : SquareId) : Statement (.vxIota sq) := of_none rfl
theorem vxBcast (sq : SquareId) : Statement (.vxBcast sq) := of_none rfl
theorem vxTos (sq : SquareId) : Statement (.vxTos sq) := of_none rfl
theorem vxLd (sq : SquareId) : Statement (.vxLd sq) := of_none rfl
theorem vxSt (sq : SquareId) : Statement (.vxSt sq) := of_none rfl
theorem vxRmax (sq : SquareId) : Statement (.vxRmax sq) := of_none rfl
theorem vxRmin (sq : SquareId) : Statement (.vxRmin sq) := of_none rfl
theorem vxRamax (sq : SquareId) : Statement (.vxRamax sq) := of_none rfl
theorem vxRsum (sq : SquareId) : Statement (.vxRsum sq) := of_none rfl
theorem vxRssq (sq : SquareId) : Statement (.vxRssq sq) := of_none rfl
theorem vxDsc (sq : SquareId) : Statement (.vxDsc sq) := of_none rfl
theorem vxQnt (sq : SquareId) : Statement (.vxQnt sq) := of_none rfl
theorem vxSmul (sq : SquareId) : Statement (.vxSmul sq) := of_none rfl
theorem vxSrcp (sq : SquareId) : Statement (.vxSrcp sq) := of_none rfl
theorem vxSc64 (sq : SquareId) : Statement (.vxSc64 sq) := of_none rfl
theorem vxSrsq (sq : SquareId) : Statement (.vxSrsq sq) := of_none rfl
theorem vxSfn (sq : SquareId) : Statement (.vxSfn sq) := of_none rfl
theorem vxTld (sq : SquareId) : Statement (.vxTld sq) := of_none rfl
theorem vxTst (sq : SquareId) : Statement (.vxTst sq) := of_none rfl
theorem pmEnq (sq : SquareId) : Statement (.pmEnq sq) := of_none rfl
theorem pmWait (sq : SquareId) : Statement (.pmWait sq) := of_none rfl
theorem pmWaitMet (sq : SquareId) : Statement (.pmWaitMet sq) := of_none rfl
theorem fnSeed (sq : SquareId) : Statement (.fnSeed sq) := of_none rfl
theorem fnUni (sq : SquareId) : Statement (.fnUni sq) := of_none rfl
theorem fnMask (sq : SquareId) : Statement (.fnMask sq) := of_none rfl
theorem fnInit (sq : SquareId) : Statement (.fnInit sq) := of_none rfl
theorem fnDraw (sq : SquareId) : Statement (.fnDraw sq) := of_none rfl
theorem syRel (sq : SquareId) : Statement (.syRel sq) := of_none rfl
theorem syAcq (sq : SquareId) : Statement (.syAcq sq) := of_none rfl
theorem syFence (sq : SquareId) : Statement (.syFence sq) := of_none rfl
theorem syFencePass (sq : SquareId) : Statement (.syFencePass sq) := of_none rfl
theorem syWait (sq : SquareId) : Statement (.syWait sq) := of_none rfl
theorem syWaitMet (sq : SquareId) : Statement (.syWaitMet sq) := of_none rfl
theorem syCset (sq : SquareId) : Statement (.syCset sq) := of_none rfl
theorem syCrd (sq : SquareId) : Statement (.syCrd sq) := of_none rfl
theorem atLd (sq : SquareId) : Statement (.atLd sq) := of_none rfl
theorem atSt (sq : SquareId) : Statement (.atSt sq) := of_none rfl
theorem atAtom (sq : SquareId) : Statement (.atAtom sq) := of_none rfl
theorem atCas128 (sq : SquareId) : Statement (.atCas128 sq) := of_none rfl
theorem atVatom (sq : SquareId) : Statement (.atVatom sq) := of_none rfl
theorem kernelStop (sq : SquareId) : Statement (.kernelStop sq) := of_none rfl
theorem pumpDescriptorBegin (sq : SquareId) : Statement (.pumpDescriptorBegin sq) := of_none rfl
theorem pumpBlock (sq : SquareId) : Statement (.pumpBlock sq) := of_none rfl
theorem pumpSignal (sq : SquareId) : Statement (.pumpSignal sq) := of_none rfl
theorem pumpDescriptorComplete (sq : SquareId) : Statement (.pumpDescriptorComplete sq) := of_none rfl
theorem pmpTblLoad (sq : SquareId) (w : RegWrite) : Statement (.pmpTblLoad sq w) := of_write rfl (fun h => h)
theorem tableImageRead (sq : SquareId) : Statement (.tableImageRead sq) := of_none rfl
theorem tableLoadDone (sq : SquareId) : Statement (.tableLoadDone sq) := of_none rfl
theorem ftnReload (w : RegWrite) : Statement (.ftnReload w) := of_write rfl (fun h => h)
theorem ftnSelftest (w : RegWrite) : Statement (.ftnSelftest w) := of_write rfl (fun h => h)
theorem ftnReloadDone : Statement .ftnReloadDone := of_none rfl
theorem launchStart (launch : Nat) : Statement (.launchStart launch) := of_none rfl
theorem launchEnd (launch : Nat) : Statement (.launchEnd launch) := of_none rfl
theorem attnWalkBlock (sq : SquareId) (item : WorkItem) : Statement (.attnWalkBlock sq item) := of_none rfl
theorem attnFold (sq : SquareId) (item : WorkItem) : Statement (.attnFold sq item) := of_none rfl
theorem attnMerge (sq : SquareId) (item : WorkItem) : Statement (.attnMerge sq item) := of_none rfl
theorem attnFinish (sq : SquareId) (item : WorkItem) : Statement (.attnFinish sq item) := of_none rfl
theorem bwdAccumulate (sq : SquareId) (item : WorkItem) : Statement (.bwdAccumulate sq item) := of_none rfl
theorem ringStep (launch : Nat) : Statement (.ringStep launch) := of_none rfl
theorem ringCredit (launch : Nat) : Statement (.ringCredit launch) := of_none rfl
theorem ringPoison (launch : Nat) : Statement (.ringPoison launch) := of_none rfl
theorem lookupRequest (sq : SquareId) (req : Nat) : Statement (.lookupRequest sq req) := of_none rfl
theorem lookupBlockPin (sq : SquareId) (req : Nat) : Statement (.lookupBlockPin sq req) := of_none rfl
theorem lookupBlockCommit (sq : SquareId) (req : Nat) : Statement (.lookupBlockCommit sq req) := of_none rfl
theorem lookupResult (sq : SquareId) (req : Nat) : Statement (.lookupResult sq req) := of_none rfl
theorem homeAccess (src : AccessSource) : Statement (.homeAccess src) := of_none rfl
theorem homeAtomic (src : AccessSource) : Statement (.homeAtomic src) := of_none rfl
theorem parityRetry (idx : Nat) : Statement (.parityRetry idx) := of_none rfl
theorem ptnXtentWrite (n : Fin 1280) (w : RegWrite) : Statement (.ptnXtentWrite n w) := of_write rfl (fun h => h)
theorem scrubComplete (extent : Fin 10240) : Statement (.scrubComplete extent) := of_none rfl
theorem fence (w : RegWrite) : Statement (.fence w) := of_write rfl (fun h => h)
theorem bridgeTimeout (q : QuarterId) : Statement (.bridgeTimeout q) := of_none rfl
theorem phaseFault (q : QuarterId) : Statement (.phaseFault q) := of_none rfl
theorem restore (w : RegWrite) : Statement (.restore w) := of_write rfl (fun h => h)
theorem queueBind (q : QueueId) (w : RegWrite) : Statement (.queueBind q w) := of_write rfl (fun h => h)
theorem doorbell (q : QueueId) (w : RegWrite) : Statement (.doorbell q w) := of_write rfl (fun h => h)
theorem queueEnable (q : QueueId) (w : RegWrite) : Statement (.queueEnable q w) := of_write rfl (fun h => h)
theorem destroy (q : QueueId) (w : RegWrite) : Statement (.destroy q w) := of_write rfl (fun h => h)
theorem destroyComplete (q : QueueId) : Statement (.destroyComplete q) := of_none rfl
theorem entryFetch (q : QueueId) : Statement (.entryFetch q) := of_none rfl
theorem entryEnd (q : QueueId) : Statement (.entryEnd q) := of_none rfl
theorem dspNop (q : QueueId) : Statement (.dspNop q) := of_none rfl
theorem dspLaunch (q : QueueId) : Statement (.dspLaunch q) := of_none rfl
theorem dspAttn (q : QueueId) : Statement (.dspAttn q) := of_none rfl
theorem dspPlook (q : QueueId) : Statement (.dspPlook q) := of_none rfl
theorem dspBucket (q : QueueId) : Statement (.dspBucket q) := of_none rfl
theorem dspWait (q : QueueId) : Statement (.dspWait q) := of_none rfl
theorem dspWaitMet (q : QueueId) : Statement (.dspWaitMet q) := of_none rfl
theorem dspSignal (q : QueueId) : Statement (.dspSignal q) := of_none rfl
theorem dspSync (q : QueueId) : Statement (.dspSync q) := of_none rfl
theorem dspMovi (q : QueueId) : Statement (.dspMovi q) := of_none rfl
theorem dspAdd (q : QueueId) : Statement (.dspAdd q) := of_none rfl
theorem dspLd (q : QueueId) : Statement (.dspLd q) := of_none rfl
theorem dspSt (q : QueueId) : Statement (.dspSt q) := of_none rfl
theorem dspBr (q : QueueId) : Statement (.dspBr q) := of_none rfl
theorem dspCall (q : QueueId) : Statement (.dspCall q) := of_none rfl
theorem dspRet (q : QueueId) : Statement (.dspRet q) := of_none rfl
theorem dspDone (q : QueueId) : Statement (.dspDone q) := of_none rfl
theorem dspStat (q : QueueId) : Statement (.dspStat q) := of_none rfl
theorem dspIrq (q : QueueId) : Statement (.dspIrq q) := of_none rfl
theorem dspSeal (q : QueueId) : Statement (.dspSeal q) := of_none rfl
theorem dspPublish (q : QueueId) : Statement (.dspPublish q) := of_none rfl
theorem dspRetire (q : QueueId) : Statement (.dspRetire q) := of_none rfl
theorem sealRangeFree (range : Fin 1024) : Statement (.sealRangeFree range) := of_none rfl
theorem handover (n : Fin 16) (w : RegWrite) : Statement (.handover n w) := of_write rfl (fun h => h)
theorem handoverClean (sq : SquareId) : Statement (.handoverClean sq) := of_none rfl
theorem ptnHartWrite (core : CoreId) (w : RegWrite) : Statement (.ptnHartWrite core w) := of_write rfl (fun h => h)
theorem coreHalt (core : CoreId) : Statement (.coreHalt core) := of_none rfl
theorem interruptModerationExpiry (p : PartId) (target : IntTarget) : Statement (.interruptModerationExpiry p target) := of_none rfl
theorem msixUnmask (fn : PartId) (ev : MsixEvent) : Statement (.msixUnmask fn ev) := of_none rfl
theorem prst (w : RegWrite) : Statement (.prst w) := of_write rfl (fun h => h)
theorem functionLevelReset (fn : PartId) : Statement (.functionLevelReset fn) := of_none rfl
theorem vfEnableClear (vfEnable : Bool) (numVfs : PartId) : Statement (.vfEnableClear vfEnable numVfs) := of_none rfl
theorem partitionReset (p : PartId) : Statement (.partitionReset p) := of_none rfl
theorem partitionResetComplete (p : PartId) : Statement (.partitionResetComplete p) := of_none rfl
theorem warm (w : RegWrite) : Statement (.warm w) := of_write rfl (fun h => h)
theorem cold (w : RegWrite) : Statement (.cold w) := of_write rfl (fun h => h)
theorem perstNAssert : Statement .perstNAssert := of_none rfl
theorem perstNRelease : Statement .perstNRelease := of_none rfl
theorem venMate : Statement .venMate := of_none rfl
theorem inputPowerGood : Statement .inputPowerGood := of_none rfl
theorem venBreak : Statement .venBreak := of_none rfl
theorem sagDetect (mv : Nat) : Statement (.sagDetect mv) := of_none rfl
theorem sagHoldExpiry : Statement .sagHoldExpiry := of_none rfl
theorem brakeAssert : Statement .brakeAssert := of_none rfl
theorem brakeRelease : Statement .brakeRelease := of_none rfl
theorem supplyLossStop (mv : Nat) : Statement (.supplyLossStop mv) := of_none rfl
theorem sagDurationExpiry : Statement .sagDurationExpiry := of_none rfl
theorem overvoltageExpiry : Statement .overvoltageExpiry := of_none rfl
theorem supplyRecoveryExpiry : Statement .supplyRecoveryExpiry := of_none rfl
theorem gatePowerLoss (mv : Nat) : Statement (.gatePowerLoss mv) := of_none rfl
theorem telemetrySample (t : Telemetry) : Statement (.telemetrySample t) := of_none rfl
theorem thermalRecovery : Statement .thermalRecovery := of_none rfl
theorem controllerEvaluation : Statement .controllerEvaluation := of_none rfl
theorem enter (w : RegWrite) : Statement (.enter w) := of_write rfl (fun h => h)
theorem dormantEntryDone : Statement .dormantEntryDone := of_none rfl
theorem wake (w : RegWrite) : Statement (.wake w) := of_write rfl (fun h => h)
theorem fullService : Statement .fullService := of_none rfl
theorem replicaLoad (r : RegionId) : Statement (.replicaLoad r) := of_none rfl
theorem resyncWindowExpiry (r : RegionId) : Statement (.resyncWindowExpiry r) := of_none rfl
theorem ferase (p : PartId) : Statement (.ferase p) := of_none rfl
theorem fwrite (p : PartId) : Statement (.fwrite p) := of_none rfl
theorem fread (p : PartId) : Statement (.fread p) := of_none rfl
theorem commit (p : PartId) : Statement (.commit p) := of_none rfl
theorem attest (p : PartId) : Statement (.attest p) := of_none rfl
theorem keyload (p : PartId) : Statement (.keyload p) := of_none rfl
theorem keyclear (p : PartId) : Statement (.keyclear p) := of_none rfl
theorem reboot (p : PartId) : Statement (.reboot p) := of_none rfl
theorem mailboxCommandDone : Statement .mailboxCommandDone := of_none rfl
theorem dataFlit (port : PortId) (f : Flit) : Statement (.dataFlit port f) := of_none rfl
theorem idleFlit (port : PortId) (f : Flit) : Statement (.idleFlit port f) := of_none rfl
theorem nak (port : PortId) (f : Flit) : Statement (.nak port f) := of_none rfl
theorem replayTimeout (port : PortId) : Statement (.replayTimeout port) := of_none rfl
theorem portLeaveUp (port : PortId) : Statement (.portLeaveUp port) := of_none rfl
theorem hello (port : PortId) (h : HelloMsg) : Statement (.hello port h) := of_none rfl
theorem put (port : PortId) (cr : Crypt) : Statement (.put port cr) := of_none rfl
theorem get (port : PortId) (cr : Crypt) : Statement (.get port cr) := of_none rfl
theorem atom (port : PortId) (cr : Crypt) : Statement (.atom port cr) := of_none rfl
theorem signal (port : PortId) (cr : Crypt) : Statement (.signal port cr) := of_none rfl
theorem ack (port : PortId) (cr : Crypt) : Statement (.ack port cr) := of_none rfl
theorem data (port : PortId) (cr : Crypt) : Statement (.data port cr) := of_none rfl
theorem err (port : PortId) (cr : Crypt) : Statement (.err port cr) := of_none rfl
theorem transitForward (port : PortId) (ch : Fin 2) : Statement (.transitForward port ch) := of_none rfl
theorem linkTimeoutExpiry (tid : BitVec 16) : Statement (.linkTimeoutExpiry tid) := of_none rfl
theorem gapTimeout (stream : StreamId) : Statement (.gapTimeout stream) := of_none rfl
theorem timeExchange : Statement .timeExchange := of_none rfl
theorem treq (port : PortId) (cr : Crypt) : Statement (.treq port cr) := of_none rfl
theorem tresp (port : PortId) (cr : Crypt) : Statement (.tresp port cr) := of_none rfl
theorem tlockTimeout : Statement .tlockTimeout := of_none rfl
theorem lnkIdWrite (w : RegWrite) : Statement (.lnkIdWrite w) := of_write rfl (fun h => h)
theorem lnkTimeWrite (w : RegWrite) : Statement (.lnkTimeWrite w) := of_write rfl (fun h => h)
theorem lnkEpochGo (w : RegWrite) : Statement (.lnkEpochGo w) := of_write rfl (fun h => h)
theorem eprep (port : PortId) (cr : Crypt) : Statement (.eprep port cr) := of_none rfl
theorem eack (port : PortId) (cr : Crypt) : Statement (.eack port cr) := of_none rfl
theorem ecommit (port : PortId) (cr : Crypt) : Statement (.ecommit port cr) := of_none rfl
theorem eabandon (port : PortId) (cr : Crypt) : Statement (.eabandon port cr) := of_none rfl
theorem epochCommitTime : Statement .epochCommitTime := of_none rfl
theorem epochAbandonTimeout : Statement .epochAbandonTimeout := of_none rfl
theorem stopreq (port : PortId) (cr : Crypt) : Statement (.stopreq port cr) := of_none rfl
theorem mark (port : PortId) (f : Flit) : Statement (.mark port f) := of_none rfl
theorem resumeMark (port : PortId) (f : Flit) : Statement (.resumeMark port f) := of_none rfl
theorem obsStopGo (w : RegWrite) : Statement (.obsStopGo w) := of_write rfl (fun h => h)
theorem obsStopResume (w : RegWrite) : Statement (.obsStopResume w) := of_write rfl (fun h => h)
theorem snapshotArm (w : RegWrite) : Statement (.snapshotArm w) := of_write rfl (fun h => h)
theorem snapshotTick : Statement .snapshotTick := of_none rfl
theorem errorRecordArrive (idx : Nat) : Statement (.errorRecordArrive idx) := of_none rfl
theorem errorRecordAccept : Statement .errorRecordAccept := of_none rfl
theorem obsElogRingWrite (p : PartId) (w : RegWrite) : Statement (.obsElogRingWrite p w) := of_write rfl (fun h => h)
theorem traceRecord (idx : Nat) : Statement (.traceRecord idx) := of_none rfl
theorem obsTrcRingWrite (p : PartId) (w : RegWrite) : Statement (.obsTrcRingWrite p w) := of_write rfl (fun h => h)
theorem obsTrcMark (p : PartId) (w : RegWrite) : Statement (.obsTrcMark p w) := of_write rfl (fun h => h)
theorem hostMemRequest (r : HostRequest) : Statement (.hostMemRequest r) := of_none rfl
theorem hostAtomicop (fn : PartId) (tag : Nat) : Statement (.hostAtomicop fn tag) := of_none rfl
theorem configRequest (fn : PartId) (c : ConfigReq) : Statement (.configRequest fn c) := of_none rfl
theorem hostWindowCompletion (tag : Nat) (c : HostCompletion) : Statement (.hostWindowCompletion tag c) := of_none rfl
theorem smbusBlockRead (t : SmbusTransaction) : Statement (.smbusBlockRead t) := of_none rfl
theorem registerWrite (reg : Nat) (w : RegWrite) : Statement (.registerWrite reg w) := of_write rfl (fun h => by simp only [Instr.wellFormed, Bool.and_eq_true] at h; exact h.2)
theorem lnkPortWrite (port : PortId) (w : RegWrite) : Statement (.lnkPortWrite port w) := of_write rfl (fun h => h)
theorem fenceComplete (q : QuarterId) : Statement (.fenceComplete q) := of_none rfl
theorem restoreDone (q : QuarterId) (selfTest : Bool) : Statement (.restoreDone q selfTest) := of_none rfl
theorem startUpDone : Statement .startUpDone := of_none rfl
theorem warmResetDone : Statement .warmResetDone := of_none rfl
theorem hostCompletionTimeout (tag : Nat) : Statement (.hostCompletionTimeout tag) := of_none rfl
theorem busRecovery (mv : Nat) : Statement (.busRecovery mv) := of_none rfl
theorem busOvervoltage (mv : Nat) : Statement (.busOvervoltage mv) := of_none rfl

end Sys2Proof.Laws.Operand
end

