-- ==== Sys2Proof/Machine/Reservoir.lean ====
section
/-! DEFINITION. What the reservoir's memory parts hold (R179, R182, R275). State.mem holds the bytes that an access reads and writes; the home
gate encrypts and decrypts between them and the parts. An access passes the gate only as the owner of its extent (R273), and a change of owner
or of VALID writes every granule anew (R275), so that every read is decrypted under the key that encrypted: the bytes in State.mem are what
R179 makes of the stored ones (LOG 11). -/

namespace Sys2Proof.Machine

/-- The key pair of a partition as bytes: data key, then tweak key (R179, R482). -/
def State.reservoirKey (s : State) (p : Nat) : List Byte := toBytes 64 (Table.get 0 s.boot.resKeys p).toNat

/-- The tweak number of the granule of a local address (R179). -/
def granuleTweak (a : Nat) : Nat := a / 32

/-- The granule that the parts hold at a reservoir address: its bytes encrypted under the key of the partition that owns the extent, the only
one whose accesses pass; an extent that no partition owns holds zero bytes without encryption (R179, R275). Sealed regions are no exception
(R182). -/
def State.storedGranule (s : State) (a : Nat) : List Byte :=
  let e := s.extent (extentOf a)
  let bs := s.bytes (a / 32 * 32) 32
  if e.valid then xtsEncrypt (s.reservoirKey e.owner) (granuleTweak a) bs else bs

/-- Byte-parity bits: one for each byte, so that it and its bit hold an even number of ones (LOG 11). -/
def parityBits (bs : List Byte) : List Bool := bs.map (fun b => ((upto 8).map b.getLsbD).foldl xor false)

/-- The 32 check bits that the metadata bytes of a granule's burst carry: the byte parity of its encrypted bytes (R178, R289). A byte that
is marked as failing every read has a bit that disagrees with it (R291). -/
def State.storedCheck (s : State) (a : Nat) : List Bool :=
  ((parityBits (s.storedGranule a)).zipIdx).map (fun e => xor e.1 (Table.get 0 s.parity (a / 32 * 32 + e.2) == 2))

/-- What the gate's check finds as a granule arrives, before it is decrypted: the bytes whose parity is wrong (R178, R291). -/
def failingBytes (stored : List Byte) (check : List Bool) : List Nat :=
  ((((parityBits stored).zip check).zipIdx).filter (fun e => e.1.1 != e.1.2)).map Prod.snd

/-- What an access of partition p reads of a stored granule (R179). -/
def State.openGranule (s : State) (p a : Nat) (stored : List Byte) : List Byte := xtsDecrypt (s.reservoirKey p) (granuleTweak a) stored

/-- The granule that the parts hold after a write of less than all of it: read, decrypted, changed, encrypted (R179, R288). -/
def State.mergeGranule (s : State) (p a : Nat) (stored : List Byte) (off : Nat) (bs : List Byte) : List Byte :=
  let old := s.openGranule p a stored
  xtsEncrypt (s.reservoirKey p) (granuleTweak a) (old.take off ++ bs ++ old.drop (off + bs.length))

end Sys2Proof.Machine
end

