-- ==== Sys2Proof/Tests/Slice0.lean ====
section
/-! SUPPORT. Small tests of single steps, an ill-formed operand for each check of WellFormed, and for every statement with
hypotheses concrete states and operands that meet them. -/

namespace Sys2Proof.Tests

open Sys2Proof Sys2Proof.Machine

set_option Elab.async false

/-! States to test on. -/

/-- A kernel of partition 1 that runs on square 0, with these words as its code and this much set on the square. -/
def kern (ws : List Nat) (f : Square → Square := id) : State :=
  { State.reset with
    launches := [{ id := 1, queue := 0, part := 1, kind := .kernel, iaddr := 0, daddr := 0, stx := 0, qmask := 1, smask := 1,
                   order := 0, async := false, cont := false, ksw := false, fskip := false, grid := none, arg7 := none,
                   ecnt := 0, statAddr := 0, stage := .running, set := [0] }]
    squares := [(0, f { run := .running, launch := 1, kpart := 1, allotBase := 0x10000, allotSize := 0x40000,
                        code := ws.map (BitVec.ofNat 128) })] }

/-- Partition 1 owns square 0 and the first extent of the wells. -/
def owned (s : State) : State :=
  { s with sqOwn := [(0, { valid := true, owner := 1, eff := 2 })], extents := [(0, { valid := true, owner := 1 })] }

/-- A register write of Partition 0, from its core 0. -/
def write (v : Nat) : RegWrite := ⟨unitCore 0, 0, .full, BitVec.ofNat 64 v⟩

/-- The state that a command leads to (the state itself if it answered none, which no command does). -/
def after (c : Instr) (s : State) : State := match exec c s with | .next t => t | _ => s

/-- A CT word: opcode, SD, SA, SB, I, IMM (R112). -/
def ctw (op sd sa sb i imm : Nat) : Nat := op * 2 ^ 4 + sd * 2 ^ 10 + sa * 2 ^ 15 + sb * 2 ^ 20 + i * 2 ^ 25 + imm * 2 ^ 64

/-- An instruction word: its unit, its opcode and its fields as low bit and value (R109). -/
def word (unit op : Nat) (fs : List (Nat × Nat)) : Nat := unit + op * 2 ^ 4 + (fs.map (fun f => f.2 * 2 ^ f.1)).sum

/-! Control core. Expected values are worked by hand from R113 to R115 and R131. -/

theorem test_ctAdd_wraps :
    ((after (.ctAdd 0) (kern [ctw 0x02 3 1 2 0 0] (fun q => { q with sregs := [(1, 0xFFFFFFFFFFFFFFFF), (2, 2)] }))).sq 0).sreg 3
      = 1 := by decide

theorem test_ctSra_sign :
    ((after (.ctSra 0) (kern [ctw 0x0A 3 1 0 1 68] (fun q => { q with sregs := [(1, 0xFFFFFFFFFFFFFFF0)] }))).sq 0).sreg 3
      = 0xFFFFFFFFFFFFFFFF := by decide

theorem test_ctMin_is_signed :
    ((after (.ctMin 0) (kern [ctw 0x0B 1 1 2 0 0] (fun q => { q with sregs := [(1, 1), (2, 0xFFFFFFFFFFFFFFFF)] }))).sq 0).sreg 1
      = 0xFFFFFFFFFFFFFFFF := by decide

theorem test_s0_reads_zero : ((after (.ctMovi 0) (kern [ctw 0x01 0 0 0 0 7])).sq 0).sreg 0 = 0 := by decide

theorem test_ctBlt_goes_back :
    ((after (.ctBlt 0) (kern [0, ctw 0x12 0 1 2 0 (2 ^ 64 - 1)]
      (fun q => { q with pc := 1, sregs := [(1, 0xFFFFFFFFFFFFFFFF)] }))).sq 0).pc = 0 := by decide

theorem test_ctLoop_ends :
    ((after (.ctLoop 0) (kern [ctw 0x17 4 0 0 0 5] (fun q => { q with sregs := [(4, 1)] }))).sq 0).pc = 1 := by decide

theorem test_unlisted_opcode_faults : ((after (.ctNop 0) (kern [0x0F * 2 ^ 4])).sq 0).fault = some ⟨12, 0, 0⟩ := by decide

theorem test_syCset :
    (after (.syCset 0) (kern [5 + 4 * 2 ^ 4 + 3 * 2 ^ 10 + 1 * 2 ^ 20] (fun q =>
      { q with cbase := 8, ccount := 4, sregs := [(1, 9)] }))).squareCounter 0 11 = 9 := by decide

/-- Every scalar rule has a word that stands ready. -/
theorem witness_ScalarArithmetic : ∀ r ∈ scalarRules 127, ∃ s w, ctReady s 127 r.2.1 w := by
  intro r h
  refine ⟨{ kern [] with squares := [(127, { run := .running, launch := 1, code := [BitVec.ofNat 128 (ctw r.2.1 31 1 2 0 0)] })] },
    ctw r.2.1 31 1 2 0 0, ?_⟩
  fin_cases h <;> (unfold ctReady standsAt; decide)

theorem witness_Branches : ∀ r ∈ branchRules 0, ctReady (kern [ctw r.2.1 0 1 2 0 3]) 0 r.2.1 (ctw r.2.1 0 1 2 0 3) ∧
    ctI (ctw r.2.1 0 1 2 0 3) = false := by
  intro r h
  fin_cases h <;> (unfold ctReady standsAt; decide)

theorem witness_LoopsNopsAndSpecialReads :
    ctReady (kern [ctw 0x17 4 0 0 0 5]) 0 0x17 (ctw 0x17 4 0 0 0 5) ∧ ctReady (kern [0]) 0 0x00 0 ∧
    (∀ n, n ∈ [0, 9, 10] → ctReady (kern [ctw 0x19 4 0 0 0 n]) 0 0x19 (ctw 0x19 4 0 0 0 n)) ∧
    9 < (BitVec.ofNat 64 (ctw 0x19 4 0 0 0 10 / 2 ^ 64)).toNat := by
  unfold ctReady standsAt; decide

/-- A square that has issued CT.END, with nothing outstanding, and one whose kernel has a fault elsewhere. -/
def ending : State := kern [] (fun q => { q with stall := .ending })

theorem witness_SquaresWalkGridAndEnd :
    ctReady (kern [ctw 0x18 4 0 0 0 5] (fun q => { q with gridX := 1, gridY := 1 })) 0 0x18 (ctw 0x18 4 0 0 0 5) ∧
    ctReady (kern [ctw 0x1A 0 0 0 0 0]) 0 0x1A (ctw 0x1A 0 0 0 0 0) ∧
    (∃ l, ending.stop.stopped = false ∧ ending.launch (ending.sq 0).launch = some l ∧ (∀ k ∈ ending.launches, k.id = l.id → k = l) ∧
      l.kind = .kernel ∧ (ending.sq 0).run = .running ∧ (ending.sq 0).stall = .ending ∧ (ending.sq 0).drained = true) ∧
    (∃ s : State, ∃ l, s.stop.stopped = false ∧ s.launch (s.sq 0).launch = some l ∧ s.launchFaulted l = true ∧
      (s.sq 0).run = .running) :=
  ⟨by unfold ctReady standsAt; decide, by unfold ctReady standsAt; decide,
   ⟨_, rfl, rfl, fun k hk _ => by simpa [ending, kern] using hk, rfl, rfl, rfl, rfl⟩,
   ⟨{ kern [] with launches := (kern []).launches.map (fun l => { l with set := [0, 1] }),
                   squares := [(0, { run := .running, launch := 1 }), (1, { run := .stopped, launch := 1, fault := some ⟨12, 0, 0⟩ })] },
    _, rfl, rfl, rfl, rfl⟩⟩

/-- An SY word: opcode, CI, COND, SCOPE, SR, ENG (R130). -/
def syw (op ci cond scope sr eng : Nat) : Nat :=
  5 + op * 2 ^ 4 + ci * 2 ^ 10 + cond * 2 ^ 16 + scope * 2 ^ 18 + sr * 2 ^ 20 + eng * 2 ^ 25

/-- A release of square scope behind a store to the reservoir, and one of the module behind a load and behind that store. -/
theorem witness_CountersAndOrdering_releases :
    let row : AtRow := ⟨0xFFF * 2 ^ 44 + 0x20000000000, 0, .waiting⟩
    let o : AtKind → AtOp := fun k => ⟨7, 0, k, 8, 0, 0, 0, false, true, [row]⟩
    ∀ x, x ∈ [(1, AtKind.st), (3, AtKind.st), (2, AtKind.ld)] →
      let w := syw 0 0 0 x.1 0 0
      let s := kern [w] (fun q => { q with atOps := [o x.2] })
      standsAt s 0 5 0x00 w ∧ onlyFields w [(18, 2)] = true ∧ bits w 18 2 = x.1 ∧
      ((o x.2).kind = .ld ∨ locationOf s 0 x.1 row.addr ↔ x.1 ≠ 1) := by
  unfold standsAt locationOf; decide +kernel

/-- A kernel that may use counters 60 to 63. -/
def counting (w : Nat) : State := kern [w] (fun q => { q with cbase := 60, ccount := 4 })

theorem witness_CountersAndOrdering :
    (syReady (counting (syw 4 3 0 0 1 0)) 0 0x04 (syw 4 3 0 0 1 0) [(20, 5), (10, 6)] ∧
      bits (syw 4 3 0 0 1 0) 10 6 < ((counting 0).sq 0).ccount) ∧
    syReady (counting (syw 5 3 0 0 1 0)) 0 0x05 (syw 5 3 0 0 1 0) [(20, 5), (10, 6)] ∧
    (syReady (counting (syw 3 3 1 3 1 0)) 0 0x03 (syw 3 3 1 3 1 0) [(20, 5), (18, 2), (16, 2), (10, 6)] ∧
      bits (syw 3 3 1 3 1 0) 16 2 < 2) ∧
    (syReady (counting (syw 4 4 0 0 1 0)) 0 0x04 (syw 4 4 0 0 1 0) [(20, 5), (10, 6)] ∧
      ((counting 0).sq 0).ccount ≤ bits (syw 4 4 0 0 1 0) 10 6) ∧
    (syReady (counting (syw 5 63 0 0 1 0)) 0 0x05 (syw 5 63 0 0 1 0) [(20, 5), (10, 6)] ∧
      ((counting 0).sq 0).ccount ≤ bits (syw 5 63 0 0 1 0) 10 6) ∧
    (syReady (counting (syw 3 4 0 0 1 0)) 0 0x03 (syw 3 4 0 0 1 0) [(20, 5), (18, 2), (16, 2), (10, 6)] ∧
      bits (syw 3 4 0 0 1 0) 16 2 < 2 ∧ ((counting 0).sq 0).ccount ≤ bits (syw 3 4 0 0 1 0) 10 6) ∧
    (let s := kern [] (fun q => { q with stall := .counter 60 true 0 3 }); s.active 0 = true ∧ s.squareCounter 0 60 = 0) ∧
    (standsAt (kern [syw 0 0 0 1 0 0]) 0 5 0x00 (syw 0 0 0 1 0 0) ∧ onlyFields (syw 0 0 0 1 0 0) [(18, 2)] = true ∧
      bits (syw 0 0 0 1 0 0) 18 2 ≠ 0 ∧ ((kern []).sq 0).atOps = []) ∧
    (standsAt (kern [syw 1 0 0 2 0 0]) 0 5 0x01 (syw 1 0 0 2 0 0) ∧ onlyFields (syw 1 0 0 2 0 0) [(18, 2)] = true) ∧
    (standsAt (kern [syw 2 0 0 0 0 31]) 0 5 0x02 (syw 2 0 0 0 0 31) ∧ onlyFields (syw 2 0 0 0 0 31) [(25, 5)] = true) ∧
    (let s := kern [] (fun q => { q with stall := .fence 31 }); s.active 0 = true ∧ (s.sq 0).pump.queue = [] ∧
      (s.sq 0).pump.cur = none ∧ (s.sq 0).atOps = []) := by
  unfold syReady standsAt; decide

theorem witness_UndefinedInstructions :
    (∃ w, (kern [w]).fetched 0 = .word w ∧ opcodeDefined (w % 16) (bits w 4 6) = false) ∧ (kern []).fetched 0 = .past :=
  ⟨⟨7, by decide⟩, by decide⟩

/-! Cube array and drain path (03). -/

/-- Both masks of a matrix word, all ones. -/
def full : List (Nat × Nat) := [(64, 2 ^ 32 - 1), (96, 2 ^ 32 - 1)]

/-- 8-bit and 16-bit operands of one depth position, over codes of a codebook. -/
def mma8 : Nat := word 1 0x00 (full ++ [(10, 7), (14, 5), (18, 2), (21, 64), (28, 63), (35, 1), (40, 2), (45, 1), (50, 2)])
def mma16 : Nat := word 1 0x00 [(64, 1), (96, 1), (14, 3), (17, 1), (20, 1), (21, 1)]

theorem witness_MatrixInstructionFoldsProduct :
    (let s := kern [mma8] (fun q => { q with sregs := [(2, 64)] });
      mxReady s 0 0x00 mma8 [bits mma8 35 5, bits mma8 40 5, bits mma8 45 5, bits mma8 50 5] ∧ s.mmaCheck 0 mma8 = none) ∧
    (mxReady (kern [mma16]) 0 0x00 mma16 [bits mma16 35 5, bits mma16 40 5, bits mma16 45 5, bits mma16 50 5] ∧
      (kern [mma16]).mmaCheck 0 mma16 = none) := by
  unfold mxReady standsAt; decide

theorem test_mma_clear_takes_product :
    ((after (.mxMma 0) (kern [word 1 0 [(64, 1), (96, 1), (20, 1), (21, 1)]]
      |> fun s => { s with mem := [(0x10000010000, 0xFD)] })).sq 0).elem 0 0 0 = 9 := by decide

def fill : Nat := word 1 0x01 (full ++ [(10, 7), (14, 1)])
def move (op stride : Nat) : Nat := word 1 op [(10, 7), (14, 1), (19, stride)]
def tov (op : Nat) : Nat := word 1 op [(10, 7), (24, 62)]

/-- Tile offset 0x100 and stride 128. -/
def striding (w : Nat) : State := kern [w] (fun q => { q with sregs := [(1, 0x100), (2, 128)] })

theorem witness_TileMovesKeepElements :
    (mxReady (striding fill) 0 0x01 fill [bits fill 14 5] ∧ onlyFields fill [(96, 32), (64, 32), (14, 5), (10, 4)] = true ∧
      bits fill 10 4 < 8) ∧
    (mxReady (striding (move 2 0)) 0 0x02 (move 2 0) [bits (move 2 0) 14 5, bits (move 2 0) 19 5] ∧
      (striding (move 2 0)).moveCheck 0 (move 2 0) true = none) ∧
    (mxReady (striding (move 3 0)) 0 0x03 (move 3 0) [bits (move 3 0) 14 5, bits (move 3 0) 19 5] ∧
      (striding (move 3 0)).moveCheck 0 (move 3 0) false = none ∧ ((striding (move 3 0)).sq 0).off (move 3 0) 19 = 0) ∧
    (mxReady (striding (move 3 2)) 0 0x03 (move 3 2) [bits (move 3 2) 14 5, bits (move 3 2) 19 5] ∧
      (striding (move 3 2)).moveCheck 0 (move 3 2) false = none ∧ 0 < ((striding (move 3 2)).sq 0).off (move 3 2) 19) ∧
    (mxReady (kern [tov 5]) 0 0x05 (tov 5) [] ∧ (kern [tov 5]).vectorCheck 0 (tov 5) false = none) ∧
    (mxReady (kern [tov 6]) 0 0x06 (tov 6) [] ∧ (kern [tov 6]).vectorCheck 0 (tov 6) true = none) := by
  unfold mxReady standsAt; decide

def rsc : Nat := word 1 0x04 (full ++ [(10, 7), (14, 2), (16, 1), (17, 3), (23, 62), (29, 1), (34, 2)])
def ldsf : Nat := word 1 0x07 [(14, 1), (30, 1023), (41, 1)]
def ldcb : Nat := word 1 0x08 [(14, 1), (52, 63), (59, 1)]

theorem witness_RescaleAndScaleLoads :
    (mxReady (striding rsc) 0 0x04 rsc [bits rsc 29 5, bits rsc 34 5] ∧ (striding rsc).rscCheck 0 rsc = none ∧
      32 * 2 ^ bits rsc 14 2 ≤ ((striding rsc).sq 0).off rsc 34) ∧
    (let q := (striding ldsf).sq 0;
      mxReady (striding ldsf) 0 0x07 ldsf [bits ldsf 14 5] ∧ onlyFields ldsf [(41, 11), (30, 11), (14, 5)] = true ∧
      1 ≤ bits ldsf 41 11 ∧ bits ldsf 30 11 + bits ldsf 41 11 ≤ 1024 ∧ q.off ldsf 14 % 32 = 0 ∧
      q.off ldsf 14 + 4 * bits ldsf 41 11 ≤ q.allotSize ∧
      (striding ldsf).cisternParity 0 (q.off ldsf 14) (4 * bits ldsf 41 11) = none) ∧
    (let q := (striding ldcb).sq 0;
      mxReady (striding ldcb) 0 0x08 ldcb [bits ldcb 14 5] ∧ onlyFields ldcb [(59, 1), (52, 7), (14, 5)] = true ∧
      bits ldcb 52 7 < 64 ∧ ldcb.testBit 59 = true ∧ q.off ldcb 14 % 32 = 0 ∧ q.off ldcb 14 + 256 ≤ q.allotSize ∧
      (striding ldcb).cisternParity 0 (q.off ldcb 14) 256 = none) := by
  unfold mxReady standsAt; decide

/-! Vector engine (04). -/

/-- A word of the vector engine with VD 63, VA 62 and an immediate operand (BSEL 2). -/
def vx (op : Nat) (fs : List (Nat × Nat)) : Nat := word 2 op ([(10, 63), (16, 62)] ++ fs)

theorem test_vxAdd_clamps :
    let q := (after (.vxAdd 0) (kern [vx 0x00 [(40, 2), (96, 1)]] (fun q => q.setLanes 62 [0, 0, 0, 0, 0, 0x7FFFFFFF]))).sq 0
    q.lane 63 5 = 0x7FFFFFFF ∧ q.lane 63 4 = 1 ∧ q.outSat = true := by decide +kernel

theorem test_vxRsh_rounds_half_to_even :
    let q := (after (.vxRsh 0) (kern [vx 0x03 [(62, 1)]] (fun q => q.setLanes 62 [3, 5]))).sq 0
    q.lane 63 0 = 2 ∧ q.lane 63 1 = 2 := by decide +kernel

theorem witness_LaneOperationsOnTwoOperands : ∀ r ∈ laneRules 0, ∃ s w,
    vxReady s 0 r.2.1 w (bRegs w) (if r.2.2.1 = true then [(10, 6), (16, 6), (62, 6)] else [(10, 6), (16, 6)]) true true
      [(bits w 16 6, 1)] := by
  intro r h
  refine ⟨kern [vx r.2.1 [(40, 2), (96, 2 ^ 32 - 1)]], vx r.2.1 [(40, 2), (96, 2 ^ 32 - 1)], ?_⟩
  fin_cases h <;> (unfold vxReady standsAt; decide +kernel)

theorem witness_LaneOperationsOnOneOperand :
    (∀ r ∈ laneRules1 0, ∃ s w,
      vxReady s 0 r.2.1 w [] (if r.2.2.1 = true then [(10, 6), (16, 6), (62, 6)] else [(10, 6), (16, 6)]) false
        (!r.2.2.1 || decide (bits w 62 6 ≤ 31)) [(bits w 16 6, 1)]) ∧
    (let w := vx 0x11 [(22, 1), (28, 63)]
     vxReady (kern [w]) 0 0x11 w (bRegs w) [(10, 6), (16, 6), (28, 6)] true true [(bits w 16 6, 1), (bits w 28 6, 1)]) ∧
    (let w := word 2 0x13 [(10, 63)]; vxReady (kern [w]) 0 0x13 w [] [(10, 6)] false true []) ∧
    (let w := word 2 0x14 [(10, 63), (42, 31)]; vxReady (kern [w]) 0 0x14 w [bits w 42 5] [(10, 6), (42, 5)] false true []) := by
  refine ⟨fun r h => ⟨kern [vx r.2.1 (if r.2.2.1 then [(62, 31)] else [])], vx r.2.1 (if r.2.2.1 then [(62, 31)] else []), ?_⟩,
    ?_, ?_, ?_⟩
  · fin_cases h <;> (unfold vxReady standsAt; decide +kernel)
  all_goals (unfold vxReady standsAt; decide +kernel)

/-- The last register names the last multiple of 32 that leaves `n` bytes in the allotment. -/
def reaching (w n : Nat) : State := kern [w] (fun q => { q with sregs := [(31, BitVec.ofNat 64 ((0x40000 - n) / 32 * 32))] })

theorem witness_LanesMoveToScalarsAndCistern :
    (let w := word 2 0x15 [(16, 62), (47, 31), (74, 511)]
     vxReadyFor (kern [w]) 0 0x15 w [bits w 47 5] [(16, 6), (47, 5), (74, 10)] (decide (bits w 74 10 ≤ 511))
       (((kern [w]).sq 0).badSpan (bits w 16 6) (bits w 74 10) 1)) ∧
    (let w := word 2 0x16 [(10, 63), (42, 31), (72, 3), (74, 512)]
     let s := reaching w 2048
     let off := ((s.sq 0).sreg (bits w 42 5)).toNat
     standsAt s 0 2 0x16 w ∧ (s.sq 0).regsReady [bits w 42 5] = true ∧
     vxFormOk w [(10, 6), (42, 5), (72, 2), (74, 10)] false = true ∧ off % 32 = 0 ∧ off + 512 * 4 = (s.sq 0).allotSize ∧
     s.cisternParity 0 off (512 * 4) = none) ∧
    (let w := word 2 0x17 [(16, 62), (42, 31), (72, 0), (74, 1)]
     let s := reaching w 32
     let off := ((s.sq 0).sreg (bits w 42 5)).toNat
     standsAt s 0 2 0x17 w ∧ (s.sq 0).regsReady [bits w 42 5] = true ∧
     vxFormOk w [(16, 6), (42, 5), (72, 2), (74, 10)] false = true ∧ off % 32 = 0 ∧ off + 1 ≤ (s.sq 0).allotSize ∧
     (s.sq 0).badSpan (bits w 16 6) 0 (bits w 74 10) = false) := by
  refine ⟨?_, ?_, ?_⟩ <;> (try unfold vxReadyFor) <;> (try unfold standsAt) <;> decide +kernel

/-- A row operation from VA 62 over two registers, rows of 512 lanes. -/
def row (op : Nat) (fs : List (Nat × Nat)) : Nat := word 2 op ([(10, 62), (16, 62), (52, 4), (55, 2)] ++ fs)

theorem test_vxRmax_takes_row :
    let q := (after (.vxRmax 0) (kern [word 2 0x18 [(10, 62), (16, 62), (55, 2)]]
      (fun q => (q.setLanes 62 [0xFFFFFFFF]).setLanes 63 [3, 5]))).sq 0
    q.lane 62 31 = 5 ∧ q.lane 62 32 = 0 := by decide +kernel

theorem witness_RowInstructionsReduce :
    (∀ op, op ∈ [0x18, 0x19, 0x1A] →
      let w := row op []
      vxReady (kern [w]) 0 op w [] [(10, 6), (16, 6), (52, 3), (55, 7)] false (rowOk (bits w 16 6) (bits w 52 3) (bits w 55 7))
        [(bits w 16 6, bits w 55 7)]) ∧
    (∀ op, op ∈ [0x1B, 0x1C] →
      let w := row op ([(85, 1)] ++ if op = 0x1C then [(62, 31)] else [])
      let q := (kern [w]).sq 0
      let d := bits w 10 6
      let wd := 32 * 2 ^ bits w 52 3
      vxReadyFor (kern [w]) 0 op w [] ([(10, 6), (16, 6), (52, 3), (55, 7), (85, 1)] ++ if op = 0x1C then [(62, 6)] else [])
        (rowOk (bits w 16 6) (bits w 52 3) (bits w 55 7) && bits w 10 6 % 2 == 0 && (op == 0x1B || decide (bits w 62 6 ≤ 31)))
        (q.badRegs (bits w 16 6) (bits w 55 7) || (w.testBit 85 && (List.range (512 / wd)).any (fun g =>
          q.badSpan d (g * wd) 1 || q.badSpan (d + 1) (g * wd) 1)))) := by
  unfold vxReady vxReadyFor standsAt; decide +kernel

theorem witness_ScaleOperationsWork :
    (let w := vx 0x1D [(40, 1), (42, 31), (84, 1)]
     vxReady (kern [w]) 0 0x1D w (bRegs w) [(10, 6), (16, 6), (84, 1)] true true [(bits w 16 6, 1)]) ∧
    (let w := vx 0x1E [(28, 63), (34, 61), (84, 1), (85, 1)]
     vxReady (kern [w]) 0 0x1E w (bRegs w) [(10, 6), (16, 6), (28, 6), (84, 1), (85, 1), (34, 6)] true true
       [(bits w 16 6, 1), (bits w 28 6, 1), (bits w 34 6, 1)]) ∧
    (let w := vx 0x1F []; vxReady (kern [w]) 0 0x1F w (bRegs w) [(10, 6), (16, 6)] true true [(bits w 16 6, 1)]) ∧
    (let w := vx 0x20 []; vxReady (kern [w]) 0 0x20 w [] [(10, 6), (16, 6)] false true [(bits w 16 6, 1)]) ∧
    (let w := vx 0x22 []
     vxReadyFor (kern [w]) 0 0x22 w [] [(10, 6), (16, 6)] true
       (((kern [w]).sq 0).badRegs (bits w 16 6) 1 || ((kern [w]).sq 0).badRecords 3 (((kern [w]).sq 0).srsqArgs w))) ∧
    (let w := vx 0x21 [(96, 2 ^ 32 - 128)]
     vxReady (kern [w]) 0 0x21 w [] [(10, 6), (16, 6), (96, 32)] false
       (bits w 16 6 % 2 == 0 && decide (-128 ≤ signed 32 (bits w 96 32) ∧ signed 32 (bits w 96 32) ≤ 127)) [(bits w 16 6, 2)]) := by
  unfold vxReady vxReadyFor standsAt; decide +kernel

theorem witness_FunctionTablesWork :
    (let w := vx 0x23 [(68, 15), (62, 63)]
     vxReadyFor (kern [w]) 0 0x23 w [] [(10, 6), (16, 6), (68, 4), (62, 6)] (bits w 68 4 != 7)
       (((kern [w]).sq 0).badRegs (bits w 16 6) 1 || ((kern [w]).sq 0).badRecords (bits w 68 4) (((kern [w]).sq 0).sfnArgs w))) ∧
    (∀ slot, slot ∈ [6, 8, 15] →
      let w := word 2 0x24 [(42, 31), (68, slot), (85, 1), (47, 1)]
      let s := reaching w 6176
      let off := ((s.sq 0).sreg (bits w 42 5)).toNat
      standsAt s 0 2 0x24 w ∧ (s.sq 0).regsReady [bits w 42 5, bits w 47 5] = true ∧
      vxFormOk w ([(42, 5), (68, 4), (85, 1)] ++ if w.testBit 85 = true then [(47, 5)] else []) false = true ∧
      off % 32 = 0 ∧ off + 6176 ≤ (s.sq 0).allotSize ∧ s.cisternParity 0 off 6176 = none) ∧
    (let w := word 2 0x25 [(42, 31), (68, 15)]
     let s := reaching w 6176
     let off := ((s.sq 0).sreg (bits w 42 5)).toNat
     standsAt s 0 2 0x25 w ∧ (s.sq 0).regsReady [bits w 42 5] = true ∧ vxFormOk w [(42, 5), (68, 4)] false = true ∧
     bits w 68 4 ≠ 7 ∧ off % 32 = 0 ∧ off + 6176 ≤ (s.sq 0).allotSize ∧
     ∀ e ∈ (s.sq 0).badTab, e.1 / 1024 ≠ (s.sq 0).activeBank (bits w 68 4)) := by
  refine ⟨?_, ?_, ?_⟩ <;> (try unfold vxReadyFor) <;> (try unfold standsAt) <;> decide +kernel

/-! Pumps (06). -/

/-- A descriptor of 64 bytes that clears one row of 256 bytes at the start of the wells, at offset 32 of the allotment. -/
def zeroDesc : Nat := 1 + 0xFFF * 2 ^ 172 + 2 ^ 208 + 256 * 2 ^ 232
def enq : Nat := word 3 0x00 [(10, 1), (15, 31)]
def enqueuing (last : Nat) : State :=
  { kern [enq] (fun q => { q with sregs := [(1, 32)], pump := { lastTicket := last } }) with
    mem := Table.setList 0 [] (cisternAddr 0 0x10020) (toBytes 64 zeroDesc) }

def enqReady (s : State) : Prop :=
  let q := s.sq 0
  let off := (q.sreg (bits enq 10 5)).toNat
  let d := descOf (ofBytes (s.bytes (q.cisternAt 0 off) 64))
  standsAt s 0 3 0x00 enq ∧ onlyFields enq [(10, 5), (15, 5)] = true ∧ q.regsReady [bits enq 10 5, bits enq 15 5] = true ∧
    off % 32 = 0 ∧ off + 64 ≤ q.allotSize ∧ s.descPending 0 (q.cisternAt 0 off) = false ∧ s.cisternParity 0 off 64 = none ∧
    s.descIllegal d = false ∧ descMisaligned d = false

theorem witness_DescriptorsQueueAndWait :
    (enqReady (enqueuing 31) ∧ enqReady (enqueuing 32)) ∧
    (let w := word 3 0x01 [(15, 1)]
     let s := kern [w] (fun q => { q with sregs := [(1, 5)], pump := { lastTicket := 4 } })
     standsAt s 0 3 0x01 w ∧ onlyFields w [(15, 5), (20, 1)] = true ∧ (s.sq 0).regsReady [bits w 15 5] = true ∧
       (s.sq 0).pump.lastTicket < ((s.sq 0).sreg (bits w 15 5)).toNat) ∧
    (let w := word 3 0x01 [(20, 1)]
     standsAt (kern [w]) 0 3 0x01 w ∧ onlyFields w [(15, 5), (20, 1)] = true ∧ w.testBit 20 = true ∧ bits w 15 5 = 0 ∧
       ((kern [w]).sq 0).regsReady [bits w 15 5] = true) ∧
    (let s := kern [] (fun q => { q with stall := .pmWait 4, pump := { lastDone := 4 } })
     (s.sq 0).stall = .pmWait 4 ∧ s.active 0 = true ∧ 4 ≤ (s.sq 0).pump.lastDone) := by
  unfold enqReady standsAt; decide +kernel

/-- A pump with these descriptors in its queue. -/
def queued (ds : List Desc) : State := owned (kern [] (fun q => { q with pump := { queue := ds } }))
def zeroRow : Desc := { op := 1, dst := 0xFFF * 2 ^ 44, rows := 1, rowbytes := 256 }
def selfCopy : Desc := { zeroRow with op := 0, src := 0xFFF * 2 ^ 44 }

theorem witness_DescriptorsBegin : ∀ d, d ∈ [zeroRow, selfCopy] →
    (queued [d]).active 0 = true ∧ ((queued [d]).sq 0).pump.queue = d :: [] ∧ ((queued [d]).sq 0).pump.cur = none ∧
    (queued [d]).readRegions 0 ((queued [d]).sq 0).kpart = .ok [] ∧
    (queued [d]).descriptorCause 0 [] d = (if d.op = 1 then none else some (ePermission, d.dst)) := by decide +kernel

/-- A descriptor in progress. -/
def moving (r : PumpRun) : State := owned (kern [] (fun q => { q with pump := { cur := some r } }))
def farCopy : Desc := { selfCopy with src := 0xFFF * 2 ^ 44 + 0x1000 }

theorem witness_PumpMovesRawBlocks :
    (let r : PumpRun := { d := zeroRow, regions := [] }
     blockReady (moving r) 0 r ∧ r.d.op = 1) ∧
    (let r : PumpRun := { d := farCopy, regions := [] }
     let s := moving r
     let bs : List Byte := List.replicate 256 0
     blockReady s 0 r ∧ r.d.op = 0 ∧ r.carry = [] ∧ blockSource s r % 256 = blockPlace s r % 256 ∧ s.isLocal (blockSource s r) = true ∧
     (s.blockAt r.regions r.d (s.srcSide r.d) (blockSource s r)).cls = 0 ∧
     (s.pumpRead 0 (blockSource s r % 2 ^ 44) (s.blockLen r) r.d.fills).2 = .ok bs ∧ bs.length = s.blockLen r) ∧
    (let r : PumpRun := { d := { farCopy with src := 0xFFF * 2 ^ 44 + 0x1008 }, regions := [] }
     let s := moving r
     ∃ r', blockReady s 0 r ∧ r.d.op = 0 ∧ (∀ p ∈ s.piecesOf r, p.copy = false) ∧
       ((s.gather 0 (s.piecesOf r)).sq 0).pump.cur = some r' ∧ r' = { r with gathered := r'.gathered } ∧
       r'.gathered.length = (s.piecesOf r).length ∧ s.blockLen r ≤ r'.sourceBytes.length) := by
  refine ⟨by unfold blockReady; decide +kernel, by unfold blockReady; decide +kernel,
    { d := { farCopy with src := 0xFFF * 2 ^ 44 + 0x1008 }, regions := [],
      gathered := [(0, List.replicate 248 0), (0, List.replicate 8 0)] }, ?_⟩
  unfold blockReady; decide +kernel

def signalling : PumpRun :=
  { d := { zeroRow with sig := true, sigsz := 1, sigaddr := 0xFFF * 2 ^ 44 + 8, sigval := 3 }, regions := [], pos := 1 }

theorem witness_DescriptorsSignalAndComplete :
    (let s := moving signalling
     s.active 0 = true ∧ (s.sq 0).pump.cur = some signalling ∧ signalling.written = true ∧
     s.isLocal signalling.d.sigaddr = true ∧ placeOf s.isM (signalling.d.sigaddr % 2 ^ 44) = .well 0 ∧
     (s.sq 0).ownWindowRefuses 0 8 8 = false ∧ s.checkAcc ⟨0, (s.sq 0).kpart, 8, 8, .atom 0 8, false⟩ = 0 ∧ s.parityOf 8 8 = 0) ∧
    (let r := { signalling with sigSent := true, sigDone := true }
     (moving r).active 0 = true ∧ ((moving r).sq 0).pump.cur = some r ∧ r.written = true ∧ (r.d.sig = true → r.sigDone = true)) := by
  decide +kernel

theorem test_pump_zeroes_block :
    let s := { moving { d := zeroRow, regions := [] } with mem := [(255, 7), (256, 7)] }
    (after (.pumpBlock 0) s).mem = [(256, 7)] := by decide +kernel

theorem witness_DecodingTablesLoad :
    (∀ u : SquareId, u = 0 ∨ u = 127 → ∀ b : Bank, b = {} ∨ b = { valid := true, gen := 1 } →
      let s := kern []
      let t := s.modSq u.val (fun q => { q with pump := { q.pump with bank1 := b } })
      writeAllowed t (0x5000000 + 0x100 * u.val + 0x10) (write 0x11) (.pump u.val 0x10) ∧
        (write 0x11).val.toNat.testBit 4 = true ∧ (t.sq u.val).pump.tblBusy = false) ∧
    (let s := owned (kern [] (fun q => { q with pump := { tblBusy := true, tblSrc := 0xFFF * 2 ^ 44 } }))
     (s.sq 0).pump.tblBusy = true ∧ (s.sq 0).pump.tblSent = false ∧ ((s.sq 0).pump.bank (s.sq 0).pump.tblTgt).useCnt = 0 ∧
     s.stop.stopped = false ∧ (s.owner 0).eff ≠ 0 ∧ s.isLocal (s.sq 0).pump.tblSrc = true ∧
     (s.localAccess 0 ((s.owner 0).eff - 1) ((s.sq 0).pump.tblSrc % 2 ^ 44) (.load 288) true).2 = .ok (List.replicate 288 0)) ∧
    (∀ bs : List Byte, bs = List.replicate 288 0 ∨ bs = 16 :: List.replicate 287 0 →
      let s := kern [] (fun q => { q with pump := { tblBusy := true, tblImage := some bs } })
      (s.sq 0).pump.tblBusy = true ∧ s.stop.stopped = false ∧ (s.sq 0).pump.tblImage = some bs ∧
        imageOk (bs.map (·.toNat)) = decide (bs = List.replicate 288 0)) := by
  refine ⟨?_, by decide +kernel, ?_⟩
  · rintro u (rfl | rfl) b (rfl | rfl) <;> (unfold writeAllowed; decide +kernel)
  · rintro bs (rfl | rfl) <;> decide +kernel

/-! Fountains (07). -/

/-- An instruction of the fountain with stream and offset in registers 1 and 2. -/
def fn (op : Nat) (fs : List (Nat × Nat)) : Nat := word 4 op ([(10, 63), (34, 1), (39, 2)] ++ fs)
/-- A fountain that can jump, with the last stream and the last offset. -/
def spring (w mode : Nat) : State :=
  kern [w] (fun q => { q with sregs := [(1, 2 ^ 32 - 1), (2, 2 ^ 64 - 1)], ftn := { mode := mode, jready := true } })

theorem witness_FountainWorks_instructions : ∀ m, m ∈ [0, 1] →
    (fnReady (spring (fn 0x01 []) m) 0 0x01 (fn 0x01 []) ∧ onlyFields (fn 0x01 []) [(10, 6), (34, 5), (39, 5)] = true) ∧
    (∀ v, v ∈ [0, 2 ^ 31 - 1, 2 ^ 32 - 1] → fnReady (spring (fn 0x02 [(96, v)]) m) 0 0x02 (fn 0x02 [(96, v)]) ∧
      onlyFields (fn 0x02 [(96, v)]) [(10, 6), (96, 32), (34, 5), (39, 5)] = true) ∧
    (∀ v, v ∈ [0, 2 ^ 31 - 1] → fnReady (spring (fn 0x03 [(96, v)]) m) 0 0x03 (fn 0x03 [(96, v)]) ∧
      onlyFields (fn 0x03 [(96, v)]) [(10, 6), (96, 32), (34, 5), (39, 5)] = true ∧ bits (fn 0x03 [(96, v)]) 96 32 < 2 ^ 31) ∧
    (let w := fn 0x04 [(16, 62), (22, 61), (28, 60), (44, 4), (47, 2), (54, 1)]
     fnReady (spring w m) 0 0x04 w ∧ drawForm w = true) ∧
    (standsAt (spring (fn 0x00 []) m) 0 4 0x00 (fn 0x00 []) ∧ onlyFields (fn 0x00 []) [(10, 6), (34, 5), (39, 5)] = true ∧
      ((spring (fn 0x00 []) m).sq 0).regsReady [bits (fn 0x00 []) 34 5, bits (fn 0x00 []) 39 5] = true) := by
  intro m h
  refine ⟨?_, ?_, ?_, ?_, ?_⟩ <;> fin_cases h <;> (try unfold fnReady) <;> unfold standsAt <;> decide +kernel

theorem witness_FountainWorks_jobs :
    (writeAllowed State.reset 0x5200000 (write 3) (.ftnG 0) ∧ (write 3).val.toNat.testBit 0 = true ∧
      (write 3).val.toNat.testBit 1 = true ∧ State.reset.ftnG.busy = false) ∧
    (let s : State := { State.reset with extents := [(0, { valid := true })], ftnG := { busy := true, job := 1, jsrc := 0xFFF * 2 ^ 44 } }
     s.ftnG.busy = true ∧ s.ftnG.job = 1 ∧ s.isLocal s.ftnG.jsrc = true ∧
     placeOf s.isM (s.ftnG.jsrc % 2 ^ 44) ≠ .host ∧
     (s.accRead ⟨unitBsc, 0, s.ftnG.jsrc % 2 ^ 44, 2048, .read, true⟩).2 = .ok (List.replicate 2048 0)) ∧
    (let s : State := { State.reset with ftnG := { busy := true, job := 2 } }
     s.ftnG.busy = true ∧ s.ftnG.job = 2) := by
  unfold writeAllowed
  refine ⟨by decide +kernel, ⟨rfl, rfl, by decide, ?_⟩, by decide +kernel⟩
  decide +kernel

/-! Loads, stores and atomics (05, 10, 11). -/

/-- A remote instruction whose address is a word of the wells (DISP in bits 127:64). -/
def at_ (op : Nat) (fs : List (Nat × Nat)) : Nat := word 6 op ([(15, 1), (64, 16)] ++ fs)
/-- The base register of `at_` names this module. -/
def based (w : Nat) : State := owned (kern [w] (fun q => { q with sregs := [(1, BitVec.ofNat 64 (0xFFF * 2 ^ 44))] }))

theorem witness_RemoteOperationsIssue :
    (∀ sz, sz ∈ [0, 3] →
      let w := at_ 0x00 [(32, 1), (30, sz), (10, 31)]
      atReady (based w) 0 0x00 w (2 ^ bits w 30 2) [(32, 1), (30, 2), (10, 5)] [bits w 15 5, bits w 10 5]) ∧
    (let w := at_ 0x01 [(30, 3), (20, 31)]
     atReady (based w) 0 0x01 w (2 ^ bits w 30 2) [(30, 2), (20, 5)] [bits w 15 5, bits w 20 5]) ∧
    (∀ aop, aop ∈ [0, 9] →
      let w := at_ 0x02 [(33, aop), (30, 2), (25, 3), (20, 2), (10, 31)]
      atReady (based w) 0 0x02 w (2 ^ bits w 30 2) [(33, 4), (30, 2), (25, 5), (20, 5), (10, 5)]
        [bits w 15 5, bits w 20 5, bits w 25 5, bits w 10 5] ∧ 4 ≤ 2 ^ bits w 30 2 ∧ bits w 33 4 ≤ 9) ∧
    (∀ sd, sd ∈ [0, 30] →
      let w := at_ 0x03 [(25, 4), (20, 2), (10, sd)]
      atReady (based w) 0 0x03 w 16 [(25, 5), (20, 5), (10, 5)]
        ([bits w 15 5, bits w 20 5, bits w 20 5 + 1, bits w 25 5, bits w 25 5 + 1] ++
          if bits w 10 5 = 0 then [] else [bits w 10 5, bits w 10 5 + 1]) ∧
      bits w 20 5 % 2 = 0 ∧ bits w 25 5 % 2 = 0 ∧ bits w 10 5 % 2 = 0) ∧
    (∀ c, c ∈ [(0, 16), (4, 1)] →
      let w := at_ 0x04 [(46, c.2), (43, c.1), (37, 62), (33, 7), (30, 3)]
      atReady (based w) 0 0x04 w (2 ^ bits w 30 2) [(46, 10), (43, 3), (37, 6), (33, 4), (30, 2)] [bits w 15 5] ∧
      4 ≤ 2 ^ bits w 30 2 ∧ bits w 33 4 ≤ 7 ∧ bits w 43 3 ≤ 4 ∧ bits w 46 10 = 512 / (32 * 2 ^ bits w 43 3) ∧
      bits w 37 6 % 2 = 0) ∧
    (∀ d, d ∈ [1, 2 ^ 52] →
      let w := word 6 0x00 [(15, 1), (64, d), (30, 3)]
      standsAt (based w) 0 6 0x00 w ∧ onlyFields w [(64, 64), (15, 5), (32, 1), (30, 2), (10, 5)] = true ∧
      ((based w).sq 0).regsReady [bits w 15 5, bits w 10 5] = true ∧ ((based w).sq 0).atOps.length < 64 ∧
      (if d = 1 then ((based w).sq 0).atAddr w % 8 ≠ 0 else ((based w).sq 0).atAddr w % 8 = 0 ∧ 2 ^ 56 ≤ ((based w).sq 0).atAddr w)) := by
  refine ⟨?_, ?_, ?_, ?_, ?_, ?_⟩ <;> (try unfold atReady) <;> unfold standsAt <;> decide +kernel

/-- Square 0 has this operation in flight. -/
def inFlight (o : AtOp) : State := owned (kern [] (fun q => { q with atOps := [o] }))
def wellRow : AtRow := ⟨0xFFF * 2 ^ 44 + 16, 5, .waiting⟩
def flying (kind : AtKind) (size aop sd : Nat) : AtOp := ⟨7, 0, kind, size, aop, 0, sd, false, true, [wellRow]⟩

theorem witness_HomesPerformLoadsAndStores :
    homeReady (inFlight (flying .ld 8 0 31)) 0 (flying .ld 8 0 31) wellRow .read ∧
    homeReady (inFlight (flying .st 1 0 0)) 0 (flying .st 1 0 0) wellRow .write := by
  unfold homeReady; decide +kernel

/-- Core 7 runs for partition 1. -/
def coring (f : State → State := id) : State := f { owned (kern []) with harts := [(7, { halted := false, part := 1 })] }

theorem witness_HomesPerformLoadsAndStores_fences :
    (∀ b : Bool, let s := coring (fun s => { s with retries := if b then [⟨.core 7 wellRow.addr (.load 8), 16⟩] else [] })
     (s.hart 7).halted = false ∧ s.stop.stopped = false ∧ (∀ r ∈ s.retries, r.src ≠ .coreFence 7 true true) ∧ s.coreWaits 7 = b) ∧
    (let s : State := { coring (fun s => { s with retries := [⟨.core 7 wellRow.addr (.load 8), 16⟩] }) with
        harts := [(7, { halted := false, part := 1, fencing := true })] }
     (s.hart 7).fencing = true ∧ s.coreWaits 7 = true) ∧
    (let s := coring (fun s => { s with retries := [⟨.core 7 wellRow.addr (.load 8), 16⟩] })
     s.canon wellRow.addr < s.canon (wellRow.addr + 7) + accessLength (.store [0]) ∧
     s.canon (wellRow.addr + 7) < s.canon wellRow.addr + accessLength (.load 8)) := by
  decide +kernel

theorem witness_HomesPerformLoadsAndStores_cores :
    let g := wellRow.addr
    coreReady coring 7 g 8 ∧ inMemoryOf coring g ∧
    (∀ o, o ∈ [AccOp.read, .write] → coring.checkAcc ⟨0x80 + 7, (coring.hart 7).part, g % 2 ^ 44, 8, o, false⟩ = 0) ∧
    coring.parityOf (g % 2 ^ 44) 8 = 0 ∧
    (let s := coring (fun s => { s with resv := [⟨7, 16, 8⟩] })
     coreReady s 7 g 8 ∧ inMemoryOf s g ∧ (∃ r ∈ s.resv, r.core = 7 ∧ r.addr ≤ g % 2 ^ 44 ∧ g % 2 ^ 44 + 8 ≤ r.addr + r.size) ∧
     s.checkAcc ⟨0x80 + 7, (s.hart 7).part, g % 2 ^ 44, 8, .write, false⟩ = 0) := by
  refine ⟨?_, ⟨by decide, .inl ⟨0, by decide +kernel⟩⟩, ?_, ?_, ?_, ⟨by decide, .inl ⟨0, by decide +kernel⟩⟩, ?_, ?_⟩ <;>
    (try unfold coreReady) <;> decide +kernel

theorem witness_HomesPerformAtomics :
    (∀ aop, aop ∈ [0, 9] → ∀ size, size ∈ [4, 8] →
      homeReady (inFlight (flying .atom size aop 31)) 0 (flying .atom size aop 31) wellRow (.atom aop size)) ∧
    (∀ sd, sd ∈ [0, 30] → homeReady (inFlight (flying .cas128 16 9 sd)) 0 (flying .cas128 16 9 sd) wellRow .cas128) := by
  unfold homeReady; decide +kernel

theorem test_atomic_add_wraps_its_word :
    let o : AtOp := ⟨7, 0, .atom, 4, 0, 0, 31, false, true, [⟨0xFFF * 2 ^ 44 + 16, 0xFFFFFFFF, .waiting⟩]⟩
    let t := after (.homeAtomic (.square 0 7 0)) { inFlight o with mem := [(16, 2), (20, 9)] }
    t.mem = [(16, 1), (20, 9)] ∧ (t.sq 0).sreg 31 = 2 := by decide +kernel

theorem witness_ParityIsRetriedOnce : ∀ m, m ∈ [1, 2] → ∀ run, run ∈ [RunState.running, .stopped] →
    let o := flying .ld 8 0 31
    let s : State := { (inFlight o).modSq 0 (fun q => { q with run := run }) with parity := [(17, m)], retries := [⟨.square 0 7 0, 16⟩] }
    s.retries[0]? = some ⟨.square 0 o.id 0, wellRow.addr % 2 ^ 44⟩ ∧ placeOf s.isM 16 = .well 0 ∧
    (s.sq 0).run = run ∧ (s.sq 0).atOps.find? (fun x => x.id == o.id) = some o ∧ s.mustWait 0 o.id 0 = false ∧ wellRow.addr < 2 ^ 56 ∧ s.isLocal wellRow.addr = true ∧
    s.checkAcc ⟨0, (s.sq 0).kpart, 16, o.size, .read, false⟩ = 0 ∧ (s.sq 0).near = [] ∧ s.parityOf 16 8 = m := by
  decide +kernel

/-! Launches and fused attention (08, 12). -/

/-- A local address as a global one names it. -/
def g (a : Nat) : Nat := 0xFFF * 2 ^ 44 + a

/-- A launch of partition 1 on square 0, its descriptor at the start of the wells. -/
def launchOf (kind : LaunchKind) (f : Launch → Launch) : Launch :=
  f { id := 1, queue := 0, part := 1, kind := kind, iaddr := 0, daddr := g 0, stx := 0, qmask := 1, smask := 1, order := 0, async := true,
      cont := false, ksw := true, fskip := false, grid := none, arg7 := none, ecnt := 3, statAddr := 0 }
def issuedWith (l : Launch) (mem : Table Byte) : State := { State.reset with launches := [l], mem := mem }

/-- A kernel of 16 bytes of code with one page of allotment, one scale word and one codebook; one whose code is too short. -/
def kernelBytes (codelen : Nat) : Nat :=
  g 0x1000 + codelen * 2 ^ 64 + 2 ^ 81 + 2 ^ 93 + 2 ^ 128 + 2 ^ 160 + g 0x2000 * 2 ^ 192 + 1023 * 2 ^ 248 + 2 ^ 258 +
    g 0x3000 * 2 ^ 272 + 63 * 2 ^ 328 + 2 ^ 334
def kernelLaunch (codelen : Nat) : State := owned (issuedWith (launchOf .kernel id) (Table.setList 0 [] 0 (toBytes 128 (kernelBytes codelen))))

/-- An attention command over one record of 16 tokens, its record at 0x100. -/
def attnBytes : Nat := 2 ^ 24 + 2 ^ 32 + 2 ^ 40 + g 0x100 * 2 ^ 128 + 2 ^ 192 + 256 * 2 ^ 460
def lookBytes : Nat := 2 ^ 40 + 2 ^ 48 + 2 ^ 64 + g 0x100 * 2 ^ 80

def isOk {α : Type} : StartOut α → Bool
  | .ok _ => true
  | _ => false
theorem isOk_ok {α : Type} {x : StartOut α} (h : isOk x = true) : ∃ a, x = .ok a := by
  cases x <;> simp_all [isOk]

theorem witness_LaunchesStart :
    (let l := launchOf .attention id
     let s := issuedWith l []
     launchDue s 1 l ∧ l.kind ≠ .kernel ∧ s.setCause l (s.candidates l) = some (ePermission, 0)) ∧
    (let l := launchOf .kernel (fun l => { l with smask := 0 })
     let s : State := owned (issuedWith l (Table.setList 0 [] 0 (toBytes 128 (kernelBytes 16))))
     launchDue s 1 l ∧ s.findFar (.launch 1) (g 0) (.load 128) = none ∧ readsAs s unitHall 1 (g 0) 128 true (s.bytes 0 128) ∧
       kernelCause l (ofBytes (s.bytes 0 128)) = none ∧
       s.setCause l (s.candidates l) = some (eUnmapped, 0)) ∧
    (∀ n, n ∈ [8, 16] →
      let s := kernelLaunch n
      let l := launchOf .kernel id
      launchDue s 1 l ∧ s.setCause l (s.candidates l) = none ∧ s.findFar (.launch 1) (g 0) (.load 128) = none ∧
      readsAs s unitHall 1 (g 0) 128 true (s.bytes 0 128) ∧
      (if n = 8 then kernelCause l (ofBytes (s.bytes 0 128)) = some (eIllegal, 0) else
        kernelCause l (ofBytes (s.bytes 0 128)) = none ∧ ∀ u, u ∈ s.candidates l →
          ∀ r, r ∈ (kernelDescOf l (ofBytes (s.bytes 0 128))).ranges → readsAs s u 1 r.1 r.2 true (s.bytes (r.1 % 2 ^ 44) r.2))) ∧
    (let l := launchOf .attention id
     let s := owned (issuedWith l (Table.setList 0 (Table.setList 0 [] 0 (toBytes 128 attnBytes)) 0x100 (toBytes 64 (16 + 2 ^ 64))))
     launchDue s 1 l ∧ s.setCause l (s.candidates l) = none ∧ ∃ a, (s.attnStart l ((s.candidates l).headD 0)).2 = .ok a) ∧
    (let l := launchOf .lookup id
     let s := owned (issuedWith l (Table.setList 0 [] 0 (toBytes 64 lookBytes)))
     launchDue s 1 l ∧ s.setCause l (s.candidates l) = none ∧ ∃ k, (s.lookStart l ((s.candidates l).headD 0)).2 = .ok k) := by
  unfold launchDue readsAs
  refine ⟨by decide +kernel, by decide +kernel, by decide +kernel, ⟨by decide +kernel, by decide +kernel, isOk_ok (by decide +kernel)⟩,
    by decide +kernel, by decide +kernel, isOk_ok (by decide +kernel)⟩

/-- A descriptor that the hall has read while the start waited for another read: it is overwritten since (R343). -/
theorem witness_LaunchesStart_waited :
    let bs := toBytes 128 (kernelBytes 16)
    let l := launchOf .kernel id
    let s := { owned (issuedWith l []) with far := [⟨0, .launch 1, g 0, .load 128, some (0, bs), 0⟩] }
    launchDue s 1 l ∧ (∃ x, s.findFar (.launch 1) (g 0) (.load 128) = some x ∧ x.result = some (0, bs)) ∧
    kernelCause l (ofBytes bs) = none ∧ s.setCause l (s.candidates l) = none ∧ s.bytes 0 128 ≠ bs ∧
    ∀ u, u ∈ s.candidates l → ∀ r, r ∈ (kernelDescOf l (ofBytes bs)).ranges → readsAs s u 1 r.1 r.2 true (s.bytes (r.1 % 2 ^ 44) r.2) := by
  unfold launchDue readsAs
  refine ⟨by decide +kernel, ⟨_, rfl, rfl⟩, ?_⟩
  decide +kernel

theorem witness_LaunchesEnd :
    (∀ async : Bool, let l := launchOf .kernel (fun l => { l with stage := .running, ksw := false, async := async })
      let s := { owned (issuedWith l []) with far := [⟨0, .hall 3, 0, .store [], none, 0⟩] }
      s.launch 1 = some l ∧ l.reported = true ∧ s.stop.stopped = false ∧ s.poisonDue l = false ∧ s.endPending l = false ∧
      s.openPins l = [] ∧ s.linksQuiet l = true ∧ s.hallAwaits = true) ∧
    (∀ ksw : Bool, let l := launchOf .kernel (fun l => { l with stage := .running, statAddr := g 0x1000, ksw := ksw })
      let s := owned (issuedWith l [])
      s.launch 1 = some l ∧ l.reported = true ∧ s.stop.stopped = false ∧ s.poisonDue l = false ∧ s.endPending l = false ∧ s.statusTaken l = false ∧
      s.linksQuiet l = true ∧ s.hallAwaits = false ∧ s.openPins l = [] ∧ writable s unitHall 1 (addr56 l.statAddr (32 + 8 * l.stx)) 8 true) := by
  unfold writable; decide +kernel

/-- Square 0 runs an attention command of one record and head, with these fields, its progress and its ring. -/
def attnOf (d : AttnDesc → AttnDesc) (i : Table ItemState) (r : RingState) : Attn :=
  { desc := d { qpg := 1, kvh := 1, split := 1 }, items := i, ring := r
    recs := [{ len := 1, nq := 1, nbmax := 1, pt := g 0x4000, qaddr := g 0x5000, qsaddr := g 0x5040, oaddr := g 0x5080, osaddr := g 0x50C0,
               saddr := g 0x6000, doaddr := g 0x5100, dosaddr := g 0x5140, dkaddr := g 0x7000, dvaddr := g 0x8000 }]
    ringd := { n := 2, npg := 0, nextC := g (squareCounterAddr 0 1), prevC := g (squareCounterAddr 0 1) } }
def attending (a : Attn) (f : Launch → Launch := id) : State :=
  let l := launchOf .attention (fun l => f { l with stage := .running, set := [0], attn := some a })
  let s := owned (issuedWith l [])
  { s with squares := [(0, { run := .running, stall := .ending, launch := 1, kpart := 1, setSize := 1 })] }
def theLaunch (a : Attn) : Launch := launchOf .attention (fun l => { l with stage := .running, set := [0], attn := some a })
def item0 : WorkItem := ⟨0, 0, 0, 0⟩

/-- A page-table entry that names the page at 0x8000. -/
def entry : List Byte := toBytes 8 (2 ^ 63 + 2 ^ 15)

theorem witness_AttentionWalksBlocks :
    let a := attnOf id [] {}
    (∀ eb : List Byte, eb = entry ∨ eb = toBytes 8 0 →
      let s := { attending a with mem := Table.setList 0 [] 0x4000 eb }
      itemOpen s 0 item0 (theLaunch a) a ∧ a.desc.ring = false ∧ (a.item item0).walked = none ∧ (a.item item0).next < (a.blocks item0).2 ∧
      (∀ x, x ∈ a.inputRanges item0 → readsAs s 0 1 x.1 x.2 true (s.bytes (x.1 % 2 ^ 44) x.2)) ∧
      readsAs s 0 1 (g 0x4000) 8 true eb ∧ (ofBytes eb).testBit 63 = decide (eb = entry)) ∧
    (let s := { attending a with mem := Table.setList 0 [] 0x4000 entry }
     s.pageFails (theLaunch a) a 0 (bits (ofBytes entry) 15 29 * 32768) = false ∧
     s.entryBefore { a with mem0 := s.mem } (g 0x4000) (ofBytes entry) = ofBytes entry ∧
     inMemory s.isM (bits (ofBytes entry) 15 29 * 32768) 32768 = true ∧ rawPage s 0 (theLaunch a) a.desc (g 0x8000) 64 (s.bytes 0x8000 64) ∧
     headerOk a.desc 0 (ofBytes (s.bytes 0x8000 64)) = true) := by
  refine ⟨?_, by decide +kernel, by decide +kernel, by decide +kernel, ⟨[], rfl, by decide +kernel, by decide +kernel, ?_⟩, by decide +kernel⟩
  · unfold itemOpen readsAs
    rintro eb (rfl | rfl) <;> decide +kernel
  · unfold readsAs; decide +kernel

theorem witness_AttentionFoldsMergesFinishes :
    (∀ n, n ∈ [0, 1] →
      let a := { attnOf id [(0, { walked := some (g 0x8000, 0, 16) })] {} with recs := [{ len := n, nq := 1 }] }
      itemOpen (attending a) 0 item0 (theLaunch a) a ∧ (a.item item0).walked = some (g 0x8000, 0, 16) ∧
      (a.visible item0 (a.item item0)).all (fun r => r.all (!·)) = decide (n = 0)) ∧
    (let a := attnOf id [(0, { walked := some (g 0x8000, 0, 16) })] {}
     rawPage (attending a) 0 (theLaunch a) a.desc (g 0x8000) (pageFmt a.desc.fmt).stop
       ((attending a).bytes 0x8000 (pageFmt a.desc.fmt).stop)) ∧
    (let a := attnOf (fun d => { d with split := 2 }) [(0, {}), (65536, { next := 1 })] {}
     itemOpen (attending a) 0 item0 (theLaunch a) a ∧ (a.item item0).merged = false ∧ a.desc.op < 2 ∧ 1 < a.desc.parts ∧
     a.allFolded item0 = true) ∧
    (let a := attnOf id [(0, { next := 1 })] {}
     let s := attending a
     let r := a.recs.getD 0 {}
     let ws := ((tileRows a.desc r 0 0).zipIdx).flatMap (fun x => (a.rowOut r (a.item item0) x.2 (rowIndex a.desc x.1)).1)
     itemOpen s 0 item0 (theLaunch a) a ∧ a.rowsReady item0 (a.item item0) = true ∧ s.roomFor 96 = true ∧
     (∀ x, x ∈ ws → writable s 0 1 x.1 x.2.length true) ∧
     List.Pairwise (fun x y => x.1 % 2 ^ 44 + x.2.length ≤ y.1 % 2 ^ 44 ∨ y.1 % 2 ^ 44 + y.2.length ≤ x.1 % 2 ^ 44) ws) := by
  refine ⟨?_, ⟨[], rfl, by decide +kernel, by decide +kernel, ?_⟩, ?_, ?_⟩
  · unfold itemOpen; decide +kernel
  · unfold readsAs; exact ⟨by decide +kernel, by decide +kernel, by decide +kernel, by decide +kernel, by decide +kernel, rfl⟩
  · unfold itemOpen; decide +kernel
  · unfold itemOpen writable; decide +kernel

theorem witness_BackwardPassAccumulates :
    let a := attnOf (fun d => { d with op := 3 }) [(0, { walked := some (g 0x8000, 0, 16) })] {}
    let s := attending a
    let i := a.item item0
    let f := pageFmt a.desc.fmt
    let r := a.recs.getD 0 {}
    let vis := a.visible item0 i
    let page := s.bytes 0x8000 f.stop
    let toks := f.tokensOf page (a.books i) 0 (a.firstPos item0 i)
    let sums := a.backSums i toks ((vis.zipIdx).map (fun v => (rowScores (a.queryRow i v.2) toks v.1).1))
    let adds := sums.adds r.dkaddr r.dvaddr ((0 * r.nbmax * f.tokens + a.firstPos item0 i) * f.dim) f.dim
    itemOpen s 0 item0 (theLaunch a) a ∧ i.walked = some (g 0x8000, 0, 16) ∧ vis.all (fun x => x.all (!·)) = false ∧
    s.roomFor a.adds = true ∧ rawPage s 0 (theLaunch a) a.desc (g 0x8000) f.stop page ∧ adds.length = 128 ∧
    (∀ x, x ∈ adds → s.isLocal x.1 = true ∧ placeOf s.isM (x.1 % 2 ^ 44) ≠ .reg ∧ placeOf s.isM (x.1 % 2 ^ 44) ≠ .host ∧
      s.checkAcc ⟨0, 1, x.1 % 2 ^ 44, 8, .atom 0 8, false⟩ = 0 ∧ s.parityOf (x.1 % 2 ^ 44) 8 = 0) ∧
    List.Pairwise (fun x y => x.1 % 2 ^ 44 + 8 ≤ y.1 % 2 ^ 44 ∨ y.1 % 2 ^ 44 + 8 ≤ x.1 % 2 ^ 44) adds := by
  refine ⟨?_, by decide +kernel, by decide +kernel, by decide +kernel,
    ⟨[], rfl, by decide +kernel, by decide +kernel, ?_⟩, by decide +kernel, by decide +kernel, by decide +kernel⟩
  · unfold itemOpen; decide +kernel
  · unfold readsAs; exact ⟨by decide +kernel, by decide +kernel, by decide +kernel, by decide +kernel, by decide +kernel, rfl⟩

/-- A member of a ring at a step, its square counter 0 at a value. -/
def ringing (a : Attn) (v : Nat) (f : Launch → Launch := id) : State := { attending a f with sqCtr := [(0, BitVec.ofNat 64 v)] }
def inRing (r : RingState) : Attn := attnOf (fun d => { d with ring := true }) [] r

theorem witness_RingMembersPassSlabs :
    (∀ v, v ∈ [1, 2 ^ 63 + 1] → ∀ st, st ∈ [0, 1] →
      let a := inRing { step := st }
      let s := ringing a v
      ringRuns s 1 (theLaunch a) a ∧ a.ring.have_ = false ∧ a.ring.step < a.ringd.n ∧
      (st = 0 ∨ a.ringd.base + st ≤ s.dcnt a 0 ∧ (s.dcnt a 0).testBit 63 = decide (v ≠ 1))) ∧
    (∀ st, st ∈ [0, 1] →
      let a := inRing { step := st, have_ := true }
      let s := ringing a 0
      let r := s.localAccess 0 1 (a.ringd.prevC % 2 ^ 44) (.atom 0 8 1) false
      ringRuns s 1 (theLaunch a) a ∧ a.slabFolded = true ∧ a.ring.ticket ≤ (s.sq 0).pump.lastDone ∧ s.roomFor 1 = true ∧
      s.isLocal a.ringd.prevC = true ∧ placeOf s.isM (a.ringd.prevC % 2 ^ 44) ≠ .host ∧ r.2 = .ok (toBytes 8 0)) ∧
    (∀ p, p ∈ [0, 1, 2] →
      let a := inRing { poisonFrom := p }
      let l := { theLaunch a with aborted := true }
      let s := ringing a 0 (fun l => { l with aborted := true })
      let b1 : List Byte := toBytes 8 0
      let b2 : List Byte := toBytes 8 (if p = 0 then 2 ^ 63 else 0)
      let atom := fun (x : State) (g : Nat) => x.localAccess 0 1 (g % 2 ^ 44) (.atom 0 8 (2 ^ 63)) false
      let r1 := if p = 2 then (s, .ok b1) else atom s a.ringd.nextC
      let r2 := if p = 1 then (r1.1, .ok b2) else atom r1.1 a.ringd.prevC
      s.launch 1 = some l ∧ s.poisonDue l = true ∧ s.stop.stopped = false ∧ s.roomFor 2 = true ∧ l.lead = 0 ∧
      s.isLocal a.ringd.nextC = true ∧ s.isLocal a.ringd.prevC = true ∧ r1.2 = .ok b1 ∧ r2.2 = .ok b2) := by
  unfold ringRuns; decide +kernel

/-! Prefix lookups (09). -/

/-- Square 0 serves one request of a lookup of 16-token blocks; the tree of partition 1 has two slots at 0x9000. -/
def lookOf (r : LookReq) : Lookup := { nreq := 1, layers := 1, ngrp := 1, reqs := [r] }
def looking (r : LookReq) (mem : Table Byte := []) : State :=
  let l := launchOf .lookup (fun l => { l with stage := .running, set := [0], look := some (lookOf r) })
  let s := owned (issuedWith l mem)
  { s with squares := [(0, { run := .running, stall := .ending, launch := 1, kpart := 1, setSize := 1 })]
           parts := [(1, { pfxBase := 0x9000, pfxLog2n := 1, pfxProbe := 2 })] }
def lookLaunch (r : LookReq) : Launch := launchOf .lookup (fun l => { l with stage := .running, set := [0], look := some (lookOf r) })
def req0 : LookReq := { tok := g 0xA000, ntok := 31, nbmax := 2, pt := g 0xB000, bref := g 0xC000, result := g 0xD000 }

/-- A request that is hashed: block 0 has hash 5. -/
def probing : LookReq := { req0 with hashed := true, hashes := [5] }
/-- A node of block 0 whose hash is 5 and whose record lies at 0xE000. -/
def nodeBytes : List Byte := toBytes 64 (5 + g 0xE000 * 2 ^ 128)

theorem witness_LookupsProbeAndPin_probes :
    (requestOpen (looking req0) 0 0 (lookLaunch req0) (lookOf req0) req0 ∧ req0.hashed = false ∧
      min (req0.ntok / (lookOf req0).tokens) req0.nbmax = 1 ∧
      readsAs (looking req0) 0 1 req0.tok (4 * (1 * 16)) true ((looking req0).bytes 0xA000 64)) ∧
    (∀ mem : Table Byte, mem = [] ∨ mem = Table.setList 0 [] 0x9040 nodeBytes →
      let s := looking probing mem
      let slot := probeSlot (s.part 1) 5
      requestOpen s 0 0 (lookLaunch probing) (lookOf probing) probing ∧ probing.stop = none ∧ probing.probe < 1 ∧
      probing.probe < probing.committed + 8 ∧ (∀ c, c ∈ probing.cands → c.2 ≠ none) ∧ (s.part 1).pfxLog2n ≠ 0 ∧
      0 < (s.part 1).pfxProbe ∧ s.checkAcc ⟨0, 1, slot 0, 64, .read, true⟩ = 0 ∧ s.parityOf (slot 0) 64 = 0 ∧
      probeNode (ofBytes (s.bytes (slot 0) 64)) 5 0 0 = if mem = [] then .empty else .hit (g 0xE000)) := by
  unfold requestOpen readsAs
  refine ⟨by decide +kernel, ?_⟩
  rintro mem (rfl | rfl) <;> decide +kernel

/-- A request whose block 0 has a candidate, and one whose block 0 is pinned. -/
def candidate (c : Option (Nat × Nat)) : LookReq := { probing with cands := [(0, c)], toks := List.replicate 16 0 }
def pinned : LookReq := { probing with pins := [(0, g 0xE000, 0x9040)] }
/-- The record at 0xE000 with this count word, one entry that names the page at 0x10000, and that page's header. -/
def recordMem (word : Nat) : Table Byte :=
  Table.setList 0 (Table.setList 0 [] 0xE000 (toBytes 72 (word + (2 ^ 8 + 2 ^ 16) * 2 ^ 64 + (2 ^ 63 + 2 * 2 ^ 15) * 2 ^ 512))) 0x10000
    (toBytes 64 (16 * 2 ^ 48))

theorem witness_LookupsProbeAndPin_pins :
    (∀ c : Option (Nat × Nat), c ∈ [none, some (0x9040, 0), some (0x9040, g 0xE000)] →
      requestOpen (looking (candidate c)) 0 0 (lookLaunch (candidate c)) (lookOf (candidate c)) (candidate c) ∧
      (looking (candidate c)).roomFor 4 = true) ∧
    (∀ w, w ∈ [2 ^ 32, 2 ^ 33, 0] →
      let r := candidate (some (0x9040, g 0xE000))
      readsAs (looking r (recordMem w)) 0 1 (g 0xE000) 8 true ((looking r (recordMem w)).bytes 0xE000 8)) ∧
    (let r := candidate (some (0x9040, g 0xE000))
     let s := looking r (recordMem 0)
     let after := (s.localAccess 0 1 0xE000 (.cas 8 1 0) false).1
     let rb := after.bytes 0xE000 72
     s.checkAcc ⟨0, 1, 0xE000, 8, .atom 9 8, false⟩ = 0 ∧ readsAs after 0 1 (g 0xE000) 72 true rb ∧
     recordOk (lookOf r) (ofBytes (rb.take 64)) = true ∧ (ofBytes (slice rb 64 8)).testBit 63 = true ∧ after.readRegions 0 1 = .ok [] ∧
     (after.readBlocks 0 1 [] after.mem 2 (bits (ofBytes (slice rb 64 8)) 15 29 * 32768) []).2 = .ok (after.bytes 0x10000 512) ∧
     pageMatches (lookOf r) 0 r.toks (after.bytes 0x10000 512) = true) := by
  unfold requestOpen readsAs; decide +kernel

theorem witness_LookupsCommitAndAnswer :
    (let s := looking pinned (recordMem 1)
     let bs := s.bytes 0xE040 8
     let ws := [((pinned.pt + 8 * (0 * pinned.nbmax + 0)) % 2 ^ 56, toBytes 8 (2 ^ 63 + 2 ^ 62 + bits (ofBytes bs) 15 29 * 2 ^ 15)),
       ((pinned.bref + 8 * 0) % 2 ^ 56, toBytes 8 (g 0xE000)), (globalOf (0x9040 + 56), toBytes 8 s.time)]
     requestOpen s 0 0 (lookLaunch pinned) (lookOf pinned) pinned ∧ s.roomFor 4098 = true ∧
     readsAs s 0 1 ((g 0xE000 + 64) % 2 ^ 56) (8 * (1 * 1)) true bs ∧ (ofBytes bs).testBit 63 = true ∧
     (∀ x, x ∈ ws → writable s 0 1 x.1 8 true) ∧
     List.Pairwise (fun x y => x.1 % 2 ^ 44 + 8 ≤ y.1 % 2 ^ 44 ∨ y.1 % 2 ^ 44 + 8 ≤ x.1 % 2 ^ 44) ws) ∧
    (∀ r, r ∈ [{ req0 with stop := some 4 }, { req0 with hashed := true, committed := 1 }] →
      requestOpen (looking r) 0 0 (lookLaunch r) (lookOf r) r ∧ r.pins = [] ∧ (looking r).roomFor 1 = true ∧
      (r.stop ≠ none ∨ r.hashed = true ∧ r.committed = min (r.ntok / (lookOf r).tokens) r.nbmax) ∧
      writable (looking r) 0 1 r.result 8 true) := by
  unfold requestOpen readsAs writable; decide +kernel

/-- The manual's test vectors (R248), key 0. -/
theorem test_block_hash :
    blockHash 0 (List.replicate 16 0) 16 0 = 0xAC9A2F4804D17A6B ∧ blockHash 0 (1 :: List.replicate 15 0) 16 0 = 0x877C00C8BD6BD53C ∧
    blockHash 0xAC9A2F4804D17A6B (List.replicate 16 0) 16 0 = 0xA8C14ECBC95B649D ∧
    blockHash 0 (List.replicate 64 0) 64 0 = 0xB268BD301345E9AC := by decide +kernel

/-! The dispatch hall (12). -/

/-- A dispatch instruction: its opcode and its fields (R338). -/
def ds (op : Nat) (fs : List (Nat × Nat)) : Nat := op + (fs.map (fun f => f.2 * 2 ^ f.1)).sum

/-- Queue 63 of partition 1 runs an entry whose instruction at 0x100 is `w`. -/
def ctxAt (f : Ctx → Ctx) : Ctx := f { entry := 1, pc := g 0x100 }
def hall (w : Nat) (c : Ctx) : State :=
  { owned State.reset with queues := [(63, { bound := true, part := 1, state := 2, cpl := g 0x2000, ctx := some c })]
                           mem := Table.setList 0 [] 0x100 (toBytes 16 w) }

/-- What hallReady says of memory, with the bytes read. -/
def ready (s : State) (q : QueueId) (op w : Nat) (c : Ctx) : Prop :=
  (s.queue q.val).ctx = some c ∧ s.hasTurn q.val = true ∧ w % 256 = op ∧
    readsAs s unitHall (s.queue q.val).part c.pc 16 true (s.bytes (c.pc % 2 ^ 44) 16) ∧ w = ofBytes (s.bytes (c.pc % 2 ^ 44) 16)
theorem hall_and {s : State} {q : QueueId} {op w : Nat} {c : Ctx} {P : Prop} (h : ready s q op w c ∧ P) : hallReady s q op w c ∧ P :=
  ⟨⟨h.1.1, h.1.2.1, h.1.2.2.1, _, h.1.2.2.2.1, h.1.2.2.2.2⟩, h.2⟩

/-- A context whose hall registers 1 and 2 hold values. -/
def regs (a b : Nat) : Ctx := ctxAt (fun c => { c with regs := [(1, BitVec.ofNat 64 a), (2, BitVec.ofNat 64 b)] })
def c0 : Ctx := regs 0 0

theorem test_dspAdd_h0 :
    ((after (.dspAdd 63) (hall (ds 0x09 [(8, 1), (12, 2), (16, 0)]) (regs 3 4))).queue 63).ctx = some { regs 3 4 with pc := g 0x110 } := by
  decide +kernel

theorem witness_HallInstructionsCompute_moves :
    (let w := ds 0x00 []; hallReady (hall w c0) 63 0x00 w c0 ∧ dsOnly w [] = true) ∧
    (let w := ds 0x08 [(16, 15), (64, 2 ^ 64 - 1)]; hallReady (hall w c0) 63 0x08 w c0 ∧ dsOnly w [fldHD, fldIMM] = true) ∧
    (let w := ds 0x09 [(8, 1), (16, 15), (20, 1), (64, 2 ^ 64 - 1)]
     hallReady (hall w c0) 63 0x09 w c0 ∧ dsOnly w [fldHA, fldHB, fldHD, (20, 1), fldIMM] = true) ∧
    (let w := ds 0x0A [(8, 1), (16, 15), (64, 8)]
     hallReady (hall w (regs (g 0) 0)) 63 0x0A w (regs (g 0) 0) ∧ dsOnly w [fldHA, fldHD, fldIMM] = true ∧
     readsAs (hall w (regs (g 0) 0)) unitHall ((hall w (regs (g 0) 0)).queue 63).part (g 8) 8 false
       ((hall w (regs (g 0) 0)).bytes 8 8)) ∧
    (let w := ds 0x0A [(8, 1), (64, 1)]
     hallReady (hall w (regs (g 0) 0)) 63 0x0A w (regs (g 0) 0) ∧ dsOnly w [fldHA, fldHD, fldIMM] = true ∧
     (((regs (g 0) 0).reg (dsHA w)).toNat + w / 2 ^ 64) % 2 ^ 64 % 8 ≠ 0) ∧
    (let w := ds 0x0B [(8, 1), (12, 2), (64, 8)]
     hallReady (hall w (regs (g 0) 9)) 63 0x0B w (regs (g 0) 9) ∧ dsOnly w [fldHA, fldHB, fldIMM] = true ∧
     writable (hall w (regs (g 0) 9)) unitHall ((hall w (regs (g 0) 9)).queue 63).part (g 8) 8 false) := by
  refine ⟨hall_and ?_, hall_and ?_, hall_and ?_, hall_and ?_, hall_and ?_, hall_and ?_⟩ <;> unfold ready <;> (try unfold writable) <;>
    unfold readsAs <;> decide +kernel

/-- A full call stack, and a handle of partition 1 that names an address. -/
def deep : Ctx := ctxAt (fun c => { c with stack := List.replicate 8 0 })
def sealing (w : Nat) (c : Ctx) (r : SealRange) : State :=
  { hall w c with seals := [(7, r)], handles := [(256 + 9, { valid := true, addr := g 0x10000, range := 8 })] }
def sealed : SealRange := { state := 1, part := 1, base := 0x10000, pages := 1 }

theorem witness_HallInstructionsCompute_jumps :
    (∀ ci, ci ∈ [0, 1, 2, 3, 4, 5] → ∀ p, p ∈ [(2, 2), (1, 2), (2, 1)] →
      let w := ds 0x0C [(8, 1), (12, 2), (24, ci), (32, 2 ^ 32 - 1)]
      hallReady (hall w (regs p.1 p.2)) 63 0x0C w (regs p.1 p.2) ∧ dsOnly w [fldHA, fldHB, fldCI, fldOFF] = true) ∧
    (∀ f, f ∈ [0, 1] →
      let w := ds 0x0D [(24, 9), (20, f), (32, 1 - f)]
      let s := sealing w c0 {}
      let h := s.handle (s.queue 63).part (dsCI w)
      hallReady s 63 0x0D w c0 ∧ dsOnly w [fldCI, (20, 1), fldOFF] = true ∧ (w.testBit 20 = true → h.valid = true) ∧
      c0.stack.length < 8 ∧ s.rangeAt (if w.testBit 20 then h.addr else dsTarget c0.pc w) = none) ∧
    (let w := ds 0x0D [(24, 9), (20, 1)]
     let s := sealing w c0 sealed
     let h := s.handle (s.queue 63).part (dsCI w)
     hallReady s 63 0x0D w c0 ∧ dsOnly w [fldCI, (20, 1), fldOFF] = true ∧ h.valid = true ∧ s.rangeAt h.addr = some 7 ∧
     (s.seal 7).state = 1) ∧
    (let w := ds 0x0D []; hallReady (hall w deep) 63 0x0D w deep ∧ dsOnly w [fldCI, (20, 1), fldOFF] = true ∧ 8 ≤ deep.stack.length) ∧
    (let w := ds 0x0E []; hallReady (hall w deep) 63 0x0E w deep ∧ dsOnly w [] = true ∧ deep.stack = 0 :: List.replicate 7 0) ∧
    (let w := ds 0x0E []; hallReady (hall w c0) 63 0x0E w c0 ∧ dsOnly w [] = true ∧ c0.stack = []) := by
  refine ⟨fun ci hc p hp => hall_and ?_, fun f hf => hall_and ?_, hall_and ?_, hall_and ?_, hall_and ?_, hall_and ?_⟩
  · unfold ready readsAs; fin_cases hc <;> fin_cases hp <;> decide +kernel
  · unfold ready readsAs; fin_cases hf <;> decide +kernel
  all_goals (unfold ready readsAs; decide +kernel)

/-- An entry that has issued launch 4, at a stage. -/
def launched (w : Nat) (st : LaunchStage) : State × Ctx :=
  let c := ctxAt (fun c => { c with launches := [4] })
  ({ hall w c with launches := [{ launchOf .kernel id with id := 4, stx := 2, stage := st }] }, c)

theorem witness_HallInstructionsCompute_launches :
    (∀ st, st ∈ [LaunchStage.running, .ended] →
      let w := ds 0x07 []
      hallReady (launched w st).1 63 0x07 w (launched w st).2 ∧ dsOnly w [] = true ∧
      (launched w st).1.launch 4 = some { launchOf .kernel id with id := 4, stx := 2, stage := st }) ∧
    (∀ x, x ∈ [(2, LaunchStage.ended), (2, .issued), (3, .ended)] →
      let w := ds 0x10 [(24, x.1), (16, 1)]
      let s := launched w x.2
      hallReady s.1 63 0x10 w s.2 ∧ dsOnly w [fldCI, fldHD] = true ∧
      (if x.1 = 2 then (s.1.latestLaunch s.2.launches (dsCI w)).map (·.stage) = some x.2
       else s.1.latestLaunch s.2.launches (dsCI w) = none)) := by
  refine ⟨fun st h => hall_and ?_, fun ci h => hall_and ?_⟩ <;> unfold ready readsAs <;> fin_cases h <;> decide +kernel

theorem witness_HallWaitsAndSignals_waits :
    (let w := ds 0x05 [(24, 255), (21, 1), (64, 5)]
     hallReady (hall w c0) 63 0x05 w c0 ∧ dsOnly w [fldHA, fldHB, fldCI, (20, 3), fldIMM] = true ∧ w.testBit 20 = false) ∧
    (let w := ds 0x05 [(8, 1), (12, 2), (20, 5)]
     let c := regs (g (squareCounterAddr 0 63)) 1
     let s := hall w c
     hallReady s 63 0x05 w c ∧ dsOnly w [fldHA, fldHB, fldCI, (20, 3), fldIMM] = true ∧ w.testBit 20 = true ∧
     (c.reg (dsHA w)).toNat % 8 = 0 ∧ s.squareCounterAt (c.reg (dsHA w)).toNat = some 63 ∧
     s.regRead unitHall 1 ((c.reg (dsHA w)).toNat % 2 ^ 44) 8 = .ok (toBytes 8 0) ∧ s.squareOwnedBy (63 / 64) 1 = true) ∧
    (∀ b : Bool, ∀ eq : Bool, ∀ v : Reg64, v = 0 ∨ v = 1 →
      let c := ctxAt (fun c => { c with block := .wait b 511 eq v })
      let s := hall 0 c
      (s.queue 63).ctx = some c ∧ c.block = .wait b 511 eq v ∧ s.hallFree 63 = true ∧
      ((if eq then (if b then s.hallCounter 511 else Table.get 0 s.sqCtr 511) = v
        else v.toNat ≤ (if b then s.hallCounter 511 else Table.get 0 s.sqCtr 511).toNat) ↔ v = 0)) := by
  refine ⟨hall_and ?_, hall_and ?_, ?_⟩
  · unfold ready readsAs; decide +kernel
  · unfold ready readsAs; decide +kernel
  · rintro b eq v (rfl | rfl) <;> cases b <;> cases eq <;> decide +kernel

/-- A signal and an interrupt that wait for a launch of the entry, and a signal that waits for the hall's write to another module. -/
theorem witness_HallWaitsAndSignals_held :
    (let w := ds 0x06 [(24, 255), (20, 3)]
     let s := launched w .running
     hallReady s.1 63 0x06 w s.2 ∧ dsOnly w [fldHA, fldHB, fldCI, (20, 3), fldIMM] = true ∧ w.testBit 20 = true ∧
     s.1.launchesEnded s.2.launches = false) ∧
    (let w := ds 0x11 [(20, 1)]
     let s := launched w .running
     hallReady s.1 63 0x11 w s.2 ∧ dsOnly w [(20, 1)] = true ∧ w.testBit 20 = true ∧ s.1.launchesEnded s.2.launches = false) ∧
    (let w := ds 0x06 [(24, 255), (21, 1)]
     let s := { hall w c0 with far := [⟨0, .hall 2, 0, .store [], none, 0⟩] }
     hallReady s 63 0x06 w c0 ∧ dsOnly w [fldHA, fldHB, fldCI, (20, 3), fldIMM] = true ∧ w.testBit 20 = false ∧ s.hallAwaits = true) := by
  refine ⟨hall_and ?_, hall_and ?_, hall_and ?_⟩ <;> unfold ready readsAs <;> decide +kernel

theorem witness_HallWaitsAndSignals_signals :
    (hall 0 c0).hallAwaits = false ∧
    (∀ f0, f0 ∈ [0, 1] →
      (let w := ds 0x06 [(24, 255), (20, f0), (21, 1), (64, 1)]
       hallReady (hall w c0) 63 0x06 w c0 ∧ dsOnly w [fldHA, fldHB, fldCI, (20, 3), fldIMM] = true ∧ w.testBit 21 = true ∧
       (hall w c0).launchesEnded c0.launches = true ∧ ((hall w c0).part 1).fn.hsize = 0) ∧
      (let w := ds 0x06 [(8, 1), (20, f0), (64, 1)]
       let c := regs (g 0x3008) 0
       let s := hall w c
       hallReady s 63 0x06 w c ∧ dsOnly w [fldHA, fldHB, fldCI, (20, 3), fldIMM] = true ∧ w.testBit 21 = false ∧
       (c.reg (dsHA w)).toNat = g 0x3008 ∧ s.isLocal (g 0x3008) = true ∧ placeOf s.isM 0x3008 = .well 0 ∧
       s.checkAcc ⟨unitHall, 1, 0x3008, 8, .atom 0 8, false⟩ = 0 ∧ s.parityOf 0x3008 8 = 0)) ∧
    (let w := ds 0x11 [(20, 1)]
     let s := { hall w c0 with parts := [(1, { fn := { msixEn := true, unmasked := [(0, true)] } })] }
     hallReady s 63 0x11 w c0 ∧ dsOnly w [(20, 1)] = true ∧ s.launchesEnded c0.launches = true ∧ (s.part 1).fn.hsize = 0 ∧
     (s.queue 63).itype = 0 ∧ interruptSends s 1 (s.queue 63).vec) := by
  refine ⟨rfl, fun f0 h => ⟨hall_and ?_, hall_and ?_⟩, hall_and ?_⟩
  · unfold ready readsAs; fin_cases h <;> decide +kernel
  · unfold ready readsAs; fin_cases h <;> decide +kernel
  · unfold ready readsAs interruptSends; decide +kernel

/-- A launch instruction with a descriptor address. -/
def lnch (op addr x : Nat) : Nat := ds op [(20, x), (37, 1), (40, 2 ^ 16 - 1), (56, 255), (64, addr)]

theorem witness_HallLaunchesAndSeals_launches : ∀ i, i < 3 → ∀ a, a ∈ [(64, 0), (1, 0), (64, 1)] →
    let r := (launchForms 63).getD i (.dspNop 63, 0, .kernel)
    let w := lnch r.2.1 a.1 a.2
    hallReady (hall w c0) 63 r.2.1 w c0 ∧ r ∈ launchForms 63 ∧ launchIllegal (r.2.2 == .kernel) c0 w = decide (a.2 = 1) ∧
    ((hall w c0).launchOf 63 r.2.2 w c0).daddr % 64 = a.1 % 64 := by
  intro i hi a ha
  refine hall_and ?_
  interval_cases i <;> fin_cases ha <;> (unfold ready readsAs; decide +kernel)

/-- A bucket table at 0x200 with a bucket of length 16. -/
def bucketed (w want : Nat) : State :=
  { hall w (regs want 0) with mem := Table.setList 0 (hall w c0).mem 0x200 (toBytes 16 1 ++ toBytes 8 16 ++ toBytes 8 (g 0x4000)) }

theorem witness_HallLaunchesAndSeals_buckets : ∀ want, want ∈ [16, 17] → ∀ hd, hd ∈ [1, 14] →
    let w := ds 0x04 [(8, 1), (16, hd), (32, 2), (64, g 0x200)]
    let s := bucketed w want
    let bs := s.bytes 0x210 16
    hallReady s 63 0x04 w (regs want 0) ∧ dsOnly w [fldHA, fldHD, fldOFF, fldIMM] = true ∧ 1 ≤ dsHD w ∧ dsHD w ≤ 14 ∧
    readsAs s unitHall 1 (g 0x200) 16 true (s.bytes 0x200 16) ∧ ofBytes ((s.bytes 0x200 16).take 4) = 1 ∧
    readsAs s unitHall 1 (g 0x200 + 16) 16 true bs ∧ (((regs want 0).reg (dsHA w)).toNat ≤ ofBytes (slice bs 0 8) ↔ want = 16) := by
  intro want hw hd hh
  refine hall_and ?_
  fin_cases hw <;> fin_cases hh <;> (unfold ready readsAs; decide +kernel)

theorem witness_HallLaunchesAndSeals_seals :
    (let w := ds 0x12 [(8, 1), (12, 2), (16, 3)]
     let c := regs (g 0x10000) 1
     let s := hall w c
     hallReady s 63 0x12 w c ∧ dsOnly w [fldHA, fldHB, fldHD] = true ∧ (c.reg (dsHA w)).toNat = g 0x10000 ∧ (c.reg (dsHB w)).toNat = 1 ∧
     s.isLocal (g 0x10000) = true ∧ s.pagesOwned 1 0x10000 1 = true ∧ s.anySealed 0x10000 4096 = false ∧
     ∃ i, i < 1024 ∧ (s.seal i).state = 0) ∧
    (let w := ds 0x13 [(8, 1), (24, 255)]
     let c := regs (g 0x10FF0) 0
     let s := sealing w c sealed
     hallReady s 63 0x13 w c ∧ dsOnly w [fldHA, fldCI] = true ∧ (c.reg (dsHA w)).toNat = g 0x10FF0 ∧ s.rangeAt (g 0x10FF0) = some 7 ∧
     (s.seal 7).state = 1 ∧ (s.seal 7).part = 1) ∧
    (∀ n, n ∈ [7, 8] →
      let w := ds 0x14 [(8, 1)]
      let s := sealing w (regs n 0) sealed
      hallReady s 63 0x14 w (regs n 0) ∧ dsOnly w [fldHA] = true ∧ ((regs n 0).reg (dsHA w)).toNat = n ∧
      s.rangeNamed 1 n = decide (n = 8) ∧ (s.seal 7).state = 1 ∧ (s.seal 7).part = 1) ∧
    (∀ pins, pins ∈ [0, 1] → ((sealing 0 c0 { sealed with state := 2, pins := pins }).seal 7).state = 2 ∧
      ((sealing 0 c0 { sealed with state := 2, pins := pins }).seal 7).pins = pins) := by
  refine ⟨?_, hall_and ?_, fun n h => hall_and ?_, by decide +kernel⟩
  · refine hall_and ⟨by unfold ready readsAs; decide +kernel, by decide +kernel, by decide +kernel, by decide +kernel, by decide +kernel,
      by decide +kernel, by decide +kernel, 0, by decide, by decide +kernel⟩
  · unfold ready readsAs; decide +kernel
  · unfold ready readsAs; fin_cases h <;> decide +kernel

/-- A queue in a state, its ring at 0x8000. -/
def queued63 (st tail : Nat) (f : Queue → Queue := id) : State :=
  { owned State.reset with
    queues := [(63, f { bound := st != 0, part := 1, state := st, en := st == 2, base := g 0x8000, cpl := g 0x2000, tail := tail })]
    boot := { State.reset.boot with phase := 3 } }

theorem witness_QueuesRunEntries_registers :
    (let s := queued63 0 0
     writeAllowed s (0x1000000 + 0x1000 * 63) (write 0x10F) (.queue 63 0) ∧ (s.queue 63).state < 2 ∧ (s.queue 63).bound = false ∧
     (write 0x10F).val.toNat.testBit 8 = true) ∧
    (∀ v, v ∈ [0, 1] →
      let s := queued63 2 1
      writeAllowed s (0x1000000 + 0x1000 * 63 + 0x18) (write v) (.queue 63 0x18) ∧ (s.queue 63).state = 2 ∧
      (write v).val.toNat - (s.queue 63).head ≤ 2 ^ (s.queue 63).log2n ∧ ((s.queue 63).tail ≤ (write v).val.toNat ↔ v = 1)) ∧
    (let s := queued63 1 1
     writeAllowed s (0x1000000 + 0x1000 * 63 + 0x38) (write 1) (.queue 63 0x38) ∧ (write 1).val.toNat.testBit 1 = false ∧
     (write 1).val.toNat.testBit 0 = true ∧ (s.queue 63).state = 1 ∧ s.queueValid (s.queue 63) = true ∧ s.power.state = 0) ∧
    (let s := queued63 2 1
     writeAllowed s (0x1000000 + 0x1000 * 63 + 0x38) (write 2) (.queue 63 0x38) ∧ (write 2).val.toNat.testBit 1 = true ∧
     (write 2).val.toNat.testBit 0 = false ∧ s.stop.stopped = false ∧ (s.queue 63).state = 2) := by
  unfold writeAllowed; decide +kernel

theorem witness_QueuesRunEntries_overflow :
    let s := queued63 2 1
    writeAllowed s (0x1000000 + 0x1000 * 63 + 0x18) (write 2) (.queue 63 0x18) ∧ (s.queue 63).state = 2 ∧
    (s.queue 63).tail ≤ (write 2).val.toNat ∧ 2 ^ (s.queue 63).log2n < (write 2).val.toNat - (s.queue 63).head := by
  unfold writeAllowed; decide +kernel

theorem witness_QueuesRunEntries_destroy_ready :
    let s := { queued63 1 1 with parts := [(1, { fn := { msixEn := true, unmasked := [(0, true)] } })] }
    writeAllowed s (0x1000000 + 0x1000 * 63 + 0x38) (write 2) (.queue 63 0x38) ∧ (write 2).val.toNat.testBit 1 = true ∧
    (write 2).val.toNat.testBit 0 = false ∧ s.stop.stopped = false ∧ (s.queue 63).state = 1 ∧ bits (write 2).val.toNat 3 1 = 0 ∧
    interruptSends s 1 (bits (write 2).val.toNat 4 11) := by
  unfold writeAllowed interruptSends; decide +kernel

/-- An entry that has ended, with a status area. -/
def endedC : Ctx := ctxAt (fun c => { c with block := .ended, statAddr := g 0x3000 })

theorem witness_QueuesRunEntries_entries :
    (∀ bad : Bool,
      let s := { queued63 2 1 with mem := if bad then [(0x8000, 1)] else [] }
      let v := ofBytes (s.bytes 0x8000 64)
      s.hasTurn 63 = true ∧ (s.queue 63).ctx = none ∧
      readsAs s unitHall 1 ((s.queue 63).slot (s.queue 63).head) 64 true (s.bytes 0x8000 64) ∧
      (if bad then s.entryCode 1 v = eAlign else s.entryCode 1 v = 0 ∧ s.rangeAt (s.entryCtx 1 1 v).pc = none)) ∧
    (((hall 0 endedC).queue 63).ctx = some endedC ∧ endedC.block = .ended ∧ endedC.endSrc ≠ 3 ∧ entryMayComplete (hall 0 endedC) 63 endedC) ∧
    (let w := ds 0x0F []
     hallReady (hall w c0) 63 0x0F w c0 ∧ dsOnly w [] = true ∧ entryMayComplete (hall w c0) 63
       { c0 with pc := insAfter c0, block := .ended, endCode := 0, endSrc := 0, endStx := 0, endAddr := 0 }) ∧
    (let s := queued63 3 1 (fun x => { x with head := 1 })
     (s.queue 63).state = 3 ∧ (s.queue 63).ctx = none ∧ (s.queue 63).dstep = 0 ∧ (s.queue 63).dwork = none ∧ s.launchesOfQueue 63 = [] ∧ s.hallAwaits = false ∧ s.stop.stopped = false ∧
     (s.queue 63).tail ≤ (s.queue 63).head ∧ (s.queue 63).cpl ≠ 0 ∧ writable s unitHall 1 (s.queue 63).cpl 8 true) := by
  refine ⟨?_, ?_, hall_and ?_, ?_⟩
  · unfold readsAs; intro bad; cases bad <;> decide +kernel
  · exact ⟨rfl, rfl, by decide, ⟨rfl, by decide +kernel, rfl, rfl, by decide +kernel, rfl, by unfold writable; decide +kernel, .inl rfl,
      fun _ _ _ => ⟨by unfold writable; decide +kernel, by decide +kernel⟩⟩⟩
  · exact ⟨by unfold ready readsAs; decide +kernel, by decide +kernel,
      ⟨rfl, by decide +kernel, rfl, rfl, by decide +kernel, rfl, by unfold writable; decide +kernel, .inl rfl,
      fun _ h _ => absurd rfl h⟩⟩
  · unfold writable; decide +kernel

/-! Extents, quarters, squares, cores and partitions changing hands (10, 13). -/

def fencing (f : QuarterFence) : State := { State.reset with fences := [(7, f)] }

theorem witness_ExtentsScrubAndQuartersFence :
    (∀ n : Fin 1280, n = 0 ∨ n = 1279 → writeAllowed State.reset (0x5A00000 + 8 * n.val) (write (0x8F * 2 ^ 56)) (.xtent n.val) ∧
      State.reset.extentExists (8 * n.val + 7) = true ∧
      ((State.reset.extent (8 * n.val + 7)).valid, (State.reset.extent (8 * n.val + 7)).owner) ≠ entryFields (write (0x8F * 2 ^ 56)) 7 ∧
      ((State.reset.extent (8 * n.val + 6)).valid, (State.reset.extent (8 * n.val + 6)).owner) = entryFields (write (0x8F * 2 ^ 56)) 6) ∧
    (({ State.reset with extents := [(10239, { scrub := true })] } : State).extent 10239).scrub = true ∧
    (∀ v, v ∈ [0x80, 0x8000, 0x8080] → ∀ b : Bool,
      let s := fencing { fenced := b }
      writeAllowed s 0x5A02800 (write v) .fenceCtl ∧ (s.fence 7).fenced = b ∧ (s.fence 7).busy = false ∧
      (write v).val.toNat.testBit 7 = decide (v ≠ 0x8000) ∧ (write v).val.toNat.testBit 15 = decide (v ≠ 0x80)) ∧
    (∀ b : Bool, let s := { State.reset with stop := { State.reset.stop with stopped := b }, retries := [⟨.core 0 0 (.load 8), 0⟩] }
     (s.fence 7).fenced = false ∧ (s.fence 7).busy = false ∧ s.stop.stopped = b ∧ ∀ r, r ∈ s.retries → sourceInQuarter r.src 7 = false) ∧
    (let s := fencing { fenced := true, busy := true }
     (s.fence 7).fenced = true ∧ (s.fence 7).busy = true ∧ (s.fence 7).restoring = false) ∧
    (∀ b : Bool, let s := { fencing { fenced := true, busy := true, restoring := true, cause := 2 } with
        power := { State.reset.power with dies := [(7, { phflt := b })] } }
     (s.fence 7).busy = true ∧ (s.fence 7).restoring = true ∧ s.causePresent 7 = b) := by
  unfold writeAllowed
  refine ⟨?_, by decide +kernel, by decide +kernel, by decide +kernel, by decide +kernel, by decide +kernel⟩
  rintro n (rfl | rfl) <;> decide +kernel

theorem test_extent_write_zeroes :
    (after (.ptnXtentWrite 0 (write 0x8F)) { State.reset with mem := [(5, 1), (2 ^ 28, 2)] }).mem = [(2 ^ 28, 2)] := by decide +kernel

theorem witness_SquaresAndCoresChangeHands :
    (∀ o : SquareOwner, o ∈ [{ valid := true, owner := 15 }, {}, { busy := true }, { eff := 16 }] →
      let s := { State.reset with sqOwn := [(127, o)], parts := [(15, { reset := { resetting := true, stage := 2 } })] }
      let f := entryFields (write (0x8F * 2 ^ 56)) 7
      writeAllowed s (0x2000000 + 8 * 15) (write (0x8F * 2 ^ 56)) (.sqown 15) ∧ (s.owner 127).busy = o.busy ∧
      (s.fence (127 / 16)).fenced = false ∧ (((s.owner 127).valid, (s.owner 127).owner) = f ↔ o.valid = true) ∧
      s.beforeStep3 127 = decide (o.eff = 16)) ∧
    (let s := { State.reset with sqOwn := [(127, { valid := true, busy := true, owner := 15, moveTo := 16, eff := 1 })] }
     s.handoverReady 127 = true ∧ (s.part ((s.owner 127).eff - 1)).ctxEn = false ∧ (s.part ((s.owner 127).moveTo - 1)).ctxEn = false) ∧
    (∀ b : Bool, ∀ d : Table Bool, d = [] ∨ d = [(0, true)] → let s := { State.reset with harts := [(47, { halted := b, run := !b, dirty := d })] }
     writeAllowed s (0x2000800 + 8 * 47) (write 0x11F) (.hart 47) ∧ s.power.state = 0 ∧ (s.hart 47).halted = b ∧
     (write 0x11F).val.toNat.testBit 8 = true ∧ (write 0x11F).val.toNat.testBit 4 = true ∧ (s.fence (47 / 6)).fenced = false ∧
     (s.part (bits (write 0x11F).val.toNat 0 4)).reset.resetting = false) ∧
    (∀ b : Bool, let s := { State.reset with
        harts := [(47, { halted := false })]
        hostReqs := if b then [{ part := 0, addr := 0, bus := 0, len := 8, kind := .load 8, waiter := .core 47, unit := 0 }] else [] }
     (s.hart 47).run = false ∧ (s.hart 47).halted = false ∧ s.coreWaits 47 = b) := by
  unfold writeAllowed
  refine ⟨by decide +kernel, by decide +kernel, ?_, by decide +kernel⟩
  rintro b d (rfl | rfl) <;> revert b <;> decide +kernel

/-- Square 127 goes from partition `o` to partition `n`, of which partition 3 keeps contexts at the start of the reservoir. -/
def moving127 (o n : Nat) : State :=
  { State.reset with
    sqOwn := [(127, { valid := true, busy := true, owner := n, moveTo := n + 1, moved := (true, n), eff := o + 1 })]
    extents := [(2048, { valid := true, owner := 3 })]
    parts := [(3, { ctxEn := true, ctxBase := reservoirBase })] }

theorem witness_SquaresAndCoresChangeHands_contexts :
    (let s := moving127 3 15
     let x := contextAcc (s.part 3) 3 127 .write
     s.handoverReady 127 = true ∧ (s.part 3).ctxEn = true ∧ (s.owner 127).eff = 4 ∧ (s.owner 127).cleaned = false ∧
     (s.part ((s.owner 127).moveTo - 1)).ctxEn = false ∧ inReservoir s.isM x.addr 8224 = true ∧ s.checkAcc x = 0) ∧
    (∀ v, v ∈ [0, 3] →
      let s := { moving127 15 3 with mem := Table.set 0 [] (reservoirBase + 8224 * 127 + 16) v }
      let g := globalOf ((s.part 3).ctxBase + 8224 * 127)
      s.handoverReady 127 = true ∧ (s.part 3).ctxEn = true ∧ (s.owner 127).moveTo = 4 ∧ (s.part ((s.owner 127).eff - 1)).ctxEn = false ∧
      inReservoir s.isM (reservoirBase + 8224 * 127) 8224 = true ∧ readsAs s 127 3 g 8224 true (s.bytes (g % 2 ^ 44) 8224) ∧
      ofBytes (s.bytes (g % 2 ^ 44 + 16) 1) % 2 = v.toNat / 3) := by
  refine ⟨by decide +kernel, fun v h => ?_⟩
  fin_cases h <;> exact ⟨by decide +kernel, by decide +kernel, by decide +kernel, by decide +kernel, by decide +kernel,
    ⟨by decide +kernel, by decide +kernel, by decide +kernel, by decide +kernel, by decide +kernel, rfl⟩, by decide +kernel⟩

/-- Partition 15 with this much set, on its virtual function. -/
def parted (f : Part → Part) : State :=
  { State.reset with
    vfEnable := true, numVfs := 15, parts := [(15, f {})], boot := { State.reset.boot with phase := 3 }
    power := { State.reset.power with perst := false } }

theorem witness_PartitionsReset_triggers :
    (writeAllowed State.reset 0x2000400 (write 0x8000) .rstCtl ∧ (write 0x8000).val.toNat.testBit 17 = false ∧
      (write 0x8000).val.toNat.testBit 16 = false ∧ (write 0x8000).val.toNat.testBit 15 = true ∧ State.reset.stop.stopped = false ∧
      State.reset.power.state = 0 ∧ (State.reset.part 15).reset.resetting = false) ∧
    (let s := parted id
     s.functionPresent 15 = true ∧ s.functionPresent 0 = true ∧ s.inService = true ∧ s.stop.stopped = false ∧ s.power.state = 0 ∧
     (s.part 15).reset.resetting = false ∧ s.vfEnable = true ∧
     15 ≤ s.numVfs ∧ (if true then 14 else 0) < 15) ∧
    (let s := parted (fun x => { x with reset := { resetting := true, stage := 1 } })
     (s.part 15).reset.resetting = true ∧ (s.part 15).reset.stage = 1 ∧ s.boot.running ≠ some 15) ∧
    (∀ b : Bool,
     let s := { parted (fun x => { x with reset := { resetting := true, stage := 2 }, fn := { msixEn := true, unmasked := [(0, b)] } }) with
       seals := [(0, { state := 1, part := 15 })] }
     s.workDestroyed 15 = true ∧ s.stop.stopped = false ∧ (s.part 15).ctxEn = false ∧ (s.part 15).ctxBase = 0 ∧ (s.part 15).pfxLog2n = 0 ∧
     (s.part 0).reset.byPf = false ∧ (s.part 15).rdItype = 0 ∧ Table.get false (s.part 15).fn.unmasked (s.part 15).rdVec = b) := by
  unfold writeAllowed; decide +kernel

/-- The reset of partition 15 is to clear its context records, and to walk a tree of two slots whose second holds a record. -/
def emptied (f : Part → Part) (mem : Table Byte := []) : State :=
  { parted (fun x => f { x with reset := { resetting := true, stage := 2 } }) with
    extents := [(0, { valid := true, owner := 15 }), (2048, { valid := true, owner := 15 })], mem := mem }

theorem witness_PartitionsReset_contexts :
    let s := emptied (fun x => { x with ctxBase := reservoirBase })
    s.workDestroyed 15 = true ∧ s.stop.stopped = false ∧ (s.part 15).ctxBase ≠ 0 ∧ (s.part 15).pfxLog2n = 0 ∧
    (∀ u, u < 128 → s.squareOwnedBy u 15 = false) ∧
    (∀ u, u < 128 → s.checkAcc ⟨unitReset, 15, reservoirBase + 8224 * u + 16, 1, .write, true⟩ = 0) := by
  decide +kernel

theorem witness_PartitionsReset_tree : ∀ w, w ∈ [2 ^ 34 + 1, 2 ^ 34 + 2, 5] →
    let s := emptied (fun x => { x with pfxBase := 0x10000, pfxLog2n := 1 })
      (Table.setList 0 (Table.setList 0 [] 0x10040 (toBytes 64 (2 + g 0xE000 * 2 ^ 128))) 0xE000 (toBytes 8 w))
    let x := s.part 15
    let slot := fun k => ofBytes (s.bytes (x.pfxBase + 64 * k) 64)
    let brec := bits (slot 1) 128 56
    s.workDestroyed 15 = true ∧ s.stop.stopped = false ∧ x.ctxEn = false ∧ x.ctxBase = 0 ∧ x.pfxLog2n ≠ 0 ∧ 1 < 2 ^ x.pfxLog2n ∧
    (∀ u, u < 128 → s.squareOwnedBy u 15 = false) ∧
    (∀ k, k < 2 ^ x.pfxLog2n → s.checkAcc ⟨unitReset, 15, x.pfxBase + 64 * k, 64, .read, true⟩ = 0 ∧
      s.parityOf (x.pfxBase + 64 * k) 64 = 0 ∧ (k ≠ 1 → bits (slot k) 0 64 < 2 ∨ bits (slot k) 128 56 = 0)) ∧
    2 ≤ bits (slot 1) 0 64 ∧ brec ≠ 0 ∧ s.isLocal brec = true ∧ placeOf s.isM (brec % 2 ^ 44) = .well 0 ∧
    s.checkAcc ⟨unitReset, 15, brec % 2 ^ 44, 8, .read, true⟩ = 0 ∧ s.checkAcc ⟨unitReset, 15, brec % 2 ^ 44, 8, .atom 9 8, false⟩ = 0 ∧
    s.parityOf (brec % 2 ^ 44) 8 = 0 ∧ brec % 2 ^ 44 + 8 ≤ x.pfxBase ∧ ofBytes (s.bytes (brec % 2 ^ 44) 8) = w := by
  decide +kernel

theorem witness_PartitionsReset_interrupts :
    (∀ b : Bool, ∀ m : Bool,
      let e : Moderation := { target := .msix 2047, until_ := 0, pending := b, regUnit := 0, regAddr := 0 }
      let x := (parted (fun x => { x with moderation := [e], fn := { msixEn := m, unmasked := [(2047, true)] } })).part 15
      x.moderation.find? (fun m => m.target == .msix 2047) = some e ∧ e.until_ ≤ State.reset.time ∧ x.reset.resetting = false ∧
      x.reset.holdDone = false ∧ x.fn.msixEn = m ∧ x.fn.fmask = false ∧ Table.get false x.fn.unmasked 2047 = true) ∧
    (let s := parted (fun x => { x with fn := { msixEn := true, pend := [(2047, true)] } })
     s.functionPresent 15 = true ∧ s.inService = true ∧ (s.part 15).fn.msixEn = true ∧ (s.part 15).fn.fmask = false ∧ (s.part 15).reset.resetting = false ∧
     (s.part 15).reset.holdDone = false ∧ (s.part 15).fn.pend = [(2047, true)] ∧
     ∀ e, e ∈ (s.part 15).moderation → e.target ≠ .msix 2047) := by
  decide +kernel

/-! Supply, resets of the module, the power controller, Dormant and the time base (13, 15, 16, 17, 19). -/

/-- A module with input power, with this much of its power unit set. -/
def powered (f : Power → Power) : State := { State.reset with power := f { State.reset.power with ven := true, gates := true } }
/-- Partition p's mailbox holds this command, which is the running one. -/
def boxed (p : Nat) (op : Nat) (a0 a1 : Nat) (f : Boot → Boot := id) : State :=
  { State.reset with
    parts := [(p, { mbox := { runOp := op, busy := true, runArg0 := BitVec.ofNat 64 a0, runArg1 := BitVec.ofNat 64 a1 } })]
    boot := f { State.reset.boot with running := some p } }

theorem witness_ModuleResetsAndStarts :
    (∀ v, v ∈ [0x20000, 0x10000] → writeAllowed State.reset 0x2000400 (write v) .rstCtl ∧
      (write v).val.toNat.testBit 17 = decide (v = 0x20000) ∧ (write v).val.toNat.testBit 16 = decide (v = 0x10000) ∧
      (State.reset.squares.map Prod.fst).Nodup ∧ (State.reset.power.retention.map Prod.fst).Nodup) ∧
    (let s := boxed 0 8 0 0
     s.boot.running = some 0 ∧ (s.part 0).mbox.runOp = 8 ∧ (s.part 0).mbox.busy = true ∧ s.boot.executed = false ∧ s.power.stoppedFor = 0) ∧
    ({ State.reset with boot := { State.reset.boot with warming := true } } : State).boot.warming = true ∧
    (∀ b : Bool, (powered (fun w => { w with perst := b })).power.gates = true ∧ (powered (fun w => { w with perst := b })).power.perst = b) ∧
    (∀ ph, ph ∈ [0, 1, 2] → let s := { powered id with boot := { State.reset.boot with starting := true, phase := ph } }
     s.boot.starting = true ∧ s.power.gates = true ∧ s.boot.phase = ph ∧ s.boot.phase ≤ 2 ∧ flashQuiet s) ∧
    (∀ x, x ∈ [(0, 0), (0, 44999999), (1, 219999999)] →
      let s := { powered id with boot := { State.reset.boot with starting := true, phase := x.1, elapsed := x.2 } }
      s.pending = [] ∧ s.power.gates = true ∧ s.boot.starting = true ∧ s.boot.phase = x.1 ∧ s.boot.elapsed = x.2) ∧
    (∀ mv, mv ∈ [44000, 60000] → let s := powered (fun w => { w with gates := false, busMv := mv })
     s.power.ven = true ∧ s.power.gates = false ∧ 44000 ≤ s.power.busMv ∧ s.power.busMv ≤ 60000) ∧
    ((powered id).power.gates = true ∧ State.reset.power.gates = false ∧ 35999 < 36000) := by
  unfold writeAllowed flashQuiet
  refine ⟨by decide +kernel, by decide +kernel, by decide +kernel, by decide +kernel, fun ph h => ?_, by decide +kernel, by decide +kernel,
    by decide +kernel⟩
  fin_cases h <;> exact ⟨rfl, rfl, rfl, by decide, fun p h => absurd h (by simp [State.reset])⟩

theorem witness_SupplyEventsAct :
    ((powered id).power.gates = true ∧ State.reset.power.gates = false ∧ 43999 < 44000 ∧ 39999 < 40000 ∧ (powered id).power.stoppedFor = 0) ∧
    (let s := { powered (fun w => { w with sag := true, aboveSince := some 0, overSince := some 0 }) with time := 1000000 }
     s.power.sag = true ∧ s.power.aboveSince = some 0 ∧ 0 + 1000000 ≤ s.time ∧ s.power.overSince = some 0 ∧ s.power.stoppedFor = 0 ∧ s.power.gates = true) ∧
    (let s := { powered (fun w => { w with sagSince := some 0 }) with time := 10000000 }
     s.power.sagSince = some 0 ∧ 0 + 10000000 ≤ s.time ∧ s.power.stoppedFor = 0) ∧
    (let s := { powered (fun w => { w with stoppedFor := 1, inRangeSince := some 0 }) with time := 100000000 }
     s.power.stoppedFor = 1 ∧ s.power.inRangeSince = some 0 ∧ 0 + 100000000 ≤ s.time) ∧
    (let s := powered (fun w => { w with stoppedFor := 2, tmax := 69 })
     s.power.stoppedFor = 2 ∧ s.power.tmax < 70) ∧
    ((44000 ≤ 44000 ∧ 60000 ≤ 60000) ∧ 60000 < 60001) := by decide +kernel

theorem witness_PowerControllerAndDormant :
    (∀ b : Bool, let s := { powered (fun w => { w with sampled := true, mw := 1000000, ramp := 1 }) with time := 50000 }
     s.withinRamp ⟨5000, if b then 23000 else 23002, [], [], [], [], 0⟩ = b) ∧
    (let s := { powered id with time := 50000 }
     s.power.gates = true ∧ s.power.lastSample + 50000 ≤ s.time ∧ s.power.lastEval + 1000 ≤ s.time ∧ s.power.state = 0 ∧
     s.power.stoppedFor = 0) ∧
    (∀ b : Bool, let s := { powered id with queues := if b then [] else [(0, { state := 2 })] }
     writeAllowed s 0x6000008 (write 1) (.pwr 8) ∧ (write 1).val.toNat.testBit 0 = true ∧ (write 1).val.toNat.testBit 1 = false ∧
     s.mayEnter = b) ∧
    (let s := powered (fun w => { w with state := 2 })
     writeAllowed s 0x6000008 (write 2) (.pwr 8) ∧ (write 2).val.toNat.testBit 0 = false ∧ (write 2).val.toNat.testBit 1 = true ∧
     s.power.state = 2) ∧
    (let s := powered (fun w => { w with state := 1 }); s.power.state = 1 ∧ s.power.wakePending = false) ∧
    (let s := { powered (fun w => { w with state := 3, wakeAt := some 0, retention := [(0, { mode := 0 })] }) with time := 1199000 }
     s.power.state = 3 ∧ s.power.wakeAt = some 0 ∧ 0 + 1199000 ≤ s.time ∧ s.held = [] ∧ s.heldResets = [] ∧ s.power.wien = false ∧
     (s.power.retention.map Prod.fst).Nodup) ∧
    (let s := { State.reset with replicas := [(21, 1)] }; s.replica 21 = 1) ∧
    (let s := { State.reset with replicas := [(21, 2002)], time := 2000 }; 2 ≤ s.replica 21 ∧ s.replica 21 ≤ 2 + s.time) := by
  unfold writeAllowed; decide +kernel

theorem test_bus_recovery_keeps_its_start :
    let w := (after (.busRecovery 44000) { powered (fun w => { w with inRangeSince := some 3, sagSince := some 1 }) with time := 9 }).power
    w.inRangeSince = some 3 ∧ w.sagSince = none ∧ w.aboveSince = some 9 := by decide +kernel

/-! The boot mailbox (16). -/

/-- Partition 1 has a sealed region over the first two extents, and Partition 0 too; both own extents 0. -/
def regionDesc : List Byte := toBytes 32 (2 ^ 20 * 2 ^ 44 + 2 ^ 127 + 2 ^ 132)
def sealedBox (p : Nat) (op a0 a1 : Nat) : State :=
  { boxed p op a0 a1 (fun b => { b with phase := 3, slot := 1 }) with
    extents := [(0, { valid := true, owner := p })]
    parts := [(p, { mbox := { runOp := op, busy := true, runArg0 := BitVec.ofNat 64 a0, runArg1 := BitVec.ofNat 64 a1 }, rtabBase := 0x200000,
                    rtabCnt := 1 })]
    mem := Table.setList 0 [] 0x200000 regionDesc }

theorem witness_MailboxCommandsRun_flash :
    (let s := boxed 0 1 0x100000 0x3E00000
     mailboxRuns s 0 1 ∧ 0x100000 % 65536 = 0 ∧ (s.part 0).mbox.runArg0.toNat = 0x100000 ∧ (s.part 0).mbox.runArg1.toNat = 0x3E00000 ∧
     s.flashRange 0x100000 0x3E00000 = 0) ∧
    (let s := boxed 0 1 0x0 0
     mailboxRuns s 0 1 ∧ (s.part 0).mbox.runArg0.toNat = 0 ∧ (s.part 0).mbox.runArg1.toNat = 0 ∧ s.flashRange 0 0 ≠ 0) ∧
    (∀ b : Bool, let s := boxed 0 2 0x3EFFF00 256 (fun x => { x with badFlash := if b then [] else [(0x3EFFF00, true)] })
     s.flashGood 0x3EFFF00 256 = b) ∧
    (∀ b : Bool, let s := boxed 0 3 0x3EFFF00 256 (fun x => { x with badFlash := if b then [] else [(0x3EFFF00, true)] })
     mailboxRuns s 0 3 ∧ (s.part 0).mbox.runArg0.toNat + (s.part 0).mbox.runArg1.toNat ≤ 0x3F00000 ∧ s.flashGood 0x3EFFF00 256 = b) ∧
    (let s := boxed 0 3 0x3EFFFFF 2
     mailboxRuns s 0 3 ∧ 0x3F00000 < (s.part 0).mbox.runArg0.toNat + (s.part 0).mbox.runArg1.toNat) ∧
    (let s := boxed 0 2 0x3EFFF00 256 (fun b => { b with erasedA := true, erasedB := true, mbBuf := [(0, 7)] })
     mailboxRuns s 0 2 ∧ (s.part 0).mbox.runArg0.toNat % 256 = 0 ∧ 1 ≤ (s.part 0).mbox.runArg1.toNat ∧ (s.part 0).mbox.runArg1.toNat ≤ 65536 ∧
     s.flashRange 0x3EFFF00 256 = 0 ∧ s.boot.erasedB = true) ∧
    (∀ n, n ∈ [0, 1, 65536, 65537] → let s := boxed 0 3 0 n
     mailboxRuns s 0 3 ∧ (s.part 0).mbox.runArg1.toNat = n ∧ (s.part 0).mbox.runArg0.toNat + n ≤ 0x3F00000) ∧
    (let s := boxed 0 4 0 0; mailboxRuns s 0 4 ∧ s.boot.phase ≠ 4) := by
  unfold mailboxRuns; decide +kernel

/-- No byte is guarded where both slots have been erased; a program over the buffer's byte then keeps its zeros. -/
theorem witness_MailboxCommandsRun_erased :
    ∃ old : Nat → Byte, let s := boxed 0 2 0x3EFFF00 256 (fun b => { b with erasedA := true, erasedB := true })
      (∀ b, guardErases s 0x3EFFF00 256 b → old b = 255) ∧ ∀ b, ¬ guardErases s 0x3EFFF00 256 b → old b = flashByte s b := by
  refine ⟨flashByte _, ?_, fun b _ => rfl⟩
  rintro b ⟨k, _, hk, _, _, he, _⟩
  interval_cases k <;> simp [boxed] at he

theorem witness_MailboxCommandsRun_trust :
    (let s := sealedBox 1 5 (g 0x1000) 0
     mailboxRuns s 1 5 ∧ s.boot.phase ≠ 4 ∧ s.boot.idfail = false ∧ (s.part 1).mbox.runArg0.toNat = g 0x1000 ∧ s.isLocal (g 0x1000) = true ∧
     s.inSealedRegion unitBsc 1 0x1000 16384 = true ∧ s.extentOk 1 0x1000 = true ∧ s.extentOk 1 (0x1000 + 16383) = true ∧
     s.checkAcc ⟨unitBsc, 1, 0x1000, 64, .read, true⟩ = 0 ∧ s.parityOf 0x1000 64 = 0 ∧
     s.checkAcc ⟨unitBsc, 1, 0x1000, 16384, .write, true⟩ = 0 ∧ placeOf s.isM 0x1000 ≠ .host) ∧
    (∀ a, a ∈ [g 0x1008, 0x1000] → ∀ b : Bool,
     let s := { sealedBox 1 5 a 0 with boot := { (sealedBox 1 5 a 0).boot with idfail := b } }
     mailboxRuns s 1 5 ∧ s.boot.phase ≠ 4 ∧ (s.part 1).mbox.runArg0.toNat = a ∧ s.boot.idfail = b ∧
     (s.isLocal a = true ∧ s.inSealedRegion unitBsc 1 (a % 2 ^ 44) 16384 = true ∧ s.extentOk 1 (a % 2 ^ 44) = true ∧
       s.extentOk 1 (a % 2 ^ 44 + 16383) = true ↔ a = g 0x1008) ∧ (a % 4096 ≠ 0 ↔ a = g 0x1008)) ∧
    (∀ op, op ∈ [4, 5, 6, 7] → let s := boxed 0 op 0 0 (fun b => { b with phase := 4 })
     mailboxRuns s 0 op ∧ s.boot.phase = 4) ∧
    (∀ op, op ∈ [0, 9] → let s := boxed 0 op 0 0
     s.boot.running = some 0 ∧ s.boot.executed = false ∧ ((s.part 0).mbox.runOp = 0 ∨ 8 < (s.part 0).mbox.runOp)) ∧
    (let s := sealedBox 0 6 1023 (g 0x20)
     mailboxRuns s 0 6 ∧ s.boot.phase ≠ 4 ∧ (s.part 0).mbox.runArg0.toNat = 1023 ∧ (s.part 0).mbox.runArg1.toNat = g 0x20 ∧
     s.isLocal (g 0x20) = true ∧ s.inSealedRegion unitBsc 0 0x20 32 = true ∧ s.checkAcc ⟨unitBsc, 0, 0x20, 32, .read, true⟩ = 0 ∧
     s.parityOf 0x20 32 = 0 ∧ s.checkAcc ⟨unitBsc, 0, 0x20, 32, .write, true⟩ = 0 ∧ placeOf s.isM 0x20 ≠ .host) ∧
    (let s := boxed 0 7 1023 0; mailboxRuns s 0 7 ∧ s.boot.phase ≠ 4 ∧ (s.part 0).mbox.runArg0.toNat < 1024) ∧
    (∀ op, op ∈ [1, 2, 3, 4, 6, 7, 8] → mailboxRuns (boxed 15 op 0 0) 15 op) ∧
    (∀ q, q ∈ [0, 2, 15] →
      let s := { boxed 1 4 0 0 (fun b => { b with executed := true }) with parts := [(q, { mbox := { busy := true } })] }
      s.boot.running = some 1 ∧ s.boot.executed = true ∧ (s.part q).mbox.busy = true ∧
      (∀ r, r < 16 → (r + 15 - 1) % 16 < (q + 15 - 1) % 16 → r = 1 ∨ (s.part r).mbox.busy = false)) ∧
    (let s := boxed 1 4 0 0 (fun b => { b with executed := true })
     s.boot.running = some 1 ∧ s.boot.executed = true ∧ ∀ q, q < 16 → q ≠ 1 → (s.part q).mbox.busy = false) := by
  unfold mailboxRuns
  refine ⟨?_, ?_, ?_, ?_, ?_, ?_, ?_, ?_, ?_⟩ <;> decide +kernel

theorem test_fread_past_flash_end :
    (after (.fread 0) (boxed 0 3 0x3F00000 1)).boot.outcome = 1 := by decide +kernel

/-! Links (14). -/

/-- A flit with this much set, its frame decoded and its CRC right. -/
def flit (f : Flit → Flit) : Flit :=
  let x := f ⟨0, 0, 0, 0, 0, false, 0, 0, 0, [], 0, true⟩
  { x with crc := BitVec.ofNat 32 (crc32 (flitHeader x ++ flitBody x)) }
/-- Port 95 in a state, with this much set. -/
def ported (st : Nat) (f : Port → Port := id) : State :=
  { State.reset with links := { State.reset.links with ports := [(95, f { state := st })] } }
def upPort : State := ported 2 (fun p => { p with rxSeq := 65535 })
def dataF (b : Byte) : Flit := flit (fun f => { f with seq := 65535, body := List.replicate 32 b })
def markF (b : Byte) : Flit := flit (fun f => { f with seq := 65535, ft := 3, body := [0, 0, 0, b] })

theorem test_flit_with_wrong_crc_is_bad : flitGood { dataF 0 with crc := 0 } = false := by decide +kernel

theorem witness_PortsCarryFlits_flits :
    (∀ b : Byte, b = 0 ∨ b = 9 →
      flitHeard upPort 95 (dataF b) 0 ∧ (dataF b).seq.toNat = (upPort.port 95).rxSeq ∧ (dataF b).ch.val ≠ 3 ∧
      ((parseStream 8 (stretch (upPort.port 95) (dataF b))).2.2.isSome = decide (b = 9))) ∧
    (∀ b : Byte, b = 0 ∨ b = 128 →
      flitHeard upPort 95 (markF b) 3 ∧ (markF b).seq.toNat = (upPort.port 95).rxSeq ∧ (markF b).ch.val ≠ 3 ∧
      orderedFlit 95 (markF b) (if b = 0 then .mark 95 (markF b) else .resumeMark 95 (markF b))) ∧
    (∀ k : Bool, let s := ported 2 (fun p => { p with nakSent := k })
      (s.port 95).state = 2 ∧ orderedFlit 95 (dataF 0) (.dataFlit 95 (dataF 0)) ∧ (dataF 0).seq.toNat ≠ (s.port 95).rxSeq ∧
      (s.port 95).nakSent = k) ∧
    flitHeard upPort 95 (flit (fun f => { f with ft := 1 })) 1 ∧
    (∀ r, r ∈ [7, 8] →
      let s := ported 2 (fun p => { p with replays := r, replay := [{ seq := 5, kind := 0, ch := 0, txn := {}, idx := 0 }] })
      let f := flit (fun f => { f with ft := 2 })
      flitHeard s 95 f 2 ∧ (headerTaken (s.port 95) f f.ackV).replays = r ∧ (headerTaken (s.port 95) f f.ackV).replay ≠ []) := by
  unfold flitHeard orderedFlit
  refine ⟨?_, ?_, ?_, ?_, ?_⟩
  · rintro b (rfl | rfl) <;> decide +kernel
  · rintro b (rfl | rfl)
    · exact ⟨by decide +kernel, by decide +kernel, by decide +kernel, .inr (.inl ⟨rfl, by decide +kernel, rfl⟩)⟩
    · exact ⟨by decide +kernel, by decide +kernel, by decide +kernel, .inr (.inr ⟨rfl, by decide +kernel, rfl⟩)⟩
  all_goals decide +kernel

theorem witness_PortsCarryFlits_ports :
    (∀ r, r ∈ [7, 8] → ∀ now, now ∈ [2499, 2500] →
      let f : SentFlit := { seq := 5, kind := 0, ch := 0, txn := {}, idx := 0 }
      let s := { ported 2 (fun p => { p with replays := r, replay := [f] }) with time := now }
      (s.port 95).replay.head? = some f ∧ (s.port 95).state = 2 ∧ (s.port 95).replays = r ∧ (s.time < f.at_ + 2500 ↔ now = 2499)) ∧
    (∀ st, st ∈ [0, 1, 2, 3] → ((ported st).port 95).state = st ∧
      writeAllowed (ported st) (0x8001000 + 8 * 95) (write 0) (.lnkPort 95) ∧
      writeAllowed (ported st) (0x8001000 + 8 * 95) (write 0x40) (.lnkPort 95)) ∧
    (∀ h : HelloMsg, h ∈ [⟨4095, 0, 0, 1, 0⟩, ⟨0, 0, 0, 1, 0⟩] →
      let s := { ported 1 with links := { (ported 1).links with role := 1 } }
      (s.port 95).state = 1 ∧ (h.modnum.toNat = s.links.modnum ∧ h.precid.toNat = s.links.precid ↔ h.modnum = 4095) ∧
      (s.links.role = 1 ∧ h.role = 1 ∧ h.precid.toNat = s.links.precid)) := by
  unfold writeAllowed; decide +kernel

/-! Transactions (15). Their payloads, with the tags after them, were sealed by another implementation of AES-256-GCM under a key of zeros
and stream counter 1 (R425, R426). -/

/-- Port 95 UP in module 5, paired for partition 1 with module 6 (R425), with a route back to it over port 95 (R418), transactions
received on its channels, and partition 1's extent 0 and square 0. -/
def linked (xs : List Txn) (f : State → State := id) : State :=
  let s := ported 2 (fun p => { p with rxReq := xs, rxRsp := xs, rxCtl := xs, peerM := 6 })
  owned (f { s with links := { s.links with
    modnum := 5, pairs := [(0, ⟨true, 6, 1, 1, 0⟩), (1, ⟨true, 6, 0, 0, 0⟩)], keys := [(0, some 0)],
    route := [(24, BitVec.ofNat 64 (2 ^ 63 + 2 ^ 42 + 95)), (25, BitVec.ofNat 64 (2 ^ 63 + 2 ^ 42 + 95))] } })
/-- A transaction from module 6, partition 1, for partition 1 of this module, with its payload as it came. -/
def txn (type : Nat) (payload : List Byte) (f : Txn → Txn := id) : Txn :=
  f { type := type, ch := if type ≤ 4 then 0 else if type = 8 then 2 else 1, spart := 1, dpart := 1, srcm := 6, dstm := 5, hops := 1,
      hptr := 1, tid := 3, raw := true, payload := payload }
def crypt : Crypt := ⟨1⟩

def put1 : Txn := txn 1 (toBytesBE 32 0x1995BCE484EB42BA6F448FEB218DE5052E0DCC262C289B827E0D5C96DF01C4F3) (fun x => { x with addr := 32, len := 2 })
def get1 : Txn := txn 2 (toBytesBE 16 0x1C78962D5D694C6C90217016F2CD2E05) (fun x => { x with addr := 32, len := 2 })
def atom1 : Txn := txn 3 (toBytesBE 32 0x1B9DBCE484EB42BA6F448FEB218DE505773A0010B6C3B3370882CBDE5E2F3543) (fun x => { x with addr := 32, len := 16 })
def signal1 : Txn := txn 4 (toBytesBE 32 0x179DBCE484EB42BA6F448FEB218DE50555059EB8332FBF66B3AAF3A7248A1A94) (fun x => { x with addr := 32, len := 8 })
/-- A SIGNAL to counter 63 of square 0. -/
def signalSq : Txn := txn 4 (toBytesBE 32 0x179DBCE484EB42BA6F448FEB218DE50567E788D36C0D78A838FA0EC5EA9FC448)
  (fun x => { x with asz := 3, len := 8, addr := regBase + 0x4000000 + 8 * 63 })
/-- A block-mode PUT and GET of one block's first granule. -/
def putBlk : Txn := txn 1 (toBytesBE 64 0x1F9DBCE484EB42BA6F448FEB218DE505FD1C6FE1AE7C93BA7DDE82A10793907E7BAE02181B6760E7DBAE780DA12482C4056B18E08FABDD9DD0044E705F7E2F52)
  (fun x => { x with blk := true, nb := 1, len := 48 })
def getBlk : Txn := txn 2 (toBytesBE 32 0x1F9DBCE484EB42BA6F448FEB218DE505187E397EA4ABC0735F1F3A133529EB20) (fun x => { x with blk := true, nb := 1, len := 16 })
/-- `get1` sealed under later counters. -/
def get2 : Txn := { get1 with payload := toBytesBE 16 0xB4D7D332AAE9EC88AA268A1AE1F646EF }
def getLast : Txn := { get1 with payload := toBytesBE 16 0xA43D2EAE9EC3633DD4FF91BE9966E81C }
def ack1 : Txn := txn 5 (toBytesBE 16 0x6B3D42A4847C77FFBE23E6D8346E6403)
def data1 : Txn := txn 6 (toBytesBE 32 0xC2A9B32F797F62A3E8EC059EC20C52199A450D3909CB999FE267A3D519CD3823) (fun x => { x with len := 2 })
def err1 : Txn := txn 7 (toBytesBE 16 0x7A347B916D51F27C434819F214AB9F5C) (fun x => { x with code := 1 })
def err14 : Txn := txn 7 (toBytesBE 16 0xF9EACC37D44AD7571584B2F121D74766) (fun x => { x with code := 14 })
def err0 : Txn := txn 7 (toBytesBE 16 0x45EFFE42E9ACF4E27F3A61A71109EEC1)
def err15 : Txn := txn 7 (toBytesBE 16 0xC63149E450B7D1C929F6CAA4247536FB) (fun x => { x with code := 15 })

theorem test_put_reads_back : (after (.put 95 crypt) (linked [put1])).bytes 32 2 = [7, 8] := by decide +kernel

theorem test_atom_adds : (after (.atom 95 crypt) (linked [atom1])).bytes 32 8 = toBytes 8 5 := by decide +kernel

theorem witness_LinkRequestsServed_checks :
    (let y := { get1 with dstm := 6 }; txnDue (linked [y]) 95 0 y ∧ y.dstm ≠ (linked [y]).links.modnum) ∧
    (let y := { get1 with spart := 2 }; txnDue (linked [y]) 95 0 y ∧ (linked [y]).pairChecked 95 y = false) ∧
    (let y := { get1 with tid := 4 }; txnDue (linked [y]) 95 0 y ∧ y.dstm = (linked [y]).links.modnum ∧
      (linked [y]).openTxn y crypt = none) ∧
    (let s := linked [get1] (fun s => { s with links := { s.links with recvCtr := [(get1.streamOf, 1)] } })
     txnDue s 95 0 get1 ∧ crypt.ctr ≤ lastOf s get1) ∧
    (∀ e : Txn × Nat, e ∈ [(get2, 2), (getLast, 65535)] → lastOf (linked [e.1]) e.1 + 1 < e.2 ∧ txnDue (linked [e.1]) 95 0 e.1 ∧
      e.1.dstm = (linked [e.1]).links.modnum ∧ (linked [e.1]).pairChecked 95 e.1 = true ∧
      (linked [e.1]).openTxn e.1 ⟨e.2⟩ = some []) ∧
    (let s := linked [get1] (fun s => { s with stop := { s.stop with stopped := true } })
     ¬ txnDue s 95 0 get1 ∧ txnServed s 95 0 get1 ∧ s.linksHeld = true) ∧
    (let s := linked [get1] (fun s => s.modPart 1 (fun p => { p with reset := { p.reset with resetting := true } }))
     (s.part get1.dpart).reset.resetting = true ∧ s.power.state = 0 ∧ txnNext s 95 0 get1 crypt) := by
  unfold txnNext txnDue txnServed
  refine ⟨?_, ?_, ?_, ?_, ?_, ?_, ?_⟩ <;> decide +kernel

theorem witness_LinkRequestsServed_homes :
    (∀ x, x ∈ [put1, get1, atom1, signal1] → let s := linked [x]
      txnNext s 95 0 x crypt ∧ homeServes s 95 (s.opened x crypt) ∧ x.blk = false ∧ s.parityOf x.addr 8 = 0 ∧ x.aop ≤ 9 ∧ x.asz ≠ 1) ∧
    (let x := signalSq
      let s := linked [x]
      txnNext s 95 0 x crypt ∧ s.power.state = 0 ∧ s.liveDie 0 = true ∧ s.hasRoute (dieOfUnit (unitPort 95)) 0 = true ∧
      (s.part x.dpart).reset.resetting = false ∧ s.squareOwnedBy 0 x.dpart = true ∧ Table.get false s.badWrite (unitPort 95) = false ∧
      s.chooseRoute x.srcm x.dpart ≠ none ∧
      x.asz = 3 ∧ x.blk = false) ∧
    (∀ x, x ∈ [putBlk, getBlk] → let s := linked [x]
      let q := s.opened x crypt
      txnNext s 95 0 x crypt ∧ homeServes s 95 q ∧ x.blk = true ∧ x.addr % 256 = 0 ∧ q.mapOk = true ∧ x.nb ≤ x.len ∧
      (s.slotsSealed 95 q).toOption = some false ∧
      (∀ e, e ∈ q.slots → s.slotCode 95 q e = 0 ∧ placeOf s.isM e.1 ≠ .host) ∧ ∀ e, e ∈ q.slots → s.parityOf e.1 e.2 = 0) ∧
    (∀ hop, hop ∈ [95, 96] → let x := { put1 with hops := 2, hptr := 1, route := 2 ^ 7 * hop }
      let s := linked [x]
      txnServed s 95 0 x ∧ s.linksHeld = false ∧ x.hptr < x.hops ∧
      (s.hopPorts (hopOf x.route x.hptr) = [] ↔ hop = 96)) ∧
    (txnServed (linked [put1]) 95 0 put1 ∧ put1.hops ≤ put1.hptr) := by
  unfold txnNext txnDue txnServed homeServes
  refine ⟨?_, ?_, ?_, ?_, ?_⟩ <;> decide +kernel

/-- Outstanding request 3 of partition 1 to module 6. -/
def waiting (w : Waiter) : LinkReq := { tid := 3, dstm := 6, part := 1, unit := 2, addr := 0, sent := 0, waiter := w }

theorem witness_LinkResponsesAndTimers_responses :
    (∀ x, x ∈ [ack1, data1] → ∀ w, w ∈ [Waiter.core 0, .pumpSignal 0] →
      let s := linked [x] (fun s => { s with links := { s.links with reqs := [waiting w] } })
      txnNext s 95 1 x crypt ∧ s.links.reqs.find? (answersReq (s.opened x crypt)) = some (waiting w) ∧ noneWaits s) ∧
    (∀ x, x ∈ [err1, err14] → ∀ w, w ∈ [Waiter.core 0, .nobody] →
      let s := linked [x] (fun s => { s with links := { s.links with reqs := [waiting w] } })
      txnNext s 95 1 x crypt ∧ s.links.reqs.find? (answersReq (s.opened x crypt)) = some (waiting w) ∧ noneWaits s ∧ 1 ≤ x.code ∧ x.code ≤ 14) ∧
    (∀ x, x ∈ [ack1, data1, err1, err14] → let s := linked [x]
      txnNext s 95 1 x crypt ∧ s.links.reqs.find? (answersReq (s.opened x crypt)) = none) ∧
    (∀ x, x ∈ [err0, err15] → txnNext (linked [x]) 95 1 x crypt ∧ (x.code = 0 ∨ 14 < x.code)) ∧
    (∀ s : State, logsError s (.core 0) ∧ logsError s .nobody) := by
  unfold txnNext txnDue txnServed noneWaits
  refine ⟨?_, ?_, ?_, ?_, fun _ => ⟨trivial, trivial⟩⟩ <;> decide +kernel

theorem witness_LinkResponsesAndTimers_timers :
    (∀ now, now ∈ [9999999, 10000000] →
      let s := linked [] (fun s => { s with time := now, links := { s.links with reqs := [waiting .nobody] } })
      s.links.reqs.find? (fun y => y.tid == 3) = some (waiting .nobody) ∧ noneWaits s ∧
      (s.stop.stopped = false ∧ 0 + s.links.timeout * 100000 ≤ s.time ↔ now = 10000000)) ∧
    (∀ now, now ∈ [2499999, 2500000] →
      let h : HeldTxn := ⟨95, 0, ack1, ⟨3⟩, []⟩
      let s := linked [] (fun s => { s with time := now, links := { s.links with gap := [h] } })
      s.links.gap.find? (fun y => y.txn.streamOf == streamKey 6 1 1 1) = some h ∧
      (s.stop.stopped = false ∧ h.at_ + s.links.timeout * 25000 ≤ s.time ↔ now = 2500000)) := by
  unfold noneWaits; decide +kernel

/-! The precinct (16). -/

/-- `linked`, with this much set of the link registers. -/
def member (xs : List Txn) (f : Links → Links := id) : State := linked xs (fun s => { s with links := f s.links })
/-- A control message between the modules' partitions 0 (R431), sealed as the transactions above are. -/
def ctl (code : Nat) (payload : List Byte) : Txn :=
  txn 8 payload (fun x => { x with code := code, spart := 0, dpart := 0, len := (ctlLen code).getD 0 })
/-- TREQ with t1 = 3; TRESP with t1 = 3, t2 = 5, t3 = 6; EPREP and ECOMMIT of epoch 1 with Tc = 50; EABANDON of epoch 1. -/
def treq1 : Txn := ctl 2 (toBytesBE 32 0x4F98F9BFBF32EE2A304BC684D89535DEA68CD2AFACE98E765B50182A24BE1C8E)
def tresp1 : Txn := ctl 3 (toBytesBE 48 0x4F98F9BFBF32EE2A354BC684D89535DE3D5453E0D6DB0E5E45221BF306A13B112370E466BAFDD61855EC2F04214B0637)
def eprep1 : Txn := ctl 4 (toBytesBE 32 0x4D98F9BF8D32EE2A304BC684D89535DEAA1808954E929656343E8BDC93ACE125)
def ecommit1 : Txn := ctl 6 (toBytesBE 32 0x4D98F9BF8D32EE2A304BC684D89535DE461E2247F274FB86B7234AC514D3C442)
def eabandon1 : Txn := ctl 7 (toBytesBE 32 0x4D98F9BFBF32EE2A304BC684D89535DE4B13D9C0CDEC0A9B1A404FECEDD0CE8D)
/-- EACK of epoch 1 from one module, refusing and agreeing. -/
def eack0 : Txn := ctl 5 (toBytesBE 32 0x4D98F9BFBE32EE2A304BC684D89535DEBB8FE65FA63867E6A2407D086B3FBEB6)
def eack1 : Txn := ctl 5 (toBytesBE 32 0x4D98F9BFBE32EF2A304BC684D89535DEBD9F778863E3E23526BD7B96574DC6E3)

theorem test_unlocked_parent_locks : (after (.lnkTimeWrite (write (2 ^ 55 * 0x7F)))
    (member [] (fun l => { l with parent := 95, tlock := false }))).links.tlock = true := by decide +kernel

theorem test_eprep_is_passed_on :
    (after (.eprep 95 crypt) (member [eprep1] (fun l => { l with parent := 95 }))).links.epochTc = 50 := by decide +kernel

theorem witness_PrecinctKeepsTime :
    (∀ m : Nat, m ∈ [4095, 5] → let s := ported 2
      writeAllowed s 0x8000000 (write m) (.lnk 0) ∧ (bits (write m).val.toNat 0 12 = s.links.modnum ↔ m = 4095)) ∧
    (∀ now, now ∈ [124999, 125000] →
      let s := { member [] (fun l => { l with parent := 95, t1 := 0 + 1 }) with time := now + 1 }
      (s.links.parentPort < 96 ∧ s.stop.stopped = false ∧ (s.links.t1 = 0 ∨ s.links.t1 + 125000 ≤ s.time) ↔ now = 125000)) ∧
    (ctlNext (member [treq1]) 95 2 treq1 crypt ∧ treq1.len = 8) ∧
    (∀ p, p ∈ [95, 0x7F] → let s := member [tresp1] (fun l => { l with parent := p })
      ctlNext s 95 3 tresp1 crypt ∧ (95 = s.links.parentPort ↔ p = 95)) ∧
    (∀ now, now ∈ [4999999, 5000000] → let s := { member [] (fun l => { l with parent := 95 }) with time := now }
      (s.links.parent ≠ 0x7F ∧ s.links.tlock = true ∧ s.links.lastExchange + 5000000 ≤ s.time ↔ now = 5000000)) ∧
    writeAllowed (member []) 0x8000018 (write 0) (.lnk 0x18) ∧
    (member []).canCtl 95 = true := by
  unfold writeAllowed ctlNext txnNext txnDue txnServed
  refine ⟨?_, ?_, ?_, ?_, ?_, ?_, ?_⟩ <;> decide +kernel

theorem witness_EpochsPrepareAndCommit :
    (∀ a : Bool, let s := member [] (fun l => { l with role := 1, armed := a, epochArm := 1 })
      let w := write (2 ^ 63)
      writeAllowed s 0x8000028 w (.lnk 0x28) ∧ (w.val.toNat.testBit 63 = true ∧ s.links.role = 1 ∧ s.links.armed = true ∧
        s.links.epochArm = (s.links.epochCur + 1) % 2 ^ 24 ∧ s.links.inProg = false ↔ a = true)) ∧
    (∀ x, x ∈ [eprep1, ecommit1, eabandon1] → ∀ now, now ∈ [49, 50] →
      let s := { member [x] (fun l => { l with parent := 95, inProg := x.code != 4, epoch := 1 }) with time := now }
      let b := (s.opened x crypt).payload
      ctlNext s 95 x.code x crypt ∧ s.links.parent = 95 ∧ s.links.role ≠ 1 ∧ (x.code ≠ 4 → s.links.inProg = true) ∧
      s.links.epoch = ofBytes (slice b 0 4) ∧ (x.code ≠ 7 → (s.time < ofBytes (slice b 4 8) ↔ now = 49))) ∧
    (∀ r, r ∈ [0, 1] → ∀ ok : Bool, let x := if ok then eack1 else eack0
      let s := member [x] (fun l => { l with inProg := true, epochWait := [95], epoch := 1, role := r, epochTc := 9 })
      let b := (s.opened x crypt).payload
      ctlNext s 95 5 x crypt ∧ s.links.inProg = true ∧ s.links.epochWait.contains 95 = true ∧
      s.links.epoch = ofBytes (slice b 0 4) ∧ (ofBytes (slice b 6 1) = 1 ↔ ok = true) ∧ s.links.epochOk = true ∧
      s.links.committed = false ∧ s.links.nmem ≤ s.links.epochCount + ofBytes (slice b 4 2) ∧ s.time < s.links.epochTc ∧
      s.links.epochWait.filter (· != 95) = [] ∧ s.links.role = r) ∧
    (∀ now, now ∈ [4, 5, 10000004, 10000005] → ∀ c : Bool,
      let s := { member [] (fun l => { l with inProg := true, committed := c, role := 1, epochTc := 5 }) with time := now }
      s.links.inProg = true ∧ s.links.committed = c ∧ s.links.role = 1 ∧ (s.links.epochTc ≤ s.time ↔ now ≠ 4) ∧
      (s.links.epochTc + 10000000 ≤ s.time ↔ now = 10000005) ∧ s.epochHeld = false) ∧
    (member [ecommit1] (fun l => { l with parent := 95 })).epochHeld = true := by
  unfold writeAllowed ctlNext txnNext txnDue txnServed
  refine ⟨?_, ?_, ?_, ?_, ?_⟩ <;> decide +kernel

/-! Stops, snapshots and records (17). -/

/-- A MARK flit of an identity on channel 0. -/
def mark (id : Nat) : Flit := flit (fun f => { f with seq := 65535, ft := 3, body := toBytes 4 id })
/-- `upPort` with this much set of the stop and the links. -/
def stopping (st : Stop → Stop) (l : Links → Links := id) : State :=
  { upPort with stop := st upPort.stop, links := l upPort.links }

theorem test_first_mark_stops : (after (.mark 95 (mark 7)) upPort).stop.id = 7 := by decide +kernel

theorem test_stop_enters_once :
    (after (.obsStopGo (write (1 + 2 ^ 32 * 9))) (stopping (fun x => { x with stopped := true, id := 4 }))).stop.id = 4 := by
  decide +kernel

/-- STOPREQ of stop 7 from module 9 (R431, R440). -/
def stopreq1 : Txn := ctl 8 (toBytesBE 32 0x4B98F9BFB632EE2A304BC684D89535DE980B89797A6610E727F35F0A74D8CB66)

/-- A stop, or none, with a transaction received before it waiting at port 95, or none. -/
def resuming (b k : Bool) : State :=
  let s := ported 2 (fun p => { p with rxSeq := 65535, rxRsp := if k then [ack1] else [] })
  { s with stop := { s.stop with stopped := b, id := 0 } }

theorem witness_StopsEnterAndLeave_marks :
    (∀ id, id ∈ [2 ^ 31 - 1, 2 ^ 31] → ∀ b : Bool, ∀ k : Bool, let s := resuming b k
      markTaken s 95 (mark id) ∧ (markId (mark id) < 2 ^ 31 ↔ id ≠ 2 ^ 31) ∧ s.linksHeld = b ∧ s.holdsFrom s.time = k ∧
      (id = 2 ^ 31 → s.stop.id = markId (mark id) - 2 ^ 31)) ∧
    (∀ p, p ∈ [0x7F, 3, 95] → let s := member [stopreq1] (fun l => { l with
        parent := p, ports := l.ports.map (fun e => (e.1, { e.2 with child := true })) })
      ctlNext s 95 8 stopreq1 crypt ∧ s.stop.reqOut = false ∧ (s.port 95).child = true ∧
      (s.stopOwner = true ↔ p = 0x7F) ∧ (s.canCtl s.links.parent = true ↔ p = 95)) := by
  unfold markTaken flitHeard ctlNext txnNext txnDue txnServed
  refine ⟨?_, ?_⟩ <;> decide +kernel

theorem witness_StopsEnterAndLeave_writes :
    ∀ b : Bool, ∀ p, p ∈ [0x7F, 3] → let s := stopping (fun x => { x with stopped := b }) (fun l => { l with parent := p })
      let w := fun v => { write v with unit := unitHost 0 }
      writeAllowed s 0x7000300 (w 1) (.stop 0) ∧ writeAllowed s 0x7000300 (w 2) (.stop 0) ∧ s.stop.stopped = b ∧
      s.linksHeld = b ∧ s.stop.reqOut = false ∧ (s.stopOwner = true ↔ p = 0x7F) ∧ s.stop.heldWrites = [] ∧ s.stop.heldResets = [] ∧
      (write 1).val.toNat.testBit 0 = true ∧ (write 1).val.toNat.testBit 1 = false ∧ (write 2).val.toNat.testBit 0 = false ∧
      (write 2).val.toNat.testBit 1 = true := by
  unfold writeAllowed; decide +kernel

/-- What was held at a tick at which square 0 alone was powered. -/
def tickHold : SnapHold := { ctr := [(0, 3)], units := [0] }

theorem witness_SnapshotsLatch :
    (∀ t : Nat, t ∈ [999, 1000] → ∀ b : Bool,
      let s := { State.reset with snap := { State.reset.snap with t := t, busy := b } }
      writeAllowed s 0x7000020 (write 1) (.snap 0x20) ∧ (write 1).val.toNat.testBit 0 = true ∧ s.snap.busy = b ∧
      (s.snap.t < s.time + 1000 ∨ (s.snap.end_ ≠ 0 ∧ s.snap.end_ ≤ s.snap.t) ↔ t = 999)) ∧
    (∀ b : Bool, ∀ e : Nat, e ∈ [0, 9] →
      let s := { State.reset with snap := { State.reset.snap with busy := true, latched0 := b, armEnd := e, held0 := some tickHold, held1 := some tickHold } }
      s.snap.busy = true ∧ s.snap.latched0 = b ∧ s.snap.held0 = some tickHold ∧ s.snap.held1 = some tickHold ∧ s.snap.armEnd = e ∧
      Table.wf 0 tickHold.ctr = true ∧ 0 / 256 ∈ tickHold.units ∧ 256 / 256 ∉ tickHold.units) := by
  unfold writeAllowed
  refine ⟨?_, ?_⟩ <;> decide +kernel

/-- Partition 1's extent, and its rings as these say. -/
def ringed (e : Nat) (t : Nat) (f : State → State := id) : State :=
  f ((owned State.reset).modPart 1 (fun p => { p with
    elog := { p.elog with base := globalOf 0, log2n := e }
    trc := { p.trc with base := globalOf 0, log2n := t, en := 32 } }))

theorem test_rings_are_at_least_16_slots :
    ((after (.obsElogRingWrite 1 (write (globalOf 0 + 1))) (ringed 0 0)).part 1).elog.log2n = 4 := by decide +kernel

theorem witness_RecordsReachTheirRings_log :
    (∀ n, n ∈ [255, 256] → let s := { State.reset with elog := { State.reset.elog with
        transit := [{ reply := .out (.resp 0 2 []) }], queue := List.replicate n {} } }
      s.elog.transit[0]? = some { reply := .out (.resp 0 2 []) } ∧ (s.elog.queue.length < 256 ↔ n = 255)) ∧
    (let r : ErrRecord := { part := 1 }
     ∀ k, k ∈ [0, 4] → let s := ringed k 0 (fun s => { s with elog := { s.elog with queue := [r], stopMask := 1 } })
      s.elog.queue = r :: [] ∧ s.elog.stopMask.testBit r.code = true ∧ s.stop.stopped = false ∧ s.stop.reqOut = false ∧
      s.stopOwner = true ∧ (s.part 0).elog.log2n = 0 ∧ ((s.part r.part).elog.log2n = 0 ↔ k = 0) ∧ r.bad = false ∧
      (s.part 1).elog.tail - (s.part 1).elog.head < 2 ^ (s.part 1).elog.log2n ∧
      (k ≠ 0 → slotWritable s unitElog 1 (s.part 1).elog.base k (s.part 1).elog.tail)) ∧
    (∀ n, n ∈ [0, 1, 31] → let s := ringed 0 0 (fun s => { s with elog := { s.elog with store := [{ part := 1 }, { part := 1 }] } })
      let m := max 4 (min 16 n)
      let due := s.elog.store.filter (fun r => decide ((s.part 1).elog.from_ ≤ r.seq) && ((1 : Nat) == 0 || r.part == 1))
      writeAllowed s (0x7001000 + 0x40) (write (globalOf 0 + n)) (.elog 1 0) ∧ (s.part 1).elog.ien = false ∧ due.length = 2 ∧ due.length ≤ 2 ^ m ∧
      (∀ r, r ∈ due → r.bad = false) ∧ ∀ k, k < 2 → slotWritable s unitElog 1 (globalOf 0) m k) := by
  unfold writeAllowed slotWritable writable
  refine ⟨?_, ?_, ?_⟩
  · decide +kernel
  · decide +kernel
  · intro n hn
    fin_cases hn <;> exact ⟨by decide +kernel, by decide +kernel, by decide +kernel, by decide +kernel, by decide +kernel, by decide +kernel⟩

theorem witness_RecordsReachTheirRings_traces :
    let r : TrcRecord := ⟨1, 0x0B, 1, 0, 0, false, 0, 0⟩
    (∀ n, n ∈ [0, 1] → writeAllowed (ringed 0 0) (0x7002000 + 0x40) (write n) (.trc 1 0)) ∧
    (∀ p : PartId, p = 0 ∨ p = 1 → writeAllowed (ringed 0 0) (0x7002000 + 0x40 * p.val + 0x28) (write 5) (.trc p.val 0x28) ∧
      (((ringed 0 0).part p.val).trc.en.testBit 5 = true ↔ p = 1) ∧
      ((ringed 0 0).trcQ.filter (fun r => r.unit == (write 5).unit)).length < 64) ∧
    (∀ k, k ∈ [0, 6] → ∀ n, n ∈ [62, 63] →
      let s := ringed 0 k (fun s => { (s.modPart 1 (fun p => { p with trc := { p.trc with tail := n } })) with trcQ := [r] })
      s.trcQ[0]? = some r ∧ (s.trcQ.take 0).any (fun x => x.unit == r.unit && x.ring == r.ring) = false ∧
      (s.part r.ring).trc.loss = 0 ∧ (s.part r.ring).trc.log2n = k ∧
      (k = 6 → ((s.part r.ring).trc.tail - (s.part r.ring).trc.head + 2 ≤ 2 ^ k ↔ n = 62) ∧
        slotWritable s unitTrace 1 (s.part r.ring).trc.base k n)) := by
  unfold writeAllowed slotWritable writable
  refine ⟨?_, ?_, ?_⟩
  · decide +kernel
  · rintro p (rfl | rfl) <;> decide +kernel
  · decide +kernel

/-! The host port, registers and the queue (18, 00, 10). -/

/-- The module is ready: it presents its function, whose memory space is on; partition 0 has extent 0. -/
def present (phase : Nat) (f : State → State := id) : State :=
  let s := { State.reset with boot := { State.reset.boot with phase := phase }, extents := [(0, { valid := true })] }
  f ((s.modPower (fun p => { p with perst := false })).modPart 0 (fun p => { p with fn := { p.fn with memSpace := true } }))
/-- An 8-byte request of function 0 for an offset. -/
def hostReq (write bar2 : Bool) (off : Nat) : HostRequest := ⟨0, if bar2 then .bar2 else .bar0, off, write, 8, if write then toBytes 8 5 else [], 1⟩

/-- A read or atomic of host memory by core 0 that waits for these completions, of 8 bytes each. -/
def hostWait (failed : Bool) (tags : List Nat) : HostReq :=
  { part := 1, unit := 0xC0, addr := hostBase, bus := 0, len := 8 * tags.length, kind := .load (8 * tags.length), waiter := .core 0,
    failed := failed, sent := 8 * tags.length, tags := tags.mapIdx (fun i t => ⟨t, 8 * i, 8⟩) }

theorem test_host_write_stores : (after (.hostMemRequest (hostReq true true 64)) (present 3)).bytes 64 8 = toBytes 8 5 := by
  decide +kernel

theorem test_host_read_outside_bar0_is_refused :
    (after (.hostMemRequest (hostReq false false (2 ^ 28 - 7))) (present 3)).out = [.hostCpl 0 1 1 []] := by decide +kernel

theorem test_host_window_error : (after (.hostWindowCompletion 3 .poisoned)
    { State.reset with hostReqs := [hostWait false [3]] }).elog.transit.map (·.code) = [eParity] := by decide +kernel

theorem witness_HostRequestsWork_memory :
    (∀ b : Bool, ¬ hostTaken State.reset (hostReq b true 0) ∧ (hostReq b true 0).write = b) ∧
    (∀ b : Bool, ∀ off, off ∈ [64, 2 ^ 28] → let s := present 3
      let r := hostReq b true off
      let a := (s.part 0).fn.haper + off
      hostTaken s r ∧ r.bar = .bar2 ∧ s.power.state = 0 ∧ s.heldBehind (unitHost 0) = false ∧ placeOf s.isM a ≠ .reg ∧ placeOf s.isM a ≠ .host ∧ a < hostBase ∧ s.parityOf a 8 = 0 ∧
      r.write = b ∧ (s.checkAcc (accFor (unitHost 0) 0 a (hostKind r) true) = 0 ↔ off = 64)) ∧
    (∀ b : Bool, let s := present 3
      let r := hostReq b false 0x3000018
      hostTaken s r ∧ r.bar = .bar0 ∧ s.power.state = 0 ∧ s.heldBehind (unitHost 0) = false ∧ Table.get false s.badWrite (unitHost 0) = false ∧
      registerAt s (unitHost 0) 0x3000018 .bootEntry ∧ s.mayRead .bootEntry 0 = true ∧
      s.mayWrite .bootEntry 0 = true ∧
      (s.regWrite .bootEntry ⟨unitHost 0, 0, .full, BitVec.ofNat 64 (ofBytes (hostReq true false 0).bytes)⟩).2 = 0) ∧
    hostTaken (present 4) (hostReq false false 0x3000000) ∧
    (∀ x, x ∈ [(16 * 2047, 16, []), (0x80FF, 1, []), (16 * 2047, 16, List.replicate 16 (7 : Byte))] →
      let r : HostRequest := ⟨0, .bar4, x.1, x.2.2 != [], x.2.1, x.2.2, 1⟩
      hostTaken (present 3) r ∧ (present 3).heldBehind (unitHost 0) = false ∧ (present 3).boot.phase ≠ 4 ∧
      Table.get 0 ((present 3).part 0).fn.msixData 2047 < 2 ^ 32 ∧ ((present 3).part 0).fn.pend = [] ∧
      ((present 3).part 0).reset.holdDone = false) := by
  unfold hostTaken registerAt
  refine ⟨?_, ?_, ?_, ?_, ?_⟩ <;> decide +kernel

theorem witness_HostRequestsWork_rest :
    (∀ k, k ∈ [2, 3, 4] → (present k).boot.phase = k ∧ (present k).functionPresent 0 = decide (k ≠ 2) ∧ (present k).functionPresent 1 = false) ∧
    (∀ f : Bool, ∀ tags, tags ∈ [[3], [3, 4]] → let r := hostWait f tags
     let s := { State.reset with hostReqs := [r] }
     r ∈ s.hostReqs ∧ (⟨3, 0, 8⟩ : HostTag) ∈ r.tags ∧ s.hostTags.Nodup ∧ (∀ y, y ∈ s.hostReqs → y.sent = y.len ∧ y.tags ≠ []) ∧
     (r.tags = [⟨3, 0, 8⟩] ↔ tags = [3]) ∧ r.failed = f ∧ r.waiter = .core 0) ∧
    (∀ now, now ∈ [19999999, 20000000] → ∀ c, c ∈ [0, 9, 10] → ∀ a : BitVec 7, a = 0x58 ∨ a = 0x59 → ∀ pec : Bool,
      let s := { State.reset with power := { State.reset.power with gates := true, age := now } }
      let x : SmbusTransaction := ⟨a, .blockRead c, pec⟩
      (20000000 ≤ s.power.age ↔ now = 20000000) ∧ s.power.gates = true ∧ (x.addr.toNat = 0x58 + s.power.smbAddr % 4 ↔ a = 0x58) ∧
      ((s.smbusValue c.toNat).isSome = decide (c.toNat < 10))) := by
  refine ⟨by decide +kernel, by decide +kernel, ?_⟩
  rintro now hn c hc a (rfl | rfl) pec <;> revert pec <;> fin_cases hn <;> fin_cases hc <;> decide +kernel

theorem test_half_write_keeps_other_half :
    ((after (.registerWrite 0x3000018 { write 16 with half := .lo }) (present 3 (fun s =>
      { s with boot := { s.boot with entry := 2 ^ 40 + 4 } }))).boot.entry) = 2 ^ 40 + 16 := by decide +kernel

theorem witness_RegistersTakeWrites_refused :
    State.reset.findReg 0 (regBase + halfOffset 0x18 .full) = .error eUnmapped ∧
    (State.reset.findReg 0 (regBase + halfOffset 0x3000018 .full) = .ok .bootEntry ∧ State.reset.mayWrite .bootEntry 1 = false) ∧
    State.reset.power.state = 0 ∧ (∀ off, off ∈ [0x18, 0x3000018] → writeGoes State.reset off (write 0)) := by
  unfold writeGoes; decide +kernel

/-- Where each register of RegistersTakeWrites lies: the first and the last of an array. -/
def plainRegs : List (Nat × Reg) :=
  [(0x1100000, .hallCtr 0), (0x11007F8, .hallCtr 255), (0x2000200, .qos 0), (0x2000278, .qos 15), (0x1008, .hostWin 0 8),
   (0x13C8, .hostWin 15 8), (0x3000018, .bootEntry), (0x3001008, .mbArg 0 0), (0x7000208, .stopMask), (0x7000010, .snap 0x10),
   (0x7000018, .snap 0x18), (0x8000010, .lnk 0x10), (0x6000010, .pwr 0x10)]

theorem witness_RegistersTakeWrites_reach : ∀ e, e ∈ plainRegs → ∀ h : Half, h = .full ∨ h = .lo ∨ h = .hi →
    writeReaches State.reset e.1 { write 5 with half := h } e.2 := by
  unfold writeReaches writeGoes; rintro e he h (rfl | rfl | rfl) <;> revert e <;> decide +kernel

/-! The queue. -/

theorem test_step_takes_the_front :
    (step { State.reset with pending := [.vxAdd 0, .vxSub 0] } = .next t → t.pending = [.vxSub 0]) := by
  intro h; cases h; decide +kernel

theorem witness_IdleStepTicksTimeBase :
    State.reset.pending = [] ∧ State.reset.power.gates = false ∧
    (∀ b : Bool, let s := { powered id with
        snap := { State.reset.snap with busy := b, armT := 1, armEnd := 1 }, squares := [(0, { run := .running })]
        harts := [(7, { halted := false })] }
      s.pending = [] ∧ s.power.gates = true ∧ s.boot.starting = false ∧ Table.wf ({} : Square) s.squares = true ∧ Table.wf ({} : Hart) s.harts = true ∧
      s.time < 2 ^ 64 ∧ s.snap.busy = b ∧ s.snap.held0 = none ∧ s.snap.held1 = none ∧ s.snap.armT = s.time + 1 ∧
      s.snap.armEnd = s.time + 1) := by decide +kernel

theorem witness_StepKeepsMemoryCanonical :
    let s := { State.reset with mem := [⟨0, 1⟩], pending := [.replicaLoad 0] }
    Memory.wf s.mem = true ∧ (∃ t, step s = .next t) ∧ ∃ t, exec (.replicaLoad 0) s = .next t :=
  ⟨by decide +kernel, ⟨_, rfl⟩, ⟨_, rfl⟩⟩

/-! An ill-formed operand for each check of WellFormed. -/

theorem test_wellFormed_refuses : ∀ i, i ∈
    [Instr.fence { write 0 with unit := 0xB8 }, .fence { write (2 ^ 32) with half := .lo }, .fence { write 1 with half := .hi },
     .registerWrite 4 (write 0), .registerWrite 0x100000000 (write 0), .homeAccess (.square 0 0 512), .homeAccess (.core 0 (2 ^ 56) (.load 8)),
     .homeAccess (.core 0 0 (.load 3)), .homeAccess (.coreSync 0 (2 ^ 56) (.lr 8) false false), .homeAccess (.coreSync 0 0 (.lr 2) false false),
     .homeAccess (.coreSync 0 0 (.sc 16 0) false false), .homeAtomic (.coreSync 0 0 (.amo 9 8 0) false false), .homeAtomic (.core 0 0 (.store [])), .homeAtomic (.core 0 0 (.atom 9 8 0)),
     .homeAtomic (.core 0 0 (.cas 2 0 0)), .attnWalkBlock 0 ⟨65536, 0, 0, 0⟩, .interruptModerationExpiry 0 (.msix 2048),
     .interruptModerationExpiry 0 (.aia 48 0), .sagDetect 44000, .supplyLossStop 40000, .gatePowerLoss 36000, .busRecovery 43999,
     .busRecovery 60001, .busOvervoltage 60000, .telemetrySample ⟨0, 0, [], [], [], [], 0⟩, .dataFlit 0 { flit id with body := [] },
     .hello 0 ⟨0, 96, 0, 0, 0⟩, .hello 0 ⟨0, 0, 0, 2, 0⟩, .put 0 ⟨0⟩, .gapTimeout ⟨0, 0, 0, 3⟩,
     .hostMemRequest { hostReq false true 0 with len := 4097 }, .hostMemRequest { hostReq true true 0 with bytes := [] },
     .configRequest 0 (.bar2Size 27), .configRequest 0 (.maxPayload 3), .configRequest 0 (.maxReadRequest 6),
     .configRequest 0 (.aerClear (2 ^ 32))] → i.wellFormed = false := by
  decide +kernel

theorem test_wellFormed_admits : ∀ i, i ∈
    [Instr.fence (write 1), .registerWrite 8 (write 0), .homeAccess (.core 0 0 (.load 8)), .sagDetect 43999, .busRecovery 60000,
     .put 0 ⟨1⟩, .hostMemRequest (hostReq true true 0), .configRequest 0 (.bar2Size 42), .configRequest 0 (.maxPayload 2),
     .homeAtomic (.coreSync 0 0 (.amo 8 8 0) true true)] → i.wellFormed = true := by
  decide +kernel

end Sys2Proof.Tests
end

/-! Counters. What an access carries and counts changes no other part of the state (R19, R494). -/

namespace Sys2Proof.Proofs
open Sys2Proof Sys2Proof.Machine

/-! States that differ in their counters alone. -/

/-- Besides its live counters the state is unchanged. -/
def onlyCounts (s t : State) : Prop := t = { s with ctr := t.ctr }

theorem onlyCounts.refl (s : State) : onlyCounts s s := rfl

theorem onlyCounts.trans {s t u : State} (h : onlyCounts s t) (k : onlyCounts t u) : onlyCounts s u := by
  unfold onlyCounts at *
  rw [k, h]

theorem onlyCounts_count (s : State) (unit idx n : Nat) : onlyCounts s (s.count unit idx n) := rfl

theorem onlyCounts_ite {s t u : State} {c : Prop} [Decidable c] (ht : onlyCounts s t) (hu : onlyCounts s u) :
    onlyCounts s (if c then t else u) := by
  split
  · exact ht
  · exact hu

theorem onlyCounts_forAll {α : Type} {f : State → α → State} (hf : ∀ t x, onlyCounts t (f t x)) (xs : List α) (s : State) :
    onlyCounts s (forAll xs f s) := by
  induction xs generalizing s with
  | nil => exact onlyCounts.refl s
  | cons x xs ih => exact (hf s x).trans (ih (f s x))

theorem onlyCounts_countPath (n : Nat) (path : List Nat) (s : State) : onlyCounts s (s.countPath n path) := by
  induction path generalizing s with
  | nil => exact onlyCounts.refl s
  | cons a rest ih =>
    cases rest with
    | nil => exact onlyCounts.refl s
    | cons b r =>
      exact (onlyCounts_ite (onlyCounts_count s _ _ n) (onlyCounts.refl s)).trans (ih _)

theorem onlyCounts_carry (s : State) (src dst n : Nat) : onlyCounts s (s.carry src dst n) :=
  onlyCounts_ite (onlyCounts.refl s) (onlyCounts_countPath n _ s)

theorem onlyCounts_carryData (s : State) (unit home n : Nat) (op : AccOp) : onlyCounts s (s.carryData unit home n op) := by
  have toward : onlyCounts s (if op = .read then s else s.carry (dieOfUnit unit) home n) :=
    onlyCounts_ite (onlyCounts.refl s) (onlyCounts_carry s _ _ n)
  exact toward.trans (onlyCounts_ite (onlyCounts.refl _) (onlyCounts_carry _ _ _ n))

theorem onlyCounts_carryAcc (s : State) (x : Acc) : onlyCounts s (s.carryAcc x) := by
  unfold State.carryAcc
  exact onlyCounts_forAll (fun t (e : Nat × Nat) => onlyCounts_carryData t _ _ e.2 _) _ s

theorem onlyCounts_carryRegister (s : State) (unit a n : Nat) (op : AccOp) : onlyCounts s (s.carryRegister unit a n op) := by
  have body : @State.carryRegister = @State.carryRegister := rfl
  conv at body => rhs; delta State.carryRegister
  rw [body]
  beta_reduce
  cases regAt ((a - regBase) / 8 * 8) with
  | none => exact onlyCounts.refl s
  | some r => exact onlyCounts_carryData s _ _ n op

theorem onlyCounts_countHome (s : State) (a i n : Nat) : onlyCounts s (s.countHome a i n) := by
  unfold State.countHome
  split
  · exact onlyCounts_count s _ _ n
  · exact onlyCounts_count s _ _ n
  · exact onlyCounts.refl s

theorem onlyCounts_countHomes (s : State) (a i n : Nat) : onlyCounts s (s.countHomes a i n) := by
  unfold State.countHomes
  exact onlyCounts_forAll (fun t (e : Nat × Nat) => onlyCounts_countHome t e.1 i e.2) _ s

theorem onlyCounts_homeRead (s : State) (a n : Nat) : onlyCounts s (s.homeRead a n).1 := by
  unfold State.homeRead
  extract_lets m cis
  split
  · exact onlyCounts_countHome s _ 3 1
  · exact (onlyCounts_ite (onlyCounts_countHome s _ 2 1) (onlyCounts.refl s)).trans (onlyCounts_countHomes _ a 0 n)

end Sys2Proof.Proofs

/-! Register writes: the bytes of a write and the halves of a register (R5 to R7). -/

namespace Sys2Proof.Proofs
open Sys2Proof Sys2Proof.Machine

/-! Bytes and halves of a 64-bit value (R5 to R7). -/

@[simp] theorem length_toBytes (n v : Nat) : (toBytes n v).length = n := by
  induction n generalizing v with
  | zero => rfl
  | succ n ih => simp [toBytes, ih]

theorem ofBytes_toBytes (n v : Nat) : ofBytes (toBytes n v) = v % 2 ^ (8 * n) := by
  induction n generalizing v with
  | zero => simp [toBytes, ofBytes, Nat.mod_one]
  | succ n ih =>
    have split : 2 ^ (8 * (n + 1)) = 256 * 2 ^ (8 * n) := by rw [Nat.mul_add, Nat.pow_add]; omega
    simp only [toBytes, ofBytes, ih, BitVec.toNat_ofNat, split, Nat.mod_mul]

theorem halfBits_lt (h : Half) (v : Nat) : halfBits h v < 2 ^ 64 := by
  cases h <;> simp only [halfBits] <;> omega

@[simp] theorem halfBits_halfBits (h : Half) (v : Nat) : halfBits h (halfBits h v) = halfBits h v := by
  cases h <;> simp only [halfBits] <;> omega

@[simp] theorem mergeHalf_halfBits (h : Half) (old v : Nat) : mergeHalf h old (halfBits h v) = mergeHalf h old v := by
  cases h <;> simp only [mergeHalf, halfBits] <;> omega

theorem touchesLo_of_ne_hi {h : Half} (hh : h ≠ .hi) : touchesLo h = true := by
  cases h with
  | hi => exact absurd rfl hh
  | full => rfl
  | lo => rfl

/-- A write that touches the low half presents its low 32 bits as they are. -/
theorem halfBits_mod_low {h : Half} (hh : h ≠ .hi) (v : Nat) : halfBits h v % 2 ^ 32 = v % 2 ^ 32 := by
  cases h with
  | hi => exact absurd rfl hh
  | full => simp only [halfBits]; omega
  | lo => simp only [halfBits]; omega

theorem bits_halfBits {h : Half} (hh : h ≠ .hi) (v lo n : Nat) (hn : lo + n ≤ 32) : bits (halfBits h v) lo n = bits v lo n := by
  apply Nat.eq_of_testBit_eq
  intro i
  have low := congrArg (fun x => x.testBit (lo + i)) (halfBits_mod_low hh v)
  simp only [Nat.testBit_mod_two_pow] at low
  simp only [bits, Nat.testBit_mod_two_pow, Nat.testBit_shiftRight]
  by_cases hi : i < n
  · have : lo + i < 32 := by omega
    simpa [hi, this] using low
  · simp [hi]

theorem halfBits_mod {h : Half} (hh : h ≠ .hi) (v : Nat) {n : Nat} (hn : n ≤ 32) : halfBits h v % 2 ^ n = v % 2 ^ n := by
  simpa [bits] using bits_halfBits hh v 0 n (by omega)

/-! How a register write reaches the register's own rule. -/

/-- The bytes that a register write carries. -/
def writeBytes (w : RegWrite) : List Byte :=
  match w.half with
  | .full => toBytes 8 w.val.toNat
  | .lo => toBytes 4 w.val.toNat
  | .hi => toBytes 4 (w.val.toNat / 2 ^ 32)

/-- The write as its register sees it: the bits of the half that it does not touch are 0 (R7). -/
def presented (w : RegWrite) : RegWrite := { w with val := BitVec.ofNat 64 (halfBits w.half w.val.toNat) }

@[simp] theorem presented_half (w : RegWrite) : (presented w).half = w.half := rfl

@[simp] theorem halfBits_presented (w : RegWrite) : halfBits w.half (presented w).val.toNat = halfBits w.half w.val.toNat := by
  rw [presented, BitVec.toNat_ofNat, Nat.mod_eq_of_lt (halfBits_lt _ _), halfBits_halfBits]

/-- The address that a register write names. -/
abbrev writeAddr (off : Nat) (w : RegWrite) : Nat := regBase + halfOffset off w.half

theorem half_of_writeBytes (off : Nat) (w : RegWrite) :
    (if (writeBytes w).length = 8 then Half.full else if writeAddr off w % 8 = 0 then .lo else .hi) = w.half := by
  have base : regBase % 8 = 0 := by decide
  unfold writeAddr writeBytes halfOffset
  cases w.half with
  | full => simp
  | lo => simp; omega
  | hi => simp; omega

theorem writeAddr_mod (off : Nat) (w : RegWrite) : writeAddr off w % 8 = if w.half = .hi then 4 else 0 := by
  have base : regBase % 8 = 0 := by decide
  unfold writeAddr halfOffset
  split <;> omega

/-- The bytes of a write, shifted to where they lie in the register, are what the register sees. -/
theorem ofBytes_writeBytes (off : Nat) (w : RegWrite) :
    ofBytes (writeBytes w) * 2 ^ (8 * (writeAddr off w % 8)) = halfBits w.half w.val.toNat := by
  rw [writeAddr_mod]
  have hv := w.val.isLt
  unfold writeBytes
  cases w.half with
  | full => simp [ofBytes_toBytes, halfBits]
  | lo => simp [ofBytes_toBytes, halfBits]
  | hi =>
    have fits : w.val.toNat / 2 ^ 32 < 2 ^ 32 := by omega
    simp only [ofBytes_toBytes, halfBits, if_true, Nat.mod_eq_of_lt hv]
    rw [Nat.mod_eq_of_lt fits]

end Sys2Proof.Proofs

/-! Register writes: the checks of a store, and a register write as a command (R7, R269, R293, R311, R461). -/

namespace Sys2Proof.Proofs
open Sys2Proof Sys2Proof.Machine

theorem length_writeBytes (w : RegWrite) : (writeBytes w).length = if w.half = .full then 8 else 4 := by
  unfold writeBytes
  cases w.half <;> simp

/-! `State.findReg` and `State.regStore` match on a lookup whose address subtracts `regBase`. The kernel must not evaluate that subtraction,
so these lemmas replace a function by its body without applying it first. -/

theorem regAt_of_findReg {s : State} {unit a : Nat} {r : Reg} (h : s.findReg unit a = .ok r) :
    regAt ((a - regBase) / 8 * 8) = some r := by
  have body : @State.findReg = @State.findReg := rfl
  conv at body => rhs; delta State.findReg
  rw [body] at h
  beta_reduce at h
  cases found : regAt ((a - regBase) / 8 * 8) with
  | none =>
    rw [found] at h
    cases h
  | some x =>
    rw [found] at h
    dsimp only at h
    split at h
    · cases h
    · exact congrArg some (Except.ok.inj h)

theorem regStore_of_error {s : State} {unit a c : Nat} (h : s.findReg unit a = .error c) (p : PartId) (bs : List Byte) :
    s.regStore unit p a bs = (s, c) := by
  have body : @State.regStore = @State.regStore := rfl
  conv at body => rhs; delta State.regStore
  rw [body]
  beta_reduce
  rw [h]

theorem regStore_of_ok {s : State} {unit a : Nat} {r : Reg} (h : s.findReg unit a = .ok r) (p : PartId) (bs : List Byte) :
    s.regStore unit p a bs =
      if !regSizeOk r a bs.length then (s, eAlign)
      else if !s.mayWrite r p.val then (s, ePermission)
      else if Table.get false s.badWrite unit then (s.takeBadWrite unit, eParity)
      else s.regWrite r ⟨unit, p, if bs.length = 8 then .full else if a % 8 = 0 then .lo else .hi,
        BitVec.ofNat 64 (ofBytes bs * 2 ^ (8 * (a % 8)))⟩ := by
  have body : @State.regStore = @State.regStore := rfl
  conv at body => rhs; delta State.regStore
  rw [body]
  beta_reduce
  rw [h]

/-- The store that a register write makes (R7, R293). -/
abbrev storeOf (s : State) (off : Nat) (w : RegWrite) : State × Nat := s.regStore w.unit w.part (writeAddr off w) (writeBytes w)

/-- Whether the size rule lets the write through. -/
abbrev sizeFits (r : Reg) (off : Nat) (w : RegWrite) : Bool := regSizeOk r (writeAddr off w) (writeBytes w).length

section
variable {s : State} {off : Nat} {w : RegWrite} {r : Reg} (found : s.findReg w.unit (writeAddr off w) = .ok r)
include found

theorem storeOf_misaligned (hs : sizeFits r off w = false) : storeOf s off w = (s, eAlign) := by
  simp [storeOf, regStore_of_ok found, hs]

theorem storeOf_forbidden (hs : sizeFits r off w = true) (hm : s.mayWrite r w.part.val = false) :
    storeOf s off w = (s, ePermission) := by
  simp [storeOf, regStore_of_ok found, hs, hm]

theorem storeOf_performed (hs : sizeFits r off w = true) (hm : s.mayWrite r w.part.val = true)
    (hb : Table.get false s.badWrite w.unit = false) : storeOf s off w = s.regWrite r (presented w) := by
  simp [storeOf, regStore_of_ok found, hs, hm, hb, half_of_writeBytes, ofBytes_writeBytes, presented]

end

/-! The size rule (R7, R133, R351). -/

theorem sizeFits_full (r : Reg) (off : Nat) {w : RegWrite} (h : w.half = .full) : sizeFits r off w = true := by
  simp [sizeFits, regSizeOk, length_writeBytes, writeAddr_mod, h]

/-- A register that takes a half at all takes either half. -/
theorem sizeFits_of_narrow {r : Reg} (hr : regSizeOk r 4 4 = true) (off : Nat) (w : RegWrite) : sizeFits r off w = true := by
  have aligned : writeAddr off w % 4 = 0 := by
    have := writeAddr_mod off w
    split at this <;> omega
  by_cases hf : w.half = .full
  · exact sizeFits_full r off hf
  · simp only [regSizeOk, Bool.or_eq_true, Bool.and_eq_true] at hr
    simp [sizeFits, regSizeOk, length_writeBytes, hf, aligned]
    simpa using hr

theorem sizeFits_hallCtr {w : RegWrite} (h : w.half ≠ .full) (c off : Nat) : sizeFits (.hallCtr c) off w = false := by
  simp [sizeFits, regSizeOk, length_writeBytes, h]

/-! A register write as a command. -/

theorem performWrite_eq (s : State) (off : Nat) (w : RegWrite) :
    s.performWrite off w =
      if (storeOf s off w).2 = eOk then
        ((storeOf s off w).1.carryRegister w.unit (writeAddr off w) (writeBytes w).length .write).emit (.resp w.unit 0 [])
      else (storeOf s off w).1.logErr w.unit w.part.val (storeOf s off w).2 (globalOf (writeAddr off w))
        (.out (.resp w.unit (storeOf s off w).2 [])) := by
  have body : @State.performWrite = @State.performWrite := rfl
  conv at body => rhs; delta State.performWrite
  rw [body]
  beta_reduce
  unfold storeOf writeAddr writeBytes halfOffset
  simp only [← Nat.add_assoc]
  cases w.half <;> rfl

/-- A write whose store is refused changes nothing but the log, which gains one record. -/
theorem performWrite_refused {s : State} {off code : Nat} {w : RegWrite} (h : storeOf s off w = (s, code)) (hc : code ≠ 0) :
    ∃ e : ErrRecord, s.performWrite off w = { s with elog := { s.elog with transit := s.elog.transit ++ [e] } } ∧
      e.code = code ∧ e.unit = w.unit ∧ e.part = w.part.val ∧ e.addr = s.recordAddr (globalOf (writeAddr off w)) ∧
      e.reply = .out (.resp w.unit code []) := by
  rw [performWrite_eq, h, if_neg hc]
  exact ⟨_, rfl, rfl, rfl, rfl, rfl, rfl⟩

/-- A write whose store passes is answered; beside what the register's rule did, only counters move. -/
theorem performWrite_done {s u : State} {off : Nat} {w : RegWrite} (h : storeOf s off w = (u, 0)) :
    s.performWrite off w = { u with out := .resp w.unit 0 [] :: u.out, ctr := (s.performWrite off w).ctr } := by
  have counts := onlyCounts_carryRegister u w.unit (writeAddr off w) (writeBytes w).length .write
  rw [performWrite_eq, h, if_pos rfl]
  exact congrArg (fun t => State.emit t (.resp w.unit 0 [])) counts

theorem registerCommand_performs {s : State} {off : Nat} {w : RegWrite} (go : writeGoes s off w)
    (awake : s.power.state = 0 ∨ (regAt (off / 8 * 8)).any Reg.wakes = false) : s.registerCommand off w = s.performWrite off w := by
  obtain ⟨reached, holds, behind⟩ := go
  unfold State.registerCommand
  rcases awake with h | h <;> simp [reached, holds, behind, h]

theorem registerAt_of_findReg {s : State} {off : Nat} {w : RegWrite} {r : Reg} (h : s.findReg w.unit (writeAddr off w) = .ok r) :
    regAt (off / 8 * 8) = some r := by
  have place : (writeAddr off w - regBase) / 8 * 8 = off / 8 * 8 := by
    unfold writeAddr halfOffset
    split <;> omega
  rw [← place]
  exact regAt_of_findReg h

end Sys2Proof.Proofs

/-! Register writes: the rules of the plain registers, and O59. -/

namespace Sys2Proof.Proofs
open Sys2Proof Sys2Proof.Machine

/-- The write is performed as a command, answered, and leaves the module as `u` is, but for counters (R6, R7). -/
def writeLeaves (s : State) (off : Nat) (w : RegWrite) (u : State) : Prop :=
  ∃ t, exec (.registerWrite off w) s = .next t ∧ t = { u with out := t.out, ctr := t.ctr } ∧ t.out = .resp w.unit 0 [] :: u.out

theorem exec_registerWrite {s : State} {off : Nat} {w : RegWrite} (go : writeGoes s off w)
    (awake : s.power.state = 0 ∨ (regAt (off / 8 * 8)).any Reg.wakes = false) :
    exec (.registerWrite off w) s = .next (s.performWrite off w) :=
  congrArg _ (registerCommand_performs go awake)

/-- A refused write, as a command. -/
theorem exec_registerWrite_refused {s : State} {off code : Nat} {w : RegWrite} (go : writeGoes s off w)
    (awake : s.power.state = 0 ∨ (regAt (off / 8 * 8)).any Reg.wakes = false) (h : storeOf s off w = (s, code)) (hc : code ≠ 0) :
    ∃ t, ∃ e : ErrRecord, exec (.registerWrite off w) s = .next t ∧
      t = { s with elog := { s.elog with transit := s.elog.transit ++ [e] } } ∧
      e.code = code ∧ e.unit = w.unit ∧ e.part = w.part.val ∧ e.addr = s.recordAddr (globalOf (writeAddr off w)) ∧
      e.reply = .out (.resp w.unit code []) := by
  obtain ⟨e, ht, rest⟩ := performWrite_refused h hc
  exact ⟨_, e, exec_registerWrite go awake, ht, rest⟩

section
variable {s : State} {off : Nat} {w : RegWrite} {r : Reg}

theorem asleep_of_plain (found : s.findReg w.unit (writeAddr off w) = .ok r) (quiet : r.wakes = false) :
    (regAt (off / 8 * 8)).any Reg.wakes = false := by
  rw [registerAt_of_findReg found]
  exact quiet

/-- A write that reaches a register whose size rule it meets does what the register's rule says. -/
theorem writeLeaves_of_fits {u : State} (h : writeReaches s off w r) (quiet : r.wakes = false) (fits : sizeFits r off w = true)
    (rule : s.regWrite r (presented w) = (u, 0)) : writeLeaves s off w u := by
  obtain ⟨found, may, go, whole⟩ := h
  have run := exec_registerWrite go (.inr (asleep_of_plain found quiet))
  have st := storeOf_performed found fits may whole
  have done := performWrite_done (st.trans rule)
  generalize s.performWrite off w = t at run done
  refine ⟨t, run, ?_, ?_⟩
  · exact done.trans (by rw [congrArg State.out done])
  · exact congrArg State.out done

/-- A write of any half that reaches a register which takes halves. -/
theorem writeLeaves_of_narrow {u : State} (h : writeReaches s off w r) (quiet : r.wakes = false) (narrow : regSizeOk r 4 4 = true)
    (rule : s.regWrite r (presented w) = (u, 0)) : writeLeaves s off w u :=
  writeLeaves_of_fits h quiet (sizeFits_of_narrow narrow off w) rule

end

/-! What the plain registers make of a write (R133, R205, R250, R351, R376, R418, R419, R425, R464, R483, R507, R520, R532). -/

section
variable (s : State) (w : RegWrite)

theorem regWrite_hallCtr (h : w.half = .full) (c : Nat) :
    s.regWrite (.hallCtr c) (presented w) = (s.setHallCounter c w.val, 0) := by
  have whole : halfBits w.half w.val.toNat = w.val.toNat := by rw [h]; exact Nat.mod_eq_of_lt w.val.isLt
  simp [State.regWrite, whole]

theorem regWrite_qos (h : w.half ≠ .hi) (p : Nat) :
    s.regWrite (.qos p) (presented w) = (s.modPart p (fun x => { x with
      qosHall := bits w.val.toNat 0 8, qosMem := bits w.val.toNat 8 8, qosBrg := bits w.val.toNat 16 8, qosLnk := bits w.val.toNat 24 8 }), 0) := by
  simp [State.regWrite, touchesLo_of_ne_hi h, bits_halfBits h]

theorem regWrite_hostWin_base (p : Nat) :
    s.regWrite (.hostWin p 8) (presented w) =
      (s.modPart p (fun x => { x with fn := { x.fn with hbase := mergeHalf w.half x.fn.hbase w.val.toNat / 4096 * 4096 } }), 0) := by
  simp [State.regWrite, writeHostWin]

theorem regWrite_bootEntry :
    s.regWrite .bootEntry (presented w) =
      ({ s with boot := { s.boot with entry := mergeHalf w.half s.boot.entry w.val.toNat % 2 ^ 56 / 4 * 4 } }, 0) := by
  simp [State.regWrite, State.modBoot]

theorem regWrite_mbArg (p : Nat) :
    s.regWrite (.mbArg p 0) (presented w) = (s.modPart p (fun x => { x with
      mbox := { x.mbox with arg0 := BitVec.ofNat 64 (mergeHalf w.half x.mbox.arg0.toNat w.val.toNat) } }), 0) := by
  simp [State.regWrite]

theorem regWrite_rtab_base (p : Nat) :
    s.regWrite (.rtab p false) (presented w) =
      (s.modPart p (fun x => { x with rtabBase := mergeHalf w.half x.rtabBase w.val.toNat % 2 ^ 44 / 32 * 32 }), 0) := by
  simp [State.regWrite]

theorem regWrite_rtab_count (h : w.half ≠ .hi) (p : Nat) :
    s.regWrite (.rtab p true) (presented w) = (s.modPart p (fun x => { x with rtabCnt := min 64 (w.val.toNat % 128) }), 0) := by
  have low := halfBits_mod h w.val.toNat (n := 7) (by decide)
  simp only [Nat.reducePow] at low
  simp [State.regWrite, touchesLo_of_ne_hi h, low]

theorem regWrite_pfx_base (p : Nat) :
    s.regWrite (.pfx p 0) (presented w) =
      (s.modPart p (fun x => { x with pfxBase := mergeHalf w.half x.pfxBase w.val.toNat % 2 ^ 44 / 64 * 64 }), 0) := by
  simp [State.regWrite]

theorem regWrite_stopMask (h : w.half ≠ .hi) :
    s.regWrite .stopMask (presented w) = ({ s with elog := { s.elog with stopMask := w.val.toNat % 65536 } }, 0) := by
  have low := halfBits_mod h w.val.toNat (n := 16) (by decide)
  simp only [Nat.reducePow] at low
  simp [State.regWrite, touchesLo_of_ne_hi h, low, State.modElog]

theorem regWrite_snap_t :
    s.regWrite (.snap 0x10) (presented w) = ({ s with snap := { s.snap with t := mergeHalf w.half s.snap.t w.val.toNat } }, 0) := by
  simp [State.regWrite, State.modSnap]

theorem regWrite_snap_end :
    s.regWrite (.snap 0x18) (presented w) = ({ s with snap := { s.snap with end_ := mergeHalf w.half s.snap.end_ w.val.toNat } }, 0) := by
  simp [State.regWrite, State.modSnap]

theorem regWrite_lnk_timeout (h : w.half ≠ .hi) :
    s.regWrite (.lnk 0x10) (presented w) = ({ s with links := { s.links with timeout := max 1 (w.val.toNat % 65536) } }, 0) := by
  have low := halfBits_mod h w.val.toNat (n := 16) (by decide)
  simp only [Nat.reducePow] at low
  simp [State.regWrite, touchesLo_of_ne_hi h, low, State.modLinks]

theorem regWrite_pwr_limit (h : w.half ≠ .hi) :
    s.regWrite (.pwr 0x10) (presented w) = ({ s with power := { s.power with
      window := max 1 (min 20 (bits w.val.toNat 16 5)), limit := max 1000 (min 3400 (w.val.toNat % 4096)) } }, 0) := by
  have low := halfBits_mod h w.val.toNat (n := 12) (by decide)
  simp only [Nat.reducePow] at low
  simp [State.regWrite, State.writePower, h, low, bits_halfBits h, State.modPower]

/-- A word of the routing table as a write leaves it: its reserved bits are 0 (R418). -/
def routeWritten (s : State) (w : RegWrite) (k : Nat) : Reg64 :=
  let x := mergeHalf w.half (Table.get 0 s.links.route k).toNat w.val.toNat
  BitVec.ofNat 64 (x % 2 ^ 45 + (if x.testBit 63 then 2 ^ 63 else 0))

theorem regWrite_route (b m i : Nat) :
    s.regWrite (.route b m i) (presented w) = ({ s with links := { s.links with
      route := Table.set 0 s.links.route (16384 * b + 4 * m + i) (routeWritten s w (16384 * b + 4 * m + i)) } }, 0) := by
  simp [State.regWrite, State.modLinks, routeWritten]

/-- An entry of the pair table as a whole write leaves it (R425). -/
def pairWritten (w : RegWrite) : Pair :=
  ⟨w.val.toNat.testBit 63, bits w.val.toNat 32 12, bits w.val.toNat 24 4, bits w.val.toNat 16 4, bits w.val.toNat 0 10⟩

theorem regWrite_pair (h : w.half = .full) (i : Nat) :
    s.regWrite (.pair i) (presented w) =
      ({ s with links := { s.links with pairs := Table.set {} s.links.pairs i (pairWritten w) } }, 0) := by
  have whole : ∀ old, mergeHalf w.half old w.val.toNat = w.val.toNat := by
    intro old
    rw [h]
    exact Nat.mod_eq_of_lt w.val.isLt
  simp [State.regWrite, State.modLinks, whole, pairWritten]

end

/-- Settles O59: what `performWrite` makes of a refused store, and of each register's own rule. -/
theorem registersTakeWrites : Obligations.RegistersTakeWrites := by
  unfold Obligations.RegistersTakeWrites
  refine ⟨?unmapped, ?forbidden, ?taken⟩
  case unmapped =>
    intro s off code w missing hc awake go
    obtain ⟨t, e, run, ht, hcode, hunit, hpart, -, hreply⟩ :=
      exec_registerWrite_refused go (.inl awake) (regStore_of_error missing w.part (writeBytes w)) hc
    exact ⟨t, e, run, ht, hcode, hunit, hpart, hreply⟩
  case forbidden =>
    intro s off w r full found may wake go
    have found' : s.findReg w.unit (writeAddr off w) = .ok r := by rw [writeAddr, full]; exact found
    have awake : s.power.state = 0 ∨ (regAt (off / 8 * 8)).any Reg.wakes = false := by
      cases quiet : r.wakes with
      | true => exact .inl (wake quiet)
      | false => exact .inr (asleep_of_plain found' quiet)
    have addr : writeAddr off w = regBase + off / 8 * 8 := by simp [writeAddr, halfOffset, full]
    rw [← addr]
    exact exec_registerWrite_refused go awake (storeOf_forbidden found' (sizeFits_full r off full) may) (by decide)
  case taken =>
    intro s off w r h
    refine ⟨?_, ?_, ?_, ?_, ?_, ?_, ?_, ?_, ?_, ?_, ?_, ?_, ?_, ?_, ?_, ?_⟩
    · rintro c rfl full
      exact writeLeaves_of_fits h rfl (sizeFits_full _ off full) (regWrite_hallCtr s w full c)
    · rintro c rfl half
      obtain ⟨found, -, go, -⟩ := h
      obtain ⟨t, e, run, ht, hcode, -⟩ := exec_registerWrite_refused go (.inr (asleep_of_plain found rfl))
        (storeOf_misaligned found (sizeFits_hallCtr half c off)) (by decide)
      exact ⟨t, e, run, ht, hcode⟩
    · rintro p rfl lo
      exact writeLeaves_of_narrow h rfl rfl (regWrite_qos s w lo p)
    · rintro p rfl
      exact writeLeaves_of_narrow h rfl rfl (regWrite_hostWin_base s w p)
    · rintro rfl
      exact writeLeaves_of_narrow h rfl rfl (regWrite_bootEntry s w)
    · rintro p rfl
      exact writeLeaves_of_narrow h rfl rfl (regWrite_mbArg s w p)
    · rintro p rfl
      exact writeLeaves_of_narrow h rfl rfl (regWrite_rtab_base s w p)
    · rintro p rfl lo
      exact writeLeaves_of_narrow h rfl rfl (regWrite_rtab_count s w lo p)
    · rintro p rfl
      exact writeLeaves_of_narrow h rfl rfl (regWrite_pfx_base s w p)
    · rintro rfl lo
      exact writeLeaves_of_narrow h rfl rfl (regWrite_stopMask s w lo)
    · rintro rfl
      exact writeLeaves_of_narrow h rfl rfl (regWrite_snap_t s w)
    · rintro rfl
      exact writeLeaves_of_narrow h rfl rfl (regWrite_snap_end s w)
    · rintro rfl lo
      exact writeLeaves_of_narrow h rfl rfl (regWrite_lnk_timeout s w lo)
    · rintro rfl lo
      exact writeLeaves_of_narrow h rfl rfl (regWrite_pwr_limit s w lo)
    · rintro b m i rfl
      exact writeLeaves_of_narrow h rfl rfl (regWrite_route s w b m i)
    · rintro i rfl full
      exact writeLeaves_of_narrow h rfl rfl (regWrite_pair s w full i)

end Sys2Proof.Proofs

/-! Loads of a square at a well: the home, the near cache and the port (R135, R141, R280, R291). -/

namespace Sys2Proof.Proofs
open Sys2Proof Sys2Proof.Machine

/-! What an access reads where only counters, or a square's near cache, have changed. -/

/-- Outside the squares only counters differ, and square `u` is as before but for its near cache and the marks of its lines. -/
def onlyNear (s t : State) (u : Nat) : Prop :=
  t = { s with squares := t.squares, ctr := t.ctr } ∧ t.sq u = { s.sq u with near := (t.sq u).near, badNear := (t.sq u).badNear }

theorem onlyNear.refl (s : State) (u : Nat) : onlyNear s s u := ⟨rfl, rfl⟩

theorem onlyNear.trans {s t v : State} {u : Nat} (h : onlyNear s t u) (k : onlyNear t v u) : onlyNear s v u := by
  obtain ⟨h1, h2⟩ := h
  obtain ⟨k1, k2⟩ := k
  exact ⟨by rw [k1, h1], by rw [k2, h2]⟩

theorem onlyCounts.onlyNear {s t : State} (h : onlyCounts s t) (u : Nat) : onlyNear s t u := by
  unfold onlyCounts at h
  rw [h]
  exact ⟨rfl, rfl⟩

theorem onlyNear_modSq (s : State) (u : Nat) (near : Table (List Byte)) (bad : Table Bool) :
    onlyNear s (s.modSq u (fun q => { q with near := near, badNear := bad })) u :=
  ⟨rfl, by simp⟩

/-- What a read at a well finds: PARITY where a byte fails every read, else the bytes (R291). -/
def wellAnswer (s : State) (a n : Nat) : AccOut := if s.parityOf a n = 2 then .err eParity else .ok (s.bytes a n)

section
variable {s t : State} {u : Nat} (h : onlyNear s t u)
include h

theorem onlyNear.isM : t.isM = s.isM := by rw [h.1]

theorem onlyNear.checkAcc (x : Acc) : t.checkAcc x = s.checkAcc x := by rw [h.1]; rfl

theorem onlyNear.wellAnswer (a n : Nat) : wellAnswer t a n = wellAnswer s a n := by rw [h.1]; rfl

end

theorem homeRead_well {s : State} {a q : Nat} (n : Nat) (place : placeOf s.isM a = .well q) :
    (s.homeRead a n).2 = if s.parityOf a n = 2 then .error eParity else .ok (s.bytes a n) := by
  unfold State.homeRead
  simp only [place]
  split <;> simp_all

/-- A checked load at a well reads there, and moves counters alone. -/
theorem localAccess_load_well {s : State} {unit part a n q : Nat} {bulk : Bool} (place : placeOf s.isM a = .well q)
    (pass : s.checkAcc ⟨unit, part, a, n, .read, bulk⟩ = 0) :
    onlyCounts s (s.localAccess unit part a (.load n) bulk).1 ∧ (s.localAccess unit part a (.load n) bulk).2 = wellAnswer s a n := by
  have carried := onlyCounts_carryAcc s ⟨unit, part, a, n, .read, bulk⟩
  have read : s.localAccess unit part a (.load n) bulk = (s.carryAcc ⟨unit, part, a, n, .read, bulk⟩).memAccess a (.load n) := by
    simp [State.localAccess, place, accFor, pass]
  rw [read, ← (carried.onlyNear 0).wellAnswer]
  generalize s.carryAcc ⟨unit, part, a, n, .read, bulk⟩ = t at carried
  have place' : placeOf t.isM a = .well q := by rw [(carried.onlyNear 0).isM, place]
  refine ⟨carried.trans (onlyCounts_homeRead t a n), ?_⟩
  by_cases bad : t.parityOf a n = 2 <;> simp [State.memAccess, homeRead_well n place', Proofs.wellAnswer, bad]

/-- A line goes into an empty near cache. -/
theorem installLine_of_empty {s : State} {u : Nat} (empty : (s.sq u).near = []) (line : Nat) (bs : List Byte) :
    s.installLine u line bs = s.modSq u (fun q => { q with near := Table.set [] q.near line bs }) := by
  simp [State.installLine, empty, nearSet]

/-- A read through an empty near cache goes to its well (R280, R291). -/
theorem nearRead_well {s : State} {u part a n q : Nat} (fill : Bool) (empty : (s.sq u).near = [])
    (place : placeOf s.isM a = .well q) (pass : s.checkAcc ⟨u, part, a, n, .read, false⟩ = 0) :
    onlyNear s (s.nearRead u part a n fill false).1 u ∧ (s.nearRead u part a n fill false).2 = wellAnswer s a n := by
  unfold State.nearRead
  extract_lets line s0 held r t
  have cleaned : onlyNear s s0 u ∧ (s0.sq u).near = [] := by
    unfold s0
    split
    · exact ⟨onlyNear_modSq s u _ _, by simp [empty, Table.erase]⟩
    · exact ⟨onlyNear.refl s u, empty⟩
  obtain ⟨clean, empty0⟩ := cleaned
  have miss : held = [] := by simp [held, empty0, Table.get]
  obtain ⟨counts, answer⟩ := localAccess_load_well (s := s0) (bulk := false) (clean.isM ▸ place) ((clean.checkAcc _).trans pass)
  have reached : onlyNear s r.1 u := clean.trans (counts.onlyNear u)
  have empty1 : (r.1.sq u).near = [] := by rw [show r.1 = _ from counts]; exact empty0
  rw [if_neg (by simp [miss]), ← clean.wellAnswer, ← answer]
  cases found : r.2 with
  | err c => exact ⟨reached, rfl⟩
  | host => exact ⟨reached, rfl⟩
  | ok bs =>
    have missed : onlyNear s t u := reached.trans ((onlyCounts_count r.1 u 12 1).onlyNear u)
    dsimp only
    split_ifs
    · rw [installLine_of_empty (by exact empty1)]
      exact ⟨missed.trans (onlyNear_modSq t u _ _), rfl⟩
    · exact ⟨missed, rfl⟩
    · exact ⟨reached, rfl⟩

theorem addr_lt_of_well {isM : Bool} {a q : Nat} (h : placeOf isM a = .well q) : a < 0x8000000000 := by
  by_contra far
  unfold placeOf at h
  rw [if_neg far] at h
  split_ifs at h

/-- The window of a square's cistern lies beyond every well (R268, R284). -/
theorem ownWindow_passes_well {isM : Bool} {a q : Nat} (h : placeOf isM a = .well q) (sq : Square) (u n : Nat) :
    sq.ownWindowRefuses u a n = false := by
  have low := addr_lt_of_well h
  have : ¬ cisternAddr u 0 ≤ a := by unfold cisternAddr cisternBase; omega
  simp [Square.ownWindowRefuses, this]

/-! The end of an operation with one access (R138, R141). -/

/-- An operation leaves the port. -/
def leavePort (q : Square) (o : AtOp) : Square := { q with atOps := q.atOps.filter (fun x => x.id != o.id) }

section
variable {s : State} {u : Nat} {o : AtOp} {r : AtRow}
  (inFlight : (s.sq u).atOps.find? (fun x => x.id == o.id) = some o) (one : o.rows = [r])
include inFlight one

theorem endRow_done (old : Nat) :
    s.endRow u o.id 0 .done old = (s.modSq u (fun q => leavePort q o)).modSq u (fun q => q.writeResult o old) := by
  simp [State.endRow, inFlight, one, setStage, AtStage.ended, firstFailed, leavePort]

theorem endRow_failed (code stamp old : Nat) :
    s.endRow u o.id 0 (.failed code stamp) old = (s.modSq u (fun q => leavePort q o)).faultSquareAt u code o.iidx stamp := by
  simp [State.endRow, inFlight, one, setStage, AtStage.ended, firstFailed, leavePort]

end

theorem sreg_setSreg (q : Square) (r : Nat) (v : Reg64) (k : Nat) :
    (q.setSreg r v).sreg k = if k = r ∧ r ≠ 0 then v else q.sreg k := by
  by_cases h0 : r = 0
  · simp [Square.setSreg, h0]
  · by_cases hk : k = r
    · simp [Square.setSreg, Square.sreg, h0, hk]
    · simp [Square.setSreg, Square.sreg, h0, hk, Table.get_set]

/-- An unsigned load writes the value that it found (R135). -/
theorem sreg_writeResult_load {o : AtOp} (load : o.kind = .ld) (unsigned : o.sgn = false) (q : Square) (old k : Nat) :
    (q.writeResult o old).sreg k = if k = o.sd ∧ o.sd ≠ 0 then BitVec.ofNat 64 old else q.sreg k := by
  by_cases h0 : o.sd = 0
  · simp [Square.writeResult, h0]
  · simp [Square.writeResult, h0, load, unsigned, sreg_setSreg]

theorem atOps_writeResult_load {o : AtOp} (load : o.kind = .ld) (unsigned : o.sgn = false) (q : Square) (old : Nat) :
    (q.writeResult o old).atOps = q.atOps := by
  by_cases h0 : o.sd = 0 <;> simp [Square.writeResult, Square.setSreg, h0, load, unsigned]

/-! A load of a square at a well. -/

/-- What `atLocal` makes of a load whose bytes lie in a well that allows it, the near cache being empty. -/
theorem atLocal_load_well {s : State} {u q : Nat} {o : AtOp} {r : AtRow} (load : o.kind = .ld) (empty : (s.sq u).near = [])
    (place : placeOf s.isM (r.addr % 2 ^ 44) = .well q)
    (pass : s.checkAcc ⟨u, (s.sq u).kpart, r.addr % 2 ^ 44, o.size, .read, false⟩ = 0) :
    ∃ t, onlyNear s t u ∧ s.atLocal u o 0 r =
      if s.parityOf (r.addr % 2 ^ 44) o.size = 2 then t.rowRefused u o.id 0 eParity r.addr
      else t.endRow u o.id 0 .done (ofBytes (s.bytes (r.addr % 2 ^ 44) o.size)) := by
  obtain ⟨near, answer⟩ := nearRead_well (n := o.size) o.fill empty place pass
  refine ⟨_, near, ?_⟩
  have body : @State.atLocal = @State.atLocal := rfl
  conv at body => rhs; delta State.atLocal
  rw [body]
  beta_reduce
  extract_lets sq a k x
  have served : x = s.nearRead u (s.sq u).kpart (r.addr % 2 ^ 44) o.size o.fill false := by
    unfold x
    rw [if_neg (by rw [ownWindow_passes_well place]; exact Bool.false_ne_true), if_pos load]
  rw [served, answer, wellAnswer]
  by_cases bad : s.parityOf (r.addr % 2 ^ 44) o.size = 2
  · rw [if_pos bad, if_pos bad]
  · rw [if_neg bad, if_neg bad]

/-- A load that is next in its order goes to its local home (R135, R303). -/
theorem atAccess_local {s : State} {u : Nat} {o : AtOp} {r : AtRow}
    (inFlight : (s.sq u).atOps.find? (fun x => x.id == o.id) = some o) (one : o.rows = [r]) (waiting : r.stage = .waiting)
    (next : s.mustWait u o.id 0 = false) (fits : r.addr < 2 ^ 56) (here : s.isLocal r.addr = true) :
    s.atAccess u o.id 0 = s.atLocal u o 0 r := by
  simp [State.atAccess, inFlight, one, waiting, next, here, Nat.not_le.mpr fits, -Nat.reducePow]

end Sys2Proof.Proofs

/-! The second attempt of a read that failed parity, and O30 (R142, R291, R502). -/

namespace Sys2Proof.Proofs
open Sys2Proof Sys2Proof.Machine

section
variable {s t : State} {u : Nat} (h : onlyNear s t u)
include h

theorem onlyNear.mem : t.mem = s.mem := by rw [h.1]
theorem onlyNear.elog : t.elog = s.elog := by rw [h.1]
theorem onlyNear.retries : t.retries = s.retries := by rw [h.1]
theorem onlyNear.recordAddr (a : Nat) : t.recordAddr a = s.recordAddr a := by rw [h.1]; rfl
theorem onlyNear.atOps : (t.sq u).atOps = (s.sq u).atOps := by rw [h.2]
theorem onlyNear.sregs : (t.sq u).sregs = (s.sq u).sregs := by rw [h.2]
theorem onlyNear.run : (t.sq u).run = (s.sq u).run := by rw [h.2]

end

/-- A square that does not run takes no fault (R142). -/
theorem faultSquareAt_idle {s : State} {u : Nat} (idle : (s.sq u).run ≠ .running) (code iidx stamp : Nat) :
    s.faultSquareAt u code iidx stamp = s := if_neg idle

/-- The second attempt of a read is an access that is not looked at for parity first (R291). -/
theorem exec_parityRetry {s : State} {idx a : Nat} {src : AccessSource} (found : s.retries[idx]? = some ⟨src, a⟩) :
    exec (.parityRetry idx) s = .next (State.perform { s with retries := s.retries.eraseIdx idx } src) := by
  change execParityRetry idx s = _
  rw [execParityRetry, found]

section
variable {s t : State} {u : SquareId} {o : AtOp} {r : AtRow} (near : onlyNear s t u.val)
  (inFlight : (s.sq u.val).atOps.find? (fun x => x.id == o.id) = some o) (one : o.rows = [r])
include near inFlight one

/-- A load whose read gave its value. -/
theorem load_ends (load : o.kind = .ld) (unsigned : o.sgn = false) (old : Nat) :
    let v := t.endRow u.val o.id 0 .done old
    v.retries = s.retries ∧ v.mem = s.mem ∧ portDone s v u o (BitVec.ofNat 64 old) := by
  rw [endRow_done (near.atOps ▸ inFlight) one]
  refine ⟨near.retries, near.mem, ?_, near.elog, fun k => ?_⟩
  · simp [atOps_writeResult_load load unsigned, leavePort, near.atOps]
  · have before : (leavePort (t.sq u.val) o).sreg k = (s.sq u.val).sreg k := by simp [leavePort, Square.sreg, near.sregs]
    rw [State.modSq_sq_same, State.modSq_sq_same, sreg_writeResult_load load unsigned, before]

/-- A load of a stopped square that its home refuses ends without a record (R142). -/
theorem load_refused_stopped (stopped : (s.sq u.val).run = .stopped) (code addr : Nat) :
    let v := t.rowRefused u.val o.id 0 code addr
    v.retries = s.retries ∧ v.mem = s.mem ∧ v.elog = s.elog ∧ (v.sq u.val).sregs = (s.sq u.val).sregs := by
  have halted : (t.sq u.val).run = .stopped := near.run.trans stopped
  have idle : ((t.modSq u.val (fun q => leavePort q o)).sq u.val).run ≠ .running := by simp [leavePort, halted]
  rw [State.rowRefused, if_pos halted, endRow_failed (near.atOps ▸ inFlight) one, faultSquareAt_idle idle]
  exact ⟨near.retries, near.mem, near.elog, by simp [leavePort, near.sregs]⟩

omit inFlight one in
/-- A load of another square that its home refuses makes one record, and waits for its acceptance (R502). -/
theorem load_refused (awake : (s.sq u.val).run ≠ .stopped) (code addr : Nat) :
    let v := t.rowRefused u.val o.id 0 code addr
    v.retries = s.retries ∧ v.mem = s.mem ∧
      (∃ e : ErrRecord, v.elog.transit = s.elog.transit ++ [e] ∧ e.code = code ∧ e.addr = s.recordAddr addr) ∧
      (v.sq u.val).sregs = (s.sq u.val).sregs := by
  rw [State.rowRefused, if_neg (near.run ▸ awake)]
  refine ⟨near.retries, near.mem, ?_, ?_⟩
  · rw [State.rowSent, State.modSq_elog, State.logErr_transit, near.elog]
    exact ⟨_, rfl, rfl, near.recordAddr addr⟩
  · simp [State.rowSent, near.sregs]

end

/-- Settles O30: the second attempt is a read of the home, whose three outcomes are `load_ends`, `load_refused_stopped` and
`load_refused`. -/
theorem parityIsRetriedOnce : Obligations.ParityIsRetriedOnce := by
  unfold Obligations.ParityIsRetriedOnce
  intro s idx u o r found load unsigned a ⟨q, place⟩ inFlight one waiting next fits here pass empty
  let s' : State := { s with retries := s.retries.eraseIdx idx }
  obtain ⟨t, near, answer⟩ := atLocal_load_well (s := s') load empty place pass
  have run : exec (.parityRetry idx) s = .next (s'.atLocal u.val o 0 r) := by
    rw [exec_parityRetry found]
    exact congrArg _ (atAccess_local (s := s') inFlight one waiting next fits here)
  rw [run, answer]
  refine ⟨fun once => ?_, fun always stopped => ?_, fun always awake => ?_⟩
  · obtain ⟨retries, mem, done⟩ := load_ends near inFlight one load unsigned (ofBytes (s.bytes a o.size))
    have readable : ¬ s'.parityOf a o.size = 2 := by
      rw [show s'.parityOf a o.size = 1 from once]
      decide
    rw [if_neg readable]
    exact ⟨_, rfl, retries, sameMemory.of_mem mem, done⟩
  · obtain ⟨retries, mem, rest⟩ := load_refused_stopped near inFlight one stopped eParity r.addr
    rw [if_pos (show s'.parityOf a o.size = 2 from always)]
    exact ⟨_, rfl, retries, sameMemory.of_mem mem, rest⟩
  · obtain ⟨retries, mem, rest⟩ := load_refused (o := o) near awake eParity r.addr
    rw [if_pos (show s'.parityOf a o.size = 2 from always)]
    exact ⟨_, rfl, retries, sameMemory.of_mem mem, rest⟩

end Sys2Proof.Proofs

/-! The commit of a lookup, and O37 (R255, R288, R291). -/

namespace Sys2Proof.Proofs
open Sys2Proof Sys2Proof.Machine

/-! A commit whose own first entry makes its second one fail. `State.edgeParity` is the worst mark of a granule, and a write is refused
when it is exactly 2. In a granule with a mark of 3, which `State.parity` can hold, and one of 2, every write of an entry passes its
checks; the write over the mark of 3 clears it, and the next write to the granule is refused. -/

/-- The request: its block 0 is pinned, and its page table begins with the reservoir. -/
def maskedRequest : LookReq :=
  { nbmax := 1, pt := globalOf reservoirBase, bref := globalOf 0xC000, pins := [(0, globalOf 0xE000, 0x9000)] }

/-- The lookup: a record has two entries, and both lie in one granule of the page table. -/
def maskedLookup : Lookup := { nreq := 1, layers := 2, ngrp := 1, reqs := [maskedRequest] }

def maskedLaunch : Launch :=
  { id := 1, queue := 0, part := 1, kind := .lookup, iaddr := 0, daddr := 0, stx := 0, qmask := 1, smask := 1, order := 0, async := true,
    cont := false, ksw := true, fskip := false, grid := none, arg7 := none, ecnt := 0, statAddr := 0, stage := .running, set := [0],
    look := some maskedLookup }

/-- Square 0 runs the lookup for partition 1, which owns the first extents of the wells and of the reservoir; the entries of the record
at 0xE000 have VALID set; the first byte of the page table is marked 3 and the first byte of its second entry 2. -/
def maskedState : State :=
  { launches := [maskedLaunch], squares := [(0, { run := .running, launch := 1, kpart := 1, setSize := 1 })]
    extents := [(0, { valid := true, owner := 1 }), (2048, { valid := true, owner := 1 })]
    mem := [(0xE047, 0x80), (0xE04F, 0x80)], parity := [(reservoirBase, 3), (reservoirBase + 8, 2)] }

/-- The four writes of the commit, as the statement lists them. -/
def maskedWrites : List (Nat × List Byte) :=
  [(globalOf reservoirBase, toBytes 8 (2 ^ 63 + 2 ^ 62)), (globalOf (reservoirBase + 8), toBytes 8 (2 ^ 63 + 2 ^ 62)),
   (globalOf 0xC000, toBytes 8 (globalOf 0xE000)), (globalOf 0x9038, toBytes 8 0)]

theorem maskedState_open : requestOpen maskedState 0 0 maskedLaunch maskedLookup maskedRequest := by
  unfold requestOpen
  decide +kernel

theorem maskedState_reads :
    readsAs maskedState 0 1 ((globalOf 0xE000 + 64) % 2 ^ 56) 16 true (maskedState.bytes 0xE040 16) := by
  unfold readsAs
  decide +kernel

theorem maskedState_writable : ∀ x, x ∈ maskedWrites → writable maskedState 0 1 x.1 8 true := by
  unfold writable
  decide +kernel

theorem maskedWrites_apart :
    List.Pairwise (fun x y => x.1 % 2 ^ 44 + 8 ≤ y.1 % 2 ^ 44 ∨ y.1 % 2 ^ 44 + 8 ≤ x.1 % 2 ^ 44) maskedWrites := by
  decide +kernel

/-- The second entry is refused with PARITY, and the refusal is logged. -/
theorem maskedState_logs : (maskedState.commitBlock 0 0).elog.transit.map (fun e => (e.code, e.addr)) =
    [(eParity, globalOf (reservoirBase + 8))] := by
  decide +kernel

/-- Refutes O37: `maskedState` meets every premise of the commit, whose second entry is refused and logged all the same. -/
theorem not_lookupsCommitAndAnswer : ¬ Obligations.LookupsCommitAndAnswer := by
  unfold Obligations.LookupsCommitAndAnswer
  rintro ⟨commits, -⟩
  obtain ⟨t, run, -, -, quiet, -⟩ := commits maskedState 0 0 maskedLaunch maskedLookup maskedRequest 0 (globalOf 0xE000) 0x9000 []
    (maskedState.bytes 0xE040 16) maskedState_open rfl (by decide) (by decide) (by decide) maskedState_reads (by decide +kernel)
    maskedState_writable maskedWrites_apart
  have after : t = maskedState.commitBlock 0 0 := (Host.Outcome.next.inj run).symm
  have logged := maskedState_logs
  rw [← after, quiet] at logged
  exact absurd logged (by decide)

end Sys2Proof.Proofs

/-! Issue of the matrix and vector instructions: an instruction that stands ready takes effect (R75, R76, R100, R101, R107). -/

namespace Sys2Proof.Proofs
open Sys2Proof Sys2Proof.Machine

/-! The checks of an instruction. -/

@[simp] theorem cause_eq_none (b : Bool) (code addr : Nat) : cause b code addr = none ↔ b = false := by
  cases b <;> simp [cause]

@[simp] theorem firstCause_eq_none (cs : List (Option (Nat × Nat))) : firstCause cs = none ↔ ∀ c ∈ cs, c = none := by
  simp [firstCause, List.findSome?_eq_none_iff]

@[simp] theorem footCause_eq_none (q : Square) (u off n : Nat) : q.footCause u off n = none ↔ off + n ≤ q.allotSize := by
  simp [Square.footCause, Square.fits]

@[simp] theorem parityCause_single_eq_none (s : State) (u off n : Nat) :
    s.parityCause u [(off, n)] = none ↔ s.cisternParity u off n = none := by
  cases h : s.cisternParity u off n <;> simp [State.parityCause, h]

@[simp] theorem vxChecks_eq_none (s : State) (u w : Nat) (fs : List (Nat × Nat)) (b extra bad : Bool) :
    s.vxChecks u w fs b extra bad = none ↔ (vxFormOk w fs b = true ∧ extra = true) ∧ bad = false := by
  simp [State.vxChecks]

/-! An instruction that stands at the PC of its square. -/

/-- The next state, as far as a statement about a square can see, when an instruction leaves square `u` as `q` and memory as it was. -/
def squareBecomes (s t : State) (u : Nat) (q : Square) : Prop :=
  t.sq u = q ∧ (∀ v, v ≠ u → t.sq v = s.sq v) ∧ silent s t ∧ sameMemory s t

section
variable {s : State} {u : SquareId} {cls op w : Nat}

theorem issue_of_standsAt (here : standsAt s u cls op w) (defined : opcodeDefined cls op = true) (f : Nat → State) :
    s.issue u.val cls op f = f w := by
  obtain ⟨fetched, rfl, rfl⟩ := here
  simp [State.issue, fetched, defined]

theorem mxIssue_of_ready {regs : Nat → List Nat} (ready : mxReady s u op w (regs w)) (defined : op ≤ 8)
    {check : Nat → Option (Nat × Nat)} (clear : check w = none) (f : Nat → State) : s.mxIssue u.val op regs check f = f w := by
  obtain ⟨here, written⟩ := ready
  rw [State.mxIssue, issue_of_standsAt here (by simpa [opcodeDefined] using defined), if_pos written, clear, State.checked]

theorem vxIssue_of_ready {regs : Nat → List Nat} (here : standsAt s u 2 op w) (written : (s.sq u.val).regsReady (regs w) = true)
    (defined : op ≤ 0x25) {check : Nat → Option (Nat × Nat)} (clear : check w = none) (f : Nat → State) :
    s.vxIssue u.val op regs check f = ((f w).count u.val 3 1).advance u.val := by
  rw [State.vxIssue, issue_of_standsAt here (by simpa [opcodeDefined] using defined), if_pos written, clear, State.checked]

end

/-- Counting and going on in sequence change the PC alone. -/
theorem squareBecomes_advance (s : State) (u idx n : Nat) (f : Square → Square) :
    squareBecomes s (((s.modSq u f).count u idx n).advance u) u { f (s.sq u) with pc := (f (s.sq u)).pc + 1 } := by
  refine ⟨by simp [State.advance], fun v other => ?_, ⟨rfl, rfl⟩, fun _ => rfl⟩
  simp [State.advance, State.modSq_sq, other]

/-- A matrix instruction that changes its square alone. -/
theorem mxChangesSquare {c : Instr} {s : State} {u : SquareId} {op w : Nat} {regs : Nat → List Nat}
    {check : Nat → Option (Nat × Nat)} {steps : Nat → Nat} {change : Nat → Square → Square}
    (runs : exec c s = .next (s.mxIssue u.val op regs check (fun w =>
      ((s.modSq u.val (change w)).drainSteps u.val (steps w)).advance u.val)))
    (ready : mxReady s u op w (regs w)) (defined : op ≤ 8) (clear : check w = none) :
    ∃ t, exec c s = .next t ∧
      squareBecomes s t u.val { change w (s.sq u.val) with pc := (change w (s.sq u.val)).pc + 1 } :=
  ⟨_, runs.trans (congrArg _ (mxIssue_of_ready ready defined clear _)), squareBecomes_advance s u.val 2 (steps w) (change w)⟩

end Sys2Proof.Proofs

/-! Range reads and writes of tables as functions of the position. -/

namespace Sys2Proof.Proofs
open Sys2Proof Sys2Proof.Machine

theorem getList_eq_map {α : Type} (d : α) (t : Table α) (k n : Nat) :
    Table.getList d t k n = (upto n).map (fun i => Table.get d t (k + i)) := by
  apply List.ext_getElem (by simp [upto])
  intro i h _
  simp [Table.getElem_getList, upto]

theorem get_setList_map {α : Type} [DecidableEq α] (d : α) (t : Table α) (k n : Nat) (f : Nat → α) (j : Nat) :
    Table.get d (Table.setList d t k ((upto n).map f)) j = if k ≤ j ∧ j < k + n then f (j - k) else Table.get d t j := by
  rw [Table.get_setList]
  simp only [upto, List.length_map, List.length_range]
  split
  next inside => simp [show j - k < n by omega]
  next => rfl

end Sys2Proof.Proofs

/-! Lanes of the vector engine: the operands of an operation lane by lane, and results written to VD with OUT_SAT (R78, R81, R122). -/

namespace Sys2Proof.Proofs
open Sys2Proof Sys2Proof.Machine

/-! Operands as functions of the lane. -/

theorem lanes_eq_map (q : Square) (v n : Nat) : q.lanes v n = (upto n).map (q.lane v) := getList_eq_map 0 q.vreg (512 * v) n


theorem replicate_eq_map {α : Type} (n : Nat) (x : α) : List.replicate n x = (upto n).map (fun _ => x) := by
  simp [upto]

theorem bLanes_eq_map (q : Square) (w : Nat) : q.bLanes w = (upto 512).map (operandLane q w) := by
  unfold Square.bLanes operandLane vxBSrc
  split
  next reg => simp [reg, lanes_eq_map, vxVB]
  next scalar => rw [replicate_eq_map]; simp [scalar, vxSS, BitVec.ofNat_toNat]
  next b notReg notScalar => simp only [replicate_eq_map, vxImm, if_neg notReg, if_neg notScalar]

theorem zipWith_map_upto {α β γ : Type} (f : α → β → γ) (a : Nat → α) (b : Nat → β) (n : Nat) :
    List.zipWith f ((upto n).map a) ((upto n).map b) = (upto n).map (fun l => f (a l) (b l)) := by
  simp [List.zipWith_map, List.zipWith_self]

theorem sint_vxImm (w : Nat) : sint (vxImm w) = signed 32 (bits w 96 32) := by
  simp only [sint, vxImm, signed, BitVec.toInt_eq_toNat_cond, BitVec.toNat_ofNat]
  split <;> split <;> omega

/-! Results. -/

/-- The results of the 512 lanes, each with whether it saturated. -/
def laneResults (res : Nat → Word) (sat : Nat → Bool) : List (Word × Bool) := (upto 512).map (fun l => (res l, sat l))

theorem lane_putLanes (q : Square) (vd : Nat) (res : Nat → Word) (sat : Nat → Bool) (v l : Nat) (hl : l < 512) :
    (q.putLanes vd (laneResults res sat)).lane v l = if v = vd then res l else q.lane v l := by
  simp only [Square.lane, Square.putLanes, Square.orOut, Square.setLanes, laneResults, List.map_map, get_setList_map]
  by_cases same : v = vd
  · subst same
    simp [hl]
  · rw [if_neg (by omega), if_neg same]

theorem outSat_putLanes (q : Square) (vd : Nat) (res : Nat → Word) (sat : Nat → Bool) :
    (q.putLanes vd (laneResults res sat)).outSat = true ↔ q.outSat = true ∨ ∃ l, l < 512 ∧ sat l = true := by
  simp [Square.putLanes, Square.orOut, Square.setLanes, laneResults, upto]

theorem putLanes_eq (q : Square) (vd : Nat) (rs : List (Word × Bool)) : q.putLanes vd rs =
    { q with vreg := (q.putLanes vd rs).vreg, badLane := (q.putLanes vd rs).badLane, outSat := (q.putLanes vd rs).outSat } := rfl

section
variable {c : Instr} {s : State} {u : SquareId} {op w : Nat} {regs : Nat → List Nat} {check : Nat → Option (Nat × Nat)}
  {results : Nat → Square → List (Word × Bool)} {res : Nat → Word} {sat : Nat → Bool}
  (runs : exec c s = .next (s.vxIssue u.val op regs check (fun w => s.modSq u.val (fun q => q.putLanes (vxVD w) (results w q)))))
  (defined : op ≤ 0x25) (found : results w (s.sq u.val) = laneResults res sat)
include runs defined found

/-- A vector instruction that is ready writes the results of its lanes to VD. -/
theorem vectorWritten_of_results (here : standsAt s u 2 op w) (written : (s.sq u.val).regsReady (regs w) = true)
    (clear : check w = none) : ∃ t, exec c s = .next t ∧ vectorWritten s t u (bits w 10 6) res sat := by
  rw [runs, vxIssue_of_ready here written defined clear]
  refine ⟨_, rfl, ?_⟩
  obtain ⟨square, others, quiet, memory⟩ :=
    squareBecomes_advance s u.val 3 1 (fun q => q.putLanes (vxVD w) (results w q))
  generalize ((s.modSq u.val _).count u.val 3 1).advance u.val = t at *
  rw [found] at square
  have lanes := lane_putLanes (s.sq u.val) (vxVD w) res sat
  have saturated := outSat_putLanes (s.sq u.val) (vxVD w) res sat
  have frame := putLanes_eq (s.sq u.val) (vxVD w) (laneResults res sat)
  generalize (s.sq u.val).putLanes (vxVD w) (laneResults res sat) = p at square lanes saturated frame
  refine ⟨fun l hl => ?_, fun v l hl other => ?_, ?_, ?_, ?_, others, quiet, memory⟩
  · rw [square]
    exact (lanes _ l hl).trans (if_pos rfl)
  · rw [square]
    exact (lanes v l hl).trans (if_neg other)
  · rw [square]
    exact saturated
  · rw [square, frame]
  · rw [square, frame]

/-- The same for an instruction that reads every lane of its source registers. -/
theorem vectorWritten_of_vxReady {fs vs : List (Nat × Nat)} {b extra : Bool} (ready : vxReady s u op w (regs w) fs b extra vs)
    (checks : check w = s.vxCheck u.val w fs b extra vs) :
    ∃ t, exec c s = .next t ∧ vectorWritten s t u (bits w 10 6) res sat := by
  obtain ⟨here, written, clear⟩ := ready
  exact vectorWritten_of_results runs defined found here written (checks.trans clear)

end

end Sys2Proof.Proofs

/-! Scale operations, and O17 (R36, R37, R49, R86, R87). -/

namespace Sys2Proof.Proofs
open Sys2Proof Sys2Proof.Machine

theorem qntLanes_map (qmax : Nat) (stoch : Bool) (x b c v : Nat → Word) (ls : List Nat) :
    qntLanes qmax stoch (ls.map x) (ls.map b) (ls.map c) (ls.map v) = ls.map (fun l =>
      let r := if stoch then quantizeSr (x l).toInt (Scale.ofWord (b l)) (Scale.ofWord (c l)) qmax (v l).toNat
        else quantize (x l).toInt (Scale.ofWord (b l)) (Scale.ofWord (c l)) qmax
      (BitVec.ofInt 32 r.1, r.2)) := by
  induction ls with
  | nil => rfl
  | cons l ls ih => simp only [List.map_cons, qntLanes, ih]; rfl

/-- Where no table byte fails parity, no record does. -/
theorem badTab_and_badRecords {q : Square} (slot : Nat) (xs : List Int) :
    (decide (q.badTab ≠ []) && q.badRecords slot xs) = q.badRecords slot xs := by
  cases h : q.badTab <;> simp [Square.badRecords, h]

/-- Settles O17: every scale operation that is ready takes effect, and its lanes are those of the operation's function. -/
theorem scaleOperationsWork : Obligations.ScaleOperationsWork := by
  unfold Obligations.ScaleOperationsWork
  refine ⟨fun s u w ready => ?dsc, fun s u w ready => ?qnt, fun s u w ready => ?smul, fun s u w ready => ?srcp,
    fun s u w ready => ?srsq, fun s u w ready => ?sc64⟩
  case dsc =>
    exact vectorWritten_of_vxReady rfl (by decide) (by rw [bLanes_eq_map, lanes_eq_map, zipWith_map_upto]; rfl) ready rfl
  case qnt =>
    exact vectorWritten_of_vxReady rfl (by decide) (by simp only [bLanes_eq_map, lanes_eq_map, qntLanes_map]; rfl) ready rfl
  case smul =>
    exact vectorWritten_of_vxReady rfl (by decide) (by rw [bLanes_eq_map, lanes_eq_map, zipWith_map_upto]; rfl) ready rfl
  case srcp =>
    exact vectorWritten_of_vxReady rfl (by decide) (by rw [lanes_eq_map, List.map_map]; rfl) ready rfl
  case srsq =>
    obtain ⟨here, written, form, -, sound⟩ := ready
    refine vectorWritten_of_results rfl (by decide) (by rw [lanes_eq_map, List.map_map]; rfl) here written ?_
    rw [vxChecks_eq_none, badTab_and_badRecords]
    exact ⟨⟨form, rfl⟩, sound⟩
  case sc64 =>
    exact vectorWritten_of_vxReady rfl (by decide)
      (by rw [lanes_eq_map, lanes_eq_map, zipWith_map_upto, sint_vxImm]; rfl) ready (by rw [sint_vxImm]; rfl)

end Sys2Proof.Proofs

/-! Several stores in a row: a byte that one of them alone reaches holds what it wrote. -/

namespace Sys2Proof.Proofs
open Sys2Proof Sys2Proof.Machine

/-- Besides memory, the marks and reservations of its bytes and the free values taken, the state is unchanged. -/
def onlyStores (s t : State) : Prop := t = { s with freeCtr := t.freeCtr, mem := t.mem, parity := t.parity, resv := t.resv }

theorem onlyStores.trans {s t v : State} (h : onlyStores s t) (k : onlyStores t v) : onlyStores s v := by
  unfold onlyStores at *
  rw [k, h]

theorem onlyStores.sq {s t : State} (h : onlyStores s t) (u : Nat) : t.sq u = s.sq u := by rw [h]; rfl

theorem onlyStores.silent {s t : State} (h : onlyStores s t) : silent s t := by rw [h]; exact ⟨rfl, rfl⟩

/-- One store for each entry of a list, in the list's order. -/
def storeEach {α : Type} (addr : α → Nat) (val : α → List Byte) (xs : List α) (s : State) : State :=
  forAll xs (fun t x => t.store (addr x) (val x)) s

section
variable {α : Type} (addr : α → Nat) (val : α → List Byte)

theorem storeEach_cons (x : α) (xs : List α) (s : State) :
    storeEach addr val (x :: xs) s = storeEach addr val xs (s.store (addr x) (val x)) := rfl

theorem storeEach_onlyStores (xs : List α) (s : State) : onlyStores s (storeEach addr val xs s) := by
  induction xs generalizing s with
  | nil => rfl
  | cons x xs ih => exact (show onlyStores s (s.store (addr x) (val x)) from rfl).trans (ih _)

theorem byte_storeEach_apart {xs : List α} {a : Nat} (apart : ∀ x ∈ xs, a < addr x ∨ addr x + (val x).length ≤ a) (s : State) :
    (storeEach addr val xs s).byte a = s.byte a := by
  induction xs generalizing s with
  | nil => rfl
  | cons x xs ih =>
    have outside := apart x (List.mem_cons_self ..)
    rw [storeEach_cons, ih (fun y hy => apart y (List.mem_cons_of_mem _ hy)), State.store_byte, if_neg (by omega)]

theorem byte_storeEach {xs : List α} {x : α} {a : Nat} (mem : x ∈ xs) (inside : addr x ≤ a ∧ a < addr x + (val x).length)
    (apart : ∀ y ∈ xs, y ≠ x → a < addr y ∨ addr y + (val y).length ≤ a) (s : State) :
    (storeEach addr val xs s).byte a = (val x).getD (a - addr x) 0 := by
  induction xs generalizing s with
  | nil => simp at mem
  | cons y ys ih =>
    have apart' : ∀ z ∈ ys, z ≠ x → a < addr z ∨ addr z + (val z).length ≤ a := fun z hz => apart z (List.mem_cons_of_mem _ hz)
    rw [storeEach_cons]
    by_cases later : x ∈ ys
    · exact ih later apart' _
    · obtain rfl : x = y := (List.mem_cons.mp mem).resolve_right later
      rw [byte_storeEach_apart addr val (fun z hz => apart' z hz (fun same => later (same ▸ hz))), State.store_byte, if_pos inside]

/-- An entry whose bytes no other entry reaches is read back as it was written. -/
theorem bytes_storeEach {xs : List α} {x : α} (mem : x ∈ xs)
    (apart : ∀ y ∈ xs, y ≠ x → addr x + (val x).length ≤ addr y ∨ addr y + (val y).length ≤ addr x) (s : State) :
    (storeEach addr val xs s).bytes (addr x) (val x).length = val x := by
  refine List.ext_getElem (by simp [State.bytes]) (fun i hi hv => ?_)
  refine (Table.getElem_getList 0 _ _ _ i hi).trans ?_
  refine (byte_storeEach addr val mem (by omega) (fun y hy other => ?_) s).trans (by simp [hv])
  have := apart y hy other
  omega

end

/-- The cistern of a square does not move while it is written. -/
theorem forAll_writeCistern {α : Type} (u : Nat) (off : α → Nat) (val : α → List Byte) (xs : List α) (s : State) :
    forAll xs (fun t x => t.writeCistern u (off x) (val x)) s =
      storeEach (fun x => (s.sq u).cisternAt u (off x)) val xs s := by
  induction xs generalizing s with
  | nil => rfl
  | cons x xs ih => exact ih (s.writeCistern u (off x) (val x))

end Sys2Proof.Proofs

/-! The rescaled tile (R46 to R48, R64). -/

namespace Sys2Proof.Proofs
open Sys2Proof Sys2Proof.Machine

/-! Masks and rows. -/

theorem testBit_bits (v lo n i : Nat) : (bits v lo n).testBit i = (decide (i < n) && v.testBit (lo + i)) := by
  simp [bits, Nat.testBit_mod_two_pow, Nat.testBit_shiftRight]

theorem mem_maskBits (m n : Nat) : n ∈ maskBits m ↔ n < 32 ∧ m.testBit n = true := by
  simp [maskBits, upto]

theorem mem_insertRow (key : Nat → Nat) (r x : Nat) (rs : List Nat) : x ∈ insertRow key r rs ↔ x = r ∨ x ∈ rs := by
  induction rs with
  | nil => simp [insertRow]
  | cons y ys ih =>
    unfold insertRow
    split
    next => simp
    next => simp only [List.mem_cons, ih]; tauto

/-- Whatever the order, each of the 32 rows is written. -/
theorem mem_rowOrder (s : State) (stride run r : Nat) : r ∈ (s.rowOrder stride run).1 ↔ r < 32 := by
  have kept : ∀ (key : Nat → Nat) (rs : List Nat), r ∈ rs.foldr (insertRow key) [] ↔ r ∈ rs := by
    intro key rs
    induction rs with
    | nil => simp
    | cons y ys ih => simp [mem_insertRow, ih]
  unfold State.rowOrder
  split
  next => simp [kept, upto]
  next => simp [upto]

theorem rowOrder_onlyStores (s : State) (stride run : Nat) : onlyStores s (s.rowOrder stride run).2 := by
  unfold State.rowOrder
  split <;> rfl

theorem rowOrder_byte (s : State) (stride run a : Nat) : (s.rowOrder stride run).2.byte a = s.byte a := by
  unfold State.rowOrder
  split <;> rfl

/-! The elements in the order in which they are written. -/

/-- Row, column and value, with whether it saturated, of every unmasked element. -/
def rescaledElements (q : Square) (w : Nat) (rows : List Nat) : List (Nat × Nat × Int × Bool) :=
  ((rows.filter (fun r => (mxRows w).testBit r)).map (fun r => (maskBits (mxCols w)).map (fun n => (r, n, q.rscElem w r n)))).flatten

theorem mem_rescaledElements {q : Square} {w : Nat} {rows : List Nat} (whole : ∀ r, r ∈ rows ↔ r < 32) (e : Nat × Nat × Int × Bool) :
    e ∈ rescaledElements q w rows ↔ e.1 < 32 ∧ e.2.1 < 32 ∧ unmasked w e.1 e.2.1 ∧ e.2.2 = q.rscElem w e.1 e.2.1 := by
  obtain ⟨r, n, v⟩ := e
  simp only [rescaledElements, List.mem_flatten, List.mem_map, List.mem_filter, whole, unmasked]
  constructor
  · rintro ⟨_, ⟨r', ⟨hr, row⟩, rfl⟩, hn⟩
    obtain ⟨n', col, same⟩ := List.mem_map.mp hn
    cases same
    rw [mem_maskBits, mxCols, testBit_bits, Bool.and_eq_true] at col
    rw [mxRows, testBit_bits, Bool.and_eq_true] at row
    exact ⟨hr, col.1, ⟨row.2, col.2.2⟩, rfl⟩
  · rintro ⟨hr, hn, ⟨row, col⟩, rfl⟩
    refine ⟨_, ⟨r, ⟨hr, ?_⟩, rfl⟩, List.mem_map.mpr ⟨n, ?_, rfl⟩⟩
    · simp [mxRows, testBit_bits, hr, row]
    · simp [mem_maskBits, mxCols, testBit_bits, hn, col]

/-- A saturated value fits its type, so its bytes spell it (R29, R47). -/
theorem signed_bytes_satTo {type : Nat} (listed : type < 3) (y : Int) :
    signed (8 * 2 ^ type) (ofBytes (toBytes (2 ^ type) (pattern 32 (satTo type y).1))) = (satTo type y).1 := by
  rw [ofBytes_toBytes]
  interval_cases type <;> simp [satTo, satI8, satI16, satI32, clampI, signed, pattern] <;> omega

/-- Elements of rows that do not overlap lie apart. -/
theorem element_apart {stride b r n r' n' : Nat} (row : 32 * b ≤ stride) (hn : n < 32) (hn' : n' < 32)
    (other : r ≠ r' ∨ n ≠ n') : r * stride + n * b + b ≤ r' * stride + n' * b ∨ r' * stride + n' * b + b ≤ r * stride + n * b := by
  have column : ∀ {i j : Nat}, i < j → i * b + b ≤ j * b := fun {i j} h => by
    simpa [Nat.succ_mul] using Nat.mul_le_mul_right b (Nat.succ_le_of_lt h)
  have below : ∀ {i j : Nat}, i < j → i * stride + stride ≤ j * stride := fun {i j} h => by
    simpa [Nat.succ_mul] using Nat.mul_le_mul_right stride (Nat.succ_le_of_lt h)
  have last : ∀ {i : Nat}, i < 32 → i * b + b ≤ 32 * b := column
  rcases Nat.lt_trichotomy r r' with h | rfl | h
  · have := below h; have := last hn; omega
  · rcases Nat.lt_or_gt_of_ne (other.resolve_left (· rfl)) with h | h
    · have := column h; omega
    · have := column h; omega
  · have := below h; have := last hn'; omega

/-! MX.RSC. -/

section
variable (s : State) (u : SquareId) (w : Nat)

/-- The elements that MX.RSC writes, in the order of the rows. -/
def rscElements : List (Nat × Nat × Int × Bool) :=
  rescaledElements (s.sq u.val) w (s.rowOrder ((s.sq u.val).off w 34) (32 * rscWidth w)).1

/-- The place of an element in the cistern (R64). -/
def rscPlace (r n : Nat) : Nat :=
  (s.sq u.val).cisternAt u.val ((s.sq u.val).off w 29 + r * (s.sq u.val).off w 34 + n * rscWidth w)

/-- The bytes of an element. -/
def rscBytes (e : Nat × Nat × Int × Bool) : List Byte := toBytes (rscWidth w) (pattern 32 e.2.2.1)

/-- The state once every element is written. -/
def rscStored : State :=
  storeEach (fun e => rscPlace s u w e.1 e.2.1) (rscBytes w) (rscElements s u w)
    (s.rowOrder ((s.sq u.val).off w 34) (32 * rscWidth w)).2

theorem rscStored_onlyStores : onlyStores s (rscStored s u w) :=
  (rowOrder_onlyStores s _ _).trans (storeEach_onlyStores _ _ _ _)

theorem mem_rscElements (e : Nat × Nat × Int × Bool) : e ∈ rscElements s u w ↔
    e.1 < 32 ∧ e.2.1 < 32 ∧ unmasked w e.1 e.2.1 ∧ e.2.2 = (s.sq u.val).rscElem w e.1 e.2.1 :=
  mem_rescaledElements (mem_rowOrder s _ _) e

theorem rscElements_any : (rscElements s u w).any (fun e => e.2.2.2) = true ↔
    ∃ r n, r < 32 ∧ n < 32 ∧ unmasked w r n ∧ ((s.sq u.val).rscElem w r n).2 = true := by
  simp only [List.any_eq_true, mem_rscElements]
  constructor
  · rintro ⟨e, ⟨hr, hn, on, value⟩, sat⟩
    exact ⟨e.1, e.2.1, hr, hn, on, value ▸ sat⟩
  · rintro ⟨r, n, hr, hn, on, sat⟩
    exact ⟨(r, n, _), ⟨hr, hn, on, rfl⟩, sat⟩

theorem length_rscBytes (e : Nat × Nat × Int × Bool) : (rscBytes w e).length = rscWidth w := length_toBytes _ _

/-- A byte of no unmasked element stays as it was. -/
theorem rscStored_byte_apart {a : Nat}
    (apart : ∀ r n, r < 32 → n < 32 → unmasked w r n → a < rscPlace s u w r n ∨ rscPlace s u w r n + rscWidth w ≤ a) :
    (rscStored s u w).byte a = s.byte a := by
  refine (byte_storeEach_apart _ _ (fun e he => ?_) _).trans (rowOrder_byte s _ _ a)
  obtain ⟨hr, hn, on, -⟩ := (mem_rscElements s u w e).mp he
  rw [length_rscBytes]
  exact apart e.1 e.2.1 hr hn on

/-- Where rows do not overlap every unmasked element reads back. -/
theorem rscStored_bytes (rows : 32 * rscWidth w ≤ (s.sq u.val).off w 34) {r n : Nat} (hr : r < 32) (hn : n < 32)
    (on : unmasked w r n) : (rscStored s u w).bytes (rscPlace s u w r n) (rscWidth w) =
      toBytes (rscWidth w) (pattern 32 ((s.sq u.val).rscElem w r n).1) := by
  have mem := (mem_rscElements s u w (r, n, (s.sq u.val).rscElem w r n)).mpr ⟨hr, hn, on, rfl⟩
  have written := bytes_storeEach (fun e => rscPlace s u w e.1 e.2.1) (rscBytes w) mem (fun e he other => ?_)
    (s.rowOrder ((s.sq u.val).off w 34) (32 * rscWidth w)).2
  · rw [length_rscBytes] at written
    exact written
  · obtain ⟨-, hn', -, value⟩ := (mem_rscElements s u w e).mp he
    have elsewhere : r ≠ e.1 ∨ n ≠ e.2.1 := by
      by_contra same
      obtain ⟨rfl, rfl⟩ := not_or.mp same |>.imp not_not.mp not_not.mp
      exact other (congrArg (fun v => (e.1, e.2.1, v)) value)
    have := element_apart rows hn hn' elsewhere
    simp only [length_rscBytes, rscPlace, Square.cisternAt, cisternAddr]
    omega

end

theorem exec_mxRsc {s : State} {u : SquareId} {w : Nat} (ready : mxReady s u 0x04 w [bits w 29 5, bits w 34 5])
    (clear : s.rscCheck u.val w = none) : exec (.mxRsc u) s =
      .next ((((rscStored s u w).modSq u.val (fun q => q.orOut ((rscElements s u w).any (fun e => e.2.2.2)))).count u.val 2 2).advance
        u.val) := by
  have sqs := (rowOrder_onlyStores s ((s.sq u.val).off w 34) (32 * rscWidth w)).sq u.val
  refine congrArg _ ((mxIssue_of_ready (regs := fun w => [bits w 29 5, bits w 34 5]) ready (by decide) clear _).trans ?_)
  simp only [forAll_writeCistern, sqs]
  rfl

theorem rscType_lt_of_clear {s : State} {u w : Nat} (clear : s.rscCheck u w = none) : rscType w < 3 := by
  have field : rscType w < 4 := Nat.mod_lt _ (by decide)
  have listed : rscType w ≠ 3 := by
    simp only [State.rscCheck, firstCause_eq_none] at clear
    have form := clear _ (List.mem_cons_self ..)
    simp only [cause_eq_none, Bool.or_eq_false_iff, beq_eq_false_iff_ne] at form
    exact form.1.2
  omega

theorem mxRsc_writes_unmasked_elements : rescaleWritesUnmaskedElements := by
  intro s u w ready clear q b place
  obtain ⟨square, others, quiet, memory⟩ := squareBecomes_advance (rscStored s u w) u.val 2 2
    (fun q => q.orOut ((rscElements s u w).any (fun e => e.2.2.2)))
  refine ⟨_, exec_mxRsc ready clear, ?_⟩
  generalize (((rscStored s u w).modSq u.val _).count u.val 2 2).advance u.val = t at *
  have stored := rscStored_onlyStores s u w
  rw [stored.sq] at square
  refine ⟨?_, ?_, ?_, fun a apart => ?_, fun rows r n hr hn on => ?_⟩
  · exact ⟨quiet.1.trans stored.silent.1, quiet.2.trans stored.silent.2⟩
  · rw [square]; rfl
  · rw [square, ← rscElements_any]
    exact Bool.or_eq_true ..|>.to_iff
  · exact (memory a).trans (rscStored_byte_apart s u w apart)
  · have read : t.bytes (place r n) b = toBytes b (pattern 32 (q.rscElem w r n).1) :=
      (memory.bytes _ _).trans (rscStored_bytes s u w rows hr hn on)
    rw [read]
    exact signed_bytes_satTo (rscType_lt_of_clear clear) _

end Sys2Proof.Proofs

/-! The loads of the scale file and of the codebooks, and O13 (R119). -/

namespace Sys2Proof.Proofs
open Sys2Proof Sys2Proof.Machine

/-- The words that the bytes of a range spell. -/
theorem i32s_bytes (s : State) (a n : Nat) :
    i32s (s.bytes a (4 * n)) = (upto n).map (fun i => BitVec.ofNat 32 (ofBytes (s.bytes (a + 4 * i) 4))) := by
  induction n generalizing a with
  | zero => rfl
  | succ n ih =>
    have first : i32s (s.bytes a (4 * (n + 1))) = BitVec.ofNat 32 (ofBytes (s.bytes a 4)) :: i32s (s.bytes (a + 4) (4 * n)) := rfl
    rw [first, ih]
    simp only [upto, List.range_succ_eq_map, List.map_cons, List.map_map, Nat.mul_zero, Nat.add_zero]
    congr 1
    refine List.map_congr_left (fun i _ => ?_)
    simp only [Function.comp_apply, show a + 4 + 4 * i = a + 4 * (i + 1) by omega]

theorem cisternAt_add (q : Square) (u off n : Nat) : q.cisternAt u (off + n) = q.cisternAt u off + n := by
  simp only [Square.cisternAt, cisternAddr]
  omega

theorem mxLdsf_mxLdcb_fill_their_entries : scaleFileAndCodebookLoads := by
  refine ⟨fun s u w ready => ?ldsf, fun s u w ready => ?ldcb⟩
  case ldsf =>
    intro q n off form one most entries aligned fits sound
    obtain ⟨t, run, square, -, quiet, memory⟩ := mxChangesSquare (c := .mxLdsf u) rfl ready (by decide)
      (by simpa [mxOnly, form] using ⟨⟨Nat.ne_of_gt one, most⟩, aligned, entries, fits, sound⟩)
    refine ⟨t, run, quiet, memory, by rw [square], fun e => ?_⟩
    simp only [square, State.cisternBytes, i32s_bytes, List.map_map, ← cisternAt_add]
    exact get_setList_map ..
  case ldcb =>
    intro q n off form slot aligned fits sound
    obtain ⟨t, run, square, -, quiet, memory⟩ := mxChangesSquare (c := .mxLdcb u) rfl ready (by decide)
      (by simpa [mxOnly, form, Nat.le_of_lt_succ slot] using ⟨aligned, fits, sound⟩)
    refine ⟨t, run, quiet, memory, by rw [square], fun e => ?_⟩
    simp only [square, State.cisternBytes, State.bytes, getList_eq_map, cisternAt_add]
    exact get_setList_map ..

/-- Settles O13: MX.RSC by the stores of its unmasked elements, which lie apart where rows do not overlap, and the loads by what a read
finds after the write of a range. -/
theorem rescaleAndScaleLoads : Obligations.RescaleAndScaleLoads := by
  unfold Obligations.RescaleAndScaleLoads
  exact ⟨mxRsc_writes_unmasked_elements, mxLdsf_mxLdcb_fill_their_entries⟩

end Sys2Proof.Proofs

/-! Elements of a tile: what a read finds after elements or a whole tile are written (R54, R66, R118). -/

namespace Sys2Proof.Proofs
open Sys2Proof Sys2Proof.Machine

/-! 32-bit integers. -/

/-- The numbers that an element of a tile can hold (R13). -/
def isI32 (x : Int) : Prop := -2147483648 ≤ x ∧ x ≤ 2147483647

theorem isI32_sint (x : Word) : isI32 (sint x) := by
  have low := x.le_toInt
  have high := x.toInt_lt
  unfold isI32 sint
  omega

theorem sint_ofI32 {x : Int} (fits : isI32 x) : sint (ofI32 x) = x :=
  BitVec.toInt_ofInt_eq_self (by decide) fits.1 (Int.lt_add_one_iff.mpr fits.2)

theorem sint_ofNat (n : Nat) : sint (BitVec.ofNat 32 n) = signed 32 n := by
  simp only [sint, signed, BitVec.toInt_eq_toNat_cond, BitVec.toNat_ofNat]
  split <;> split <;> omega

theorem satI32_eq_clamp32 (x : Int) : satI32 x = clamp32 x := by
  unfold satI32 clampI clamp32
  omega

theorem isI32_clamp32 (x : Int) : isI32 (clamp32 x) := by
  unfold isI32 clamp32
  omega

theorem clamp32_of_isI32 {x : Int} (fits : isI32 x) : clamp32 x = x := by
  unfold isI32 at fits
  unfold clamp32
  omega

/-! Unmasked elements. -/

/-- Row and column of every unmasked element, row by row. -/
def unmaskedCells (w : Nat) : List (Nat × Nat) := (maskBits (mxRows w)).product (maskBits (mxCols w))

theorem mem_unmaskedCells {w r n : Nat} : (r, n) ∈ unmaskedCells w ↔ r < 32 ∧ n < 32 ∧ unmasked w r n := by
  simp only [unmaskedCells, List.pair_mem_product, mem_maskBits, mxRows, mxCols, testBit_bits, unmasked, Bool.and_eq_true,
    decide_eq_true_eq]
  tauto

/-! One element after another is written. -/

theorem tileKey_inj {t r n t' r' n' : Nat} (hr : r < 32) (hn : n < 32) (hr' : r' < 32) (hn' : n' < 32) :
    tileKey t r n = tileKey t' r' n' ↔ t = t' ∧ r = r' ∧ n = n' := by
  unfold tileKey
  omega

/-- Write the value of `f` to each listed element of a tile. -/
def setElems (tile : Nat) (f : Nat → Nat → Int) (cells : List (Nat × Nat)) (q : Square) : Square :=
  cells.foldl (fun q e => q.setElem tile e.1 e.2 (f e.1 e.2)) q

theorem elem_setElem (q : Square) (tile : Nat) (v : Int) {t r n r' n' : Nat} (hr : r < 32) (hn : n < 32) (hr' : r' < 32)
    (hn' : n' < 32) : (q.setElem tile r' n' v).elem t r n = if t = tile ∧ r = r' ∧ n = n' then sint (ofI32 v) else q.elem t r n := by
  simp only [Square.elem, Square.setElem, Table.get_set, tileKey_inj hr hn hr' hn']
  split <;> rfl

theorem elem_setElems (tile : Nat) (f : Nat → Nat → Int) {cells : List (Nat × Nat)} (small : ∀ e ∈ cells, e.1 < 32 ∧ e.2 < 32)
    (q : Square) {t r n : Nat} (hr : r < 32) (hn : n < 32) : (setElems tile f cells q).elem t r n =
      if t = tile ∧ (r, n) ∈ cells then sint (ofI32 (f r n)) else q.elem t r n := by
  induction cells generalizing q with
  | nil => simp [setElems]
  | cons e cells ih =>
    obtain ⟨here, rest⟩ := List.forall_mem_cons.mp small
    have step : setElems tile f (e :: cells) q = setElems tile f cells (q.setElem tile e.1 e.2 (f e.1 e.2)) := rfl
    rw [step, ih rest, elem_setElem q tile _ hr hn here.1 here.2]
    by_cases same : r = e.1 ∧ n = e.2
    · obtain ⟨rfl, rfl⟩ := same
      simp +contextual
    · have other : (r, n) ≠ e := fun h => same ⟨congrArg Prod.fst h, congrArg Prod.snd h⟩
      simp [same, other]

theorem setElems_frame (tile : Nat) (f : Nat → Nat → Int) (cells : List (Nat × Nat)) (q : Square) : setElems tile f cells q =
    { q with acc := (setElems tile f cells q).acc, badTile := (setElems tile f cells q).badTile } := by
  induction cells generalizing q with
  | nil => rfl
  | cons e cells ih => exact ih (q.setElem tile e.1 e.2 (f e.1 e.2))

/-- The unmasked elements take their values, and every other element keeps its own. -/
theorem elem_setElems_unmasked (tile w : Nat) {f : Nat → Nat → Int} (fits : ∀ r n, isI32 (f r n)) (q : Square) {t r n : Nat}
    (hr : r < 32) (hn : n < 32) :
    ((t = tile ∧ unmasked w r n) → (setElems tile f (unmaskedCells w) q).elem t r n = f r n) ∧
    (¬(t = tile ∧ unmasked w r n) → (setElems tile f (unmaskedCells w) q).elem t r n = q.elem t r n) := by
  have small : ∀ e ∈ unmaskedCells w, e.1 < 32 ∧ e.2 < 32 := fun e he => by
    obtain ⟨hr, hn, -⟩ := mem_unmaskedCells.mp he
    exact ⟨hr, hn⟩
  have on : (r, n) ∈ unmaskedCells w ↔ unmasked w r n := by simp [mem_unmaskedCells, hr, hn]
  rw [elem_setElems tile f small q hr hn, ← on, sint_ofI32 (fits r n)]
  exact ⟨fun h => if_pos h, fun h => if_neg h⟩

/-! A whole tile is written. -/

theorem get_setList_tile {α : Type} [DecidableEq α] (d : α) (acc : Table α) (tile : Nat) (f : Nat → α) {t r n : Nat} (hr : r < 32)
    (hn : n < 32) : Table.get d (Table.setList d acc (1024 * tile) ((upto 1024).map f)) (tileKey t r n) =
      if t = tile then f (32 * r + n) else Table.get d acc (tileKey t r n) := by
  rw [get_setList_map]
  unfold tileKey
  by_cases same : t = tile
  · rw [if_pos same, if_pos (by omega), same, show 1024 * tile + 32 * r + n - 1024 * tile = 32 * r + n by omega]
  · rw [if_neg same, if_neg (by omega)]

end Sys2Proof.Proofs

/-! Operands and elements of MX.MMA (R40, R44, R55, R56, R66, R67). -/

namespace Sys2Proof.Proofs
open Sys2Proof Sys2Proof.Machine

/-! The depth values of the operands. -/

theorem bytes_eq_map (s : State) (a n : Nat) : s.bytes a n = (upto n).map (fun k => s.byte (a + k)) := getList_eq_map 0 s.mem a n

theorem upto_succ (n : Nat) : upto (n + 1) = 0 :: (upto n).map (· + 1) := List.range_succ_eq_map

theorem take_map_upto {α : Type} {d n : Nat} (f : Nat → α) (within : d ≤ n) : ((upto n).map f).take d = (upto d).map f := by
  simp [upto, ← List.map_take, List.take_range, within]

theorem i8s_bytes (s : State) (a n : Nat) : i8s (s.bytes a n) = (upto n).map (fun k => (s.byte (a + k)).toInt) := by
  simp [i8s, bytes_eq_map]

theorem i16s_bytes (s : State) (a n : Nat) : i16s (s.bytes a (2 * n)) =
    (upto n).map (fun k => signed 16 ((s.byte (a + 2 * k)).toNat + 256 * (s.byte (a + 2 * k + 1)).toNat)) := by
  induction n generalizing a with
  | zero => rfl
  | succ n ih =>
    have first : i16s (s.bytes a (2 * (n + 1))) =
        signed 16 ((s.byte a).toNat + 256 * (s.byte (a + 1)).toNat) :: i16s (s.bytes (a + 2) (2 * n)) := rfl
    rw [first, ih, upto_succ, List.map_cons, List.map_map]
    refine congrArg _ (List.map_congr_left (fun k _ => ?_))
    simp only [Function.comp_apply, show a + 2 + 2 * k = a + 2 * (k + 1) by omega]

/-- Code k of a run of bytes: the earlier of two lies in bits 3:0 (R29). -/
def nibbleAt (s : State) (a k : Nat) : Nat := (s.byte (a + k / 2)).toNat / 16 ^ (k % 2) % 16

theorem nibbles_bytes (s : State) (a n : Nat) : nibbles (s.bytes a n) = (upto (2 * n)).map (nibbleAt s a) := by
  induction n generalizing a with
  | zero => rfl
  | succ n ih =>
    have first : nibbles (s.bytes a (n + 1)) =
        (s.byte a).toNat % 16 :: (s.byte a).toNat / 16 :: nibbles (s.bytes (a + 1) n) := rfl
    have byte := (s.byte a).isLt
    have low : nibbleAt s a 0 = (s.byte a).toNat % 16 := by simp [nibbleAt]
    have high : nibbleAt s a 1 = (s.byte a).toNat / 16 := by
      simp only [nibbleAt, Nat.reduceDiv, Nat.reduceMod, Nat.pow_one, Nat.add_zero]
      omega
    rw [first, ih, ← low, ← high, Nat.mul_succ, upto_succ, upto_succ, List.map_cons, List.map_map, List.map_cons, List.map_map]
    refine congrArg _ (congrArg _ (List.map_congr_left (fun k _ => ?_)))
    simp only [Function.comp_apply, nibbleAt, show (k + 1 + 1) / 2 = 1 + k / 2 by omega, show (k + 1 + 1) % 2 = k % 2 by omega,
      Nat.add_assoc]

section
variable {s : State} {u : SquareId} {w : Nat} (depth : mmaDepth w ≤ 64)
include depth

theorem mmaRowA_eq_map (r : Nat) : s.mmaRowA u.val w r = (upto (bits w 21 7)).map (operandA s u w r) := by
  unfold State.mmaRowA operandA mmaRun mmaWide State.cisternBytes
  cases w.testBit 17
  case false => exact (congrArg _ (i8s_bytes ..)).trans (take_map_upto _ depth)
  case true => exact (congrArg _ (i16s_bytes s _ 64)).trans (take_map_upto _ depth)

theorem mmaColB_eq_map (n : Nat) : s.mmaColB u.val w n = (upto (bits w 21 7)).map (operandB s u w n) := by
  unfold State.mmaColB State.mmaCodes operandB mmaCol mmaBType State.cisternBytes
  by_cases plain : bits w 18 2 = 0
  · simp only [plain, if_true]
    exact (congrArg _ (i8s_bytes ..)).trans (take_map_upto _ depth)
  by_cases half : bits w 18 2 = 1
  · have codes := take_map_upto (nibbleAt s ((s.sq u.val).cisternAt u.val ((s.sq u.val).off w 45 + n * (s.sq u.val).off w 50))) depth
    simp only [half, if_true, one_ne_zero, if_false, nibbles_bytes]
    rw [codes, List.map_map]
    rfl
  · simp only [plain, half, if_false, bytes_eq_map, List.map_map, take_map_upto _ depth]
    rfl

end

/-! The value of an element. -/

theorem sumI_eq_sum (xs : List Int) : sumI xs = xs.sum := List.sum_eq_foldl.symm

/-- A choice among numbers of 32 bits is one. -/
theorem isI32_foldl_choice {choose : Int → Int → Int} (chooses : ∀ x y, choose x y = x ∨ choose x y = y) {term : Nat → Int}
    (terms : ∀ k, isI32 (term k)) (ks : List Nat) {old : Int} (fits : isI32 old) :
    isI32 (ks.foldl (fun m k => choose m (term k)) old) := by
  refine List.foldlRecOn ks _ fits (fun m hm k _ => ?_)
  rcases chooses m (term k) with h | h
  · rw [h]; exact hm
  · rw [h]; exact terms k

/-- The old value, or the identity of the mode under CLR (R67). -/
def startOf (clr : Bool) (mode : Nat) (old : Int) : Int := if clr = true then modeIdentity mode else old

theorem isI32_startOf (clr : Bool) (mode : Nat) {old : Int} (fits : isI32 old) : isI32 (startOf clr mode old) := by
  unfold startOf modeIdentity isI32 at *
  split_ifs <;> omega

/-- A number saturated to 32 bits, and whether that changed it (R44). -/
def saturated (x : Int) : Int × Bool := (clamp32 x, decide (clamp32 x ≠ x))

theorem saturated_of_isI32 {x : Int} (fits : isI32 x) : saturated x = (x, false) := by simp [saturated, clamp32_of_isI32 fits]

/-- An element of a matrix instruction is its exact value, saturated once. The modes that sum saturate their result; the modes that choose
need not, since old value and terms fit. -/
theorem mmaElem_eq_saturated (mode : Nat) (clr : Bool) {old : Int} (d : Nat) {a b : Nat → Int} (fits : isI32 old)
    (terms : ∀ k, isI32 (a k + b k)) :
    mmaElem mode clr old ((upto d).map a) ((upto d).map b) = saturated (foldMode mode (startOf clr mode old) d a b) := by
  have start := isI32_startOf clr mode fits
  have zero {m : Nat} (h3 : m ≠ 3) (h4 : m ≠ 4) : startOf clr m old = if clr = true then 0 else old := by
    simp [startOf, modeIdentity, h3, h4]
  match mode with
  | 0 => simp [mmaElem, foldMode, saturated, upto, sumI_eq_sum, satI32_eq_clamp32, zero]
  | 1 => simp [mmaElem, foldMode, saturated, upto, sumI_eq_sum, satI32_eq_clamp32, zero]
  | 2 => simp [mmaElem, foldMode, saturated, upto, sumI_eq_sum, satI32_eq_clamp32, zero]
  | 3 =>
    refine Eq.trans ?_ (saturated_of_isI32 (isI32_foldl_choice max_choice terms (List.range d) start)).symm
    simp [mmaElem, upto, List.foldl_map, startOf, modeIdentity]
  | 4 =>
    refine Eq.trans ?_ (saturated_of_isI32 (isI32_foldl_choice min_choice terms (List.range d) start)).symm
    simp [mmaElem, upto, List.foldl_map, startOf, modeIdentity]
  | n + 5 => simp [mmaElem, foldMode, saturated, upto, sumI_eq_sum, satI32_eq_clamp32, zero, List.sum_map_ite]

end Sys2Proof.Proofs

/-! MX.MMA, and O11 (R66 to R68). -/

namespace Sys2Proof.Proofs
open Sys2Proof Sys2Proof.Machine

/-! The operands are narrow, so that the sum of a pair fits 32 bits. -/

theorem toInt_byte_bounds (b : Byte) : -128 ≤ b.toInt ∧ b.toInt ≤ 127 := by
  have low := b.le_toInt
  have high := b.toInt_lt
  omega

theorem operandA_bounds (s : State) (u : SquareId) (w r k : Nat) : -32768 ≤ operandA s u w r k ∧ operandA s u w r k ≤ 32767 := by
  unfold operandA
  extract_lets q a
  split
  next => unfold signed; split <;> omega
  next =>
    have := toInt_byte_bounds (s.byte (a + k))
    omega

theorem operandB_bounds (s : State) (u : SquareId) (w n k : Nat) : -128 ≤ operandB s u w n k ∧ operandB s u w n k ≤ 127 := by
  unfold operandB Square.codeEntry
  extract_lets q b
  split_ifs
  · exact toInt_byte_bounds _
  · exact toInt_byte_bounds _
  · exact toInt_byte_bounds _

theorem isI32_operands_add (s : State) (u : SquareId) (w r n k : Nat) : isI32 (operandA s u w r k + operandB s u w n k) := by
  have a := operandA_bounds s u w r k
  have b := operandB_bounds s u w n k
  unfold isI32
  omega

/-! The results, and the instruction. -/

theorem mmaDepth_le_of_clear {s : State} {u w : Nat} (clear : s.mmaCheck u w = none) : mmaDepth w ≤ 64 := by
  simp only [State.mmaCheck, firstCause_eq_none] at clear
  have form := clear _ (List.mem_cons_self ..)
  simp only [cause_eq_none, Bool.not_eq_false', mmaFormOk, Bool.and_eq_true, decide_eq_true_eq] at form
  obtain ⟨⟨⟨-, -, within⟩, -⟩, -⟩ := form
  exact within

theorem mmaResults_eq_map {s : State} {u : SquareId} {w : Nat} (depth : mmaDepth w ≤ 64) :
    s.mmaResults u.val w = (unmaskedCells w).map (fun e => (e, saturated (exactElement s u w e.1 e.2))) := by
  have element (r n : Nat) : mmaElem (mmaMode w) (mmaClr w) ((s.sq u.val).elem (mxTile w) r n) (s.mmaRowA u.val w r)
      (s.mmaColB u.val w n) = saturated (exactElement s u w r n) := by
    rw [mmaRowA_eq_map depth, mmaColB_eq_map depth]
    exact mmaElem_eq_saturated _ _ _ (isI32_sint _) (isI32_operands_add s u w r n)
  simp only [State.mmaResults, unmaskedCells, List.product, List.flatMap_def, List.map_flatten, List.map_map,
    Function.comp_def, element]

/-- The square once every unmasked element has its value. -/
def mmaSquare (s : State) (u : SquareId) (w : Nat) : Square :=
  (setElems (mxTile w) (fun r n => clamp32 (exactElement s u w r n)) (unmaskedCells w) (s.sq u.val)).orAcc
    ((unmaskedCells w).any (fun e => (saturated (exactElement s u w e.1 e.2)).2))

theorem exec_mxMma {s : State} {u : SquareId} {w : Nat}
    (ready : mxReady s u 0x00 w [bits w 35 5, bits w 40 5, bits w 45 5, bits w 50 5]) (clear : s.mmaCheck u.val w = none) :
    ∃ t, exec (.mxMma u) s = .next t ∧ squareBecomes s t u.val { mmaSquare s u w with pc := (s.sq u.val).pc + 1 } := by
  have run := mxIssue_of_ready (regs := fun w => [bits w 35 5, bits w 40 5, bits w 45 5, bits w 50 5]) ready (by decide) clear
  refine ⟨_, congrArg Host.Outcome.next (run _), ?_⟩
  have became := squareBecomes_advance (s.count u.val 0 1) u.val 1 (if mmaWide w then 2 else 1) (fun q =>
    ((s.mmaResults u.val w).foldl (fun q e => q.setElem (mxTile w) e.1.1 e.1.2 e.2.1) q).orAcc
      ((s.mmaResults u.val w).any (fun e => e.2.2)))
  have square : ((s.mmaResults u.val w).foldl (fun q e => q.setElem (mxTile w) e.1.1 e.1.2 e.2.1) (s.sq u.val)).orAcc
      ((s.mmaResults u.val w).any (fun e => e.2.2)) = mmaSquare s u w := by
    rw [mmaResults_eq_map (mmaDepth_le_of_clear clear), List.foldl_map, List.any_map]
    rfl
  have pc : (mmaSquare s u w).pc = (s.sq u.val).pc := by
    rw [mmaSquare, setElems_frame]
    rfl
  rw [← pc, ← square]
  exact became

theorem accSat_mmaSquare (s : State) (u : SquareId) (w : Nat) : (mmaSquare s u w).accSat = true ↔ (s.sq u.val).accSat = true ∨
    ∃ r n, r < 32 ∧ n < 32 ∧ unmasked w r n ∧ clamp32 (exactElement s u w r n) ≠ exactElement s u w r n := by
  have before : (mmaSquare s u w).accSat =
      ((s.sq u.val).accSat || (unmaskedCells w).any (fun e => (saturated (exactElement s u w e.1 e.2)).2)) := by
    rw [mmaSquare, setElems_frame]
    rfl
  simp [before, saturated, mem_unmaskedCells, and_assoc]

/-- Settles O11: the results of MX.MMA are the exact values saturated once, written to the unmasked elements. -/
theorem matrixInstructionFoldsProduct : Obligations.MatrixInstructionFoldsProduct := by
  unfold Obligations.MatrixInstructionFoldsProduct
  intro s u w ready clear
  obtain ⟨t, run, square, others, quiet, memory⟩ := exec_mxMma ready clear
  refine ⟨t, run, fun tile r n hr hn => ?_, ?_, ?_, ?_, others, quiet, memory⟩
  · rw [square]
    exact elem_setElems_unmasked (mxTile w) w (fun r n => isI32_clamp32 (exactElement s u w r n)) (s.sq u.val) hr hn
  · rw [square]
    exact accSat_mmaSquare s u w
  · rw [square]
  · rw [square, mmaSquare, setElems_frame]
    rfl

end Sys2Proof.Proofs

/-! Whole tiles and registers of lanes as functions of the position (R54, R62, R63). -/

namespace Sys2Proof.Proofs
open Sys2Proof Sys2Proof.Machine

theorem flatten_rows {α : Type} (m n : Nat) (f : Nat → α) :
    ((upto m).map (fun r => (upto n).map (fun k => f (n * r + k)))).flatten = (upto (n * m)).map f := by
  induction m with
  | zero => rfl
  | succ m ih =>
    have rows : upto (m + 1) = upto m ++ [m] := List.range_succ
    have all : upto (n * (m + 1)) = upto (n * m) ++ (upto n).map (n * m + ·) := List.range_add
    rw [rows, all, List.map_append, List.map_append, List.flatten_append, ih]
    simp [Function.comp_def]

theorem getList_add {α : Type} (d : α) (t : Table α) (k m n : Nat) :
    Table.getList d t k (m + n) = Table.getList d t k m ++ Table.getList d t (k + m) n := by
  have split : upto (m + n) = upto m ++ (upto n).map (m + ·) := List.range_add
  simp only [getList_eq_map, split, List.map_append, List.map_map, Function.comp_def, Nat.add_assoc]

theorem lane_setLanes (q : Square) (v : Nat) (f : Nat → Word) (x l : Nat) (hl : l < 512) :
    (q.setLanes v ((upto 512).map f)).lane x l = if x = v then f l else q.lane x l := by
  simp only [Square.lane, Square.setLanes, get_setList_map]
  by_cases same : x = v
  · subst same
    simp [hl]
  · rw [if_neg (by omega), if_neg same]

theorem setLanes_pair_frame (q : Square) (v x : Nat) (ws ys : List Word) : (q.setLanes v ws).setLanes x ys =
    { q with vreg := ((q.setLanes v ws).setLanes x ys).vreg, badLane := ((q.setLanes v ws).setLanes x ys).badLane } := rfl

/-- Tile `tile` of the square holds the values of `f`, and every other tile what it held. -/
theorem elem_of_acc {q : Square} {acc : Table Word} {tile : Nat} {f : Nat → Word}
    (written : q.acc = Table.setList 0 acc (1024 * tile) ((upto 1024).map f)) {t r n : Nat} (hr : r < 32) (hn : n < 32) :
    q.elem t r n = if t = tile then sint (f (32 * r + n)) else sint (Table.get 0 acc (tileKey t r n)) := by
  rw [Square.elem, written, get_setList_tile 0 acc tile f hr hn]
  split <;> rfl

/-- The 32 rows that a load reads, word by word (R62). -/
theorem loadedRows_eq_map (s : State) (u off stride : Nat) :
    ((upto 32).map (fun r => i32s (s.cisternBytes u (off + r * stride) 128))).flatten = (upto 1024).map (fun i =>
      BitVec.ofNat 32 (ofBytes (s.bytes ((s.sq u).cisternAt u (off + i / 32 * stride + 4 * (i % 32))) 4))) := by
  rw [← flatten_rows 32 32]
  refine congrArg _ (List.map_congr_left (fun r _ => (i32s_bytes s _ 32).trans (List.map_congr_left (fun n hn => ?_))))
  have column : n < 32 := List.mem_range.mp hn
  rw [← cisternAt_add, show (32 * r + n) / 32 = r by omega, show (32 * r + n) % 32 = n by omega]

/-- Two registers of lanes one after the other. -/
theorem lanes_pair_eq_map (q : Square) (v : Nat) :
    q.lanes v 512 ++ q.lanes (v + 1) 512 = (upto 1024).map (fun i => q.lane (v + i / 512) (i % 512)) := by
  have joined : q.lanes v 512 ++ q.lanes (v + 1) 512 = Table.getList 0 q.vreg (512 * v) (512 + 512) := (getList_add ..).symm
  rw [joined, getList_eq_map]
  refine List.map_congr_left (fun i _ => ?_)
  rw [Square.lane, show 512 * v + i = 512 * (v + i / 512) + i % 512 by omega]

section
variable {p q : Square} {v tile : Nat}
  (written : p.vreg = ((q.setLanes v ((Table.getList 0 q.acc (1024 * tile) 1024).take 512)).setLanes (v + 1)
    ((Table.getList 0 q.acc (1024 * tile) 1024).drop 512)).vreg)
include written

/-- The halves of a tile go to two registers (R63). -/
theorem lane_of_halves {x l : Nat} (hl : l < 512) : p.lane x l =
    if x = v + 1 then Table.get 0 q.acc (1024 * tile + 512 + l) else if x = v then Table.get 0 q.acc (1024 * tile + l)
    else q.lane x l := by
  have halves : Table.getList 0 q.acc (1024 * tile) 1024 =
      Table.getList 0 q.acc (1024 * tile) 512 ++ Table.getList 0 q.acc (1024 * tile + 512) 512 := getList_add 0 q.acc _ 512 512
  rw [halves, List.take_left' (by simp), List.drop_left' (by simp), getList_eq_map, getList_eq_map] at written
  rw [Square.lane, written, ← Square.lane, lane_setLanes _ _ _ _ _ hl, lane_setLanes _ _ _ _ _ hl]

theorem lane_of_elem {r n : Nat} (hr : r < 32) (hn : n < 32) :
    (p.lane (v + r / 16) (32 * (r % 16) + n)).toInt = q.elem tile r n := by
  rw [lane_of_halves written (by omega), Square.elem, tileKey]
  rcases (by omega : r / 16 = 0 ∨ r / 16 = 1) with half | half
  · rw [if_neg (by omega), if_pos (by omega), show 1024 * tile + (32 * (r % 16) + n) = 1024 * tile + 32 * r + n by omega]
    rfl
  · rw [if_pos (by omega), show 1024 * tile + 512 + (32 * (r % 16) + n) = 1024 * tile + 32 * r + n by omega]
    rfl

end

end Sys2Proof.Proofs

/-! MX.STT: the rows of a tile as they are stored, in whatever order (R62). -/

namespace Sys2Proof.Proofs
open Sys2Proof Sys2Proof.Machine

/-! A row of a tile. -/

theorem length_tileRow (q : Square) (t r : Nat) : (q.tileRow t r).length = 128 := by
  simp [Square.tileRow, List.length_flatten, upto, Function.comp_def]

theorem i32s_flatten_toBytes (f : Nat → Word) (ns : List Nat) :
    i32s ((ns.map (fun n => toBytes 4 (f n).toNat)).flatten) = ns.map f := by
  induction ns with
  | nil => rfl
  | cons n ns ih =>
    have word : BitVec.ofNat 32 (ofBytes (toBytes 4 (f n).toNat)) = f n := by
      rw [ofBytes_toBytes]
      exact (congrArg _ (Nat.mod_eq_of_lt (f n).isLt)).trans (by simp)
    have first : i32s (((n :: ns).map (fun n => toBytes 4 (f n).toNat)).flatten) =
        BitVec.ofNat 32 (ofBytes (toBytes 4 (f n).toNat)) :: i32s ((ns.map (fun n => toBytes 4 (f n).toNat)).flatten) := rfl
    rw [first, word, ih, List.map_cons]

/-- Where the bytes of a row of a tile stand, its elements read back. -/
theorem elem_of_tileRow {s : State} {a : Nat} {q : Square} {tile r : Nat} (stands : s.bytes a 128 = q.tileRow tile r) {n : Nat}
    (hn : n < 32) : signed 32 (ofBytes (s.bytes (a + 4 * n) 4)) = q.elem tile r n := by
  have words : (upto 32).map (fun i => BitVec.ofNat 32 (ofBytes (s.bytes (a + 4 * i) 4))) =
      (upto 32).map (fun i => Table.get 0 q.acc (tileKey tile r i)) := by
    rw [← i32s_bytes, ← i32s_flatten_toBytes]
    exact congrArg i32s stands
  rw [← sint_ofNat, List.map_inj_left.mp words n (List.mem_range.mpr hn)]
  rfl

/-- The last of several stores reads back. -/
theorem bytes_storeEach_last {α : Type} (addr : α → Nat) (val : α → List Byte) (xs : List α) (x : α) (s : State) :
    (storeEach addr val (xs ++ [x]) s).bytes (addr x) (val x).length = val x := by
  simp only [storeEach, forAll, List.foldl_append, List.foldl_cons, List.foldl_nil]
  exact State.store_bytes ..

/-! MX.STT. -/

section
variable (s : State) (u : SquareId) (w : Nat)

/-- The order in which MX.STT writes the rows (LOG 28). -/
def sttRows : List Nat := (s.rowOrder ((s.sq u.val).off w 19) 128).1

/-- The place of a row in the cistern (R62). -/
def sttPlace (r : Nat) : Nat := (s.sq u.val).cisternAt u.val ((s.sq u.val).off w 14 + r * (s.sq u.val).off w 19)

/-- The state once every row is written. -/
def sttStored : State :=
  storeEach (sttPlace s u w) ((s.sq u.val).tileRow (mxTile w)) (sttRows s u w) (s.rowOrder ((s.sq u.val).off w 19) 128).2

theorem sttStored_onlyStores : onlyStores s (sttStored s u w) :=
  (rowOrder_onlyStores s _ _).trans (storeEach_onlyStores _ _ _ _)

theorem mem_sttRows (r : Nat) : r ∈ sttRows s u w ↔ r < 32 := mem_rowOrder s _ _ r

theorem sttPlace_eq (r : Nat) :
    sttPlace s u w r = (s.sq u.val).cisternAt u.val ((s.sq u.val).off w 14) + r * (s.sq u.val).off w 19 := cisternAt_add ..

theorem sttStored_sameMemoryBut : sameMemoryBut s (sttStored s u w) ((s.sq u.val).cisternAt u.val ((s.sq u.val).off w 14))
    (31 * (s.sq u.val).off w 19 + 128) := by
  intro b outside
  refine (byte_storeEach_apart _ _ (fun r hr => ?_) _).trans (rowOrder_byte s _ _ b)
  have last : r * (s.sq u.val).off w 19 ≤ 31 * (s.sq u.val).off w 19 :=
    Nat.mul_le_mul_right _ (Nat.le_of_lt_succ ((mem_sttRows s u w r).mp hr))
  rw [length_tileRow, sttPlace_eq]
  omega

/-- Rows that do not overlap all read back. -/
theorem sttStored_row (apart : 128 ≤ (s.sq u.val).off w 19) {r : Nat} (hr : r < 32) :
    (sttStored s u w).bytes (sttPlace s u w r) 128 = (s.sq u.val).tileRow (mxTile w) r := by
  have read := bytes_storeEach (sttPlace s u w) ((s.sq u.val).tileRow (mxTile w)) ((mem_sttRows s u w r).mpr hr)
    (fun r' hr' other => ?_) (s.rowOrder ((s.sq u.val).off w 19) 128).2
  · rw [length_tileRow] at read
    exact read
  · have rows := element_apart (b := (s.sq u.val).off w 19) (r := 0) (r' := 0) (le_refl _) hr
      ((mem_sttRows s u w r').mp hr') (.inr (Ne.symm other))
    simp only [length_tileRow, sttPlace_eq]
    omega

/-- Of all rows the one that is written last reads back. -/
theorem sttStored_last : ∃ r, r < 32 ∧ (sttStored s u w).bytes (sttPlace s u w r) 128 = (s.sq u.val).tileRow (mxTile w) r := by
  obtain empty | ⟨rows, r, order⟩ := List.eq_nil_or_concat (sttRows s u w)
  · have := (mem_sttRows s u w 0).mpr (by decide)
    rw [empty] at this
    cases this
  · rw [List.concat_eq_append] at order
    have read := bytes_storeEach_last (sttPlace s u w) ((s.sq u.val).tileRow (mxTile w)) rows r
      (s.rowOrder ((s.sq u.val).off w 19) 128).2
    rw [length_tileRow, ← order] at read
    exact ⟨r, (mem_sttRows s u w r).mp (by simp [order]), read⟩

end

theorem exec_mxStt {s : State} {u : SquareId} {w : Nat} (ready : mxReady s u 0x03 w [bits w 14 5, bits w 19 5])
    (clear : s.moveCheck u.val w false = none) :
    exec (.mxStt u) s = .next (((sttStored s u w).count u.val 2 2).advance u.val) := by
  have sqs := (rowOrder_onlyStores s ((s.sq u.val).off w 19) 128).sq u.val
  refine congrArg _ ((mxIssue_of_ready (regs := fun w => [bits w 14 5, bits w 19 5]) ready (by decide) clear _).trans ?_)
  simp only [forAll_writeCistern, sqs]
  rfl

/-- A stride that is not 0 leaves room for a row (R62). -/
theorem stride_of_clear {s : State} {u w : Nat} {load : Bool} (clear : s.moveCheck u w load = none)
    (positive : 0 < (s.sq u).off w 19) : 128 ≤ (s.sq u).off w 19 := by
  simp only [State.moveCheck, firstCause_eq_none] at clear
  have aligned := clear _ (List.mem_cons_of_mem _ (List.mem_cons_self ..))
  simp only [cause_eq_none, Bool.or_eq_false_iff, decide_eq_false_iff_not] at aligned
  have room := aligned.2
  omega

/-- Counting and going on in sequence after stores. -/
theorem squareBecomes_count_advance (s : State) (u idx n : Nat) :
    squareBecomes s ((s.count u idx n).advance u) u { s.sq u with pc := (s.sq u).pc + 1 } :=
  ⟨State.modSq_sq_same .., fun _ other => (State.modSq_sq ..).trans (if_neg other), ⟨rfl, rfl⟩, fun _ => rfl⟩

theorem mxStt_stores_rows {s : State} {u : SquareId} {w : Nat} (ready : mxReady s u 0x03 w [bits w 14 5, bits w 19 5])
    (clear : s.moveCheck u.val w false = none) :
    let q := s.sq u.val
    ∃ t, exec (.mxStt u) s = .next t ∧ t.sq u.val = { q with pc := q.pc + 1 } ∧ silent s t ∧
      sameMemoryBut s t (q.cisternAt u.val (q.off w 14)) (31 * q.off w 19 + 128) ∧
      (0 < q.off w 19 → ∀ r n, r < 32 → n < 32 →
        signed 32 (ofBytes (t.bytes (q.cisternAt u.val (q.off w 14 + r * q.off w 19 + 4 * n)) 4)) = q.elem (bits w 10 4) r n) ∧
      (q.off w 19 = 0 → ∃ r, r < 32 ∧ ∀ n, n < 32 →
        signed 32 (ofBytes (t.bytes (q.cisternAt u.val (q.off w 14 + 4 * n)) 4)) = q.elem (bits w 10 4) r n) := by
  intro q
  have stored := sttStored_onlyStores s u w
  obtain ⟨square, -, quiet, memory⟩ := squareBecomes_count_advance (sttStored s u w) u.val 2 2
  refine ⟨_, exec_mxStt ready clear, ?_⟩
  generalize ((sttStored s u w).count u.val 2 2).advance u.val = t at *
  have element {r n : Nat} (read : (sttStored s u w).bytes (sttPlace s u w r) 128 = q.tileRow (mxTile w) r) (hn : n < 32) :
      signed 32 (ofBytes (t.bytes (q.cisternAt u.val (q.off w 14 + r * q.off w 19 + 4 * n)) 4)) = q.elem (bits w 10 4) r n := by
    rw [cisternAt_add q u.val _ (4 * n)]
    exact elem_of_tileRow ((memory.bytes _ _).trans read) hn
  refine ⟨by rw [square, stored.sq], ⟨quiet.1.trans stored.silent.1, quiet.2.trans stored.silent.2⟩,
    fun b outside => (memory b).trans (sttStored_sameMemoryBut s u w b outside), fun positive r n hr hn => ?_, fun zero => ?_⟩
  · exact element (sttStored_row s u w (stride_of_clear clear positive) hr) hn
  · obtain ⟨r, hr, read⟩ := sttStored_last s u w
    refine ⟨r, hr, fun n hn => ?_⟩
    have last := element read hn
    rwa [zero, Nat.mul_zero, Nat.add_zero] at last

end Sys2Proof.Proofs

/-! Moves between tiles, registers and the cistern, and O12 (R54, R62, R63, R118). -/

namespace Sys2Proof.Proofs
open Sys2Proof Sys2Proof.Machine

/-! MX.FILL. -/

theorem fill_eq_setElems (tile w : Nat) (v : Int) (q : Square) :
    (maskBits (mxRows w)).foldl (fun q r => (maskBits (mxCols w)).foldl (fun q n => q.setElem tile r n v) q) q =
      setElems tile (fun _ _ => v) (unmaskedCells w) q := by
  simp only [setElems, unmaskedCells, List.product, List.foldl_flatMap, List.foldl_map]

theorem sint_setWidth (x : Reg64) : sint (x.setWidth 32) = signed 32 x.toNat := by rw [← BitVec.ofNat_toNat, sint_ofNat]

/-! What the statement asks of every move that leaves memory alone. -/

section
variable {s t : State} {u : Nat}

theorem squareBecomes.accChanged {acc : Table Word} {bad : Table Bool}
    (h : squareBecomes s t u { s.sq u with acc := acc, badTile := bad, pc := (s.sq u).pc + 1 }) :
    (t.sq u).acc = acc ∧ (t.sq u).pc = (s.sq u).pc + 1 ∧ silent s t ∧ sameMemory s t ∧
      t.sq u = { s.sq u with pc := (t.sq u).pc, acc := (t.sq u).acc, badTile := (t.sq u).badTile } := by
  obtain ⟨square, -, quiet, memory⟩ := h
  exact ⟨by rw [square], by rw [square], quiet, memory, by rw [square]⟩

theorem squareBecomes.vregChanged {vreg : Table Word} {bad : Table Bool}
    (h : squareBecomes s t u { s.sq u with vreg := vreg, badLane := bad, pc := (s.sq u).pc + 1 }) :
    (t.sq u).vreg = vreg ∧ (t.sq u).pc = (s.sq u).pc + 1 ∧ silent s t ∧ sameMemory s t ∧
      t.sq u = { s.sq u with pc := (t.sq u).pc, vreg := (t.sq u).vreg, badLane := (t.sq u).badLane } := by
  obtain ⟨square, -, quiet, memory⟩ := h
  exact ⟨by rw [square], by rw [square], quiet, memory, by rw [square]⟩

end

/-- Settles O12: each move writes its tile, its registers or its rows as a function of the position. -/
theorem tileMovesKeepElements : Obligations.TileMovesKeepElements := by
  unfold Obligations.TileMovesKeepElements
  refine ⟨fun s u w ready form tile => ?fill, fun s u w ready clear => ?ldt, fun s u w ready clear => mxStt_stores_rows ready clear,
    fun s u w ready clear => ?tov, fun s u w ready clear => ?fromv⟩
  case fill =>
    obtain ⟨t, run, became⟩ := mxChangesSquare (c := .mxFill u) (w := w) rfl ready (by decide)
      (by simpa [mxOnly, form] using (show mxTile w ≤ 7 from Nat.le_of_lt_succ tile))
    rw [fill_eq_setElems, setElems_frame] at became
    obtain ⟨acc, pc, quiet, memory, frame⟩ := became.accChanged
    refine ⟨t, run, pc, quiet, memory, frame, fun tile r n hr hn => ?_⟩
    rw [Square.elem, acc, ← sint_setWidth]
    exact elem_setElems_unmasked (mxTile w) w (fun _ _ => isI32_sint _) (s.sq u.val) hr hn
  case ldt =>
    obtain ⟨t, run, became⟩ := mxChangesSquare (c := .mxLdt u) rfl ready (by decide) clear
    obtain ⟨acc, pc, quiet, memory, frame⟩ := became.accChanged
    simp only [loadedRows_eq_map] at acc
    refine ⟨t, run, pc, quiet, memory, frame, fun tile r n hr hn => ?_⟩
    rw [elem_of_acc acc hr hn, sint_ofNat, show (32 * r + n) / 32 = r by omega, show (32 * r + n) % 32 = n by omega]
    rfl
  case tov =>
    obtain ⟨t, run, became⟩ := mxChangesSquare (c := .mxTov u) rfl ready (by decide) clear
    rw [setLanes_pair_frame] at became
    obtain ⟨vreg, pc, quiet, memory, frame⟩ := became.vregChanged
    dsimp only at vreg
    refine ⟨t, run, pc, quiet, memory, frame, fun r n hr hn => lane_of_elem vreg hr hn, fun v l hl low high => ?_⟩
    exact (lane_of_halves vreg hl).trans ((if_neg high).trans (if_neg low))
  case fromv =>
    obtain ⟨t, run, became⟩ := mxChangesSquare (c := .mxFromv u) rfl ready (by decide) clear
    obtain ⟨acc, pc, quiet, memory, frame⟩ := became.accChanged
    simp only [lanes_pair_eq_map] at acc
    refine ⟨t, run, pc, quiet, memory, frame, fun tile r n hr hn => ?_⟩
    rw [elem_of_acc acc hr hn, show (32 * r + n) / 512 = r / 16 by omega, show (32 * r + n) % 512 = 32 * (r % 16) + n by omega]
    rfl

end Sys2Proof.Proofs

/-! Lane operations, O14 and O15 (R81). -/

namespace Sys2Proof.Proofs
open Sys2Proof Sys2Proof.Machine

/-! The result of a lane, from its exact value. -/

/-- The word that an exact value becomes, and whether a clamp acted (R81). -/
def laneResult (saturates : Bool) (x : Int) : Word × Bool :=
  (BitVec.ofInt 32 (if saturates = true then clamp32 x else x), saturates && decide (clamp32 x ≠ x))

theorem satLane_eq_laneResult (x : Int) : satLane x = laneResult true x := by
  simp [satLane, laneResult, satI32_eq_clamp32, ofI32]

theorem plain_eq_laneResult {v : Word} {x : Int} (spells : BitVec.ofInt 32 x = v) : plain v = laneResult false x := by
  simp [plain, laneResult, spells]

theorem ofInt_ite_toInt (c : Prop) [Decidable c] (a b : Word) :
    BitVec.ofInt 32 (if c then a.toInt else b.toInt) = if c then a else b := by
  split <;> exact BitVec.ofInt_toInt

theorem ofInt_boolLane {c : Prop} [Decidable c] {b : Bool} (same : b = true ↔ c) :
    BitVec.ofInt 32 (if c then -1 else 0) = boolLane b := by
  simp only [boolLane, same]
  split <;> rfl

theorem ofInt_shiftLeft (a : Word) (sh : Nat) : BitVec.ofInt 32 ((a.toNat * 2 ^ sh : Nat) : Int) = a <<< sh := by
  apply BitVec.eq_of_toNat_eq
  rw [BitVec.ofInt_natCast, BitVec.toNat_ofNat, BitVec.toNat_shiftLeft, Nat.shiftLeft_eq]

theorem ofInt_ushiftRight (a : Word) (sh : Nat) : BitVec.ofInt 32 ((a.toNat / 2 ^ sh : Nat) : Int) = a >>> sh := by
  apply BitVec.eq_of_toNat_eq
  rw [BitVec.ofInt_natCast, BitVec.toNat_ofNat, BitVec.toNat_ushiftRight, Nat.shiftRight_eq_div_pow]
  exact Nat.mod_eq_of_lt ((Nat.div_le_self ..).trans_lt a.isLt)

theorem ofInt_sshiftRight (a : Word) (sh : Nat) : BitVec.ofInt 32 (a.toInt / (2 ^ sh : Nat)) = a.sshiftRight sh := by
  rw [← Int.shiftRight_eq_div_pow, ← BitVec.toInt_sshiftRight, BitVec.ofInt_toInt]

theorem ofInt_min (a b : Word) : BitVec.ofInt 32 (min a.toInt b.toInt) = if sint a ≤ sint b then a else b := by
  rw [min_def, ofInt_ite_toInt]
  rfl

theorem ofInt_max (a b : Word) : BitVec.ofInt 32 (max a.toInt b.toInt) = if sint a ≤ sint b then b else a := by
  rw [max_def, ofInt_ite_toInt]
  rfl

/-! Instructions whose lanes are results of one function. -/

section
variable {c : Instr} {s : State} {u : SquareId} {op w : Nat} {shift saturates : Bool} (defined : op ≤ 0x25)
include defined

theorem vxBinary_completes {f : Nat → Word → Word → Word × Bool} {value : Nat → Word → Word → Int}
    (runs : exec c s = .next (s.vxBinary u.val op shift f)) (lane : ∀ sh a b, f sh a b = laneResult saturates (value sh a b))
    (ready : vxReady s u op w (bRegs w) (if shift = true then [(10, 6), (16, 6), (62, 6)] else [(10, 6), (16, 6)]) true true
      [(bits w 16 6, 1)]) :
    let x := fun l => value (bits w 62 6) ((s.sq u.val).lane (bits w 16 6) l) (operandLane (s.sq u.val) w l)
    ∃ t, exec c s = .next t ∧
      vectorWritten s t u (bits w 10 6) (fun l => (laneResult saturates (x l)).1) (fun l => (laneResult saturates (x l)).2) := by
  intro x
  refine vectorWritten_of_vxReady runs defined ?_ ready rfl
  rw [bLanes_eq_map, lanes_eq_map, zipWith_map_upto, laneResults]
  exact List.map_congr_left (fun l _ => lane ..)

theorem vxUnary_completes {f : Nat → Word → Word × Bool} {value : Nat → Word → Int}
    (runs : exec c s = .next (s.vxUnary u.val op shift f)) (lane : ∀ sh a, f sh a = laneResult saturates (value sh a))
    (ready : vxReady s u op w [] (if shift = true then [(10, 6), (16, 6), (62, 6)] else [(10, 6), (16, 6)]) false
      (!shift || decide (bits w 62 6 ≤ 31)) [(bits w 16 6, 1)]) :
    let x := fun l => value (bits w 62 6) ((s.sq u.val).lane (bits w 16 6) l)
    ∃ t, exec c s = .next t ∧
      vectorWritten s t u (bits w 10 6) (fun l => (laneResult saturates (x l)).1) (fun l => (laneResult saturates (x l)).2) := by
  intro x
  refine vectorWritten_of_vxReady runs defined ?_ ready rfl
  rw [lanes_eq_map, List.map_map, laneResults]
  exact List.map_congr_left (fun l _ => lane ..)

end

/-- Settles O14: each operation is `vxBinary` of a function whose results are those of the exact value. -/
theorem laneOperationsOnTwoOperands : Obligations.LaneOperationsOnTwoOperands := by
  unfold Obligations.LaneOperationsOnTwoOperands
  intro s u w r rule ready
  simp only [laneRules, List.mem_cons, List.not_mem_nil, or_false] at rule
  obtain rfl | rfl | rfl | rfl | rfl | rfl | rfl | rfl | rfl | rfl | rfl := rule
  · exact vxBinary_completes (by decide) rfl (fun _ _ _ => satLane_eq_laneResult _) ready
  · exact vxBinary_completes (by decide) rfl (fun _ _ _ => satLane_eq_laneResult _) ready
  · exact vxBinary_completes (by decide) rfl (fun _ _ _ => satLane_eq_laneResult _) ready
  · exact vxBinary_completes (by decide) rfl (fun _ a b => plain_eq_laneResult (ofInt_min a b)) ready
  · exact vxBinary_completes (by decide) rfl (fun _ a b => plain_eq_laneResult (ofInt_max a b)) ready
  · exact vxBinary_completes (by decide) rfl (fun _ _ _ => plain_eq_laneResult BitVec.ofInt_toInt) ready
  · exact vxBinary_completes (by decide) rfl (fun _ _ _ => plain_eq_laneResult BitVec.ofInt_toInt) ready
  · exact vxBinary_completes (by decide) rfl (fun _ _ _ => plain_eq_laneResult BitVec.ofInt_toInt) ready
  · exact vxBinary_completes (by decide) rfl
      (fun _ _ _ => plain_eq_laneResult (ofInt_boolLane (beq_iff_eq.trans BitVec.toNat_inj.symm))) ready
  · exact vxBinary_completes (by decide) rfl (fun _ _ _ => plain_eq_laneResult (ofInt_boolLane decide_eq_true_iff)) ready
  · exact vxBinary_completes (by decide) rfl (fun _ _ _ => plain_eq_laneResult (ofInt_boolLane decide_eq_true_iff)) ready

theorem vxUnary_rules_complete {s : State} {u : SquareId} {w : Nat} {r : Instr × Nat × Bool × Bool × (Nat → Word → Int)}
    (rule : r ∈ laneRules1 u)
    (ready : vxReady s u r.2.1 w [] (if r.2.2.1 = true then [(10, 6), (16, 6), (62, 6)] else [(10, 6), (16, 6)]) false
      (!r.2.2.1 || decide (bits w 62 6 ≤ 31)) [(bits w 16 6, 1)]) :
    let x := fun l => r.2.2.2.2 (bits w 62 6) ((s.sq u.val).lane (bits w 16 6) l)
    ∃ t, exec r.1 s = .next t ∧ vectorWritten s t u (bits w 10 6)
      (fun l => (laneResult r.2.2.2.1 (x l)).1) (fun l => (laneResult r.2.2.2.1 (x l)).2) := by
  simp only [laneRules1, List.mem_cons, List.not_mem_nil, or_false] at rule
  obtain rfl | rfl | rfl | rfl | rfl | rfl | rfl := rule
  · exact vxUnary_completes (by decide) rfl (fun _ _ => plain_eq_laneResult rfl) ready
  · exact vxUnary_completes (by decide) rfl (fun _ _ => satLane_eq_laneResult _) ready
  · exact vxUnary_completes (by decide) rfl (fun _ _ => satLane_eq_laneResult _) ready
  · exact vxUnary_completes (by decide) rfl (fun sh a => plain_eq_laneResult (ofInt_shiftLeft a sh)) ready
  · exact vxUnary_completes (by decide) rfl (fun sh a => plain_eq_laneResult (ofInt_ushiftRight a sh)) ready
  · exact vxUnary_completes (by decide) rfl (fun sh a => plain_eq_laneResult (ofInt_sshiftRight a sh)) ready
  · exact vxUnary_completes (by decide) rfl (fun _ _ => plain_eq_laneResult BitVec.ofInt_toInt) ready

/-! Lanes that set no flag: selection, numbering and broadcast. -/

theorem setLanes_eq_putLanes (q : Square) (v : Nat) (ws : List Word) : q.setLanes v ws = q.putLanes v (ws.map plain) := by
  simp [Square.putLanes, Square.orOut, Square.setLanes, plain, Function.comp_def]

/-- A vector instruction that is ready and sets no flag writes its lanes to VD. -/
theorem vectorWritten_of_lanes {c : Instr} {s : State} {u : SquareId} {op w : Nat} {regs : Nat → List Nat}
    {check : Nat → Option (Nat × Nat)} {lanes : Nat → Square → List Word} {res : Nat → Word}
    (runs : exec c s = .next (s.vxIssue u.val op regs check (fun w => s.modSq u.val (fun q => q.setLanes (vxVD w) (lanes w q)))))
    (defined : op ≤ 0x25) (found : lanes w (s.sq u.val) = (upto 512).map res) (here : standsAt s u 2 op w)
    (written : (s.sq u.val).regsReady (regs w) = true) (clear : check w = none) :
    ∃ t, exec c s = .next t ∧ vectorWritten s t u (bits w 10 6) res (fun _ => false) := by
  simp only [setLanes_eq_putLanes] at runs
  refine vectorWritten_of_results runs defined ?_ here written clear
  rw [found, List.map_map]
  rfl

theorem selLanes_map (c a b : Nat → Word) (ls : List Nat) :
    selLanes (ls.map c) (ls.map a) (ls.map b) = ls.map (fun l => if c l = 0 then b l else a l) := by
  induction ls with
  | nil => rfl
  | cons l ls ih => simp only [List.map_cons, selLanes, ih, ne_eq, ite_not]

/-- Settles O15: each operation of one operand is `vxUnary` of a function whose results are those of the exact value, and the others
write lanes that set no flag. -/
theorem laneOperationsOnOneOperand : Obligations.LaneOperationsOnOneOperand := by
  unfold Obligations.LaneOperationsOnOneOperand
  refine ⟨fun s u w r rule ready => vxUnary_rules_complete rule ready, fun s u w ready => ?sel, fun s u w ready => ?iota,
    fun s u w ready => ?bcast⟩ <;> obtain ⟨here, written, clear⟩ := ready
  case sel =>
    exact vectorWritten_of_lanes (c := .vxSel u) (regs := bRegs) rfl (by decide)
      (by rw [bLanes_eq_map, lanes_eq_map, lanes_eq_map, selLanes_map]; rfl) here written clear
  case iota =>
    exact vectorWritten_of_lanes (c := .vxIota u) (regs := fun _ => []) rfl (by decide) rfl here written clear
  case bcast =>
    exact vectorWritten_of_lanes (c := .vxBcast u) (regs := fun w => [bits w 42 5]) rfl (by decide)
      (by simp only [BitVec.ofNat_toNat]; rfl) here written clear

end Sys2Proof.Proofs

/-! Vector instructions that reach a scalar register or the cistern, and O16 (R84, R111). -/

namespace Sys2Proof.Proofs
open Sys2Proof Sys2Proof.Machine

/-! What an access to the cistern asks, and what an instruction makes of its square. -/

theorem vxMemCheck_eq_none (s : State) (u w : Nat) (fs : List (Nat × Nat)) (extra readOnly : Bool) (n : Nat) (load bad : Bool) :
    s.vxMemCheck u w fs extra readOnly n load bad = none ↔
      (vxFormOk w fs false = true ∧ extra = true) ∧ ((s.sq u).sreg (vxSS w)).toNat % 32 = 0 ∧ readOnly = false ∧
        ((s.sq u).sreg (vxSS w)).toNat + n ≤ (s.sq u).allotSize ∧
        (load = true → s.cisternParity u ((s.sq u).sreg (vxSS w)).toNat n = none) ∧ bad = false := by
  cases load <;> simp [State.vxMemCheck]

section
variable {c : Instr} {s : State} {u : SquareId} {op w : Nat} {regs : Nat → List Nat} {check : Nat → Option (Nat × Nat)}
  {change : Nat → Square → Square}

/-- A vector instruction that changes its square alone. -/
theorem vxChangesSquare (runs : exec c s = .next (s.vxIssue u.val op regs check (fun w => s.modSq u.val (change w))))
    (defined : op ≤ 0x25) (here : standsAt s u 2 op w) (written : (s.sq u.val).regsReady (regs w) = true) (clear : check w = none) :
    ∃ t, exec c s = .next t ∧ squareBecomes s t u.val { change w (s.sq u.val) with pc := (change w (s.sq u.val)).pc + 1 } :=
  ⟨_, runs.trans (congrArg _ (vxIssue_of_ready here written defined clear _)), squareBecomes_advance s u.val 3 1 (change w)⟩

/-- A vector instruction that stores bytes in the cistern, and then changes its square. -/
theorem vxStores {off : Nat → Nat} {bs : Nat → List Byte}
    (runs : exec c s = .next (s.vxIssue u.val op regs check (fun w => (s.writeCistern u.val (off w) (bs w)).modSq u.val (change w))))
    (defined : op ≤ 0x25) (here : standsAt s u 2 op w) (written : (s.sq u.val).regsReady (regs w) = true) (clear : check w = none) :
    ∃ t, exec c s = .next t ∧ squareBecomes (s.writeCistern u.val (off w) (bs w)) t u.val
      { change w (s.sq u.val) with pc := (change w (s.sq u.val)).pc + 1 } :=
  ⟨_, runs.trans (congrArg _ (vxIssue_of_ready here written defined clear _)),
    squareBecomes_advance (s.writeCistern u.val (off w) (bs w)) u.val 3 1 (change w)⟩

end

/-! Elements that are loaded. -/

theorem signed_toNat (b : Byte) : signed 8 b.toNat = b.toInt := by
  have := b.isLt
  simp only [signed, BitVec.toInt_eq_toNat_cond]
  split <;> split <;> omega

theorem ofInt_signed (v : Nat) : BitVec.ofInt 32 (signed 32 v) = BitVec.ofNat 32 v := by
  rw [← sint_ofNat, sint, BitVec.ofInt_toInt]

theorem ofBytes_bytes_one (s : State) (a : Nat) : ofBytes (s.bytes a 1) = (s.byte a).toNat := rfl

theorem ofBytes_bytes_two (s : State) (a : Nat) :
    ofBytes (s.bytes a 2) = (s.byte a).toNat + 256 * (s.byte (a + 1)).toNat := rfl

theorem elementType_cases {et : Nat} (listed : et < 4) : et = 0 ∨ et = 1 ∨ et = 2 ∨ et = 3 := by omega

theorem loadLanes_bytes {et : Nat} (listed : et < 4) (s : State) (a n : Nat) :
    loadLanes et (s.bytes a (n * elementBytes et)) =
      (upto n).map (fun l => BitVec.ofInt 32 (elementValue et (s.bytes (a + elementBytes et * l) (elementBytes et)))) := by
  rw [Nat.mul_comm]
  obtain rfl | rfl | rfl | rfl := elementType_cases listed
  · simp [loadLanes, elementBytes, elementValue, bytes_eq_map s a, ofBytes_bytes_one, signed_toNat, BitVec.signExtend]
  · simp [loadLanes, elementBytes, elementValue, bytes_eq_map s a, ofBytes_bytes_one]
  · simp [loadLanes, elementBytes, elementValue, i16s_bytes, ofBytes_bytes_two, ofI32]
  · simp [loadLanes, elementBytes, elementValue, i32s_bytes, ofInt_signed]

/-- The first lanes of a register hold a list's values, and the others 0. -/
theorem map_append_zeros {n : Nat} (most : n ≤ 512) (f : Nat → Word) :
    (upto n).map f ++ List.replicate (512 - n) 0 = (upto 512).map (fun l => if l < n then f l else 0) := by
  refine List.ext_getElem (by simp [upto]; omega) (fun l hl _ => ?_)
  by_cases h : l < n <;> simp [upto, List.getElem_append, h]

/-! Elements that are stored. -/

theorem storeLane_eq_elementClamp {et : Nat} (listed : et < 4) (v : Word) : storeLane et v = elementClamp et v.toInt := by
  obtain rfl | rfl | rfl | rfl := elementType_cases listed
  all_goals simp [storeLane, elementClamp, sint, satI8, satI16, clampI]
  all_goals omega

/-- A saturated element fits its type, so its bytes spell it (R29, R84). -/
theorem elementValue_toBytes {et : Nat} (listed : et < 4) (v : Word) :
    elementValue et (toBytes (elementBytes et) (pattern 32 (elementClamp et v.toInt))) = elementClamp et v.toInt := by
  have low := v.le_toInt
  have high := v.toInt_lt
  simp only [elementValue, ofBytes_toBytes]
  obtain rfl | rfl | rfl | rfl := elementType_cases listed
  all_goals simp [elementClamp, elementBytes, signed, pattern]
  all_goals omega

section
variable {m : Nat} {f : Nat → List Byte} (size : ∀ l, (f l).length = m)

theorem div_of_chunk {l k : Nat} (inside : k < m) : (m * l + k) / m = l := by
  rw [Nat.mul_add_div (by omega), Nat.div_eq_of_lt inside, Nat.add_zero]

include size

/-- Chunks of one size, one after the other, as a function of the byte. -/
theorem flatten_chunks (n : Nat) : ((upto n).map f).flatten = (upto (m * n)).map (fun i => (f (i / m)).getD (i % m) 0) := by
  rw [← flatten_rows n m]
  refine congrArg _ (List.map_congr_left (fun l _ => List.ext_getElem (by simp [upto, size]) (fun k hk _ => ?_)))
  have inside : k < m := size l ▸ hk
  simp [upto, div_of_chunk inside, Nat.mod_eq_of_lt inside, hk]

/-- A chunk of what was stored reads back. -/
theorem store_chunks_bytes (s : State) (a : Nat) {n l : Nat} (hl : l < n) :
    (s.store a ((upto n).map f).flatten).bytes (a + m * l) m = f l := by
  refine List.ext_getElem (by simp [State.bytes, size]) (fun k hk hv => ?_)
  have inside : k < m := size l ▸ hv
  have last : m * l + m ≤ m * n := Nat.mul_le_mul_left m hl
  refine (Table.getElem_getList 0 _ _ _ k hk).trans ((State.store_byte ..).trans ?_)
  rw [flatten_chunks size n, if_pos (by simp [upto]; omega), show a + m * l + k - a = m * l + k by omega]
  simp [upto, div_of_chunk inside, Nat.mod_eq_of_lt inside, hv, show m * l + k < m * n by omega]

end

/-- The bytes that VX.ST makes of a lane. -/
def elementChunk (q : Square) (w l : Nat) : List Byte :=
  toBytes (elementBytes (bits w 72 2)) (pattern 32 (elementClamp (bits w 72 2) (q.lane (bits w 16 6) l).toInt))

theorem length_elementChunk (q : Square) (w l : Nat) : (elementChunk q w l).length = elementBytes (bits w 72 2) := length_toBytes ..

theorem storeLane_vxEType (w : Nat) (v : Word) : storeLane (vxEType w) v = elementClamp (bits w 72 2) v.toInt :=
  storeLane_eq_elementClamp (Nat.mod_lt _ (by decide)) v

theorem storedBytes_eq_chunks (q : Square) (w : Nat) :
    ((q.lanes (vxVA w) (vxCnt w)).map (fun v => toBytes (elemSize (vxEType w)) (pattern 32 (storeLane (vxEType w) v)))).flatten =
      ((upto (bits w 74 10)).map (elementChunk q w)).flatten := by
  simp only [lanes_eq_map, List.map_map, storeLane_vxEType]
  rfl

theorem storedLanes_any (q : Square) (w : Nat) :
    (q.lanes (vxVA w) (vxCnt w)).any (fun v => storeLane (vxEType w) v != sint v) = true ↔
      ∃ l, l < bits w 74 10 ∧ elementClamp (bits w 72 2) (q.lane (bits w 16 6) l).toInt ≠ (q.lane (bits w 16 6) l).toInt := by
  simp [lanes_eq_map, storeLane_vxEType, upto, sint, vxVA, vxCnt]

/-! The instructions. -/

theorem setSreg_frame (q : Square) (r : Nat) (v : Reg64) : q.setSreg r v = { q with sregs := (q.setSreg r v).sregs } := by
  unfold Square.setSreg
  split <;> rfl

/-- What a register holds after a write, with the register that reads as 0 told by its own number (R104). -/
theorem sreg_of_sregs {p q : Square} {r : Nat} {v : Reg64} (written : p.sregs = (q.setSreg r v).sregs) (k : Nat) :
    p.sreg k = if k = r ∧ k ≠ 0 then v else q.sreg k := by
  have same : p.sreg k = (q.setSreg r v).sreg k := by rw [Square.sreg, written, ← Square.sreg]
  rw [same, sreg_setSreg]
  exact if_congr (and_congr_right (fun h => h ▸ Iff.rfl)) rfl rfl

theorem vxTos_writes_lane {s : State} {u : SquareId} {w : Nat}
    (ready : vxReadyFor s u 0x15 w [bits w 47 5] [(16, 6), (47, 5), (74, 10)] (decide (bits w 74 10 ≤ 511))
      ((s.sq u.val).badSpan (bits w 16 6) (bits w 74 10) 1)) :
    ∃ t, exec (.vxTos u) s = .next t ∧ silent s t ∧ sameMemory s t ∧ (∀ v, v ≠ u.val → t.sq v = s.sq v) ∧
      scalarOnly (s.sq u.val) (t.sq u.val) ∧ (t.sq u.val).pc = (s.sq u.val).pc + 1 ∧
      ∀ k, (t.sq u.val).sreg k = if k = bits w 47 5 ∧ k ≠ 0 then
        BitVec.ofInt 64 ((s.sq u.val).lane (bits w 16 6) (bits w 74 10)).toInt else (s.sq u.val).sreg k := by
  obtain ⟨here, written, form, extra, sound⟩ := ready
  obtain ⟨t, run, square, others, quiet, memory⟩ := vxChangesSquare (c := .vxTos u) (regs := fun w => [bits w 47 5]) rfl (by decide)
    here written ((vxChecks_eq_none ..).mpr ⟨⟨form, extra⟩, sound⟩)
  have frame := setSreg_frame (s.sq u.val) (vxSR w) (((s.sq u.val).lane (vxVA w) (vxCnt w)).signExtend 64)
  refine ⟨t, run, quiet, memory, others, ?_, ?_, fun k => sreg_of_sregs (by rw [square]; rfl) k⟩
  · rw [square, frame]
    rfl
  · rw [square, frame]

theorem vxLd_fills_lanes {s : State} {u : SquareId} {w : Nat} (here : standsAt s u 2 0x16 w)
    (written : (s.sq u.val).regsReady [bits w 42 5] = true) :
    let n := elementBytes (bits w 72 2)
    let off := ((s.sq u.val).sreg (bits w 42 5)).toNat
    vxFormOk w [(10, 6), (42, 5), (72, 2), (74, 10)] false = true → 1 ≤ bits w 74 10 → bits w 74 10 ≤ 512 →
    off % 32 = 0 → off + bits w 74 10 * n ≤ (s.sq u.val).allotSize → s.cisternParity u.val off (bits w 74 10 * n) = none →
    ∃ t, exec (.vxLd u) s = .next t ∧
      vectorWritten s t u (bits w 10 6)
        (fun l => if l < bits w 74 10 then
          BitVec.ofInt 32 (elementValue (bits w 72 2) (s.bytes ((s.sq u.val).cisternAt u.val (off + n * l)) n)) else 0)
        (fun _ => false) := by
  intro n off form one most aligned fits sound
  refine vectorWritten_of_lanes (c := .vxLd u) (regs := fun w => [bits w 42 5]) rfl (by decide) ?_ here written
    ((vxMemCheck_eq_none ..).mpr ⟨⟨form, decide_eq_true ⟨one, most⟩⟩, aligned, rfl, fits, fun _ => sound, rfl⟩)
  simp only [← map_append_zeros most, cisternAt_add]
  exact congrArg (· ++ _) (loadLanes_bytes (Nat.mod_lt _ (by decide)) s _ _)

theorem vxSt_stores_elements {s : State} {u : SquareId} {w : Nat} (here : standsAt s u 2 0x17 w)
    (written : (s.sq u.val).regsReady [bits w 42 5] = true) :
    let n := elementBytes (bits w 72 2)
    let q := s.sq u.val
    let off := (q.sreg (bits w 42 5)).toNat
    vxFormOk w [(16, 6), (42, 5), (72, 2), (74, 10)] false = true → 1 ≤ bits w 74 10 → bits w 74 10 ≤ 512 →
    off % 32 = 0 → off + bits w 74 10 * n ≤ q.allotSize → q.badSpan (bits w 16 6) 0 (bits w 74 10) = false →
    ∃ t, exec (.vxSt u) s = .next t ∧ silent s t ∧ (∀ v, v ≠ u.val → t.sq v = s.sq v) ∧
      t.sq u.val = { q with pc := q.pc + 1, outSat := (t.sq u.val).outSat } ∧
      ((t.sq u.val).outSat = true ↔ q.outSat = true ∨
        ∃ l, l < bits w 74 10 ∧ elementClamp (bits w 72 2) (q.lane (bits w 16 6) l).toInt ≠ (q.lane (bits w 16 6) l).toInt) ∧
      (∀ l, l < bits w 74 10 → elementValue (bits w 72 2) (t.bytes (q.cisternAt u.val (off + n * l)) n) =
        elementClamp (bits w 72 2) (q.lane (bits w 16 6) l).toInt) ∧
      sameMemoryBut s t (q.cisternAt u.val off) (bits w 74 10 * n) := by
  intro n q off form one most aligned fits sound
  obtain ⟨t, run, square, others, quiet, memory⟩ := vxStores (c := .vxSt u) (regs := fun w => [bits w 42 5]) rfl (by decide) here
    written ((vxMemCheck_eq_none ..).mpr ⟨⟨form, decide_eq_true ⟨one, most⟩⟩, aligned, rfl, fits, nofun, sound⟩)
  simp only [storedBytes_eq_chunks] at memory
  refine ⟨t, run, quiet, others, by rw [square]; rfl, ?_, fun l hl => ?_, fun b outside => ?_⟩
  · rw [square]
    exact Bool.or_eq_true_iff.trans (or_congr_right (storedLanes_any q w))
  · rw [memory.bytes, cisternAt_add]
    exact (congrArg _ (store_chunks_bytes (length_elementChunk q w) s _ hl)).trans
      (elementValue_toBytes (Nat.mod_lt _ (by decide)) _)
  · refine (memory b).trans (State.store_sameMemoryBut s _ _ b ?_)
    rwa [flatten_chunks (length_elementChunk q w), List.length_map, upto, List.length_range, Nat.mul_comm]

/-- Settles O16: a lane to a register, elements of the cistern to lanes, and lanes to elements of the cistern. -/
theorem lanesMoveToScalarsAndCistern : Obligations.LanesMoveToScalarsAndCistern := by
  unfold Obligations.LanesMoveToScalarsAndCistern
  exact ⟨fun _ _ _ ready => vxTos_writes_lane ready, fun _ _ _ here written => vxLd_fills_lanes here written,
    fun _ _ _ here written => vxSt_stores_elements here written⟩

end Sys2Proof.Proofs

/-! A precise fault of an instruction that stands at the PC (R141, R142). -/

namespace Sys2Proof.Proofs
open Sys2Proof Sys2Proof.Machine

section
variable {s : State} {u : SquareId}

theorem running_of_standsAt {cls op w : Nat} (here : standsAt s u cls op w) : (s.sq u.val).run = .running := by
  have on : s.kernelOn u.val = true := by
    by_contra off
    have idle : s.fetched u.val = .idle := if_pos (.inl (Bool.not_eq_true _ ▸ off))
    exact Fetched.noConfusion (idle.symm.trans here.1)
  simp only [State.kernelOn, Bool.and_eq_true, beq_iff_eq] at on
  exact on.1

theorem faultedAt_faultAt (running : (s.sq u.val).run = .running) (code addr : Nat) :
    faultedAt s (s.faultAt u.val code addr) u code addr := by
  have stops : s.faultAt u.val code addr = (s.logErr u.val (s.sq u.val).kpart code addr).modSq u.val
      (fun q => stopSquareNow { q with fault := some ⟨code, (s.sq u.val).iidx, s.time⟩ }) := if_pos running
  rw [stops]
  refine ⟨⟨_, rfl, rfl, rfl, rfl, rfl, rfl⟩, ?_⟩
  rw [State.modSq_sq_same]
  exact ⟨rfl, rfl, rfl, rfl, rfl, rfl, fun _ => rfl⟩

/-- A vector instruction whose checks find a cause faults with it. -/
theorem vxFaults {c : Instr} {op w code addr : Nat} {regs : Nat → List Nat} {check : Nat → Option (Nat × Nat)} {f : Nat → State}
    (runs : exec c s = .next (s.vxIssue u.val op regs check f)) (defined : op ≤ 0x25) (here : standsAt s u 2 op w)
    (written : (s.sq u.val).regsReady (regs w) = true) (found : check w = some (code, addr)) :
    ∃ t, exec c s = .next t ∧ faultedAt s t u code addr := by
  refine ⟨_, runs.trans (congrArg _ ?_), faultedAt_faultAt (running_of_standsAt here) code addr⟩
  rw [State.vxIssue, issue_of_standsAt here (by simpa [opcodeDefined] using defined), if_pos written, found, State.checked]

end

/-- A table that may not be written is the first cause where the form holds and the address is aligned (R91, R101). -/
theorem vxMemCheck_of_readOnly {s : State} {u w : Nat} {fs : List (Nat × Nat)} {extra : Bool} (form : vxFormOk w fs false = true)
    (listed : extra = true) (aligned : ((s.sq u).sreg (vxSS w)).toNat % 32 = 0) {readOnly : Bool} (kept : readOnly = true)
    (n : Nat) (load bad : Bool) : s.vxMemCheck u w fs extra readOnly n load bad = some (ePermission, (s.sq u).insAddr) := by
  simp [State.vxMemCheck, firstCause, cause, form, listed, aligned, kept]

end Sys2Proof.Proofs

/-! Function tables, and O18 (R88, R91 to R93, R96). -/

namespace Sys2Proof.Proofs
open Sys2Proof Sys2Proof.Machine

/-! The banks of a user slot. -/

section
variable (q : Square) (w : Nat) (t : FnTable)

/-- The bank of a slot that is not active. -/
def idleBank (slot : Nat) : Nat := 1 - Table.get 0 q.uactive slot

/-- The square once the idle bank holds the table and, where it passes or CHK is not set, is active. -/
def banked : Square :=
  { q with
    utab := Table.set {} q.utab (2 * vxSlot w + idleBank q (vxSlot w)) t
    badTab := Table.clear q.badTab (1024 * (2 * vxSlot w + idleBank q (vxSlot w))) (1024 * (2 * vxSlot w + idleBank q (vxSlot w) + 1))
    uactive := if vxFlag w && seamCheck t != 0 then q.uactive else Table.set 0 q.uactive (vxSlot w) (idleBank q (vxSlot w)) }

theorem loadTable_eq : q.loadTable w t =
    if vxFlag w = true then (banked q w t).setSreg (vxSR w) (BitVec.ofNat 64 (seamCheck t)) else banked q w t := rfl

theorem loadTable_frame : q.loadTable w t = { banked q w t with sregs := (q.loadTable w t).sregs } := by
  rw [loadTable_eq]
  split
  next => exact setSreg_frame ..
  next => rfl

theorem sreg_loadTable (k : Nat) : (q.loadTable w t).sreg k =
    if w.testBit 85 = true ∧ k = vxSR w ∧ k ≠ 0 then BitVec.ofNat 64 (seamCheck t) else q.sreg k := by
  rw [loadTable_eq, vxFlag]
  split
  next checked =>
    simp only [checked, true_and]
    exact sreg_of_sregs rfl k
  next unchecked =>
    simp only [unchecked]
    rfl

theorem get_uactive_banked : Table.get 0 (banked q w t).uactive (vxSlot w) =
    if w.testBit 85 = false ∨ seamCheck t = 0 then idleBank q (vxSlot w) else Table.get 0 q.uactive (vxSlot w) := by
  cases checked : w.testBit 85 <;> by_cases pass : seamCheck t = 0 <;> simp [banked, vxFlag, checked, pass]

end

theorem length_imageOfTable (t : FnTable) : (imageOfTable t).length = 6176 := by
  rw [imageOfTable, List.length_append, length_toBytes, getList_eq_map, List.map_map, flatten_chunks (m := 12) (fun _ => rfl),
    List.length_map, upto, List.length_range]

/-! The instructions. -/

theorem vxSfn_evaluates_lanes {s : State} {u : SquareId} {w : Nat}
    (ready : vxReadyFor s u 0x23 w [] [(10, 6), (16, 6), (68, 4), (62, 6)] (bits w 68 4 != 7)
      ((s.sq u.val).badRegs (bits w 16 6) 1 || (s.sq u.val).badRecords (bits w 68 4) ((s.sq u.val).sfnArgs w))) :
    ∃ t, exec (.vxSfn u) s = .next t ∧
      vectorWritten s t u (bits w 10 6)
        (fun l => ((s.sq u.val).sfnLane (bits w 68 4) (signed 6 (bits w 62 6)) ((s.sq u.val).lane (bits w 16 6) l)).1)
        (fun l => ((s.sq u.val).sfnLane (bits w 68 4) (signed 6 (bits w 62 6)) ((s.sq u.val).lane (bits w 16 6) l)).2) := by
  obtain ⟨here, written, form, listed, sound⟩ := ready
  refine vectorWritten_of_results (c := .vxSfn u) (regs := fun _ => []) rfl (by decide) (by rw [lanes_eq_map, List.map_map]; rfl)
    here written ?_
  rw [vxChecks_eq_none, badTab_and_badRecords]
  exact ⟨⟨form, listed⟩, sound⟩

theorem vxTld_loads_bank {s : State} {u : SquareId} {w : Nat} (here : standsAt s u 2 0x24 w)
    (written : (s.sq u.val).regsReady [bits w 42 5, bits w 47 5] = true)
    (form : vxFormOk w ([(42, 5), (68, 4), (85, 1)] ++ if w.testBit 85 = true then [(47, 5)] else []) false = true) :
    let q := s.sq u.val
    let off := (q.sreg (bits w 42 5)).toNat
    let slot := bits w 68 4
    let table := tableOfImage (s.bytes (q.cisternAt u.val off) 6176)
    let pass := w.testBit 85 = false ∨ seamCheck table = 0
    off % 32 = 0 → off + 6176 ≤ q.allotSize → s.cisternParity u.val off 6176 = none → 8 ≤ slot →
    ∃ t, exec (.vxTld u) s = .next t ∧ (t.sq u.val).pc = q.pc + 1 ∧ sameMemory s t ∧ silent s t ∧
      (t.sq u.val).vreg = q.vreg ∧ (t.sq u.val).outSat = q.outSat ∧
      Table.get {} (t.sq u.val).utab (2 * slot + (1 - Table.get 0 q.uactive slot)) = table ∧
      Table.get 0 (t.sq u.val).uactive slot = (if pass then 1 - Table.get 0 q.uactive slot else Table.get 0 q.uactive slot) ∧
      ∀ k, (t.sq u.val).sreg k =
        if w.testBit 85 = true ∧ k = bits w 47 5 ∧ k ≠ 0 then BitVec.ofNat 64 (seamCheck table) else q.sreg k := by
  intro q off slot table pass aligned fits sound user
  obtain ⟨t, run, square, -, quiet, memory⟩ := vxChangesSquare (c := .vxTld u) (regs := fun w => [bits w 42 5, bits w 47 5]) rfl
    (by decide) here written ((vxMemCheck_eq_none ..).mpr
      ⟨⟨form, bne_iff_ne.mpr (show slot ≠ 7 by omega)⟩, aligned, decide_eq_false (show ¬slot < 7 by omega), fits, fun _ => sound, rfl⟩)
  have frame := loadTable_frame q w table
  have became : t.sq u.val = { banked q w table with pc := q.pc + 1, sregs := (q.loadTable w table).sregs } :=
    square.trans (congrArg (fun p : Square => { p with pc := p.pc + 1 }) frame)
  refine ⟨t, run, by rw [became], memory, quiet, by rw [became]; rfl, by rw [became]; rfl, ?_, ?_, fun k => ?_⟩
  · rw [became]
    exact Table.get_set_same ..
  · rw [became]
    exact get_uactive_banked q w table
  · rw [became]
    exact sreg_loadTable q w table k

theorem vxTld_refuses_builtin {s : State} {u : SquareId} {w : Nat} (here : standsAt s u 2 0x24 w)
    (written : (s.sq u.val).regsReady [bits w 42 5, bits w 47 5] = true)
    (form : vxFormOk w ([(42, 5), (68, 4), (85, 1)] ++ if w.testBit 85 = true then [(47, 5)] else []) false = true)
    (aligned : ((s.sq u.val).sreg (bits w 42 5)).toNat % 32 = 0) (builtin : bits w 68 4 < 7) :
    ∃ t, exec (.vxTld u) s = .next t ∧ faultedAt s t u 2 (s.sq u.val).insAddr :=
  vxFaults (regs := fun w => [bits w 42 5, bits w 47 5]) rfl (by decide) here written
    (vxMemCheck_of_readOnly form (bne_iff_ne.mpr (Nat.ne_of_lt builtin)) aligned (decide_eq_true builtin) ..)

/-- A vector instruction that only stores bytes in the cistern. -/
theorem writeCistern_advance (s : State) (u : SquareId) (off : Nat) (bs : List Byte) :
    let q := s.sq u.val
    let t := ((s.writeCistern u.val off bs).count u.val 3 1).advance u.val
    t.sq u.val = { q with pc := q.pc + 1 } ∧ silent s t ∧ t.bytes (q.cisternAt u.val off) bs.length = bs ∧
      sameMemoryBut s t (q.cisternAt u.val off) bs.length := by
  intro q t
  obtain ⟨square, -, quiet, memory⟩ := squareBecomes_count_advance (s.writeCistern u.val off bs) u.val 3 1
  exact ⟨square, quiet, (memory.bytes ..).trans (State.store_bytes ..),
    fun b outside => (memory b).trans (State.store_sameMemoryBut s _ _ b outside)⟩

theorem exec_vxTst {s : State} {u : SquareId} {w : Nat} (here : standsAt s u 2 0x25 w)
    (written : (s.sq u.val).regsReady [vxSS w] = true)
    (clear : s.vxMemCheck u.val w [fSS, fSlot] (vxSlot w != 7) false imageBytes false
      ((s.sq u.val).badTab.any (fun e => e.1 / 1024 == (s.sq u.val).activeBank (vxSlot w))) = none) :
    exec (.vxTst u) s = .next (((s.writeCistern u.val ((s.sq u.val).sreg (vxSS w)).toNat
      (imageOfTable ((s.sq u.val).tableOf (vxSlot w)))).count u.val 3 1).advance u.val) :=
  congrArg Host.Outcome.next (vxIssue_of_ready (regs := fun w => [vxSS w]) here written (by decide) clear
    (fun w => s.writeCistern u.val ((s.sq u.val).sreg (vxSS w)).toNat (imageOfTable ((s.sq u.val).tableOf (vxSlot w)))))

theorem vxTst_stores_image {s : State} {u : SquareId} {w : Nat} (here : standsAt s u 2 0x25 w)
    (written : (s.sq u.val).regsReady [bits w 42 5] = true) (form : vxFormOk w [(42, 5), (68, 4)] false = true)
    (listed : bits w 68 4 ≠ 7) :
    let q := s.sq u.val
    let off := (q.sreg (bits w 42 5)).toNat
    off % 32 = 0 → off + 6176 ≤ q.allotSize → (∀ e ∈ q.badTab, e.1 / 1024 ≠ q.activeBank (bits w 68 4)) →
    ∃ t, exec (.vxTst u) s = .next t ∧ t.sq u.val = { q with pc := q.pc + 1 } ∧ silent s t ∧
      t.bytes (q.cisternAt u.val off) 6176 = imageOfTable (q.tableOf (bits w 68 4)) ∧
      sameMemoryBut s t (q.cisternAt u.val off) 6176 := by
  intro q off aligned fits sound
  have unmarked : q.badTab.any (fun e => e.1 / 1024 == q.activeBank (bits w 68 4)) = false := by simpa using sound
  have clear : s.vxMemCheck u.val w [fSS, fSlot] (vxSlot w != 7) false imageBytes false
      (q.badTab.any (fun e => e.1 / 1024 == q.activeBank (vxSlot w))) = none :=
    (vxMemCheck_eq_none ..).mpr ⟨⟨form, bne_iff_ne.mpr listed⟩, aligned, rfl, fits, nofun, unmarked⟩
  obtain ⟨square, quiet, stored, frame⟩ := writeCistern_advance s u off (imageOfTable (q.tableOf (bits w 68 4)))
  rw [length_imageOfTable] at stored frame
  exact ⟨_, exec_vxTst here written clear, square, quiet, stored, frame⟩

/-- Settles O18: evaluation lane by lane, the load of the idle bank or its refusal, and the store of the active table's image. -/
theorem functionTablesWork : Obligations.FunctionTablesWork := by
  unfold Obligations.FunctionTablesWork
  refine ⟨fun s u w ready => vxSfn_evaluates_lanes ready, fun s u w here written form => ?tld,
    fun s u w here written form listed => vxTst_stores_image here written form listed⟩
  case tld =>
    intro q off slot table pass aligned fits sound
    exact ⟨vxTld_loads_bank here written form aligned fits sound, vxTld_refuses_builtin here written form aligned⟩

end Sys2Proof.Proofs

/-! Row extremes and row sums, and O19 (R80, R85). -/

namespace Sys2Proof.Proofs
open Sys2Proof Sys2Proof.Machine

/-! Rows of lanes. -/

section
variable {wc : Nat}

theorem rowWidth_pos (wc : Nat) : 0 < rowWidth wc := Nat.mul_pos (by decide) (Nat.two_pow_pos wc)

/-- The rows of a register hold its 512 lanes (R80). -/
theorem rowWidth_mul_rows (narrow : wc ≤ 4) : rowWidth wc * (512 / rowWidth wc) = 512 := by
  unfold rowWidth
  interval_cases wc <;> rfl

theorem div_rowWidth_lt (narrow : wc ≤ 4) {l : Nat} (hl : l < 512) : l / rowWidth wc < 512 / rowWidth wc := by
  rw [Nat.div_lt_iff_lt_mul (rowWidth_pos wc), Nat.mul_comm, rowWidth_mul_rows narrow]
  exact hl

theorem spreadRows_map (narrow : wc ≤ 4) (f : Nat → Word) :
    spreadRows wc ((upto (512 / rowWidth wc)).map f) = (upto 512).map (fun l => f (l / rowWidth wc)) := by
  have rows := flatten_rows (512 / rowWidth wc) (rowWidth wc) (fun l => f (l / rowWidth wc))
  rw [rowWidth_mul_rows narrow] at rows
  rw [spreadRows, List.map_map, ← rows]
  refine congrArg _ (List.map_congr_left (fun g _ => (replicate_eq_map ..).trans (List.map_congr_left (fun k hk => ?_))))
  rw [div_of_chunk (List.mem_range.mp hk)]

end

/-- The lanes of row g of a row operation, register by register (R80). -/
def rowLanes (q : Square) (w g : Nat) : List Word :=
  ((upto (bits w 55 7)).map (fun r => (upto (32 * 2 ^ bits w 52 3)).map (fun j =>
    q.lane (bits w 16 6 + r) (g * (32 * 2 ^ bits w 52 3) + j)))).flatten

theorem rowsOf_eq_map (q : Square) (w : Nat) :
    q.rowsOf (vxVA w) (vxWC w) (vxNReg w) = (upto (512 / rowWidth (vxWC w))).map (rowLanes q w) := by
  simp only [Square.rowsOf, getList_eq_map, Nat.add_assoc]
  rfl

theorem inRow_iff (q : Square) (w g : Nat) (x : Int) : inRow q w g x ↔ x ∈ (rowLanes q w g).map sint := by
  simp only [inRow, rowLanes, List.mem_map, List.mem_flatten, upto, List.mem_range, sint]
  constructor
  · rintro ⟨r, j, hr, hj, rfl⟩
    exact ⟨_, ⟨_, ⟨r, hr, rfl⟩, List.mem_map.mpr ⟨j, List.mem_range.mpr hj, rfl⟩⟩, rfl⟩
  · rintro ⟨v, ⟨_, ⟨r, hr, rfl⟩, hv⟩, rfl⟩
    obtain ⟨j, hj, rfl⟩ := List.mem_map.mp hv
    exact ⟨r, j, hr, List.mem_range.mp hj, rfl⟩

theorem rowLanes_sum (q : Square) (w g : Nat) (f : Int → Int) :
    sumI ((rowLanes q w g).map (fun v => f (sint v))) = rowSum q w g f := by
  simp only [sumI_eq_sum, rowLanes, rowSum, List.map_flatten, List.sum_flatten, List.map_map, Function.comp_def]
  rfl

/-! Extremes. -/

theorem foldInts_max {xs : List Int} (nonempty : xs ≠ []) : foldInts max xs ∈ xs ∧ ∀ x ∈ xs, x ≤ foldInts max xs := by
  cases xs with
  | nil => exact absurd rfl nonempty
  | cons x xs => exact List.max?_eq_some_iff.mp rfl

theorem foldInts_min {xs : List Int} (nonempty : xs ≠ []) : foldInts min xs ∈ xs ∧ ∀ x ∈ xs, foldInts min xs ≤ x := by
  cases xs with
  | nil => exact absurd rfl nonempty
  | cons x xs => exact List.min?_eq_some_iff.mp rfl

/-! Pairs of lanes. -/

theorem ofI32_append_asr (x : Int) : ofI32 (asr x 32) ++ ofI32 x = BitVec.ofInt 64 x := by
  apply BitVec.eq_of_toNat_eq
  simp only [ofI32, asr, BitVec.toNat_append, BitVec.toNat_ofInt]
  rw [← Nat.shiftLeft_add_eq_or_of_lt (by omega), Nat.shiftLeft_eq]
  omega

theorem toInt_pair_clamp64 (x : Int) : (ofI32 (asr (clamp64 x) 32) ++ ofI32 (clamp64 x)).toInt = clamp64 x := by
  rw [ofI32_append_asr]
  exact BitVec.toInt_ofInt_eq_self (by decide) (by unfold clamp64; omega) (by unfold clamp64; omega)

theorem satI64_eq (x : Int) : satI64 x = (clamp64 x, decide (clamp64 x ≠ x)) := by
  have same : clampI (-9223372036854775808) 9223372036854775807 x = clamp64 x := by
    unfold clampI clamp64
    omega
  simp only [satI64, same]

/-! Row extremes. -/

theorem rowOk_iff (va wc n : Nat) : rowOk va wc n = true ↔ (wc ≤ 4 ∧ 1 ≤ n ∧ n ≤ 64) ∧ va + n ≤ 64 := by
  simp [rowOk]

theorem rowLanes_ne_nil (q : Square) {w : Nat} (nonempty : 1 ≤ bits w 55 7) (g : Nat) : (rowLanes q w g).map sint ≠ [] := by
  have first := (inRow_iff q w g _).mp ⟨0, 0, nonempty, rowWidth_pos _, rfl⟩
  exact List.ne_nil_of_mem first

theorem toInt_ofI32_of_inRow {q : Square} {w g : Nat} {x : Int} (row : inRow q w g x) : (ofI32 x).toInt = x := by
  obtain ⟨r, j, -, -, rfl⟩ := row
  exact sint_ofI32 (isI32_sint _)

theorem natAbs_le_of_inRow {q : Square} {w g : Nat} {x : Int} (row : inRow q w g x) : x.natAbs ≤ 2147483648 := by
  obtain ⟨r, j, -, -, rfl⟩ := row
  have := isI32_sint (q.lane (bits w 16 6 + r) (g * (32 * 2 ^ bits w 52 3) + j))
  unfold isI32 sint at this
  omega

section
variable (q : Square) {w : Nat} (nonempty : 1 ≤ bits w 55 7) (g : Nat)
include nonempty

theorem rowMax_spec : let y := ofI32 (foldInts max ((rowLanes q w g).map sint))
    inRow q w g y.toInt ∧ ∀ x, inRow q w g x → x ≤ y.toInt := by
  obtain ⟨mem, most⟩ := foldInts_max (rowLanes_ne_nil q nonempty g)
  have row := (inRow_iff q w g _).mpr mem
  intro y
  rw [toInt_ofI32_of_inRow row]
  exact ⟨row, fun x hx => most x ((inRow_iff q w g x).mp hx)⟩

theorem rowMin_spec : let y := ofI32 (foldInts min ((rowLanes q w g).map sint))
    inRow q w g y.toInt ∧ ∀ x, inRow q w g x → y.toInt ≤ x := by
  obtain ⟨mem, least⟩ := foldInts_min (rowLanes_ne_nil q nonempty g)
  have row := (inRow_iff q w g _).mpr mem
  intro y
  rw [toInt_ofI32_of_inRow row]
  exact ⟨row, fun x hx => least x ((inRow_iff q w g x).mp hx)⟩

theorem rowMagnitude_spec : let y := ofI32 (foldInts max ((rowLanes q w g).map (fun v => ((sint v).natAbs : Int))))
    (∃ x, inRow q w g x ∧ y.toNat = x.natAbs) ∧ ∀ x, inRow q w g x → x.natAbs ≤ y.toNat := by
  have magnitudes : (rowLanes q w g).map (fun v => ((sint v).natAbs : Int)) =
      ((rowLanes q w g).map sint).map (fun x => (x.natAbs : Int)) := by
    rw [List.map_map]
    rfl
  rw [magnitudes]
  obtain ⟨mem, most⟩ := foldInts_max (xs := ((rowLanes q w g).map sint).map (fun x => (x.natAbs : Int)))
    (List.map_eq_nil_iff.not.mpr (rowLanes_ne_nil q nonempty g))
  obtain ⟨x, inside, value⟩ := List.mem_map.mp mem
  have row := (inRow_iff q w g x).mpr inside
  have small := natAbs_le_of_inRow row
  intro y
  have magnitude : y.toNat = x.natAbs := by
    simp only [y, ← value, ofI32, BitVec.ofInt_natCast, BitVec.toNat_ofNat]
    omega
  refine ⟨⟨x, row, magnitude⟩, fun x' hx' => ?_⟩
  have := most _ (List.mem_map_of_mem ((inRow_iff q w g x').mp hx'))
  omega

end

/-- What VX.RMAX, VX.RMIN or VX.RAMAX leaves in the lanes of row g. -/
def isRowExtreme (q : Square) (w op g : Nat) (y : Word) : Prop :=
  (op = 0x18 → inRow q w g y.toInt ∧ ∀ x, inRow q w g x → x ≤ y.toInt) ∧
  (op = 0x19 → inRow q w g y.toInt ∧ ∀ x, inRow q w g x → y.toInt ≤ x) ∧
  (op = 0x1A → (∃ x, inRow q w g x ∧ y.toNat = x.natAbs) ∧ ∀ x, inRow q w g x → x.natAbs ≤ y.toNat)

/-- An instruction that reduces rows writes what it makes of each row into the row's lanes. -/
theorem vxReduce_fills_rows {c : Instr} {s : State} {u : SquareId} {op w : Nat} {f : List Word → Word}
    (runs : exec c s = .next (s.vxReduce u.val op f)) (defined : op ≤ 0x25)
    (ready : vxReady s u op w [] [(10, 6), (16, 6), (52, 3), (55, 7)] false (rowOk (bits w 16 6) (bits w 52 3) (bits w 55 7))
      [(bits w 16 6, bits w 55 7)])
    (extreme : 1 ≤ bits w 55 7 → ∀ g, isRowExtreme (s.sq u.val) w op g (f (rowLanes (s.sq u.val) w g))) :
    ∃ t, exec c s = .next t ∧
      vectorWritten s t u (bits w 10 6) (fun l => (t.sq u.val).lane (bits w 10 6) l) (fun _ => false) ∧
      ∀ l, l < 512 → isRowExtreme (s.sq u.val) w op (l / rowWidth (bits w 52 3)) ((t.sq u.val).lane (bits w 10 6) l) := by
  obtain ⟨here, written, clear⟩ := ready
  obtain ⟨⟨-, range⟩, -⟩ := (vxChecks_eq_none ..).mp clear
  obtain ⟨⟨narrow, nonempty, -⟩, -⟩ := (rowOk_iff ..).mp range
  obtain ⟨t, run, lanes, frame⟩ := vectorWritten_of_lanes runs defined
    (res := fun l => f (rowLanes (s.sq u.val) w (l / rowWidth (bits w 52 3))))
    (by rw [rowsOf_eq_map, List.map_map]; exact spreadRows_map narrow _) here written clear
  refine ⟨t, run, ⟨fun _ _ => rfl, frame⟩, fun l hl => ?_⟩
  rw [lanes l hl]
  exact extreme nonempty _

theorem rowExtremes_fill_rows : rowExtremesFillRows := by
  intro s u w c op listed ready
  simp only [List.mem_cons, Prod.mk.injEq, List.not_mem_nil, or_false] at listed
  obtain ⟨rfl, rfl⟩ | ⟨rfl, rfl⟩ | ⟨rfl, rfl⟩ := listed
  · exact vxReduce_fills_rows (c := .vxRmax u) rfl (by decide) ready
      (fun nonempty g => ⟨fun _ => rowMax_spec _ nonempty g, nofun, nofun⟩)
  · exact vxReduce_fills_rows (c := .vxRmin u) rfl (by decide) ready
      (fun nonempty g => ⟨nofun, fun _ => rowMin_spec _ nonempty g, nofun⟩)
  · exact vxReduce_fills_rows (c := .vxRamax u) rfl (by decide) ready
      (fun nonempty g => ⟨nofun, nofun, fun _ => rowMagnitude_spec _ nonempty g⟩)

/-! Row sums. -/

theorem lane_orOut (q : Square) (b : Bool) (v l : Nat) : (q.orOut b).lane v l = q.lane v l := rfl

theorem setLanes_pair_orOut_frame (q : Square) (v x : Nat) (ws ys : List Word) (b : Bool) :
    let p := ((q.setLanes v ws).setLanes x ys).orOut b
    p = { q with vreg := p.vreg, badLane := p.badLane, outSat := p.outSat } := rfl

section
variable (q : Square) (w : Nat) (f : Int → Int)

/-- The exact value of the pair of row g, with ACC on top of what its first lane held (R85). -/
def rowTotal (g : Nat) : Int :=
  (if w.testBit 85 = true then
    (q.lane (bits w 10 6 + 1) (g * rowWidth (bits w 52 3)) ++ q.lane (bits w 10 6) (g * rowWidth (bits w 52 3))).toInt else 0) +
    rowSum q w g f

/-- The pairs of all rows, each clamped and with whether the clamp acted. -/
def rowPairs : List (Int × Bool) := (upto (512 / rowWidth (vxWC w))).map (fun g => satI64 (rowTotal q w f g))

/-- The square once the pairs are written to VD and VD + 1 (R85). -/
def putPairs : Square :=
  ((q.setLanes (vxVD w) (spreadRows (vxWC w) ((rowPairs q w f).map (fun r => ofI32 r.1)))).setLanes (vxVD w + 1)
    (spreadRows (vxWC w) ((rowPairs q w f).map (fun r => ofI32 (asr r.1 32))))).orOut ((rowPairs q w f).any Prod.snd)

theorem rowPairs_eq {lane : Nat → Word → Int} (lanewise : ∀ v, lane w v = f (sint v)) :
    (List.zipWith (· + ·)
      ((upto (512 / rowWidth (vxWC w))).map (fun g => if vxFlag w then
        pairInt (q.lane (vxVD w) (g * rowWidth (vxWC w))) (q.lane (vxVD w + 1) (g * rowWidth (vxWC w))) else 0))
      ((q.rowsOf (vxVA w) (vxWC w) (vxNReg w)).map (fun r => sumI (r.map (lane w))))).map satI64 = rowPairs q w f := by
  have values : lane w = fun v => f (sint v) := funext lanewise
  rw [rowsOf_eq_map, List.map_map, zipWith_map_upto, List.map_map, values]
  refine List.map_congr_left (fun g _ => ?_)
  simp only [Function.comp_apply, rowLanes_sum]
  rfl

theorem putPairs_frame : putPairs q w f = { q with
    vreg := (putPairs q w f).vreg, badLane := (putPairs q w f).badLane, outSat := (putPairs q w f).outSat } := setLanes_pair_orOut_frame ..

theorem outSat_putPairs : (putPairs q w f).outSat = true ↔
    q.outSat = true ∨ ∃ g, g < 512 / rowWidth (bits w 52 3) ∧ clamp64 (rowTotal q w f g) ≠ rowTotal q w f g := by
  simp [putPairs, Square.orOut, Square.setLanes, rowPairs, satI64_eq, upto, vxWC]

theorem lane_putPairs (narrow : bits w 52 3 ≤ 4) (v : Nat) {l : Nat} (hl : l < 512) : (putPairs q w f).lane v l =
    if v = bits w 10 6 + 1 then ofI32 (asr (clamp64 (rowTotal q w f (l / rowWidth (bits w 52 3)))) 32)
    else if v = bits w 10 6 then ofI32 (clamp64 (rowTotal q w f (l / rowWidth (bits w 52 3)))) else q.lane v l := by
  have spread (half : Int → Word) : spreadRows (vxWC w) ((rowPairs q w f).map (fun r => half r.1)) =
      (upto 512).map (fun l => half (clamp64 (rowTotal q w f (l / rowWidth (bits w 52 3))))) := by
    rw [rowPairs, List.map_map]
    simp only [Function.comp_def, satI64_eq]
    exact spreadRows_map narrow (fun g => half (clamp64 (rowTotal q w f g)))
  rw [putPairs, lane_orOut, spread ofI32, spread (fun x => ofI32 (asr x 32)), lane_setLanes _ _ _ _ _ hl,
    lane_setLanes _ _ _ _ _ hl]
  rfl

end

/-- What VX.RSUM or VX.RSSQ does with the function of a lane's value that it sums. -/
def sumsRows (s t : State) (u : SquareId) (w : Nat) (f : Int → Int) : Prop :=
  let q := s.sq u.val
  let wd := rowWidth (bits w 52 3)
  let d := bits w 10 6
  let total := rowTotal q w f
  (∀ l, l < 512 → ((t.sq u.val).lane (d + 1) l ++ (t.sq u.val).lane d l).toInt = clamp64 (total (l / wd))) ∧
  (∀ v l, l < 512 → v ≠ d → v ≠ d + 1 → (t.sq u.val).lane v l = q.lane v l) ∧
  ((t.sq u.val).outSat = true ↔ q.outSat = true ∨ ∃ g, g < 512 / wd ∧ clamp64 (total g) ≠ total g) ∧
  t.sq u.val = { q with
    pc := q.pc + 1, vreg := (t.sq u.val).vreg, badLane := (t.sq u.val).badLane, outSat := (t.sq u.val).outSat } ∧
  (∀ v, v ≠ u.val → t.sq v = s.sq v) ∧ silent s t ∧ sameMemory s t

theorem sumsRows_of_putPairs {s t : State} {u : SquareId} {w : Nat} {f : Int → Int} (narrow : bits w 52 3 ≤ 4)
    (became : squareBecomes s t u.val { putPairs (s.sq u.val) w f with pc := (putPairs (s.sq u.val) w f).pc + 1 }) :
    sumsRows s t u w f := by
  obtain ⟨square, others, quiet, memory⟩ := became
  have lanes (v : Nat) {l : Nat} (hl : l < 512) : (t.sq u.val).lane v l = _ :=
    (congrArg (Square.lane · v l) square).trans (lane_putPairs (s.sq u.val) w f narrow v hl)
  refine ⟨fun l hl => ?_, fun v l hl low high => ?_, ?_, ?_, others, quiet, memory⟩
  · rw [lanes _ hl, lanes _ hl, if_pos rfl, if_neg (by omega), if_pos rfl]
    exact toInt_pair_clamp64 _
  · rw [lanes v hl, if_neg high, if_neg low]
  · rw [square]
    exact outSat_putPairs (s.sq u.val) w f
  · rw [square, putPairs_frame]

theorem vxPair_sums_rows {c : Instr} {s : State} {u : SquareId} {op w : Nat} {fs : List (Nat × Nat)} {extra : Nat → Bool}
    {lane : Nat → Word → Int} {f : Int → Int} (runs : exec c s = .next (s.vxPair u.val op fs extra lane)) (defined : op ≤ 0x25)
    (lanewise : ∀ v, lane w v = f (sint v))
    (ready : vxReadyFor s u op w [] ([(10, 6), (16, 6), (52, 3), (55, 7), (85, 1)] ++ fs)
      (rowOk (bits w 16 6) (bits w 52 3) (bits w 55 7) && bits w 10 6 % 2 == 0 && extra w) ((s.sq u.val).badPair w)) :
    ∃ t, exec c s = .next t ∧ sumsRows s t u w f := by
  obtain ⟨here, written, form, range, sound⟩ := ready
  obtain ⟨t, run, became⟩ := vxChangesSquare runs defined here written ((vxChecks_eq_none ..).mpr ⟨⟨form, range⟩, sound⟩)
  simp only [Bool.and_eq_true, rowOk_iff] at range
  obtain ⟨⟨⟨⟨narrow, -⟩, -⟩, -⟩, -⟩ := range
  simp only [rowPairs_eq _ w f lanewise] at became
  exact ⟨t, run, sumsRows_of_putPairs narrow became⟩

theorem rowSums_fill_pairs : rowSumsFillPairs := by
  intro s u w c op listed q acc wd d ready
  simp only [List.mem_cons, Prod.mk.injEq, List.not_mem_nil, or_false] at listed
  obtain ⟨rfl, rfl⟩ | ⟨rfl, rfl⟩ := listed
  · exact vxPair_sums_rows (c := .vxRsum u) (f := fun x => x) rfl (by decide) (fun _ => rfl) ready
  · exact vxPair_sums_rows (c := .vxRssq u) (f := fun x => rneShift x (bits w 62 6) * rneShift x (bits w 62 6)) rfl (by decide)
      (fun _ => rfl) ready

/-- Settles O19: each row's extreme goes to its lanes, and each row's pair to the lanes of two registers. -/
theorem rowInstructionsReduce : Obligations.RowInstructionsReduce := by
  unfold Obligations.RowInstructionsReduce
  exact ⟨rowExtremes_fill_rows, rowSums_fill_pairs⟩

end Sys2Proof.Proofs

/-! The field of a fountain: every product is one linear operation in the other factor (R184, R186). -/

namespace Sys2Proof.Proofs
open Sys2Proof Sys2Proof.Machine

/-! Doubling as an exclusive or. -/

theorem gfDouble_eq_xor {s : Nat} (hs : s < 2 ^ 128) :
    gfDouble servicePoly s = s <<< 1 % 2 ^ 128 ^^^ (if s.testBit 127 then servicePoly else 0) := by
  have top : s.testBit 127 = decide (2 ^ 127 ≤ s) := by
    rw [Nat.testBit_eq_decide_div_mod_eq, decide_eq_decide]
    omega
  simp only [gfDouble, top, decide_eq_true_eq, Nat.shiftLeft_eq]
  split
  · have shifted : s * 2 ^ 1 % 2 ^ 128 = 2 * (s - 2 ^ 127) := by omega
    rw [shifted]
    rfl
  · rw [Nat.xor_zero]
    omega

theorem gfDouble_lt {s : Nat} (hs : s < 2 ^ 128) : gfDouble servicePoly s < 2 ^ 128 := by
  rw [gfDouble_eq_xor hs]
  refine Nat.xor_lt_two_pow (Nat.mod_lt _ (by decide)) ?_
  split <;> decide

/-- The exclusive or of two sums of two, regrouped. -/
theorem xor_xor_comm (a b c d : Nat) : (a ^^^ b) ^^^ (c ^^^ d) = (a ^^^ c) ^^^ (b ^^^ d) := by
  rw [Nat.xor_assoc, Nat.xor_left_comm b, ← Nat.xor_assoc]

theorem ite_testBit_xor (a b i p : Nat) :
    (if (a ^^^ b).testBit i then p else 0) = (if a.testBit i then p else 0) ^^^ (if b.testBit i then p else 0) := by
  rw [Nat.testBit_xor]
  cases a.testBit i <;> cases b.testBit i <;> simp

theorem gfDouble_xor {a b : Nat} (ha : a < 2 ^ 128) (hb : b < 2 ^ 128) :
    gfDouble servicePoly (a ^^^ b) = gfDouble servicePoly a ^^^ gfDouble servicePoly b := by
  rw [gfDouble_eq_xor ha, gfDouble_eq_xor hb, gfDouble_eq_xor (Nat.xor_lt_two_pow ha hb), Nat.shiftLeft_xor_distrib,
    Nat.xor_mod_two_pow, ite_testBit_xor, xor_xor_comm]

/-! Linear operations on elements of the field. -/

/-- `F` is linear over GF(2) on the elements of the field and commutes with the product by x: it is the product by a constant. -/
structure GfLinear (F : Nat → Nat) : Prop where
  lt : ∀ {a}, a < 2 ^ 128 → F a < 2 ^ 128
  xor : ∀ {a b}, a < 2 ^ 128 → b < 2 ^ 128 → F (a ^^^ b) = F a ^^^ F b
  double : ∀ {a}, a < 2 ^ 128 → F (gfDouble servicePoly a) = gfDouble servicePoly (F a)

theorem GfLinear.map_zero {F : Nat → Nat} (linear : GfLinear F) : F 0 = 0 := by
  have := linear.xor (a := 0) (b := 0) (by decide) (by decide)
  rwa [Nat.xor_self, Nat.xor_self] at this

theorem gfLinear_gfDouble : GfLinear (gfDouble servicePoly) := ⟨gfDouble_lt, gfDouble_xor, fun _ => rfl⟩

theorem gfLinear_gfShift : ∀ n, GfLinear (gfShift servicePoly n)
  | 0 => ⟨id, fun _ _ => rfl, fun _ => rfl⟩
  | n + 1 =>
    have ih := gfLinear_gfShift n
    { lt := fun ha => ih.lt (gfDouble_lt ha)
      xor := fun ha hb => (congrArg _ (gfDouble_xor ha hb)).trans (ih.xor (gfDouble_lt ha) (gfDouble_lt hb))
      double := fun ha => ih.double (gfDouble_lt ha) }

theorem gfShift_add (poly m n s : Nat) : gfShift poly (m + n) s = gfShift poly n (gfShift poly m s) := by
  induction m generalizing s with
  | zero => rw [Nat.zero_add, gfShift]
  | succ m ih => rw [Nat.succ_add, gfShift, ih, gfShift]

/-! Products. -/

/-- What bit `n` of `b` adds to a product with `a`. -/
def gfTerm (a b n : Nat) : Nat := if b.testBit n then a else 0

theorem gfTerm_lt {a : Nat} (b n : Nat) (ha : a < 2 ^ 128) : gfTerm a b n < 2 ^ 128 := by
  unfold gfTerm
  split
  · exact ha
  · decide

theorem gfTerm_xor (a a' b n : Nat) : gfTerm (a ^^^ a') b n = gfTerm a b n ^^^ gfTerm a' b n := by
  unfold gfTerm
  split
  · rfl
  · rfl

theorem GfLinear.map_gfTerm {F : Nat → Nat} (linear : GfLinear F) (a b n : Nat) : F (gfTerm a b n) = gfTerm (F a) b n := by
  unfold gfTerm
  split
  · rfl
  · exact linear.map_zero

theorem gfMulFrom_succ (poly a b n acc : Nat) :
    gfMulFrom poly a b (n + 1) acc = gfMulFrom poly a b n (gfDouble poly acc ^^^ gfTerm a b n) := by
  rw [gfMulFrom, gfTerm]
  split
  · rfl
  · rw [Nat.xor_zero]

theorem horner_lt {a acc : Nat} (b n : Nat) (ha : a < 2 ^ 128) (hacc : acc < 2 ^ 128) :
    gfDouble servicePoly acc ^^^ gfTerm a b n < 2 ^ 128 := Nat.xor_lt_two_pow (gfDouble_lt hacc) (gfTerm_lt b n ha)

theorem gfMulFrom_lt {a : Nat} (b n : Nat) (ha : a < 2 ^ 128) {acc : Nat} (hacc : acc < 2 ^ 128) :
    gfMulFrom servicePoly a b n acc < 2 ^ 128 := by
  induction n generalizing acc with
  | zero => exact hacc
  | succ n ih =>
    rw [gfMulFrom_succ]
    exact ih (horner_lt b n ha hacc)

theorem gfMulFrom_xor {a a' : Nat} (b n : Nat) (ha : a < 2 ^ 128) (ha' : a' < 2 ^ 128) {acc acc' : Nat} (hacc : acc < 2 ^ 128)
    (hacc' : acc' < 2 ^ 128) : gfMulFrom servicePoly (a ^^^ a') b n (acc ^^^ acc') =
      gfMulFrom servicePoly a b n acc ^^^ gfMulFrom servicePoly a' b n acc' := by
  induction n generalizing acc acc' with
  | zero => rfl
  | succ n ih =>
    rw [gfMulFrom_succ, gfMulFrom_succ, gfMulFrom_succ, gfDouble_xor hacc hacc', gfTerm_xor, xor_xor_comm,
      ih (horner_lt b n ha hacc) (horner_lt b n ha' hacc')]

theorem GfLinear.map_gfMulFrom {F : Nat → Nat} (linear : GfLinear F) {a : Nat} (b n : Nat) (ha : a < 2 ^ 128) {acc : Nat}
    (hacc : acc < 2 ^ 128) : F (gfMulFrom servicePoly a b n acc) = gfMulFrom servicePoly (F a) b n (F acc) := by
  induction n generalizing acc with
  | zero => rfl
  | succ n ih =>
    rw [gfMulFrom_succ, gfMulFrom_succ, ih (horner_lt b n ha hacc), linear.xor (gfDouble_lt hacc) (gfTerm_lt b n ha),
      linear.double hacc, linear.map_gfTerm]

theorem GfLinear.map_gfMul {F : Nat → Nat} (linear : GfLinear F) {a : Nat} (b : Nat) (ha : a < 2 ^ 128) :
    F (gfMul servicePoly a b) = gfMul servicePoly (F a) b := by
  rw [gfMul, gfMul, linear.map_gfMulFrom b 128 ha (by decide), linear.map_zero]

theorem gfMul_xor {a a' : Nat} (b : Nat) (ha : a < 2 ^ 128) (ha' : a' < 2 ^ 128) :
    gfMul servicePoly (a ^^^ a') b = gfMul servicePoly a b ^^^ gfMul servicePoly a' b := by
  have := gfMulFrom_xor b 128 ha ha' (acc := 0) (acc' := 0) (by decide) (by decide)
  rwa [Nat.xor_self] at this

theorem gfLinear_gfMul (b : Nat) : GfLinear (gfMul servicePoly · b) where
  lt ha := gfMulFrom_lt b 128 ha (by decide)
  xor := gfMul_xor b
  double ha := (gfLinear_gfDouble.map_gfMul b ha).symm

/-- Horner's way from the upper bits of `b` rebuilds `b`, since nothing is reduced. -/
theorem gfMulFrom_one {b : Nat} (n : Nat) (hb : b < 2 ^ 128) : gfMulFrom servicePoly 1 b n (b / 2 ^ n) = b := by
  induction n with
  | zero => exact Nat.div_one b
  | succ n ih =>
    have half : b / 2 ^ (n + 1) = b / 2 ^ n / 2 := by rw [pow_succ, Nat.div_div_eq_div_mul]
    have small : b / 2 ^ n < 2 ^ 128 := (Nat.div_le_self ..).trans_lt hb
    have bit : gfTerm 1 b n = b / 2 ^ n % 2 := by
      rw [gfTerm, ← Nat.toNat_testBit]
      cases b.testBit n <;> rfl
    have double : gfDouble servicePoly (b / 2 ^ n / 2) = 2 * (b / 2 ^ n / 2) := if_neg (by omega)
    have digit : 2 * (b / 2 ^ n / 2) ^^^ b / 2 ^ n % 2 = b / 2 ^ n := by
      obtain even | odd := Nat.mod_two_eq_zero_or_one (b / 2 ^ n)
      · rw [even, Nat.xor_zero]
        omega
      · rw [odd, Nat.xor_one_of_even (even_two_mul _)]
        omega
    rw [gfMulFrom_succ, half, bit, double, digit, ih]

theorem gfMul_one_left {b : Nat} (hb : b < 2 ^ 128) : gfMul servicePoly 1 b = b := by
  have := gfMulFrom_one 128 hb
  rwa [Nat.div_eq_of_lt hb] at this

/-- A linear operation is the product by its value at 1. -/
theorem GfLinear.eq_gfMul {F : Nat → Nat} (linear : GfLinear F) {s : Nat} (hs : s < 2 ^ 128) : F s = gfMul servicePoly (F 1) s := by
  rw [← linear.map_gfMul s (by decide), gfMul_one_left hs]

theorem gfMul_comm {a b : Nat} (ha : a < 2 ^ 128) (hb : b < 2 ^ 128) : gfMul servicePoly a b = gfMul servicePoly b a := by
  have := (gfLinear_gfMul b).eq_gfMul ha
  rwa [gfMul_one_left hb] at this

/-- The product by x^e is e doublings. -/
theorem gfMul_gfShift_one {s : Nat} (hs : s < 2 ^ 128) (e : Nat) :
    gfMul servicePoly s (gfShift servicePoly e 1) = gfShift servicePoly e s := by
  rw [gfMul_comm hs ((gfLinear_gfShift e).lt (by decide)), ← (gfLinear_gfShift e).eq_gfMul hs]

end Sys2Proof.Proofs

/-! Jumps and steps of a fountain, and O25 (R186 to R188). -/

namespace Sys2Proof.Proofs
open Sys2Proof Sys2Proof.Machine

/-- A jump with the parameters from x^e on takes `n` times `e` doublings. -/
theorem jumpFrom_eq_gfShift (f : Nat) {n : Nat} (e : Nat) {s : Nat} (hn : n < 2 ^ f) (hs : s < 2 ^ 128) :
    jumpFrom f n (gfShift servicePoly e 1) s = gfShift servicePoly (e * n) s := by
  induction f generalizing n e s with
  | zero =>
    obtain rfl : n = 0 := Nat.lt_one_iff.mp hn
    rfl
  | succ f ih =>
    have half : n / 2 < 2 ^ f := by omega
    have square : gfMul servicePoly (gfShift servicePoly e 1) (gfShift servicePoly e 1) = gfShift servicePoly (e + e) 1 := by
      rw [gfMul_gfShift_one ((gfLinear_gfShift e).lt (by decide)), gfShift_add]
    have halves : e * n = e * (n % 2) + (e + e) * (n / 2) := by
      calc e * n = e * (n % 2 + 2 * (n / 2)) := by rw [Nat.mod_add_div]
        _ = e * (n % 2) + (e + e) * (n / 2) := by ring
    rw [jumpFrom, square, gfMul_gfShift_one hs]
    split
    · next zero => rw [zero, Nat.mul_zero, gfShift]
    · split
      · next odd => rw [ih _ half ((gfLinear_gfShift e).lt hs), halves, odd, Nat.mul_one, gfShift_add]
      · next even => rw [ih _ half hs, halves, Nat.mod_two_ne_one.mp even, Nat.mul_zero, Nat.zero_add]

theorem startState_lt (seed : BitVec 128) : startState seed.toNat < 2 ^ 128 := by
  unfold startState
  split
  · decide
  · exact seed.isLt

/-- The state of step `n`, reached by jumping, is that after `n` steps by x^32 (R186). -/
theorem jumped_eq_gfShift (seed : BitVec 128) {n : Nat} (hn : n < 2 ^ 128) :
    jumped seed.toNat n = gfShift servicePoly (32 * n) (startState seed.toNat) := by
  have x32 : 2 ^ 32 = gfShift servicePoly 32 1 := by decide
  rw [jumped, x32, jumpFrom_eq_gfShift 128 32 hn (startState_lt seed)]

theorem jumped_add (seed : BitVec 128) {n l : Nat} (within : n + l < 2 ^ 128) :
    gfShift servicePoly (32 * l) (jumped seed.toNat n) = jumped seed.toNat (n + l) := by
  rw [jumped_eq_gfShift seed (by omega), jumped_eq_gfShift seed within, ← gfShift_add, Nat.mul_add]

theorem positionedStates_eq_map (n s : Nat) :
    positionedStates n s = (upto n).map (fun l => gfShift servicePoly (32 * l) s) := by
  induction n generalizing s with
  | zero => rfl
  | succ n ih =>
    have shift (l : Nat) : gfShift servicePoly (32 * (l + 1)) s = gfShift servicePoly (32 * l) (gfShift servicePoly 32 s) := by
      rw [← gfShift_add, Nat.mul_succ, Nat.add_comm]
    simp only [positionedStates, upto_succ, List.map_cons, List.map_map, Function.comp_def, shift, ih, gfShift]

theorem positionedWords_getD {n l : Nat} (seed j k : Nat) (hl : l < n) :
    (positionedWords seed j k n).getD l 0 = temper (gfShift servicePoly (32 * l) (jumped seed (j * 2 ^ 96 + k))) := by
  rw [positionedWords, positionedStates_eq_map, List.map_map, upto, List.getD_eq_getElem _ _ (by simpa using hl), List.getElem_map,
    List.getElem_range, Function.comp_apply]

/-- Settles O25: a jump is as many doublings as the steps it skips, and so is a row of steps. -/
theorem positionedWordsDependOnOffsetAlone : Obligations.PositionedWordsDependOnOffsetAlone := by
  unfold Obligations.PositionedWordsDependOnOffsetAlone
  intro seed j k l hj hk hl
  rw [positionedWords_getD _ _ _ hl, fountainWord, jumped_add seed (by omega), Nat.add_assoc]

end Sys2Proof.Proofs

/-! Reads of a fused command at this module's memory (R291, R293), and what they leave alone. -/

namespace Sys2Proof.Proofs
open Sys2Proof Sys2Proof.Machine

theorem homeRead_of_sound {s : State} {a n : Nat} (sound : s.parityOf a n = 0) :
    s.homeRead a n = (s.countHomes a 0 n, .ok (s.bytes a n)) := by
  simp [State.homeRead, sound]

/-- An access whose checks pass, and that is of memory, goes to its home. -/
theorem localAccess_memory {s : State} {unit part a : Nat} {k : AccessKind} {bulk : Bool} (noReg : placeOf s.isM a ≠ .reg)
    (noHost : placeOf s.isM a ≠ .host) (pass : s.checkAcc (accFor unit part a k bulk) = 0) :
    s.localAccess unit part a k bulk = (s.carryAcc (accFor unit part a k bulk)).memAccess a k := by
  unfold State.localAccess
  split
  · contradiction
  · contradiction
  · simp [pass]

theorem readsAs_of_onlyCounts {s t : State} (h : onlyCounts s t) {unit part g n : Nat} {bulk : Bool} {bs : List Byte}
    (reads : readsAs s unit part g n bulk bs) : readsAs t unit part g n bulk bs := by
  rw [h]
  exact reads

/-- A readable range is read at once, and the reading moves counters alone. -/
theorem farAccess_of_readsAs {s : State} {unit part g n : Nat} {bulk : Bool} {bs : List Byte} (reads : readsAs s unit part g n bulk bs)
    (o : FarOwner) (x : Txn) : ∃ t, onlyCounts s t ∧ s.farAccess o unit part g (.load n) bulk x = (t, .ok bs) := by
  obtain ⟨here, noReg, noHost, pass, sound, rfl⟩ := reads
  have carried := onlyCounts_carryAcc s ⟨unit, part, g % 2 ^ 44, n, .read, bulk⟩
  have found : s.localAccess unit part (g % 2 ^ 44) (.load n) bulk = _ := localAccess_memory noReg noHost pass
  generalize hv : s.carryAcc ⟨unit, part, g % 2 ^ 44, n, .read, bulk⟩ = v at carried
  have sound' : v.parityOf (g % 2 ^ 44) n = 0 := by rw [carried]; exact sound
  have same : v.bytes (g % 2 ^ 44) n = s.bytes (g % 2 ^ 44) n := by rw [carried]; rfl
  have read : s.localAccess unit part (g % 2 ^ 44) (.load n) bulk = (v.countHomes (g % 2 ^ 44) 0 n, .ok (s.bytes (g % 2 ^ 44) n)) := by
    rw [found, accFor, hv, State.memAccess, homeRead_of_sound sound', same]
  refine ⟨v.countHomes (g % 2 ^ 44) 0 n, carried.trans (onlyCounts_countHomes v _ 0 n), ?_⟩
  simp only [State.farAccess, here, if_true, read]

theorem readFar_of_readsAs {s : State} {unit part g n : Nat} {bs : List Byte} (reads : readsAs s unit part g n true bs) (o : FarOwner) :
    ∃ t, onlyCounts s t ∧ s.readFar o unit part g n = (t, .ok bs) := by
  rw [State.readFar, if_pos reads.1]
  exact farAccess_of_readsAs reads o {}

theorem cmdRead_of_readsAs {s : State} {l : Launch} {u g n : Nat} {bs : List Byte} (reads : readsAs s u l.part g n true bs)
    (o : FarOwner) (f : State → List Byte → State) : ∃ t, onlyCounts s t ∧ s.cmdRead o l u g n f = f t bs := by
  obtain ⟨t, counts, read⟩ := readFar_of_readsAs reads o
  exact ⟨t, counts, by rw [State.cmdRead, read]⟩

theorem cmdReads_of_readsAs {l : Launch} {u : Nat} {xs : List (Nat × Nat)} (o : FarOwner) (f : State → List (List Byte) → State)
    {s : State} (got : List (List Byte))
    (reads : ∀ x, x ∈ xs → readsAs s u l.part x.1 x.2 true (s.bytes (x.1 % 2 ^ 44) x.2)) :
    ∃ t, onlyCounts s t ∧ s.cmdReads o l u f xs got = f t (got ++ xs.map (fun x => s.bytes (x.1 % 2 ^ 44) x.2)) := by
  induction xs generalizing s got with
  | nil => exact ⟨s, onlyCounts.refl s, by simp [State.cmdReads]⟩
  | cons x xs ih =>
    obtain ⟨v, counts, read⟩ := readFar_of_readsAs (reads x (List.mem_cons_self ..)) o
    have same (y : Nat × Nat) : v.bytes (y.1 % 2 ^ 44) y.2 = s.bytes (y.1 % 2 ^ 44) y.2 := by rw [counts]; rfl
    obtain ⟨t, more, rest⟩ := ih (s := v) (got ++ [s.bytes (x.1 % 2 ^ 44) x.2])
      (fun y hy => same y ▸ readsAs_of_onlyCounts counts (reads y (List.mem_cons_of_mem _ hy)))
    refine ⟨t, counts.trans more, ?_⟩
    simp only [State.cmdReads, read, rest, same, List.append_assoc, List.map_cons, List.singleton_append]

/-- The raw bytes of a page are read as those of any other range. -/
theorem readPage_of_rawPage {s : State} {u : Nat} {l : Launch} {a : Attn} {g n : Nat} {bs : List Byte}
    (raw : rawPage s u l a.desc g n bs) (w : WorkItem) (f : State → List Byte → State) :
    ∃ t, onlyCounts s t ∧ s.readPage l a u w g n f = f t bs := by
  obtain ⟨rs, regions, taken, stored, reads⟩ := raw
  obtain ⟨t, counts, read⟩ := cmdRead_of_readsAs reads (itemOwner l w) f
  exact ⟨t, counts, by simp [State.readPage, reads.1, regions, taken, stored, read, -Nat.reducePow]⟩

/-! States that differ in the progress of commands. -/

/-- Besides its counters, its launches and the far accesses noted, the state is unchanged. -/
def onlyProgress (s t : State) : Prop := t = { s with ctr := t.ctr, launches := t.launches, far := t.far }

theorem onlyCounts.onlyProgress {s t : State} (h : onlyCounts s t) : onlyProgress s t := by
  unfold onlyCounts at h
  rw [h]
  rfl

theorem onlyProgress.refl (s : State) : onlyProgress s s := rfl

theorem onlyProgress.symm {s t : State} (h : onlyProgress s t) : onlyProgress t s := by
  unfold Proofs.onlyProgress at *
  rw [h]

theorem onlyProgress.trans {s t v : State} (h : onlyProgress s t) (k : onlyProgress t v) : onlyProgress s v := by
  unfold Proofs.onlyProgress at *
  rw [k, h]

theorem onlyProgress_itemDone (s : State) (l : Launch) (w : WorkItem) (f : ItemState → ItemState) : onlyProgress s (s.itemDone l w f) := rfl

theorem onlyProgress_modItem (s : State) (id : Nat) (w : WorkItem) (f : ItemState → ItemState) : onlyProgress s (s.modItem id w f) := rfl

theorem onlyCounts_accRead (s : State) (x : Acc) : onlyCounts s (s.accRead x).1 := by
  unfold State.accRead
  extract_lets c
  split
  · exact onlyCounts.refl s
  · exact (onlyCounts_carryAcc s x).trans (onlyCounts_homeRead _ _ _)

section
variable {s t : State} {u : Nat} (h : onlyProgress s t)
include h

theorem onlyProgress.squares : t.squares = s.squares := by rw [h]
theorem onlyProgress.elog : t.elog = s.elog := by rw [h]
theorem onlyProgress.isM : t.isM = s.isM := by rw [h]
theorem onlyProgress.sameMemory : sameMemory s t := by rw [h]; exact sameMemory.of_mem rfl
theorem onlyProgress.recordAddr (g : Nat) : t.recordAddr g = s.recordAddr g := by rw [h]; rfl
theorem onlyProgress.bytes (a n : Nat) : t.bytes a n = s.bytes a n := h.sameMemory.bytes a n
theorem onlyProgress.time : t.time = s.time := by rw [h]
theorem onlyProgress.sq (u : Nat) : t.sq u = s.sq u := by rw [h]; rfl

theorem onlyProgress.homeRead (a n : Nat) : (t.homeRead a n).2 = (s.homeRead a n).2 := by
  have marks : t.parityOf a n = s.parityOf a n := by rw [h]; rfl
  unfold State.homeRead
  simp only [h.isM, marks, h.bytes, apply_ite Prod.snd]

theorem onlyProgress.accRead (x : Acc) : (t.accRead x).2 = (s.accRead x).2 ∧ onlyProgress (s.accRead x).1 (t.accRead x).1 := by
  refine ⟨?_, ((onlyCounts_accRead s x).onlyProgress.symm.trans h).trans (onlyCounts_accRead t x).onlyProgress⟩
  have carried : onlyProgress (s.carryAcc x) (t.carryAcc x) :=
    ((onlyCounts_carryAcc s x).onlyProgress.symm.trans h).trans (onlyCounts_carryAcc t x).onlyProgress
  have check : t.checkAcc x = s.checkAcc x := by rw [h]; rfl
  unfold State.accRead
  rw [check]
  dsimp only
  split
  · rfl
  · exact carried.homeRead _ _

theorem onlyProgress.readsAs {unit part g n : Nat} {bulk : Bool} {bs : List Byte} (reads : readsAs s unit part g n bulk bs) :
    readsAs t unit part g n bulk bs := by
  rw [h]
  exact reads

theorem onlyProgress.readRegions (unit p : Nat) : t.readRegions unit p = s.readRegions unit p := by
  have table : t.part p = s.part p := by rw [h]; rfl
  unfold State.readRegions
  simp only [table, (h.accRead _).1]

theorem onlyProgress.rawPage {u : Nat} {l : Launch} {d : AttnDesc} {g n : Nat} {bs : List Byte} (raw : rawPage s u l d g n bs) :
    rawPage t u l d g n bs := by
  obtain ⟨rs, regions, taken, stored, reads⟩ := raw
  exact ⟨rs, (h.readRegions _ _).trans regions, h.isM ▸ taken, h.isM ▸ stored, h.readsAs reads⟩

theorem onlyProgress.accReadIf (c : Prop) [Decidable c] (x : Acc) :
    (if c then t.accRead x else (t, .ok [])).2 = (if c then s.accRead x else (s, .ok [])).2 ∧
      onlyProgress (if c then s.accRead x else (s, .ok [])).1 (if c then t.accRead x else (t, .ok [])).1 := by
  split
  · exact h.accRead x
  · exact ⟨rfl, h⟩

theorem onlyProgress.readBlock (u part : Nat) (rs : List Region) (old : Table Byte) (a : Nat) :
    (t.readBlock u part rs old a).2 = (s.readBlock u part rs old a).2 ∧
      onlyProgress (s.readBlock u part rs old a).1 (t.readBlock u part rs old a).1 := by
  unfold State.readBlock
  rw [h.isM]
  generalize localBlock s.isM rs a = i
  dsimp only
  by_cases plain : i.cls ≠ 3
  · obtain ⟨same, next⟩ := h.accRead ⟨u, part, a, if i.cls = 0 then 256 else lossySize i.cls, .read, true⟩
    rw [if_pos plain, if_pos plain, same]
    split <;> exact ⟨rfl, next⟩
  · obtain ⟨same, next⟩ := h.accRead ⟨u, part, i.tag % 2 ^ 44, 4, .read, true⟩
    rw [if_neg plain, if_neg plain, same, next.sq]
    generalize (s.accRead ⟨u, part, i.tag % 2 ^ 44, 4, .read, true⟩).1 = s1 at *
    generalize (t.accRead ⟨u, part, i.tag % 2 ^ 44, 4, .read, true⟩).1 = t1 at *
    cases (s.accRead ⟨u, part, i.tag % 2 ^ 44, 4, .read, true⟩).2 with
    | error c => exact ⟨rfl, next⟩
    | ok tb =>
      dsimp only
      generalize (s1.sq u).pump = p
      obtain ⟨stored, next⟩ := next.accReadIf (p.tagCode (ofBytes tb) = eOk) ⟨u, part, a, tagStored (ofBytes tb), .read, true⟩
      rw [stored]
      split
      · exact ⟨rfl, next⟩
      · split
        · exact ⟨rfl, next⟩
        · have before : t.oldBlock old p i a = s.oldBlock old p i a := rfl
          rw [before]
          split <;> exact ⟨rfl, next⟩

omit h in
theorem onlyProgress.readBlocks {s t : State} (h : onlyProgress s t) (u part : Nat) (rs : List Region) (old : Table Byte) (n a : Nat)
    (got : List Byte) : (t.readBlocks u part rs old n a got).2 = (s.readBlocks u part rs old n a got).2 := by
  induction n generalizing s t a got with
  | zero => rfl
  | succ n ih =>
    obtain ⟨same, next⟩ := h.readBlock u part rs old a
    simp only [State.readBlocks, same]
    split
    · rfl
    · exact ih next _ _

theorem onlyProgress.pageFails (l : Launch) (a : Attn) (page : Nat) : t.pageFails l a u page = s.pageFails l a u page := by
  unfold State.pageFails
  rw [h.isM, h.readRegions]
  dsimp only
  split
  · rfl
  · rw [h.readBlocks]
  

theorem onlyProgress.entryUsed (l : Launch) (a : Attn) (g e : Nat) : t.entryUsed l a u g e = s.entryUsed l a u g e := by
  simp only [State.entryUsed, h.pageFails]
  rw [h]; rfl

end
end Sys2Proof.Proofs

/-! The progress of work items, and O33 (R211 to R214, R219). -/

namespace Sys2Proof.Proofs
open Sys2Proof Sys2Proof.Machine

/-! A launch and its command after a change. -/

theorem launch_modLaunch (s : State) (id : Nat) {f : Launch → Launch} (keeps : ∀ l, (f l).id = l.id) :
    (s.modLaunch id f).launch id = (s.launch id).map f := by
  have test : (fun l : Launch => l.id == id) ∘ (fun l => if l.id = id then f l else l) = (fun l => l.id == id) := by
    funext l
    dsimp only [Function.comp]
    split <;> simp [keeps]
  rw [State.launch, State.modLaunch, List.find?_map, test, ← State.launch]
  cases found : s.launch id with
  | none => rfl
  | some l =>
    have named : l.id = id := by simpa using List.find?_some found
    simp [named]

/-- A change of a launch's command is found there. -/
theorem command_modLaunch {s : State} {id : Nat} {l : Launch} {a : Attn} (found : s.launch id = some l) (command : l.attn = some a)
    (f : Attn → Attn) : ∃ m, (s.modLaunch id (fun l => { l with attn := l.attn.map f })).launch id = some m ∧ m.attn = some (f a) := by
  rw [launch_modLaunch s id (f := fun l => { l with attn := l.attn.map f }) (fun _ => rfl), found]
  exact ⟨_, rfl, by simp [command]⟩

theorem launchOn_id {s : State} {u : Nat} {l : Launch} (on : s.launchOn u = some l) : s.launch l.id = some l := by
  unfold State.launchOn at on
  split at on
  · have named : l.id = (s.sq u).launch := by simpa using List.find?_some on
    rw [named, on]
  · cases on

theorem running_of_itemOpen {s : State} {u : Nat} {w : WorkItem} {l : Launch} {a : Attn} (opened : itemOpen s u w l a) :
    (s.sq u).run = .running := by
  obtain ⟨on, -⟩ := opened
  unfold State.launchOn at on
  split at on
  case isTrue active => simp_all [State.active]
  case isFalse => cases on

theorem attnItem_of_itemOpen {s : State} {u : Nat} {w : WorkItem} {l : Launch} {a : Attn} (opened : itemOpen s u w l a)
    (f : Launch → Attn → ItemState → State) : s.attnItem u w f = f l a (a.item w) := by
  obtain ⟨on, command, valid, notDone⟩ := opened
  simp [State.attnItem, on, command, valid, notDone]

section
variable {s t : State} {l : Launch} {a : Attn} {w : WorkItem} {x : ItemState}

theorem itemBecomes_of_itemOpen {u : Nat} (opened : itemOpen s u w l a) : itemBecomes s l a w (a.item w) := by
  obtain ⟨on, command, -⟩ := opened
  exact ⟨l, a, launchOn_id on, command, rfl, rfl, rfl, rfl, fun _ _ => rfl⟩

theorem itemBecomes_of_launches (became : itemBecomes s l a w x) (same : t.launches = s.launches) : itemBecomes t l a w x := by
  obtain ⟨m, b, found, rest⟩ := became
  exact ⟨m, b, by rw [← found, State.launch, same, State.launch], rest⟩

theorem itemBecomes_modItem (became : itemBecomes s l a w x) (f : ItemState → ItemState) :
    itemBecomes (s.modItem l.id w f) l a w (f x) := by
  obtain ⟨m, b, found, command, rfl, desc, recs, ring, others⟩ := became
  obtain ⟨m', found', command'⟩ := command_modLaunch found command
    (fun b => { b with items := Table.set {} b.items (itemKey w) (f (b.item w)) })
  exact ⟨m', _, found', command', Table.get_set_same .., desc, recs, ring,
    fun w' other => (Table.get_set_other _ _ _ _ _ other).trans (others w' other)⟩

theorem itemBecomes_itemDone (became : itemBecomes s l a w x) (f : ItemState → ItemState) :
    itemBecomes (s.itemDone l w f) l a w (f x) := itemBecomes_of_launches (itemBecomes_modItem became f) rfl

end

theorem onlyCounts.launches {s t : State} (h : onlyCounts s t) : t.launches = s.launches := by rw [h]

/-! The walker. -/

/-- A fault of a running square whose cause it found itself: the record, the fault and the stop, and memory is as it was. -/
theorem faultLogged_running {s : State} {u : Nat} (running : (s.sq u).run = .running) (code iidx addr : Nat) :
    let t := s.faultLogged u code iidx addr
    (t.sq u).fault = some ⟨code, iidx, s.time⟩ ∧ (t.sq u).run = .stopped ∧
      (∃ e : ErrRecord, t.elog.transit = s.elog.transit ++ [e] ∧ e.code = code ∧ e.unit = u ∧ e.addr = s.recordAddr addr) ∧
      t.launches = s.launches ∧ t.mem = s.mem := by
  have faults : s.faultLogged u code iidx addr = (s.logErr u (s.sq u).kpart code addr).modSq u (fun q =>
      stopSquareNow { q with fault := some ⟨code, iidx, s.time⟩ }) := if_pos running
  rw [faults]
  exact ⟨by simp [stopSquareNow], by simp [stopSquareNow], ⟨_, rfl, rfl, rfl, rfl⟩, rfl, rfl⟩

section
variable {s : State} {u : SquareId} {w : WorkItem} {l : Launch} {a : Attn} (opened : itemOpen s u.val w l a)
include opened

/-- The walker comes to the entry of the next block with the inputs of the rows read. -/
theorem walkBlock_comes_to_entry (noRing : a.desc.ring = false) (free : (a.item w).walked = none)
    (more : (a.item w).next < (a.blocks w).2)
    (readable : (a.item w).inputs = [] → ∀ x, x ∈ a.inputRanges w → readsAs s u.val l.part x.1 x.2 true (s.bytes (x.1 % 2 ^ 44) x.2)) :
    ∃ t, onlyProgress s t ∧ itemBecomes t l a w { a.item w with 
        inputs := if (a.item w).inputs = [] then (a.inputRanges w).map (fun x => s.bytes (x.1 % 2 ^ 44) x.2) else (a.item w).inputs } ∧
      s.walkBlock u.val w = t.walkEntry l a u.val w ((a.blocks w).1 + (a.item w).next) := by
  have became := itemBecomes_of_itemOpen opened
  have proceeds : ¬ ((a.item w).walked.isSome || decide (a.available w ≤ (a.item w).next)) = true := by
    simpa [free, Attn.available, noRing] using more
  rw [State.walkBlock, attnItem_of_itemOpen opened, if_neg proceeds]
  simp only [noRing, Bool.false_eq_true, if_false]
  by_cases fresh : (a.item w).inputs = []
  · obtain ⟨t, counts, read⟩ := cmdReads_of_readsAs (itemOwner l w) (fun t got =>
      (t.modItem l.id w (fun x => { x with inputs := got })).walkEntry l a u.val w ((a.blocks w).1 + (a.item w).next)) [] (readable fresh)
    rw [if_pos fresh, if_pos fresh, read]
    exact ⟨_, counts.onlyProgress.trans (onlyProgress_modItem t l.id w _),
      itemBecomes_modItem (itemBecomes_of_launches became counts.launches) _, rfl⟩
  · rw [if_neg fresh, if_neg fresh]
    exact ⟨s, onlyProgress.refl s, became, rfl⟩

end

/-- An entry that can be read is read, and the page it names is walked or the command faults with PAGE (R211). -/
theorem walkEntry_of_readsAs {s : State} {u : Nat} {w : WorkItem} {l : Launch} {a : Attn} {b ea : Nat} {eb : List Byte}
    (within : b < (a.recs.getD w.record {}).nbmax) (lies : addr56 (a.recs.getD w.record {}).pt
      (8 * ((a.desc.layer * a.desc.ngrp + w.head / (pageFmt a.desc.fmt).heads) * (a.recs.getD w.record {}).nbmax + b)) = ea)
    (reads : readsAs s u l.part ea 8 true eb) :
    ∃ t, onlyCounts s t ∧ s.walkEntry l a u w b =
      let e := s.entryUsed l a u ea (ofBytes eb)
      if s.entryValid e then t.walkPage l a u w (globalOf (bits e 15 29 * 32768)) else t.cmdFault u ePage ea none := by
  obtain ⟨t, counts, read⟩ := farAccess_of_readsAs reads (itemOwner l w) { type := 2, len := 8 }
  exact ⟨t, counts, by simp only [State.walkEntry, if_neg (Nat.not_le.mpr within), lies, read]⟩

/-- A raw page whose header agrees with the command is in hand (R213). -/
theorem walkPage_of_rawPage {s : State} {u : Nat} {w : WorkItem} {l : Launch} {a : Attn} {g : Nat} {hb : List Byte}
    (raw : rawPage s u l a.desc g 64 hb) (agrees : headerOk a.desc (w.head / (pageFmt a.desc.fmt).heads) (ofBytes hb) = true) :
    ∃ t, onlyCounts s t ∧ s.walkPage l a u w g =
      t.itemDone l w (fun i => { i with walked := some (g, bits (ofBytes hb) 64 64, bits (ofBytes hb) 48 8) }) := by
  obtain ⟨t, counts, read⟩ := readPage_of_rawPage raw w (fun t bs =>
    if headerOk a.desc (w.head / (pageFmt a.desc.fmt).heads) (ofBytes bs) then
      t.itemDone l w (fun i => { i with walked := some (g, bits (ofBytes bs) 64 64, bits (ofBytes bs) 48 8) })
    else t.cmdFault u ePage g none)
  exact ⟨t, counts, by rw [State.walkPage, read, if_pos agrees]⟩

/-- An entry that stands as before, or whose page can be read, is used as it is (R214). -/
theorem entryUsed_eq {s : State} {l : Launch} {a : Attn} {u g e : Nat}
    (taken : s.entryBefore a g e = e ∨ s.pageFails l a u (bits e 15 29 * 32768) = false) : s.entryUsed l a u g e = e := by
  rw [State.entryUsed, if_neg]
  rintro ⟨changed, -, fails⟩
  rcases taken with same | reads
  · exact changed same
  · simp [fails] at reads

/-- Settles O33: the walker comes to the entry; a valid one leads to its page, and one without its valid bit to a fault. -/
theorem attentionWalksBlocks : Obligations.AttentionWalksBlocks := by
  unfold Obligations.AttentionWalksBlocks
  intro s u w l a eb opened noRing free more i r group blk ea got readable within reads
  obtain ⟨v, progress, became, walk⟩ := walkBlock_comes_to_entry opened noRing free more readable
  obtain ⟨x, counts, entry⟩ := walkEntry_of_readsAs (ea := ea) within rfl (progress.readsAs reads)
  have next : onlyProgress s x := progress.trans counts.onlyProgress
  have run : exec (.attnWalkBlock u w) s = .next (v.walkEntry l a u.val w blk) := congrArg _ walk
  rw [run, entry, progress.entryUsed]
  have held : v.entryValid (ofBytes eb) = s.entryValid (ofBytes eb) := by rw [State.entryValid, progress.isM]; rfl
  refine ⟨?_, fun invalid => ?_⟩
  · intro hb valid page taken inside raw agrees
    obtain ⟨t, more, walked⟩ := walkPage_of_rawPage (next.rawPage raw) agrees
    have names : s.entryValid (ofBytes eb) = true := by rw [State.entryValid, valid, Bool.true_and]; exact inside
    have whole := next.trans more.onlyProgress
    dsimp only
    rw [entryUsed_eq taken, held, if_pos names, walked]
    exact ⟨_, rfl, itemBecomes_itemDone (itemBecomes_of_launches became (counts.trans more).launches) _,
      whole.squares, whole.elog, whole.sameMemory⟩
  · have names : s.entryValid (ofBytes eb) = false := by simp [State.entryValid, invalid]
    have kept : s.entryUsed l a u.val ea (ofBytes eb) = ofBytes eb := if_neg (by simp [names])
    obtain ⟨fault, stopped, ⟨e, log, code, unit, addr⟩, -, mem⟩ :=
      faultLogged_running ((next.sq u.val).symm ▸ running_of_itemOpen opened) ePage 0 ea
    dsimp only
    rw [kept, held, names]
    refine ⟨_, rfl, next.time ▸ fault, stopped, ⟨e, next.elog ▸ log, code, unit, next.recordAddr ea ▸ addr⟩, ?_⟩
    exact next.sameMemory.trans (sameMemory.of_mem mem)

end Sys2Proof.Proofs

/-! Atomic adds of a fused command, and O35 (R135, R234, R235, R317). -/

namespace Sys2Proof.Proofs
open Sys2Proof Sys2Proof.Machine

/-! An atomic add to this module's memory. -/

theorem onlyCounts.store {s t : State} (h : onlyCounts s t) (a : Nat) (bs : List Byte) : onlyCounts (s.store a bs) (t.store a bs) := by
  rw [h]
  rfl

theorem onlyCounts.storeEach {α : Type} (addr : α → Nat) (val : α → List Byte) (xs : List α) {s t : State} (h : onlyCounts s t) :
    onlyCounts (storeEach addr val xs s) (storeEach addr val xs t) := by
  induction xs generalizing s t with
  | nil => exact h
  | cons x xs ih => exact ih (h.store _ _)

theorem onlyCounts_homeMerge (s : State) (a : Nat) (bs : List Byte) : onlyCounts (s.store a bs) (s.homeMerge a bs) := by
  have counted := onlyCounts_countHome (s.store a bs) a 1 bs.length
  unfold State.homeMerge
  extract_lets s1
  split
  · exact counted.trans (onlyCounts_count s1 _ _ _)
  · exact counted

/-- A command of partition `p` on square `u` may add to the 64-bit word at a global address, which lies in this module's memory and is
sound. -/
def addable (s : State) (u p g : Nat) : Prop :=
  s.isLocal g = true ∧ placeOf s.isM (g % 2 ^ 44) ≠ .reg ∧ placeOf s.isM (g % 2 ^ 44) ≠ .host ∧
    s.checkAcc ⟨u, p, g % 2 ^ 44, 8, .atom 0 8, false⟩ = 0 ∧ s.parityOf (g % 2 ^ 44) 8 = 0

/-- The bytes of the word at a global address once `v` is added to it (R135). -/
def addedBytes (s : State) (g v : Nat) : List Byte := toBytes 8 ((ofBytes (s.bytes (g % 2 ^ 44) 8) + v) % 2 ^ 64)

theorem length_addedBytes (s : State) (g v : Nat) : (addedBytes s g v).length = 8 := length_toBytes ..

/-- An add stores the sum; beside that counters move. -/
theorem cmdAdd_stores {s : State} {l : Launch} {u g : Nat} (may : addable s u l.part g) (v : Nat) :
    onlyCounts (s.store (g % 2 ^ 44) (addedBytes s g v)) (s.cmdAdd l u g v) := by
  obtain ⟨here, noReg, noHost, pass, sound⟩ := may
  have carried := onlyCounts_carryAcc s ⟨u, l.part, g % 2 ^ 44, 8, .atom 0 8, false⟩
  have found : s.localAccess u l.part (g % 2 ^ 44) (.atom 0 8 v) false = _ := localAccess_memory noReg noHost pass
  rw [accFor] at found
  generalize s.carryAcc ⟨u, l.part, g % 2 ^ 44, 8, .atom 0 8, false⟩ = c at carried found
  have sound' : c.parityOf (g % 2 ^ 44) 8 = 0 := by rw [carried]; exact sound
  have read := onlyCounts_countHomes c (g % 2 ^ 44) 0 8
  have old : c.bytes (g % 2 ^ 44) 8 = s.bytes (g % 2 ^ 44) 8 := by rw [carried]; rfl
  have sum : atomicNew 0 (8 * 8) (ofBytes (s.bytes (g % 2 ^ 44) 8)) v 0 = (ofBytes (s.bytes (g % 2 ^ 44) 8) + v) % 2 ^ 64 :=
    Nat.add_mod_mod ..
  rw [State.cmdAdd, if_pos here, found, State.memAccess, State.homeAtomic, homeRead_of_sound sound', old]
  simp only [sum]
  exact ((carried.trans read).store _ _).trans (onlyCounts_homeMerge _ _ _)

theorem parityIn_eq_zero_iff (s : State) (a n : Nat) : s.parityIn a n = 0 ↔ ∀ e ∈ s.parity, a ≤ e.1 → e.1 < a + n → e.2 = 0 := by
  have fold (es : List (Nat × Nat)) (m : Nat) : es.foldl (fun m e => max m e.2) m = 0 ↔ m = 0 ∧ ∀ e ∈ es, e.2 = 0 := by
    induction es generalizing m with
    | nil => simp
    | cons e es ih => simp [ih, and_assoc]
  simp only [State.parityIn, fold, true_and, List.mem_filter, Bool.and_eq_true, decide_eq_true_eq]
  exact ⟨fun h e he lo hi => h e ⟨he, lo, hi⟩, fun h e he => h e he.1 he.2.1 he.2.2⟩

/-- A store marks no byte. -/
theorem parityOf_store_of_sound {s : State} {b m : Nat} (sound : s.parityOf b m = 0) (a : Nat) (bs : List Byte) :
    (s.store a bs).parityOf b m = 0 := by
  have keeps (b m : Nat) (h : s.parityIn b m = 0) : (s.store a bs).parityIn b m = 0 := by
    rw [parityIn_eq_zero_iff] at h ⊢
    exact fun e he => h e (List.mem_filter.mp he).1
  have place : (s.store a bs).isM = s.isM := rfl
  unfold State.parityOf at *
  rw [place]
  split_ifs at * with empty gate
  · rfl
  · exact keeps _ _ sound
  · exact keeps _ _ sound

theorem addable.store {s : State} {u p g : Nat} (may : addable s u p g) (a : Nat) (bs : List Byte) : addable (s.store a bs) u p g := by
  obtain ⟨here, noReg, noHost, pass, sound⟩ := may
  exact ⟨here, noReg, noHost, pass, parityOf_store_of_sound sound a bs⟩

theorem addable.of_onlyCounts {s t : State} {u p g : Nat} (may : addable s u p g) (h : onlyCounts s t) : addable t u p g := by
  rw [h]
  exact may

/-- Two words at global addresses share no byte. -/
def wordsApart (x y : Nat × Nat) : Prop := x.1 % 2 ^ 44 + 8 ≤ y.1 % 2 ^ 44 ∨ y.1 % 2 ^ 44 + 8 ≤ x.1 % 2 ^ 44

/-- Adds to words that lie apart store the sums of what the words held at first. -/
theorem cmdAdds_store {s0 : State} {l : Launch} {u : Nat} {xs : List (Nat × Nat)} {s : State} (running : (s.sq u).run = .running)
    (may : ∀ x ∈ xs, addable s u l.part x.1) (held : ∀ x ∈ xs, s.bytes (x.1 % 2 ^ 44) 8 = s0.bytes (x.1 % 2 ^ 44) 8)
    (apart : xs.Pairwise wordsApart) :
    onlyCounts (storeEach (fun x => x.1 % 2 ^ 44) (fun x => addedBytes s0 x.1 x.2) xs s) (s.cmdAdds l u xs) := by
  induction xs generalizing s with
  | nil => exact onlyCounts.refl s
  | cons x xs ih =>
    obtain ⟨first, rest⟩ := List.pairwise_cons.mp apart
    have same : addedBytes s x.1 x.2 = addedBytes s0 x.1 x.2 := by rw [addedBytes, held x (List.mem_cons_self ..), addedBytes]
    have added := cmdAdd_stores (may x (List.mem_cons_self ..)) x.2
    rw [same] at added
    have step : s.cmdAdds l u (x :: xs) = (s.cmdAdd l u x.1 x.2).cmdAdds l u xs := by
      simp only [State.cmdAdds, List.foldl_cons, running, if_true]
    rw [step, storeEach_cons]
    generalize s.cmdAdd l u x.1 x.2 = t at added
    refine (added.storeEach _ _ xs).trans (ih ?_ (fun y hy => ?_) (fun y hy => ?_) rest)
    · rw [added]; exact running
    · exact ((may y (List.mem_cons_of_mem _ hy)).store _ _).of_onlyCounts added
    · have clear := (State.store_sameMemoryBut s (x.1 % 2 ^ 44) (addedBytes s0 x.1 x.2)).bytes (y.1 % 2 ^ 44) 8
        (by rw [length_addedBytes]; exact (first y hy).symm)
      rw [← held y (List.mem_cons_of_mem _ hy), ← clear, added]
      rfl

section
variable {s : State} {l : Launch} {u : Nat} {xs : List (Nat × Nat)} (running : (s.sq u).run = .running)
  (may : ∀ x ∈ xs, addable s u l.part x.1) (apart : xs.Pairwise wordsApart)
include running may apart

theorem cmdAdds_keeps : (s.cmdAdds l u xs).launches = s.launches ∧ (s.cmdAdds l u xs).elog = s.elog ∧
    ((s.cmdAdds l u xs).sq u).run = .running := by
  have stored := cmdAdds_store running may (fun _ _ => rfl) apart
  have kept := storeEach_onlyStores (fun x : Nat × Nat => x.1 % 2 ^ 44) (fun x => addedBytes s x.1 x.2) xs s
  rw [stored]
  exact ⟨by rw [kept], kept.silent.1, (congrArg Square.run (kept.sq u)).trans running⟩

theorem cmdAdds_words {x : Nat × Nat} (mem : x ∈ xs) : ofBytes ((s.cmdAdds l u xs).bytes (x.1 % 2 ^ 44) 8) =
    (ofBytes (s.bytes (x.1 % 2 ^ 44) 8) + x.2) % 2 ^ 64 := by
  have stored := cmdAdds_store running may (fun _ _ => rfl) apart
  have symmetric : Std.Symm wordsApart := ⟨fun _ _ h => h.symm⟩
  have word := bytes_storeEach (fun x : Nat × Nat => x.1 % 2 ^ 44) (fun x => addedBytes s x.1 x.2) mem (fun y hy other => by
    simpa only [length_addedBytes, wordsApart] using apart.forall mem hy other.symm) s
  rw [length_addedBytes] at word
  rw [stored]
  refine (congrArg ofBytes word).trans ?_
  rw [addedBytes, ofBytes_toBytes, Nat.mod_mod]

theorem cmdAdds_byte_apart {k : Nat} (outside : ∀ x ∈ xs, k < x.1 % 2 ^ 44 ∨ x.1 % 2 ^ 44 + 8 ≤ k) :
    (s.cmdAdds l u xs).byte k = s.byte k := by
  have stored := cmdAdds_store running may (fun _ _ => rfl) apart
  rw [stored]
  exact byte_storeEach_apart (fun x : Nat × Nat => x.1 % 2 ^ 44) (fun x => addedBytes s x.1 x.2)
    (fun x hx => by simpa only [length_addedBytes] using outside x hx) s

end

/-! The backward pass of a block. -/

theorem cmdSat_keeps (s : State) (u : Nat) (sat : Bool) : (s.cmdSat u sat).launches = s.launches ∧ (s.cmdSat u sat).elog = s.elog ∧
    (s.cmdSat u sat).mem = s.mem ∧ ((s.cmdSat u sat).sq u).run = (s.sq u).run := by
  cases sat <;> simp [State.cmdSat]

/-- The scores that a block recomputes, row by row (R221). -/
def recomputedScores (a : Attn) (i : ItemState) (toks : List Token) (vis : List (List Bool)) : List (List (Option Int)) :=
  (vis.zipIdx).map (fun v => (rowScores (a.queryRow i v.2) toks v.1).1)

theorem backScores_recomputes (s : State) (l : Launch) {a : Attn} (noStored : a.desc.ssrc = false) (u : Nat) (w : WorkItem)
    (i : ItemState) (toks : List Token) (vis : List (List Bool)) (f : State → List (List (Option Int)) → Bool → State) :
    ∃ sat, s.backScores l a u w i toks vis f = f s (recomputedScores a i toks vis) sat := by
  unfold State.backScores
  rw [if_pos (by simp [noStored])]
  extract_lets xs
  have scores : xs.map Prod.fst = recomputedScores a i toks vis := by simp [xs, recomputedScores, List.map_map, Function.comp_def]
  exact ⟨xs.any Prod.snd, by rw [scores]⟩

/-- Without stored scores the backward pass reads the block and recomputes them. -/
theorem backItem_recomputes {s : State} {u : Nat} {w : WorkItem} {l : Launch} {a : Attn} {b : Nat × Nat × Nat} {page : List Byte}
    (opened : itemOpen s u w l a) (inHand : (a.item w).walked = some b) (backward : a.desc.op = 3) (noStored : a.desc.ssrc = false)
    (seen : (a.visible w (a.item w)).all (fun x => x.all (!·)) = false) (room : s.roomFor a.adds = true)
    (raw : rawPage s u l a.desc b.1 (pageFmt a.desc.fmt).stop page) :
    let f := pageFmt a.desc.fmt
    let toks := f.tokensOf page (a.books (a.item w)) (w.head % f.heads) (a.firstPos w (a.item w))
    ∃ t sat, onlyCounts s t ∧
      s.backItem u w = t.addGrads l a u w (a.item w) toks (recomputedScores a (a.item w) toks (a.visible w (a.item w))) sat := by
  intro f toks
  obtain ⟨t, counts, read⟩ := readPage_of_rawPage raw w (fun t page =>
    let toks := f.tokensOf page (a.books (a.item w)) (w.head % f.heads) (a.firstPos w (a.item w))
    t.backScores l a u w (a.item w) toks (a.visible w (a.item w)) (fun t2 ss sat => t2.addGrads l a u w (a.item w) toks ss sat))
  obtain ⟨sat, scores⟩ := backScores_recomputes t l noStored u w (a.item w) toks (a.visible w (a.item w))
    (fun t2 ss sat => t2.addGrads l a u w (a.item w) toks ss sat)
  refine ⟨t, sat, counts, ?_⟩
  rw [State.backItem, attnItem_of_itemOpen opened, inHand]
  simp only [backward, seen, room]
  exact read.trans scores

/-- Settles O35: the block is read, its adds are `cmdAdds` of words that lie apart, and the work item goes on. -/
theorem backwardPassAccumulates : Obligations.BackwardPassAccumulates := by
  unfold Obligations.BackwardPassAccumulates
  intro s u w l a b page opened inHand backward noRing noStored i f r vis seen room raw toks sums adds may apart
  obtain ⟨v, sat, counts, pass⟩ := backItem_recomputes opened inHand backward noStored seen room raw
  have running : (v.sq u.val).run = .running := counts.onlyProgress.sq u.val ▸ running_of_itemOpen opened
  have may' : ∀ x ∈ adds, addable v u.val l.part x.1 := fun x hx => addable.of_onlyCounts (may x hx) counts
  obtain ⟨launches, log, runs⟩ := cmdAdds_keeps running may' apart
  let v1 := v.cmdAdds l u.val adds
  let v2 := v1.cmdSat u.val (sat || sums.sat)
  obtain ⟨launches', log', mem', runs'⟩ := cmdSat_keeps v1 u.val (sat || sums.sat)
  have still : v2.launches = s.launches := launches'.trans (launches.trans counts.launches)
  have adds_run : v.addGrads l a u.val w i toks (recomputedScores a i toks vis) sat = v2.itemDone l w (fun x =>
      { x with next := x.next + 1, walked := none, dq := sums.addRows f.dim x.dq }) := by
    rw [State.addGrads, State.gradBase]
    simp only [noRing]
    exact if_pos (runs'.trans runs)
  have run : exec (.bwdAccumulate u w) s = .next (v.addGrads l a u.val w i toks (recomputedScores a i toks vis) sat) := congrArg _ pass
  rw [run, adds_run]
  have memory : sameMemory v1 v2 := sameMemory.of_mem mem'
  refine ⟨_, rfl, itemBecomes_itemDone (itemBecomes_of_launches (itemBecomes_of_itemOpen opened) still) _,
    log'.trans (log.trans counts.onlyProgress.elog), fun x hx => ?_, fun k outside => ?_⟩
  · rw [← counts.onlyProgress.bytes, ← cmdAdds_words running may' apart hx]
    exact congrArg ofBytes (memory.bytes _ _)
  · exact (memory k).trans ((cmdAdds_byte_apart running may' apart outside).trans (counts.onlyProgress.sameMemory k))

end Sys2Proof.Proofs

/-! The ring protocol, and O36 (R231 to R233). -/

namespace Sys2Proof.Proofs
open Sys2Proof Sys2Proof.Machine

/-! An atomic at its home changes counters, memory and registers alone (R271, R317). -/

/-- Besides what homes hold and count, the state is unchanged. -/
def onlyHomes (s t : State) : Prop :=
  t = { s with ctr := t.ctr, mem := t.mem, parity := t.parity, resv := t.resv, sqCtr := t.sqCtr, hallCtr := t.hallCtr, badWrite := t.badWrite }

theorem onlyHomes.refl (s : State) : onlyHomes s s := rfl

theorem onlyHomes.trans {s t v : State} (h : onlyHomes s t) (k : onlyHomes t v) : onlyHomes s v := by
  unfold onlyHomes at *
  rw [k, h]

theorem onlyCounts.onlyHomes {s t : State} (h : onlyCounts s t) : onlyHomes s t := by
  unfold onlyCounts at h
  rw [h]
  rfl

theorem onlyHomes_homeAtomic (s : State) (a n op v c : Nat) : onlyHomes s (s.homeAtomic a n op v c).1 := by
  have read := (onlyCounts_homeRead s a n).onlyHomes
  unfold State.homeAtomic
  extract_lets r
  split
  · exact read
  · have stored (old : List Byte) : onlyHomes r.1 (r.1.store a old) := rfl
    exact (read.trans (stored _)).trans (onlyCounts_homeMerge r.1 a _).onlyHomes

theorem onlyHomes_refused (s : State) (x : Acc) (c : Nat) : onlyHomes s (s.refused x c) := by
  have taken : onlyHomes s (s.takeBadWrite x.unit) := rfl
  unfold State.refused
  split_ifs
  · exact taken.trans (onlyCounts_countHome _ _ _ _).onlyHomes
  · exact (onlyCounts_countHome _ _ _ _).onlyHomes
  · exact onlyHomes.refl s

/-! These lemmas name the result that a lookup leads to, so that the kernel never evaluates the lookup (see `regAt_of_findReg`). -/

theorem onlyHomes_of_regAtomic {s t : State} {unit p a n op v : Nat} {out : Except Nat Nat}
    (h : s.regAtomic unit p a n op v = (t, out)) : onlyHomes s t := by
  have body : @State.regAtomic = @State.regAtomic := rfl
  conv at body => rhs; delta State.regAtomic
  rw [body] at h
  beta_reduce at h
  cases found : s.findReg unit a with
  | error c =>
    rw [found] at h
    obtain ⟨rfl, -⟩ := Prod.mk.inj h
    exact onlyHomes.refl s
  | ok r =>
    rw [found] at h
    dsimp only at h
    split at h
    · obtain ⟨rfl, -⟩ := Prod.mk.inj h
      exact onlyHomes.refl s
    · split at h
      · split_ifs at h <;> (obtain ⟨rfl, -⟩ := Prod.mk.inj h; rfl)
      · split_ifs at h <;> (obtain ⟨rfl, -⟩ := Prod.mk.inj h; rfl)
      · obtain ⟨rfl, -⟩ := Prod.mk.inj h
        exact onlyHomes.refl s

theorem onlyHomes_of_regPerform {s t : State} {unit p a n op v : Nat} {out : AccOut}
    (h : s.regPerform unit p a (.atom op n v) = (t, out)) : onlyHomes s t := by
  have body : @State.regPerform = @State.regPerform := rfl
  conv at body => rhs; delta State.regPerform
  rw [body] at h
  beta_reduce at h
  dsimp only at h
  rcases performed : s.regAtomic unit p a n op v with ⟨t', old⟩
  rw [performed] at h
  obtain ⟨rfl, -⟩ := Prod.mk.inj h
  exact onlyHomes_of_regAtomic performed

theorem onlyHomes_of_regAccess {s t : State} {unit p a n op v : Nat} {out : AccOut}
    (h : s.regAccess unit p a (.atom op n v) = (t, out)) : onlyHomes s t := by
  have body : @State.regAccess = @State.regAccess := rfl
  conv at body => rhs; delta State.regAccess
  rw [body] at h
  beta_reduce at h
  rcases performed : s.regPerform unit p a (.atom op n v) with ⟨v, answer⟩
  rw [performed] at h
  dsimp only at h
  split at h
  · obtain ⟨rfl, -⟩ := Prod.mk.inj h
    exact (onlyHomes_of_regPerform performed).trans (onlyCounts_carryRegister _ _ _ _ _).onlyHomes
  · obtain ⟨rfl, -⟩ := Prod.mk.inj h
    exact onlyHomes_of_regPerform performed

theorem onlyHomes_localAccess_atom (s : State) (unit part a op n v : Nat) :
    onlyHomes s (s.localAccess unit part a (.atom op n v) false).1 := by
  unfold State.localAccess
  split
  case h_1 => exact onlyHomes_of_regAccess Prod.mk.eta.symm
  case h_2 =>
    extract_lets x c
    split
    · exact onlyHomes_refused s _ _
    · exact (onlyCounts_carryAcc s _).onlyHomes
  case h_3 =>
    extract_lets x c
    split
    · exact onlyHomes_refused s _ _
    · exact (onlyCounts_carryAcc s _).onlyHomes.trans (onlyHomes_homeAtomic _ _ _ _ _ _)

/-! The ring state of a launch. -/

section
variable {s : State} {id : Nat} {l : Launch} {a : Attn}

theorem ringOf_of_ringRuns (runs : ringRuns s id l a) (f : Launch → Attn → Nat → State) : s.ringOf id f = f l a l.lead := by
  obtain ⟨found, command, ring, active, here, running⟩ := runs
  simp [State.ringOf, found, command, ring, active, here, running]

theorem running_of_active {u : Nat} (active : s.active u = true) : (s.sq u).run = .running := by
  simp_all [State.active]

theorem ringBecomes_modRing (found : s.launch id = some l) (command : l.attn = some a) (f : RingState → RingState) :
    ringBecomes (s.modRing id f) id a (f a.ring) :=
  command_modLaunch found command (fun a => { a with ring := f a.ring })

theorem ringBecomes_takeSlab (found : s.launch id = some l) (command : l.attn = some a) (ticket : Nat) :
    ringBecomes (s.takeSlab id ticket) id { a with mem0 := s.mem } { a.ring with have_ := true, ticket := ticket } :=
  command_modLaunch found command (fun a => { a with ring := { a.ring with have_ := true, ticket := ticket }, mem0 := s.mem })

end

/-! The step of a member. -/

section
variable {s : State} {id : Nat} {l : Launch} {a : Attn} (runs : ringRuns s id l a) (empty : a.ring.have_ = false)
  (inSteps : a.ring.step < a.ringd.n)
include runs empty inSteps

/-- A step whose waits are met takes its slab (R231). -/
theorem ringStep_forwards
    (arrived : a.ring.step = 0 ∨ a.ringd.base + a.ring.step ≤ s.dcnt a l.lead ∧ (s.dcnt a l.lead).testBit 63 = false)
    (room : a.ring.step + 2 ≤ a.ringd.n → 2 ≤ a.ringd.base + a.ring.step →
      a.ringd.base + a.ring.step - 1 ≤ s.fcnt a l.lead ∧ (s.fcnt a l.lead).testBit 63 = false) :
    s.ringStep id = s.ringForward id a l.lead a.ring.step := by
  rw [State.ringStep, ringOf_of_ringRuns runs]
  dsimp only
  have here : ¬ (a.ring.step ≠ 0 ∧ s.dcnt a l.lead < a.ringd.base + a.ring.step) := by omega
  have sound : ¬ (a.ring.step ≠ 0 ∧ (s.dcnt a l.lead).testBit 63 = true) := by
    rintro ⟨later, poisoned⟩
    obtain ⟨-, clean⟩ := arrived.resolve_left later
    simp [clean] at poisoned
  have free : ¬ (a.ring.step + 2 ≤ a.ringd.n ∧ 2 ≤ a.ringd.base + a.ring.step ∧ s.fcnt a l.lead < a.ringd.base + a.ring.step - 1) := by
    rintro ⟨forwards, late, full⟩
    have := (room forwards late).1
    omega
  have well : ¬ (a.ring.step + 2 ≤ a.ringd.n ∧ 2 ≤ a.ringd.base + a.ring.step ∧ (s.fcnt a l.lead).testBit 63 = true) := by
    rintro ⟨forwards, late, poisoned⟩
    simp [(room forwards late).2] at poisoned
  rw [if_neg (by simpa [empty] using inSteps), if_neg here, if_neg sound, if_neg free, if_neg well]

/-- A poisoned slab ends the member (R231, R233). -/
theorem ringStep_aborts (later : a.ring.step ≠ 0) (arrived : a.ringd.base + a.ring.step ≤ s.dcnt a l.lead)
    (poisoned : (s.dcnt a l.lead).testBit 63 = true) : s.ringStep id = s.ringAbort id l.lead a.desc.cbase 1 := by
  rw [State.ringStep, ringOf_of_ringRuns runs]
  dsimp only
  rw [if_neg (by simpa [empty] using inSteps), if_neg (by omega), if_pos ⟨later, poisoned⟩]

end

/-- A forward is queued behind the pump's other descriptors under a ticket (R231). -/
def queueForward (d : Desc) (ticket : Nat) (q : Square) : Square :=
  { q with pump := { q.pump with lastTicket := ticket, queue := q.pump.queue ++ [d] } }

theorem takeSlab_sq (s : State) (id ticket u : Nat) : (s.takeSlab id ticket).sq u = s.sq u := rfl

/-- The state in which a member takes the slab of a step: after the first it acquires its memory (R231). -/
def beforeSlab (s : State) (u step : Nat) : State := if step = 0 then s else s.acquire u 3

theorem beforeSlab_keeps (s : State) (u step : Nat) : (beforeSlab s u step).launches = s.launches ∧ (beforeSlab s u step).elog = s.elog ∧
    (beforeSlab s u step).mem = s.mem ∧ ((beforeSlab s u step).sq u).pump = (s.sq u).pump ∧
    ∀ v, v ≠ u → (beforeSlab s u step).sq v = s.sq v := by
  unfold beforeSlab
  split
  · exact ⟨rfl, rfl, rfl, rfl, fun _ _ => rfl⟩
  · rw [State.acquire, if_neg (by decide)]
    exact ⟨rfl, rfl, rfl, by rw [State.modSq_sq_same], fun v other => by rw [State.modSq_sq, if_neg other]⟩

section
variable {s : State} {id : Nat} {l : Launch} {a : Attn} (found : s.launch id = some l) (command : l.attn = some a) (u step : Nat)
include found command

/-- A slab that goes on to the successor (R231, R232). -/
theorem ringForward_queues (forwards : step + 2 ≤ a.ringd.n) :
    let t := s.ringForward id a u step
    let next := (s.sq u).pump.lastTicket + 1
    t.elog = s.elog ∧ t.mem = s.mem ∧ (∀ v, v ≠ u → t.sq v = s.sq v) ∧
      ringBecomes t id { a with mem0 := s.mem } { a.ring with have_ := true, ticket := next } ∧
      (t.sq u).pump = { (s.sq u).pump with lastTicket := next, queue := (s.sq u).pump.queue ++ [a.forward step next] } := by
  intro t next
  obtain ⟨launches, log, mem, pump, others⟩ := beforeSlab_keeps s u step
  let v := (beforeSlab s u step).modSq u (queueForward (a.forward step next) next)
  have taken (k : Nat) (ticket : ((beforeSlab s u step).sq u).pump.lastTicket + 1 = k) :
      t = ((beforeSlab s u step).modSq u (queueForward (a.forward step k) k)).takeSlab id k := by
    subst ticket
    exact if_pos forwards
  have found' : v.launch id = some l := by rw [← found, State.launch, State.modSq_launches, launches, State.launch]
  have slab := ringBecomes_takeSlab found' command next
  rw [State.modSq_mem, mem] at slab
  rw [taken next (by rw [pump])]
  refine ⟨log, mem, fun x other => ?_, slab, ?_⟩
  · rw [takeSlab_sq, State.modSq_sq, if_neg other, others x other]
  · rw [takeSlab_sq, State.modSq_sq_same, queueForward, pump]

/-- The slab of the last step stays (R231). -/
theorem ringForward_ends (last : ¬ step + 2 ≤ a.ringd.n) :
    let t := s.ringForward id a u step
    t.elog = s.elog ∧ t.mem = s.mem ∧ (∀ v, v ≠ u → t.sq v = s.sq v) ∧
      ringBecomes t id { a with mem0 := s.mem } { a.ring with have_ := true, ticket := 0 } ∧ (t.sq u).pump = (s.sq u).pump := by
  obtain ⟨launches, log, mem, pump, others⟩ := beforeSlab_keeps s u step
  have taken : s.ringForward id a u step = (beforeSlab s u step).takeSlab id 0 := if_neg last
  have found' : (beforeSlab s u step).launch id = some l := by rw [← found, State.launch, launches, State.launch]
  have slab := ringBecomes_takeSlab found' command 0
  rw [mem] at slab
  rw [taken]
  exact ⟨log, mem, others, slab, pump⟩

theorem ringAbort_poisons (running : (s.sq u).run = .running) (c from_ : Nat) :
    let t := s.ringAbort id u c from_
    ringBecomes t id a { a.ring with poisonFrom := from_ } ∧ (t.sq u).fault = some ⟨eAborted, 0, s.time⟩ ∧ (t.sq u).run = .stopped ∧
      t.mem = s.mem := by
  obtain ⟨fault, stopped, -, launches, mem⟩ := faultLogged_running running eAborted 0 (globalOf (squareCounterAddr u c))
  have found' : (s.faultLogged u eAborted 0 (globalOf (squareCounterAddr u c))).launch id = some l := by
    rw [← found, State.launch, launches, State.launch]
  exact ⟨ringBecomes_modRing found' command _, fault, stopped, mem⟩

end

/-! The credit of a step and the poison of an end. -/

section
variable {s : State} {l : Launch} {u g v : Nat} {bs : List Byte} (here : s.isLocal g = true)
  (answered : (s.localAccess u l.part (g % 2 ^ 44) (.atom 0 8 v) false).2 = .ok bs)
include here answered

theorem cmdAdd_of_ok : s.cmdAdd l u g v = (s.localAccess u l.part (g % 2 ^ 44) (.atom 0 8 v) false).1 := by
  simp only [State.cmdAdd, here, if_true, answered]

theorem tailAdd_of_ok : s.tailAdd l u g v = (s.localAccess u l.part (g % 2 ^ 44) (.atom 0 8 v) false).1 := by
  simp only [State.tailAdd, here, if_true, answered]

end

section
variable {s : State} {id : Nat} {l : Launch} {a : Attn} (runs : ringRuns s id l a) (inHand : a.ring.have_ = true)
  (folded : a.slabFolded = true) (forwarded : a.ring.ticket ≤ (s.sq l.lead).pump.lastDone) (room : s.roomFor 1 = true)
include runs inHand folded forwarded room

/-- A step whose slab is folded and forwarded ends, unless the credit of the predecessor stops the square (R231). -/
theorem ringCredit_steps {t : State} (credited : (if a.ring.step = 0 then s else s.cmdAdd l l.lead a.ringd.prevC 1) = t)
    (homes : onlyHomes s t) : ringBecomes (s.ringCredit id) id a { a.ring with step := a.ring.step + 1, have_ := false } ∧
      (s.ringCredit id).sqCtr = t.sqCtr ∧ (s.ringCredit id).mem = t.mem := by
  have whole := runs
  obtain ⟨found, command, -, active, -⟩ := runs
  have running : (t.sq l.lead).run = .running := by rw [homes]; exact running_of_active active
  have found' : t.launch id = some l := by rw [homes]; exact found
  have ends : s.ringCredit id = t.modRing id (fun r => { r with step := r.step + 1, have_ := false }) := by
    rw [State.ringCredit, ringOf_of_ringRuns whole, if_neg (by simp [inHand, folded, room, forwarded])]
    dsimp only
    rw [credited, if_pos running]
  rw [ends]
  exact ⟨ringBecomes_modRing found' command _, rfl, rfl⟩

end

/-- A neighbour that is told is told by an atomic at its counter, and the one that the poison came from is not (R233). -/
theorem tailAdd_unless {s : State} {l : Launch} {u g v : Nat} {bs : List Byte} (from_ : Prop) [Decidable from_]
    (here : s.isLocal g = true) :
    let told := if from_ then (s, .ok bs) else s.localAccess u l.part (g % 2 ^ 44) (.atom 0 8 v) false
    told.2 = .ok bs → (if from_ then s else s.tailAdd l u g v) = told.1 ∧ onlyHomes s told.1 := by
  intro told answered
  by_cases skipped : from_
  · have same : told = (s, .ok bs) := if_pos skipped
    rw [same, if_pos skipped]
    exact ⟨rfl, onlyHomes.refl s⟩
  · have sent : told = s.localAccess u l.part (g % 2 ^ 44) (.atom 0 8 v) false := if_neg skipped
    rw [sent] at answered ⊢
    rw [if_neg skipped]
    exact ⟨tailAdd_of_ok here answered, onlyHomes_localAccess_atom ..⟩

theorem ringPoison_tells {s s1 s2 : State} {id : Nat} {l : Launch} {a : Attn} (found : s.launch id = some l) (command : l.attn = some a)
    (due : s.poisonDue l = true) (going : s.stop.stopped = false) (room : s.roomFor 2 = true)
    (next : (if a.ring.poisonFrom = 2 then s else s.tailAdd l l.lead a.ringd.nextC (2 ^ 63)) = s1)
    (prev : (if a.ring.poisonFrom = 1 then s1 else s1.tailAdd l l.lead a.ringd.prevC (2 ^ 63)) = s2)
    (homes : onlyHomes s s2) : ringBecomes (s.ringPoison id) id a { a.ring with poisoned := true } ∧
      (s.ringPoison id).sqCtr = s2.sqCtr ∧ (s.ringPoison id).mem = s2.mem := by
  have found' : s2.launch id = some l := by rw [homes]; exact found
  have ends : s.ringPoison id = s2.modRing id (fun r => { r with poisoned := true }) := by
    simp only [State.ringPoison, found, command, due, going, room, next, prev]
    rfl
  rw [ends]
  exact ⟨ringBecomes_modRing found' command _, rfl, rfl⟩

/-- Settles O36: a step forwards or aborts, its end credits the predecessor, and an end poisons the neighbours. -/
theorem ringMembersPassSlabs : Obligations.RingMembersPassSlabs := by
  unfold Obligations.RingMembersPassSlabs
  refine ⟨?step, ?credit, ?poison⟩
  case step =>
    intro s id l a runs empty inSteps st q forwards next
    have whole := runs
    obtain ⟨found, command, -, active, -⟩ := runs
    refine ⟨fun arrived room => ?_, fun later arrived poisoned => ?_⟩
    · have run : exec (.ringStep id) s = .next (s.ringForward id a l.lead st) :=
        congrArg _ (ringStep_forwards whole empty inSteps arrived room)
      by_cases goes : forwards
      · obtain ⟨log, mem, others, slab, pump⟩ := ringForward_queues found command l.lead st goes
        exact ⟨_, run, log, sameMemory.of_mem mem, others, fun _ => ⟨slab, pump⟩, fun no => absurd goes no⟩
      · obtain ⟨log, mem, others, slab, pump⟩ := ringForward_ends found command l.lead st goes
        exact ⟨_, run, log, sameMemory.of_mem mem, others, fun yes => absurd yes goes, fun _ => ⟨slab, pump⟩⟩
    · obtain ⟨slab, fault, stopped, mem⟩ := ringAbort_poisons found command l.lead (running_of_active active) a.desc.cbase 1
      have run : exec (.ringStep id) s = .next (s.ringAbort id l.lead a.desc.cbase 1) :=
        congrArg _ (ringStep_aborts whole empty inSteps later arrived poisoned)
      exact ⟨_, run, slab, fault, stopped, sameMemory.of_mem mem⟩
  case credit =>
    intro s id l a bs runs inHand folded forwarded room r
    refine ⟨fun first => ?_, fun later here _ answered => ?_⟩
    · obtain ⟨slab, counters, mem⟩ := ringCredit_steps runs inHand folded forwarded room (if_pos first) (onlyHomes.refl s)
      rw [first] at slab
      exact ⟨_, rfl, slab, counters, sameMemory.of_mem mem⟩
    · have credited : (if a.ring.step = 0 then s else s.cmdAdd l l.lead a.ringd.prevC 1) = r.1 :=
        (if_neg later).trans (cmdAdd_of_ok here answered)
      exact ⟨_, rfl, ringCredit_steps runs inHand folded forwarded room credited (onlyHomes_localAccess_atom ..)⟩
  case poison =>
    intro s id l a b1 b2 found command due going room hereNext herePrev atom r1 r2 answered1 answered2
    obtain ⟨next, homes1⟩ := tailAdd_unless (l := l) (u := l.lead) (v := 2 ^ 63) (a.ring.poisonFrom = 2) hereNext answered1
    have herePrev' : r1.1.isLocal a.ringd.prevC = true := by rw [homes1]; exact herePrev
    obtain ⟨prev, homes2⟩ := tailAdd_unless (l := l) (u := l.lead) (v := 2 ^ 63) (a.ring.poisonFrom = 1) herePrev' answered2
    exact ⟨_, rfl, ringPoison_tells found command due going room next prev (homes1.trans homes2)⟩

end Sys2Proof.Proofs

/-! The finish of a work item, and O34 (R218, R224, R238, R288, R291). -/

namespace Sys2Proof.Proofs
open Sys2Proof Sys2Proof.Machine

/-! A finish whose first row makes its second one fail, as in `maskedState`: the scale words of two rows lie in one granule of the
reservoir, whose marks of 3 and 2 let either be written at first; the first write clears the mark of 3, and the mark of 2 then refuses
the second. With marks of at most 2 a store only lowers `State.edgeParity`, so that a row that was writable stays so. -/

/-- The command: one record of two query rows for one head, whose single part is merged; their scale words begin the reservoir. -/
def unevenAttn : Attn :=
  { desc := { qpg := 1, kvh := 1, split := 1 }
    recs := [{ nq := 2, oaddr := globalOf 0x5000, osaddr := globalOf reservoirBase }]
    items := [(0, { merged := true })] }

def unevenItem : WorkItem := ⟨0, 0, 0, 0⟩

def unevenLaunch : Launch := { maskedLaunch with kind := .attention, look := none, attn := some unevenAttn }

/-- Square 0 runs the command where it ran the lookup. -/
def unevenState : State :=
  { maskedState with launches := [unevenLaunch], mem := [], parity := [(reservoirBase, 3), (reservoirBase + 4, 2)] }

/-- The output writes of the two rows, as the statement lists them. -/
def unevenWrites : List (Nat × List Byte) :=
  let r := unevenAttn.recs.getD 0 {}
  ((tileRows unevenAttn.desc r 0 0).zipIdx).flatMap (fun x =>
    (unevenAttn.rowOut r (unevenAttn.item unevenItem) x.2 (rowIndex unevenAttn.desc x.1)).1)

theorem unevenState_open : itemOpen unevenState 0 unevenItem unevenLaunch unevenAttn := by
  unfold itemOpen
  decide +kernel

theorem unevenAttn_ready : unevenAttn.rowsReady unevenItem (unevenAttn.item unevenItem) = true := by
  decide +kernel

theorem unevenState_writable : ∀ x, x ∈ unevenWrites → writable unevenState 0 1 x.1 x.2.length true := by
  unfold writable
  decide +kernel

theorem unevenWrites_apart : List.Pairwise (fun x y => x.1 % 2 ^ 44 + x.2.length ≤ y.1 % 2 ^ 44 ∨
    y.1 % 2 ^ 44 + y.2.length ≤ x.1 % 2 ^ 44) unevenWrites := by
  decide +kernel

/-- The second scale word is refused with PARITY, and the refusal is logged. -/
theorem unevenState_logs : (unevenState.finishItem 0 unevenItem).elog.transit.map (fun e => (e.code, e.addr)) =
    [(eParity, globalOf (reservoirBase + 4))] := by
  decide +kernel

/-- Refutes O34: `unevenState` meets every premise of the finish, whose second row is refused and logged all the same. -/
theorem not_attentionFoldsMergesFinishes : ¬ Obligations.AttentionFoldsMergesFinishes := by
  unfold Obligations.AttentionFoldsMergesFinishes
  rintro ⟨-, -, finishes⟩
  obtain ⟨t, run, -, quiet, -⟩ := finishes unevenState 0 unevenItem unevenLaunch unevenAttn unevenState_open unevenAttn_ready
    (by decide +kernel) unevenState_writable unevenWrites_apart
  have after : t = unevenState.finishItem 0 unevenItem := (Host.Outcome.next.inj run).symm
  have logged := unevenState_logs
  rw [← after, quiet] at logged
  exact absurd logged (by decide)

end Sys2Proof.Proofs

/-! Prefix lookups: hashes, probes and pins, and O38 (R239, R248 to R252, R255 to R257). -/

namespace Sys2Proof.Proofs
open Sys2Proof Sys2Proof.Machine

/-! A compare-swap at this module's memory whose comparison holds. -/

theorem ofBytes_lt (bs : List Byte) : ofBytes bs < 2 ^ (8 * bs.length) := by
  induction bs with
  | nil => simp [ofBytes]
  | cons b bs ih =>
    have pow : 2 ^ (8 * (bs.length + 1)) = 256 * 2 ^ (8 * bs.length) := by rw [Nat.mul_add, Nat.pow_add]; omega
    have byte := b.isLt
    simp only [ofBytes, List.length_cons, pow]
    omega

@[simp] theorem length_bytes (s : State) (a n : Nat) : (s.bytes a n).length = n := Table.length_getList ..

/-- The old value that an atomic on 64 bits answers reads back as the word that it found. -/
theorem ofBytes_toBytes_word (s : State) (a : Nat) : ofBytes (toBytes 8 (ofBytes (s.bytes a 8))) = ofBytes (s.bytes a 8) := by
  have fits := ofBytes_lt (s.bytes a 8)
  rw [length_bytes] at fits
  rw [ofBytes_toBytes, Nat.mod_eq_of_lt fits]

/-- The word that a store of 64 bits leaves. -/
theorem ofBytes_store_word (s : State) (a : Nat) {v : Nat} (fits : v < 2 ^ 64) : ofBytes ((s.store a (toBytes 8 v)).bytes a 8) = v := by
  have stored := s.store_bytes a (toBytes 8 v)
  rw [length_toBytes] at stored
  rw [stored, ofBytes_toBytes, Nat.mod_eq_of_lt fits]

/-- A sound word of this module's memory that a unit of a partition may compare-swap (R271, R293). -/
def swappable (s : State) (unit part g : Nat) : Prop :=
  s.isLocal g = true ∧ placeOf s.isM (g % 2 ^ 44) ≠ .reg ∧ placeOf s.isM (g % 2 ^ 44) ≠ .host ∧
    s.checkAcc ⟨unit, part, g % 2 ^ 44, 8, .atom 9 8, false⟩ = 0 ∧ s.parityOf (g % 2 ^ 44) 8 = 0

theorem swappable.of_onlyCounts {s t : State} {unit part g : Nat} (may : swappable s unit part g) (h : onlyCounts s t) :
    swappable t unit part g := by
  rw [h]
  exact may

/-- It stores the new value and answers the old one; beside that counters move. -/
theorem localAccess_cas_swaps {s : State} {unit part g : Nat} (may : swappable s unit part g) {v : Nat} (fits : v < 2 ^ 64) :
    ∃ t, onlyCounts (s.store (g % 2 ^ 44) (toBytes 8 v)) t ∧
      s.localAccess unit part (g % 2 ^ 44) (.cas 8 v (ofBytes (s.bytes (g % 2 ^ 44) 8))) false =
        (t, .ok (toBytes 8 (ofBytes (s.bytes (g % 2 ^ 44) 8)))) := by
  obtain ⟨-, noReg, noHost, pass, sound⟩ := may
  generalize g % 2 ^ 44 = a at *
  have carried := onlyCounts_carryAcc s ⟨unit, part, a, 8, .atom 9 8, false⟩
  have found : s.localAccess unit part a (.cas 8 v (ofBytes (s.bytes a 8))) false = _ := localAccess_memory noReg noHost pass
  have acc : accFor unit part a (.cas 8 v (ofBytes (s.bytes a 8))) false = ⟨unit, part, a, 8, .atom 9 8, false⟩ := rfl
  rw [acc] at found
  generalize s.carryAcc ⟨unit, part, a, 8, .atom 9 8, false⟩ = c at carried found
  have sound' : c.parityOf a 8 = 0 := by rw [carried]; exact sound
  have read := onlyCounts_countHomes c a 0 8
  have old : c.bytes a 8 = s.bytes a 8 := by rw [carried]; rfl
  have word := ofBytes_lt (s.bytes a 8)
  rw [length_bytes] at word
  have new : atomicNew 9 (8 * 8) (ofBytes (s.bytes a 8)) v (ofBytes (s.bytes a 8)) = v := by
    simp only [atomicNew, Nat.mod_eq_of_lt word, Nat.mod_eq_of_lt fits, if_true]
  refine ⟨(c.countHomes a 0 8).homeMerge a (toBytes 8 v), ((carried.trans read).store _ _).trans (onlyCounts_homeMerge _ _ _), ?_⟩
  rw [found, State.memAccess, State.homeAtomic, homeRead_of_sound sound', old]
  simp only [new]

theorem farAccess_cas_swaps {s : State} {unit part g : Nat} (may : swappable s unit part g) {v : Nat} (fits : v < 2 ^ 64)
    (o : FarOwner) (x : Txn) : ∃ t, onlyCounts (s.store (g % 2 ^ 44) (toBytes 8 v)) t ∧
      s.farAccess o unit part g (.cas 8 v (ofBytes (s.bytes (g % 2 ^ 44) 8))) false x =
        (t, .ok (toBytes 8 (ofBytes (s.bytes (g % 2 ^ 44) 8)))) := by
  obtain ⟨t, stored, swapped⟩ := localAccess_cas_swaps may fits
  exact ⟨t, stored, by simp only [State.farAccess, may.1, if_true, swapped]⟩

/-- A sound read that passes its checks. -/
theorem accRead_of_sound {s : State} {x : Acc} (pass : s.checkAcc x = 0) (sound : s.parityOf x.addr x.len = 0) :
    ∃ t, onlyCounts s t ∧ s.accRead x = (t, .ok (s.bytes x.addr x.len)) := by
  have carried := onlyCounts_carryAcc s x
  have sound' : (s.carryAcc x).parityOf x.addr x.len = 0 := by rw [carried]; exact sound
  have same : (s.carryAcc x).bytes x.addr x.len = s.bytes x.addr x.len := by rw [carried]; rfl
  refine ⟨(s.carryAcc x).countHomes x.addr 0 x.len, carried.trans (onlyCounts_countHomes _ _ _ _), ?_⟩
  simp only [State.accRead, pass, ne_eq, not_true_eq_false, if_false, homeRead_of_sound sound', same]

/-! The request of a lookup. -/

section
variable {s t : State} {u req : Nat} {l : Launch} {k : Lookup} {r : LookReq} (opened : requestOpen s u req l k r)
include opened

theorem lookItem_of_requestOpen (f : Launch → Lookup → LookReq → State) : s.lookItem u req f = f l k r := by
  obtain ⟨on, command, listed, mine, unwritten⟩ := opened
  simp [State.lookItem, on, command, listed, mine, unwritten]

theorem requestBecomes_modReq (same : t.launches = s.launches) (f : LookReq → LookReq) :
    requestBecomes (t.modReq l.id req f) l k req (f r) := by
  obtain ⟨on, command, listed, -⟩ := opened
  have found : t.launch l.id = some l := by rw [State.launch, same, ← State.launch, launchOn_id on]
  have changed : (t.modReq l.id req f).launch l.id =
      some { l with look := l.look.map (fun k => { k with reqs := k.reqs.modify req f }) } := by
    rw [State.modReq, launch_modLaunch t l.id (f := fun l => { l with look := l.look.map (fun k => { k with reqs := k.reqs.modify req f }) })
      (fun _ => rfl), found]
    rfl
  exact ⟨_, _, changed, congrArg (Option.map _) command, by simp [listed], fun j other => by simp [Ne.symm other]⟩

end

theorem onlyProgress_modReq (s : State) (id req : Nat) (f : LookReq → LookReq) : onlyProgress s (s.modReq id req f) := rfl

theorem onlyProgress_forgetFar (s : State) (o : FarOwner) : onlyProgress s (s.forgetFar o) := rfl

section
variable (s : State) (id req : Nat) (f : LookReq → LookReq) (o : FarOwner)
@[simp] theorem modReq_sq (v : Nat) : (s.modReq id req f).sq v = s.sq v := rfl
@[simp] theorem modReq_elog : (s.modReq id req f).elog = s.elog := rfl
@[simp] theorem modReq_mem : (s.modReq id req f).mem = s.mem := rfl
@[simp] theorem forgetFar_sq (v : Nat) : (s.forgetFar o).sq v = s.sq v := rfl
@[simp] theorem forgetFar_elog : (s.forgetFar o).elog = s.elog := rfl
@[simp] theorem forgetFar_mem : (s.forgetFar o).mem = s.mem := rfl
@[simp] theorem forgetFar_launches : (s.forgetFar o).launches = s.launches := rfl
end

theorem onlyCounts.symm {s t : State} (h : onlyCounts s t) : onlyCounts t s := by
  unfold onlyCounts at *
  rw [h]

/-! The chain of hashes (R248, R249). -/

theorem length_chainHashes (n T : Nat) (key prev : Reg64) (toks : List Nat) : (chainHashes T key n prev toks).length = n := by
  induction n generalizing prev toks with
  | zero => rfl
  | succ n ih => simp [chainHashes, ih]

theorem chainHashes_succ (n T : Nat) (key prev : Reg64) (toks : List Nat) : chainHashes T key (n + 1) prev toks =
    blockHash prev (toks.take T) T key :: chainHashes T key n (blockHash prev (toks.take T) T key) (toks.drop T) := rfl

theorem chainHashes_getD (n T : Nat) (key prev : Reg64) (toks : List Nat) {b : Nat} (hb : b < n) :
    (chainHashes T key n prev toks).getD b 0 = blockHash (if b = 0 then prev else (chainHashes T key n prev toks).getD (b - 1) 0)
      ((toks.drop (b * T)).take T) T key := by
  induction n generalizing prev toks b with
  | zero => omega
  | succ n ih =>
    rw [chainHashes_succ]
    cases b with
    | zero => rw [List.getD_cons_zero, if_pos rfl, Nat.zero_mul, List.drop_zero]
    | succ b =>
      have rest := ih (blockHash prev (toks.take T) T key) (toks.drop T) (b := b) (by omega)
      have from_ : T + b * T = (b + 1) * T := by rw [Nat.add_mul, Nat.one_mul, Nat.add_comm]
      rw [List.drop_drop, from_] at rest
      rw [List.getD_cons_succ, rest, if_neg (Nat.succ_ne_zero b), Nat.add_sub_cancel]
      cases b with
      | zero => rw [if_pos rfl, List.getD_cons_zero]
      | succ b => rw [if_neg (Nat.succ_ne_zero b), List.getD_cons_succ, Nat.add_sub_cancel]

/-! The probe window (R250 to R252). -/

/-- Slot `i` of the probe window of a hash can be read, and says this of block `b`. -/
def slotTells (s : State) (u part : Nat) (h prev : Reg64) (b i : Nat) (out : ProbeOut) : Prop :=
  s.checkAcc ⟨u, part, probeSlot (s.part part) h i, 64, .read, true⟩ = 0 ∧ s.parityOf (probeSlot (s.part part) h i) 64 = 0 ∧
    probeNode (ofBytes (s.bytes (probeSlot (s.part part) h i) 64)) h prev b = out

theorem slotTells.of_onlyCounts {s t : State} {u part b i : Nat} {h prev : Reg64} {out : ProbeOut} (k : onlyCounts s t)
    (tells : slotTells s u part h prev b i out) : slotTells t u part h prev b i out := by
  rw [k]
  exact tells

/-- What ends a scan at a slot: it is empty, or holds the node sought. -/
def scanEnds (a : Nat) (c : Option (Nat × Nat)) (out : ProbeOut) : Prop :=
  out = .empty ∧ c = none ∨ ∃ brec, out = .hit brec ∧ c = some (a, brec)

/-- A scan passes the slots that hold other nodes and ends at the first one that does not. -/
theorem scanWindow_finds {u part b m : Nat} {h prev : Reg64} {c : Option (Nat × Nat)} {out : ProbeOut} {s : State} {n i : Nat}
    (more : m < n) (skips : ∀ j, j < m → slotTells s u part h prev b (i + j) .skip)
    (last : slotTells s u part h prev b (i + m) out) (ends : scanEnds (probeSlot (s.part part) h (i + m)) c out) :
    ∃ t, onlyCounts s t ∧ s.scanWindow u part h prev b n i = (t, .ok c) := by
  induction m generalizing s n i with
  | zero =>
    obtain ⟨n, rfl⟩ : ∃ k, n = k + 1 := ⟨n - 1, by omega⟩
    obtain ⟨pass, sound, node⟩ := last
    obtain ⟨t, counts, read⟩ := accRead_of_sound pass sound
    refine ⟨t, counts, ?_⟩
    rw [Nat.add_zero] at *
    rw [State.scanWindow]
    unfold probeSlot at *
    dsimp only at read ⊢
    rw [read]
    dsimp only
    rw [node]
    obtain ⟨rfl, rfl⟩ | ⟨brec, rfl, rfl⟩ := ends <;> rfl
  | succ m ih =>
    obtain ⟨n, rfl⟩ : ∃ k, n = k + 1 := ⟨n - 1, by omega⟩
    obtain ⟨pass, sound, node⟩ := skips 0 (by omega)
    obtain ⟨v, counts, read⟩ := accRead_of_sound pass sound
    have places : v.part part = s.part part := by rw [counts]; rfl
    have next : i + (m + 1) = i + 1 + m := by omega
    rw [next] at last ends
    obtain ⟨t, more, rest⟩ := ih (s := v) (n := n) (i := i + 1) (by omega)
      (fun j hj => Nat.add_right_comm i 1 j ▸ (skips (j + 1) (by omega)).of_onlyCounts counts)
      (last.of_onlyCounts counts) (places ▸ ends)
    refine ⟨t, counts.trans more, ?_⟩
    rw [State.scanWindow]
    rw [Nat.add_zero] at read node
    unfold probeSlot at read node
    dsimp only at read ⊢
    rw [read]
    dsimp only
    rw [node]
    exact rest

/-! The hashing and the probing of a request. -/

section
variable {s : State} {u req : Nat} {l : Launch} {k : Lookup} {r : LookReq} (opened : requestOpen s u req l k r)
include opened

theorem lookRequest_hashes {bs : List Byte} (unhashed : r.hashed = false) (blocks : k.blockCount r ≠ 0)
    (reads : readsAs s u l.part r.tok (4 * (k.blockCount r * k.tokens)) true bs) :
    let ws := words32 bs (k.blockCount r * k.tokens)
    ∃ t, onlyCounts s t ∧ s.lookRequest u req = (t.forgetFar (.request l.id req)).modReq l.id req (fun x => { x with
      hashed := true, toks := ws, hashes := chainHashes k.tokens (s.part l.part).pfxKey (k.blockCount r) 0 ws }) := by
  intro ws
  obtain ⟨t, counts, read⟩ := cmdRead_of_readsAs reads (.request l.id req) (fun t bs =>
    (t.forgetFar (.request l.id req)).modReq l.id req (fun x => { x with
      hashed := true, toks := words32 bs (k.blockCount r * k.tokens)
      hashes := chainHashes k.tokens (t.part l.part).pfxKey (k.blockCount r) 0 (words32 bs (k.blockCount r * k.tokens)) }))
  have key : t.part l.part = s.part l.part := by rw [counts]; rfl
  refine ⟨t, counts, ?_⟩
  rw [State.lookRequest, lookItem_of_requestOpen opened]
  simp only [unhashed, beq_iff_eq, blocks, Bool.not_false, Bool.true_and, if_true, if_false]
  rw [read, key]

theorem lookRequest_probes {c : Option (Nat × Nat)} {v : State} (hashed : r.hashed = true) (going : r.stop = none)
    (more : r.probe < k.blockCount r) (window : r.probe < r.committed + 8) (found : ∀ c, c ∈ r.cands → c.2 ≠ none)
    (probed : s.probe u l.part r r.probe = (v, .ok c)) :
    s.lookRequest u req = v.modReq l.id req (fun y => { y with probe := r.probe + 1, cands := r.cands ++ [(r.probe, c)] }) := by
  have nodes : r.cands.any (fun c => c.2.isNone) = false := by
    rw [List.any_eq_false]
    exact fun c hc none => found c hc (Option.isNone_iff_eq_none.mp none)
  rw [State.lookRequest, lookItem_of_requestOpen opened]
  simp [hashed, going, Nat.not_le.mpr more, Nat.not_le.mpr window, nodes, probed]

/-- A request that stops keeps everything but its cause and its candidates. -/
theorem stopReq_stops {t : State} (counts : onlyCounts s t) (code : Nat) :
    let v := t.stopReq l.id req code
    requestBecomes v l k req { r with stop := some code, cands := [] } ∧ v.squares = s.squares ∧ v.elog = s.elog ∧ sameMemory s v := by
  have progress : onlyProgress s (t.stopReq l.id req code) :=
    (counts.onlyProgress.trans (onlyProgress_forgetFar _ _)).trans (onlyProgress_modReq _ _ _ _)
  exact ⟨requestBecomes_modReq opened (t := t.forgetFar _) counts.launches _, progress.squares, progress.elog, progress.sameMemory⟩

end

theorem exec_lookupRequest (s : State) (u : SquareId) (req : Nat) : exec (.lookupRequest u req) s = .next (s.lookRequest u.val req) := rfl

theorem lookups_hash_and_probe : lookupsHashAndProbe := by
  unfold lookupsHashAndProbe
  intro s u req l k r opened nb
  constructor
  case left =>
    intro bs unhashed blocks reads
    obtain ⟨t, counts, run⟩ := lookRequest_hashes opened unhashed blocks reads
    have progress := (counts.onlyProgress.trans (onlyProgress_forgetFar t (.request l.id req)))
    exact ⟨_, _, (exec_lookupRequest s u req).trans (congrArg _ run), requestBecomes_modReq opened (t := t.forgetFar _) counts.launches _,
      length_chainHashes .., fun b hb => chainHashes_getD _ _ _ _ _ hb, progress.squares, progress.elog, progress.sameMemory⟩
  case right =>
    intro hashed going more window found enabled h prev slot tells n c inWindow sound skips ends
    have told (i : Nat) (hi : i ≤ n) : slotTells s u.val l.part h prev r.probe (0 + i) (tells i) := by
      rw [Nat.zero_add]
      exact ⟨(sound i hi).1, (sound i hi).2, rfl⟩
    obtain ⟨t, counts, scan⟩ := scanWindow_finds inWindow
      (fun i hi => skips i hi ▸ told i hi.le) (told n le_rfl) (c := c) (by rw [Nat.zero_add]; exact ends)
    have probed : s.probe u.val l.part r r.probe = (t, .ok c) := (if_neg enabled).trans scan
    have progress := counts.onlyProgress
    exact ⟨_, (exec_lookupRequest s u req).trans (congrArg _ (lookRequest_probes opened hashed going more window found probed)),
      requestBecomes_modReq opened counts.launches _, progress.squares, progress.elog, progress.sameMemory⟩

/-! The pin of a candidate (R239, R255, R257). -/

theorem exec_lookupBlockPin (s : State) (u : SquareId) (req : Nat) : exec (.lookupBlockPin u req) s = .next (s.pinBlock u.val req) := rfl

section
variable {s : State} {u req : Nat} {l : Launch} {k : Lookup} {r : LookReq} (opened : requestOpen s u req l k r)
include opened

theorem pinBlock_without_candidate {b : Nat} {rest : List (Nat × Option (Nat × Nat))} (first : r.cands = (b, none) :: rest) :
    s.pinBlock u req = s.stopReq l.id req 1 := by
  simp [State.pinBlock, lookItem_of_requestOpen opened, first]

theorem pinBlock_without_record {b node : Nat} {rest : List (Nat × Option (Nat × Nat))} (first : r.cands = (b, some (node, 0)) :: rest) :
    s.pinBlock u req = s.stopReq l.id req 2 := by
  simp [State.pinBlock, lookItem_of_requestOpen opened, first]

/-- The count word of a record, once it has been pinned (R239). -/
def pinnedWord (old : Nat) : Nat := countWord ((old + 1) % 2 ^ 32) (bits old 32 3)

omit opened in
theorem pinnedWord_lt (old : Nat) : pinnedWord old < 2 ^ 64 := by
  have rest : bits old 32 3 < 2 ^ 3 := Nat.mod_lt _ (by decide)
  unfold pinnedWord countWord
  omega

variable {b node brec : Nat} {rest : List (Nat × Option (Nat × Nat))} {wb : List Byte}
  (first : r.cands = (b, some (node, brec)) :: rest) (named : brec ≠ 0) (room : s.roomFor 4 = true)
  (reads : readsAs s u l.part brec 8 true wb)
include first named room reads

/-- The pin of a record whose count word has been read. -/
theorem pinBlock_reads : ∃ t, onlyCounts s t ∧ s.pinBlock u req =
    if bits (ofBytes wb) 32 2 = 1 then t.stopReq l.id req 2
    else if bits (ofBytes wb) 32 2 ≠ 0 then t.stopReq l.id req 4
    else
      let k' := AccessKind.cas 8 (pinnedWord (ofBytes wb)) (ofBytes wb)
      let y := t.farAccess (.request l.id req) u l.part brec k' false (txnFor k')
      match y.2 with
      | .wait => y.1
      | .err e lg => y.1.cmdFault u e brec lg
      | .ok got => if ofBytes got = ofBytes wb then y.1.verifyPin l k r u req b node brec else y.1.forgetFar (.request l.id req) := by
  obtain ⟨t, counts, read⟩ := farAccess_of_readsAs reads (.request l.id req) { type := 2, len := 8 }
  refine ⟨t, counts, ?_⟩
  rw [State.pinBlock, lookItem_of_requestOpen opened, first]
  simp only [named, room, if_false, Bool.not_true, Bool.false_eq_true]
  rw [read]
  rfl

/-- The compare-swap of a live record's count word, after which the record is verified. -/
theorem pinBlock_swaps (live : bits (ofBytes wb) 32 2 = 0) (pass : s.checkAcc ⟨u, l.part, brec % 2 ^ 44, 8, .atom 9 8, false⟩ = 0) :
    ∃ t, onlyCounts (s.localAccess u l.part (brec % 2 ^ 44) (.cas 8 (pinnedWord (ofBytes wb)) (ofBytes wb)) false).1 t ∧
      onlyCounts (s.store (brec % 2 ^ 44) (toBytes 8 (pinnedWord (ofBytes wb)))) t ∧
      s.pinBlock u req = t.verifyPin l k r u req b node brec := by
  obtain ⟨v, counts, run⟩ := pinBlock_reads opened first named room reads
  obtain ⟨here, noReg, noHost, -, sound, rfl⟩ := reads
  have may : swappable s u l.part brec := ⟨here, noReg, noHost, pass, sound⟩
  have held : v.bytes (brec % 2 ^ 44) 8 = s.bytes (brec % 2 ^ 44) 8 := by rw [counts]; rfl
  obtain ⟨w, stored, swap⟩ := localAccess_cas_swaps may (pinnedWord_lt (ofBytes (s.bytes (brec % 2 ^ 44) 8)))
  obtain ⟨t, stored', swap'⟩ := farAccess_cas_swaps (may.of_onlyCounts counts) (pinnedWord_lt (ofBytes (s.bytes (brec % 2 ^ 44) 8)))
    (.request l.id req) (txnFor (.cas 8 (pinnedWord (ofBytes (s.bytes (brec % 2 ^ 44) 8))) (ofBytes (s.bytes (brec % 2 ^ 44) 8))))
  have agree := (counts.store (brec % 2 ^ 44) (toBytes 8 (pinnedWord (ofBytes (s.bytes (brec % 2 ^ 44) 8))))).trans stored'
  rw [held] at swap'
  refine ⟨t, ?_, agree, ?_⟩
  · rw [swap]
    exact stored.symm.trans agree
  · rw [run]
    simp only [live, Nat.zero_ne_one, if_false, ne_eq, not_true_eq_false, swap', ofBytes_toBytes_word, if_true]

end

/-! The blocks of a page are read, which moves counters alone. -/

theorem onlyCounts_accReadIf (c : Prop) [Decidable c] (s : State) (x : Acc) :
    onlyCounts s (if c then s.accRead x else (s, .ok [])).1 := by
  split
  · exact onlyCounts_accRead s x
  · exact onlyCounts.refl s

theorem onlyCounts_readBlock (s : State) (u part : Nat) (rs : List Region) (old : Table Byte) (a : Nat) :
    onlyCounts s (s.readBlock u part rs old a).1 := by
  unfold State.readBlock
  generalize localBlock s.isM rs a = i
  dsimp only
  by_cases plain : i.cls ≠ 3
  · have read := onlyCounts_accRead s ⟨u, part, a, if i.cls = 0 then 256 else lossySize i.cls, .read, true⟩
    rw [if_pos plain]
    split <;> exact read
  · have tag := onlyCounts_accRead s ⟨u, part, i.tag % 2 ^ 44, 4, .read, true⟩
    rw [if_neg plain]
    split
    · exact tag
    · have stored (c : Prop) [Decidable c] (x : Acc) := tag.trans (onlyCounts_accReadIf c _ x)
      split
      · exact stored _ _
      · split
        · exact stored _ _
        · split <;> exact stored _ _

theorem onlyCounts_readBlocks (s : State) (u part : Nat) (rs : List Region) (old : Table Byte) (n a : Nat) (got : List Byte) :
    onlyCounts s (s.readBlocks u part rs old n a got).1 := by
  induction n generalizing s a got with
  | zero => exact onlyCounts.refl s
  | succ n ih =>
    have read := onlyCounts_readBlock s u part rs old a
    rw [State.readBlocks]
    split
    · exact read
    · exact read.trans (ih _ _ _)

/-- The request's first candidate is pinned: the square acquires, and the pin is noted. -/
def notePin (s : State) (u id req : Nat) (pin : Nat × Nat × Nat) : State :=
  ((s.acquire u 3).forgetFar (.request id req)).modReq id req (fun z => { z with cands := z.cands.tail, pins := z.pins ++ [pin] })

theorem notePin_keeps (s : State) (u id req : Nat) (pin : Nat × Nat × Nat) : (notePin s u id req pin).elog = s.elog ∧
    (notePin s u id req pin).mem = s.mem ∧ ∀ v, v ≠ u → (notePin s u id req pin).sq v = s.sq v := by
  have acquired : s.acquire u 3 = s.modSq u (fun q => { q with near := [], atOps := q.atOps.map (fun o => { o with fill := false }) }) :=
    if_neg (by decide)
  rw [notePin, acquired]
  exact ⟨by simp, by simp, fun v other => by simp [State.modSq_sq, other]⟩

theorem acquire_launches (s : State) (u scope : Nat) : (s.acquire u scope).launches = s.launches := by
  unfold State.acquire
  split <;> rfl

/-- A record whose header and first page agree with the request is pinned for it (R255). -/
theorem verifyPin_pins {s t : State} {u req b node brec : Nat} {l : Launch} {k : Lookup} {r : LookReq} {rb pb : List Byte} {rs : List Region}
    (counts : onlyCounts s t) (reads : readsAs s u l.part brec 72 true rb) (header : recordOk k (ofBytes (rb.take 64)) = true)
    (entry : (ofBytes (slice rb 64 8)).testBit 63 = true) (regions : s.readRegions u l.part = .ok rs)
    (page : (s.readBlocks u l.part rs s.mem 2 (bits (ofBytes (slice rb 64 8)) 15 29 * 32768) []).2 = .ok pb)
    (agrees : pageMatches k b r.toks pb = true) :
    ∃ v, onlyCounts s v ∧ t.verifyPin l k r u req b node brec = notePin v u l.id req (b, brec, node) := by
  obtain ⟨w, more, read⟩ := readFar_of_readsAs (readsAs_of_onlyCounts counts reads) (.request l.id req)
  have progress : onlyProgress s w := (counts.trans more).onlyProgress
  have mem : w.mem = s.mem := by rw [progress]
  have regions' : w.readRegions u l.part = .ok rs := (progress.readRegions u l.part).trans regions
  have page' := (progress.readBlocks u l.part rs w.mem 2 (bits (ofBytes (slice rb 64 8)) 15 29 * 32768) []).trans (mem ▸ page)
  have pages := onlyCounts_readBlocks w u l.part rs w.mem 2 (bits (ofBytes (slice rb 64 8)) 15 29 * 32768) []
  refine ⟨_, (counts.trans more).trans pages, ?_⟩
  rw [State.verifyPin]
  dsimp only
  rw [read]
  simp only [header, entry, Bool.not_true, Bool.false_eq_true, if_false, regions', page', agrees, if_true]
  rfl

theorem lookups_pin_blocks : lookupsPinBlocks := by
  unfold lookupsPinBlocks
  intro s u req l k r rest b opened stopsWith
  have stops {t : State} {code : Nat} (counts : onlyCounts s t) (run : s.pinBlock u.val req = t.stopReq l.id req code) : stopsWith code :=
    ⟨_, (exec_lookupBlockPin s u req).trans (congrArg _ run), stopReq_stops opened counts code⟩
  refine ⟨?missing, ?unrecorded, ?recorded⟩
  case missing => exact fun first => stops (onlyCounts.refl s) (pinBlock_without_candidate opened first)
  case unrecorded => exact fun node first => stops (onlyCounts.refl s) (pinBlock_without_record opened first)
  case recorded =>
    intro node brec wb first named room reads a old new after
    obtain ⟨t, counts, run⟩ := pinBlock_reads opened first named room reads
    refine ⟨fun moving => stops counts (run.trans (if_pos moving)), fun dead => stops counts ?_, ?live⟩
    · rw [run, dead]
      rfl
    case live =>
      intro rb rs pb live pass header recordOk e valid regions page agrees
      obtain ⟨t, counts, stored, run⟩ := pinBlock_swaps opened first named room reads live pass
      obtain ⟨v, more, verified⟩ := verifyPin_pins (req := req) (node := node) counts header recordOk valid regions page agrees
      have counts : onlyCounts (s.store a (toBytes 8 new)) v := stored.trans (counts.symm.trans more)
      obtain ⟨elog, mem, others⟩ := notePin_keeps v u.val l.id req (b, brec, node)
      have memory : sameMemory (s.store a (toBytes 8 new)) (notePin v u.val l.id req (b, brec, node)) :=
        sameMemory.of_mem (mem.trans (by rw [counts]))
      have alone := State.store_sameMemoryBut s a (toBytes 8 new)
      rw [length_toBytes] at alone
      refine ⟨_, (exec_lookupBlockPin s u req).trans (congrArg _ (run.trans verified)), ?_, ?_, ?_, ?_, fun other hne => ?_⟩
      · have tail : r.cands.tail = rest := by rw [first, List.tail_cons]
        have launches : ((v.acquire u.val 3).forgetFar (.request l.id req)).launches = s.launches := by
          rw [forgetFar_launches, acquire_launches, counts.launches]
          rfl
        rw [← tail]
        exact requestBecomes_modReq opened launches _
      · rw [memory.bytes]
        exact ofBytes_store_word s a (pinnedWord_lt _)
      · exact fun k outside => (memory k).trans (alone k outside)
      · rw [elog, counts.onlyProgress.elog]
        rfl
      · rw [others other hne, counts.onlyProgress.sq]
        rfl

/-- Settles O38: a scan ends at the first slot that is empty or holds the node, and a pin is a compare-swap whose comparison holds. -/
theorem lookupsProbeAndPin : Obligations.LookupsProbeAndPin := ⟨lookups_hash_and_probe, lookups_pin_blocks⟩

end Sys2Proof.Proofs

/-! Partition resets: the triggers (R383, R384, R525). -/

namespace Sys2Proof.Proofs
open Sys2Proof Sys2Proof.Machine

/-! What holds after a change for each entry of a list. -/

section
variable {α : Type} {f : State → α → State} {P Q : State → Prop}

theorem forAll_keeps {xs : List α} (keeps : ∀ t x, x ∈ xs → P t → P (f t x)) {s : State} (h : P s) : P (forAll xs f s) := by
  induction xs generalizing s with
  | nil => exact h
  | cons x xs ih => exact ih (fun t y hy => keeps t y (List.mem_cons_of_mem _ hy)) (keeps s x (List.mem_cons_self ..) h)

/-- What one entry brings about, and the others keep, holds at the end. -/
theorem forAll_reaches {xs : List α} {x : α} (mem : x ∈ xs) (makes : ∀ t, P t → Q (f t x)) (keepP : ∀ t y, P t → P (f t y))
    (keepQ : ∀ t y, Q t → Q (f t y)) {s : State} (h : P s) : Q (forAll xs f s) := by
  induction xs generalizing s with
  | nil => cases mem
  | cons y xs ih =>
    rcases List.mem_cons.mp mem with rfl | later
    · exact forAll_keeps (s := f s x) (fun t y _ => keepQ t y) (makes s h)
    · exact ih later (keepP s y h)

end

/-! Traces of a reset's steps (R385, R508). -/

/-- Besides counters and trace records the state is unchanged. -/
def onlyTraces (s t : State) : Prop :=
  t = { s with ctr := t.ctr, parts := t.parts, trcQ := t.trcQ } ∧ ∀ q, t.part q = { s.part q with trc := (t.part q).trc }

theorem onlyTraces_traceStep (s : State) (p step : Nat) : onlyTraces s (s.traceStep p step) := by
  unfold State.traceStep State.trace
  split
  · have free (t : State) : t.traceCost 6 0 = t := if_neg (by decide)
    rw [free]
    unfold State.traceRaw
    split
    · refine ⟨rfl, fun q => ?_⟩
      rw [State.modPart_part]
      split
      · next same => rw [same]; rfl
      · rfl
    · exact ⟨rfl, fun _ => rfl⟩
  · exact ⟨rfl, fun _ => rfl⟩

/-! A reset begins. -/

/-- A core may only be told to halt. -/
def coreHalts (h g : Hart) : Prop := g.valid = h.valid ∧ g.part = h.part ∧ (h.run = false → g.run = false)

/-- What moderation owes a partition stays owed, a reset of it that runs goes on, and its function is given no new right. -/
def partKeeps (x y : Part) : Prop :=
  y.moderation = x.moderation ∧ (x.reset.resetting = true → y.reset = x.reset) ∧ (x.fn.busMaster = false → y.fn.busMaster = false) ∧
    (x.fn.memSpace = false → y.fn.memSpace = false) ∧ (x.fn.msixEn = false → y.fn.msixEn = false)

theorem coreHalts.refl (h : Hart) : coreHalts h h := ⟨rfl, rfl, id⟩

theorem coreHalts.trans {h g k : Hart} (first : coreHalts h g) (second : coreHalts g k) : coreHalts h k := by
  obtain ⟨valid, part, run⟩ := first
  obtain ⟨valid', part', run'⟩ := second
  exact ⟨valid'.trans valid, part'.trans part, run' ∘ run⟩

theorem partKeeps.refl (x : Part) : partKeeps x x := ⟨rfl, fun _ => rfl, id, id, id⟩

theorem partKeeps.trans {x y z : Part} (first : partKeeps x y) (second : partKeeps y z) : partKeeps x z := by
  obtain ⟨owed, running, master, space, msix⟩ := first
  obtain ⟨owed', running', master', space', msix'⟩ := second
  exact ⟨owed'.trans owed, fun on => (running' (by rw [running on, on])).trans (running on), master' ∘ master, space' ∘ space, msix' ∘ msix⟩

/-- Between two states only resets of partitions and functions begin. -/
def resetsBegin (s t : State) : Prop :=
  t = { s with parts := t.parts, harts := t.harts, ctr := t.ctr, trcQ := t.trcQ } ∧ (∀ c, coreHalts (s.hart c) (t.hart c)) ∧
    ∀ q, partKeeps (s.part q) (t.part q)

theorem resetsBegin.refl (s : State) : resetsBegin s s := ⟨rfl, fun _ => coreHalts.refl _, fun _ => partKeeps.refl _⟩

theorem resetsBegin.trans {s t u : State} (h : resetsBegin s t) (k : resetsBegin t u) : resetsBegin s u := by
  obtain ⟨rest, cores, parts⟩ := h
  obtain ⟨rest', cores', parts'⟩ := k
  exact ⟨by rw [rest', rest], fun c => (cores c).trans (cores' c), fun q => (parts q).trans (parts' q)⟩

theorem onlyTraces.resetsBegin {s t : State} (h : onlyTraces s t) : resetsBegin s t := by
  obtain ⟨rest, parts⟩ := h
  refine ⟨by rw [rest], fun c => ?_, fun q => ?_⟩
  · rw [rest]
    exact coreHalts.refl _
  · rw [parts]
    exact partKeeps.refl (s.part q)

theorem resetsBegin_modPart {s : State} {p : Nat} {f : Part → Part} (keeps : partKeeps (s.part p) (f (s.part p))) :
    resetsBegin s (s.modPart p f) := by
  refine ⟨rfl, fun _ => coreHalts.refl _, fun q => ?_⟩
  rw [State.modPart_part]
  split
  · next same => exact same ▸ keeps
  · exact partKeeps.refl _

theorem resetsBegin_modHart {s : State} {c : Nat} {f : Hart → Hart} (halts : coreHalts (s.hart c) (f (s.hart c))) :
    resetsBegin s (s.modHart c f) := by
  refine ⟨rfl, fun k => ?_, fun _ => partKeeps.refl _⟩
  rw [State.modHart_hart]
  split
  · next same => exact same ▸ halts
  · exact coreHalts.refl _

/-- Every core of a partition is told to halt (R384). -/
def haltCores (s : State) (p : Nat) : State :=
  forAll (upto 48) (fun t c => t.modHart c (fun h => if h.valid ∧ h.part = p then { h with run := false } else h)) s

theorem resetsBegin_haltCore (s : State) (p c : Nat) :
    resetsBegin s (s.modHart c (fun h => if h.valid ∧ h.part = p then { h with run := false } else h)) := by
  refine resetsBegin_modHart ?_
  split
  · exact ⟨rfl, rfl, fun _ => rfl⟩
  · exact coreHalts.refl _

theorem resetsBegin_haltCores (s : State) (p : Nat) : resetsBegin s (haltCores s p) :=
  forAll_keeps (P := resetsBegin s) (fun t c _ h => h.trans (resetsBegin_haltCore t p c)) (resetsBegin.refl s)

theorem haltCores_part (s : State) (p q : Nat) : (haltCores s p).part q = s.part q := by
  unfold haltCores
  exact forAll_keeps (P := fun t => t.part q = s.part q) (fun _ _ _ h => (State.modHart_part ..).trans h) rfl

theorem haltCores_halts {s : State} {p c : Nat} (listed : c < 48) (valid : (s.hart c).valid = true) (part : (s.hart c).part = p) :
    ((haltCores s p).hart c).run = false := by
  refine forAll_reaches (P := resetsBegin s) (Q := fun t => (t.hart c).run = false) (List.mem_range.mpr listed) (fun t h => ?_)
    (fun t y h => h.trans (resetsBegin_haltCore t p y)) (fun t y h => ?_) (resetsBegin.refl s)
  · obtain ⟨-, cores, -⟩ := h
    obtain ⟨valid', part', -⟩ := cores c
    simp [valid', part', valid, part]
  · obtain ⟨-, cores, -⟩ := resetsBegin_haltCore t p y
    exact (cores c).2.2 h

/-- Step 1 in the partition (R384). -/
def startReset (byP0 : Bool) (x : Part) : Part :=
  { x with
    reset := { resetting := true, done := x.reset.done, stage := 1, byP0 := byP0 }
    fn := if byP0 then { x.fn with pend := [] } else x.fn }

theorem beginReset_eq (s : State) (p : Nat) (byP0 : Bool) : s.beginReset p byP0 =
    (haltCores (s.modPart p (startReset byP0)) p).traceStep p 1 := rfl

theorem resetBegun_of_before {s t u : State} {p : Nat} (h : resetsBegin s t) (begun : resetBegun t u p) : resetBegun s u p := by
  obtain ⟨-, cores, parts⟩ := h
  obtain ⟨resetting, stage, owed, halted⟩ := begun
  obtain ⟨owed', -⟩ := parts p
  refine ⟨resetting, stage, owed.trans owed', fun c valid part listed => ?_⟩
  obtain ⟨valid', part', -⟩ := cores c
  exact halted c (valid'.trans valid) (part'.trans part) listed

theorem resetBegun_later {s t u : State} {p : Nat} (begun : resetBegun s t p) (h : resetsBegin t u) : resetBegun s u p := by
  obtain ⟨-, cores, parts⟩ := h
  obtain ⟨resetting, stage, owed, halted⟩ := begun
  obtain ⟨owed', running, -⟩ := parts p
  have same := running resetting
  exact ⟨by rw [same, resetting], by rw [same, stage], owed'.trans owed, fun c valid part listed => (cores c).2.2 (halted c valid part listed)⟩

section
variable {s : State} {p : Nat} (idle : (s.part p).reset.resetting = false) (byP0 : Bool)
include idle

theorem resetsBegin_beginReset : resetsBegin s (s.beginReset p byP0) := by
  rw [beginReset_eq]
  refine ((resetsBegin_modPart ?_).trans (resetsBegin_haltCores _ p)).trans (onlyTraces_traceStep _ p 1).resetsBegin
  refine ⟨rfl, fun on => absurd on (by simp [idle]), fun off => ?_, fun off => ?_, fun off => ?_⟩ <;> cases byP0 <;> exact off

omit idle in
theorem beginReset_other {q : Nat} (other : q ≠ p) : ((s.beginReset p byP0).part q).reset = (s.part q).reset := by
  rw [beginReset_eq, (onlyTraces_traceStep _ p 1).2 q, haltCores_part, State.modPart_part, if_neg other]

omit idle in
theorem beginReset_begins : resetBegun s (s.beginReset p byP0) p ∧ ((s.beginReset p byP0).part p).reset.byP0 = byP0 := by
  rw [beginReset_eq]
  generalize mark : s.modPart p (startReset byP0) = m
  have harts (c : Nat) : m.hart c = s.hart c := by rw [← mark]; rfl
  have reset : (m.part p).reset = { resetting := true, done := (s.part p).reset.done, stage := 1, byP0 := byP0 } := by
    rw [← mark, State.modPart_part_same, startReset]
  have owed : (m.part p).moderation = (s.part p).moderation := by rw [← mark, State.modPart_part_same, startReset]
  have halts := resetsBegin_haltCores m p
  have traces := (onlyTraces_traceStep (haltCores m p) p 1).resetsBegin
  have begun : resetBegun s (haltCores m p) p := by
    obtain ⟨-, -, parts⟩ := halts
    obtain ⟨owed', running, -⟩ := parts p
    have same := running (by rw [reset])
    exact ⟨by rw [same, reset], by rw [same, reset], owed'.trans owed, fun c valid part listed =>
      haltCores_halts listed (by rw [harts, valid]) (by rw [harts, part])⟩
  refine ⟨resetBegun_later begun traces, ?_⟩
  have same := ((halts.trans traces).2.2 p).2.1 (by rw [reset])
  rw [same, reset]

end

/-! Triggers outside a global stop and Dormant. -/

/-- No trigger is held (R463, R519). -/
def triggersAct (s : State) : Prop := s.stop.stopped = false ∧ s.power.state = 0

theorem triggersAct.of_resetsBegin {s t : State} (acts : triggersAct s) (h : resetsBegin s t) : triggersAct t := by
  obtain ⟨rest, -⟩ := h
  rw [rest]
  exact acts

section
variable {s : State} (acts : triggersAct s) (p : Nat) (byP0 : Bool)
include acts

theorem triggerReset_eq : s.triggerReset p byP0 = if (s.part p).reset.resetting then s else s.beginReset p byP0 := by
  obtain ⟨going, awake⟩ := acts
  simp [State.triggerReset, going, awake]

theorem resetsBegin_triggerReset : resetsBegin s (s.triggerReset p byP0) := by
  rw [triggerReset_eq acts]
  split
  · exact resetsBegin.refl s
  · next idle => exact resetsBegin_beginReset (Bool.eq_false_iff.mpr idle) byP0

end

theorem resetsBegin_resetFunction (s : State) (p : Nat) : resetsBegin s (s.resetFunction p) :=
  resetsBegin_modPart ⟨rfl, fun _ => rfl, fun _ => rfl, fun _ => rfl, fun _ => rfl⟩

/-! The reset of one partition among those that a trigger begins. -/

/-- The reset of partition `p` has begun, beside others. -/
def resetStarted (s t : State) (p : Nat) (byP0 : Bool) : Prop :=
  resetsBegin s t ∧ resetBegun s t p ∧ (t.part p).reset.byP0 = byP0

/-- It has begun, or none of `p` runs yet. -/
def resetDue (s t : State) (p : Nat) (byP0 : Bool) : Prop :=
  resetStarted s t p byP0 ∨ resetsBegin s t ∧ (t.part p).reset.resetting = false

theorem resetStarted.resetsBegin {s t u : State} {p : Nat} {byP0 : Bool} (started : resetStarted s t p byP0) (h : resetsBegin t u) :
    resetStarted s u p byP0 := by
  obtain ⟨before, begun, by_⟩ := started
  have same := (h.2.2 p).2.1 begun.1
  exact ⟨before.trans h, resetBegun_later begun h, by rw [same, by_]⟩

theorem resetDue.before {s t : State} {p : Nat} {byP0 : Bool} : resetDue s t p byP0 → resetsBegin s t
  | .inl started => started.1
  | .inr idle => idle.1

/-- A change that leaves the reset of `p` alone. -/
theorem resetDue.of_same {s t u : State} {p : Nat} {byP0 : Bool} (due : resetDue s t p byP0) (h : resetsBegin t u)
    (same : (u.part p).reset = (t.part p).reset) : resetDue s u p byP0 := by
  rcases due with started | ⟨before, idle⟩
  · exact .inl (started.resetsBegin h)
  · exact .inr ⟨before.trans h, by rw [same, idle]⟩

section
variable {s t : State} {p : Nat} {byP0 : Bool} (acts : triggersAct s) (due : resetDue s t p byP0)
include acts due

theorem resetStarted_triggerReset : resetStarted s (t.triggerReset p byP0) p byP0 := by
  have acts' := acts.of_resetsBegin due.before
  rcases due with started | ⟨before, idle⟩
  · exact started.resetsBegin (resetsBegin_triggerReset acts' p byP0)
  · rw [triggerReset_eq acts', idle]
    obtain ⟨begun, by_⟩ := beginReset_begins byP0
    exact ⟨before.trans (resetsBegin_beginReset idle byP0), resetBegun_of_before before begun, by_⟩

theorem resetDue_triggerReset (q : Nat) : resetDue s (t.triggerReset q byP0) p byP0 := by
  by_cases same : q = p
  · subst same
    exact .inl (resetStarted_triggerReset acts due)
  · have acts' := acts.of_resetsBegin due.before
    refine due.of_same (resetsBegin_triggerReset acts' q byP0) ?_
    rw [triggerReset_eq acts']
    split
    · rfl
    · exact beginReset_other byP0 (Ne.symm same)

end

theorem resetFunction_reset (s : State) (p q : Nat) : ((s.resetFunction p).part q).reset = (s.part q).reset := by
  rw [State.resetFunction, State.modPart_part]
  split
  · next same => rw [same]
  · rfl

theorem mem_partitions {p : Nat} (low : 1 ≤ p) (high : p < 16) : p ∈ (upto 16).drop 1 := by
  rw [List.mem_iff_getElem]
  exact ⟨p - 1, by simp [upto]; omega, by simp [upto]; omega⟩

/-- What PTN_RST_CTL.PRST begins (R383). -/
theorem writePrst_begins {s : State} {p v : Nat} (acts : triggersAct s) (idle : (s.part p).reset.resetting = false) (low : 1 ≤ p)
    (high : p < 16) (asked : v.testBit p = true) : resetStarted s (s.writePrst v) p true := by
  refine forAll_reaches (P := fun t => resetDue s t p true) (Q := fun t => resetStarted s t p true) (mem_partitions low high) (fun t due => ?_)
    (fun t q due => ?_) (fun t q started => ?_) (.inr ⟨resetsBegin.refl s, idle⟩)
  · rw [if_pos asked]
    exact resetStarted_triggerReset acts due
  · split
    · exact resetDue_triggerReset acts due q
    · exact due
  · split
    · exact started.resetsBegin (resetsBegin_triggerReset (acts.of_resetsBegin started.1) q true)
    · exact started

/-- Several functions and their partitions are reset. -/
def resetFunctions (ps : List Nat) (s : State) : State := forAll ps (fun t q => (t.resetFunction q).triggerReset q false) s

/-- What the reset of several functions begins (R383). -/
theorem resetFunctions_begin {s : State} {p : Nat} {ps : List Nat} (acts : triggersAct s) (idle : (s.part p).reset.resetting = false)
    (listed : p ∈ ps) : resetStarted s (resetFunctions ps s) p false := by
  unfold resetFunctions
  have prepared {t : State} (q : Nat) (due : resetDue s t p false) : resetDue s (t.resetFunction q) p false :=
    due.of_same (resetsBegin_resetFunction t q) (resetFunction_reset t q p)
  refine forAll_reaches (P := fun t => resetDue s t p false) (Q := fun t => resetStarted s t p false) listed (fun t due => ?_)
    (fun t q due => ?_) (fun t q started => ?_) (.inr ⟨resetsBegin.refl s, idle⟩)
  · exact resetStarted_triggerReset acts (prepared p due)
  · exact resetDue_triggerReset acts (prepared q due) q
  · have changed := resetsBegin_resetFunction t q
    exact (started.resetsBegin changed).resetsBegin
      (resetsBegin_triggerReset (acts.of_resetsBegin (started.1.trans changed)) q false)

/-! The four triggers, as commands. -/

/-- A write of 64 bits that passes its checks does what the register's rule says, and is answered; beside that counters move. -/
theorem registerCommand_of_allowed {s u : State} {off : Nat} {w : RegWrite} {r : Reg} (allowed : writeAllowed s off w r)
    (aligned : off % 8 = 0) (awake : s.power.state = 0) (rule : s.regWrite r (presented w) = (u, 0)) :
    onlyCounts { u with out := .resp w.unit 0 [] :: u.out } (s.registerCommand off w) := by
  obtain ⟨found, may, full, -, reached, holds, behind, whole⟩ := allowed
  have addr : writeAddr off w = regBase + off := by
    rw [writeAddr, halfOffset, full]
    exact congrArg (regBase + ·) (show off / 8 * 8 + 0 = off by omega)
  have stored := storeOf_performed (addr ▸ found) (sizeFits_full r off full) may whole
  rw [registerCommand_performs ⟨reached, holds, behind⟩ (.inl awake)]
  exact performWrite_done (stored.trans rule)

theorem regWrite_rstCtl {s : State} {w : RegWrite} (full : w.half = .full) :
    s.regWrite .rstCtl (presented w) = (s.writeRstCtl w.val.toNat, 0) := by
  have whole : halfBits .full w.val.toNat = w.val.toNat := Nat.mod_eq_of_lt w.val.isLt
  have value : halfBits .full (presented w).val.toNat = w.val.toNat := by rw [← full, halfBits_presented, full, whole]
  simp [State.regWrite, full, touchesLo, value, eOk]

theorem writeRstCtl_prst {s : State} {v : Nat} (noCold : v.testBit 17 = false) (noWarm : v.testBit 16 = false) :
    s.writeRstCtl v = s.writePrst v := by
  simp [State.writeRstCtl, noCold, noWarm]

section
variable {s t : State} {p : Nat} {byP0 : Bool} (started : resetStarted s t p byP0)
include started

theorem resetStarted.sameMemory : sameMemory s t := by
  obtain ⟨⟨rest, -⟩, -⟩ := started
  exact sameMemory.of_mem (by rw [rest])

theorem resetStarted.out : t.out = s.out := by
  obtain ⟨⟨rest, -⟩, -⟩ := started
  rw [rest]

theorem resetStarted.vfs : t.vfEnable = s.vfEnable ∧ t.numVfs = s.numVfs := by
  obtain ⟨⟨rest, -⟩, -⟩ := started
  rw [rest]
  exact ⟨rfl, rfl⟩

end

theorem exec_prst (s : State) (w : RegWrite) : exec (.prst w) s = .next (s.registerCommand 0x2000400 w) := rfl

theorem exec_functionLevelReset {s : State} {p : PartId} (present : s.functionPresent p.val = true) :
    exec (.functionLevelReset p) s = .next (s.functionReset p.val) := congrArg Host.Outcome.next (if_pos present)

theorem exec_vfEnableClear {s : State} (service : s.inService = true) (en : Bool) (n : PartId) :
    exec (.vfEnableClear en n) s = .next (s.setVfs en n.val) := congrArg Host.Outcome.next (if_pos service)

theorem prst_resets {s : State} {w : RegWrite} {p : PartId} (allowed : writeAllowed s 0x2000400 w .rstCtl)
    (noCold : w.val.toNat.testBit 17 = false) (noWarm : w.val.toNat.testBit 16 = false) (low : 1 ≤ p.val)
    (asked : w.val.toNat.testBit p.val = true) (acts : triggersAct s) (idle : (s.part p.val).reset.resetting = false) :
    ∃ t, exec (.prst w) s = .next t ∧ resetBegun s t p.val ∧ (t.part p.val).reset.byP0 = true ∧
      t.out = .resp w.unit 0 [] :: s.out ∧ sameMemory s t := by
  have full := allowed.2.2.1
  have started := writePrst_begins acts idle low p.isLt asked
  have done := registerCommand_of_allowed allowed (by decide) acts.2 (regWrite_rstCtl full)
  rw [writeRstCtl_prst noCold noWarm] at done
  refine ⟨_, exec_prst s w, ?_⟩
  generalize s.registerCommand 0x2000400 w = t at done
  have memory := started.sameMemory
  have out := started.out
  obtain ⟨-, begun, by_⟩ := started
  generalize s.writePrst w.val.toNat = v at *
  rw [done]
  exact ⟨begun, by_, congrArg (_ :: ·) out, memory⟩

theorem functionReset_begins {s : State} {p : PartId} (present : s.functionPresent p.val = true) (virtual : p.val ≠ 0)
    (acts : triggersAct s) (idle : (s.part p.val).reset.resetting = false) :
    ∃ t, exec (.functionLevelReset p) s = .next t ∧ resetBegun s t p.val ∧ (t.part p.val).fn.busMaster = false ∧
      (t.part p.val).fn.memSpace = false ∧ (t.part p.val).fn.msixEn = false ∧ t.out = s.out ∧ sameMemory s t := by
  have cleared := resetsBegin_resetFunction s p.val
  have started : resetStarted s ((s.resetFunction p.val).triggerReset p.val false) p.val false :=
    resetStarted_triggerReset acts (.inr ⟨cleared, by rw [resetFunction_reset, idle]⟩)
  have off : ((s.resetFunction p.val).part p.val).fn.busMaster = false ∧ ((s.resetFunction p.val).part p.val).fn.memSpace = false ∧
      ((s.resetFunction p.val).part p.val).fn.msixEn = false := by
    rw [State.resetFunction, State.modPart_part_same]
    exact ⟨rfl, rfl, rfl⟩
  obtain ⟨-, -, keeps⟩ := resetsBegin_triggerReset (acts.of_resetsBegin cleared) p.val false
  obtain ⟨-, -, master, space, msix⟩ := keeps p.val
  have run : s.functionReset p.val = (s.resetFunction p.val).triggerReset p.val false := if_pos virtual
  exact ⟨_, (exec_functionLevelReset present).trans (congrArg _ run), started.2.1, master off.1, space off.2.1, msix off.2.2, started.out,
    started.sameMemory⟩

/-- The functions that disappear (R383). -/
theorem vfEnableClear_resets {s : State} {en : Bool} {n p : PartId} (service : s.inService = true) (enabled : s.vfEnable = true)
    (had : p.val ≤ s.numVfs) (gone : (if en then n.val else 0) < p.val) (acts : triggersAct s)
    (idle : (s.part p.val).reset.resetting = false) :
    ∃ t, exec (.vfEnableClear en n) s = .next t ∧ t.vfEnable = en ∧ t.numVfs = n.val ∧ resetBegun s t p.val ∧ t.out = s.out ∧
      sameMemory s t := by
  have listed : p.val ∈ (upto 16).filter (fun q => decide ((if en then n.val else 0) < q ∧ q ≤ if s.vfEnable then s.numVfs else 0)) := by
    simp [upto, List.mem_filter, gone, enabled, had]
  have started := resetFunctions_begin (s := { s with vfEnable := en, numVfs := n.val }) acts idle listed
  obtain ⟨vf, vfs⟩ := started.vfs
  exact ⟨_, exec_vfEnableClear service en n, vf, vfs, started.2.1, started.out, started.sameMemory⟩

theorem functionReset_physical (s : State) : s.functionReset 0 =
    (resetFunctions ((upto 16).drop 1) { s.resetFunction 0 with vfEnable := false }).modPart 0
      (fun x => { x with reset := { x.reset with byPf := true } }) := by
  rw [State.functionReset, if_neg (not_not.mpr rfl)]
  rfl

/-- The physical function's reset (R383, R525). -/
theorem physicalReset_begins {s : State} {p : PartId} {q : Nat} (present : s.functionPresent p.val = true) (physical : p.val = 0)
    (low : 1 ≤ q) (high : q < 16) (acts : triggersAct s) (idle : (s.part q).reset.resetting = false) :
    ∃ t, exec (.functionLevelReset p) s = .next t ∧ t.vfEnable = false ∧ resetBegun s t q ∧ (t.part 0).reset.byPf = true ∧
      (t.part 0).fn.busMaster = false ∧ t.out = s.out ∧ sameMemory s t := by
  have cleared := resetsBegin_resetFunction s 0
  have master : ((s.resetFunction 0).part 0).fn.busMaster = false := by rw [State.resetFunction, State.modPart_part_same]
  have started := resetFunctions_begin (s := { s.resetFunction 0 with vfEnable := false }) (ps := (upto 16).drop 1) (p := q) acts
    (by exact (congrArg ResetState.resetting (resetFunction_reset s 0 q)).trans idle) (mem_partitions low high)
  obtain ⟨vf, -⟩ := started.vfs
  have out := started.out
  have memory := started.sameMemory
  obtain ⟨begins, begun, -⟩ := started
  obtain ⟨-, -, keeps⟩ := begins
  obtain ⟨-, -, off, -⟩ := keeps 0
  have other : q ≠ 0 := by omega
  have run := (congrArg s.functionReset physical).trans (functionReset_physical s)
  refine ⟨_, (exec_functionLevelReset present).trans (congrArg _ run), ?_⟩
  generalize resetFunctions ((upto 16).drop 1) { s.resetFunction 0 with vfEnable := false } = t at *
  obtain ⟨resetting, stage, owed, halted⟩ := resetBegun_of_before cleared begun
  refine ⟨vf, ⟨?_, ?_, ?_, halted⟩, ?_, ?_, out, memory⟩
  · rw [State.modPart_part, if_neg other, resetting]
  · rw [State.modPart_part, if_neg other, stage]
  · rw [State.modPart_part, if_neg other, owed]
  · rw [State.modPart_part_same]
  · rw [State.modPart_part_same]
    exact off master

end Sys2Proof.Proofs

/-! Partition resets: the destruction of a partition's work (R367, R385, R484). -/

namespace Sys2Proof.Proofs
open Sys2Proof Sys2Proof.Machine

/-! Launches that are aborted. -/

/-- A launch once it has been told to abort (R142, R143, R367). -/
def abortedLaunch (m : Launch) : Launch :=
  match m.stage with
  | .ended => m
  | .issued => { m with stage := .running, set := [], aborted := true, stopAll := true }
  | .running => if m.set.all (fun u => m.reports.any (fun r => r.sq == u)) then m else { m with aborted := true, stopAll := true }

/-- Besides launches and squares the state is unchanged. -/
def onlyStops (s t : State) : Prop := t = { s with launches := t.launches, squares := t.squares }

theorem onlyStops.refl (s : State) : onlyStops s s := rfl

theorem onlyStops.trans {s t u : State} (h : onlyStops s t) (k : onlyStops t u) : onlyStops s u := by
  unfold onlyStops at *
  rw [k, h]

theorem onlyStops_modLaunch (s : State) (id : Nat) (f : Launch → Launch) : onlyStops s (s.modLaunch id f) := rfl

/-- A square of a launch that is told to stop changes no launch. -/
theorem stopSquare_keeps (s : State) (u : Nat) : onlyStops s (s.stopSquare u) ∧ (s.stopSquare u).launches = s.launches := by
  unfold State.stopSquare
  split <;> exact ⟨rfl, rfl⟩

/-- The squares of a launch that still run it are told to stop. -/
def stopSquares (s : State) (id : Nat) (us : List Nat) : State :=
  forAll us (fun t u => if (t.sq u).launch = id then t.stopSquare u else t) s

theorem stopSquares_keeps (s : State) (id : Nat) (us : List Nat) :
    onlyStops s (stopSquares s id us) ∧ (stopSquares s id us).launches = s.launches := by
  refine forAll_keeps (P := fun t => onlyStops s t ∧ t.launches = s.launches) (fun t u _ h => ?_) ⟨onlyStops.refl s, rfl⟩
  obtain ⟨stops, launches⟩ := h
  split
  · obtain ⟨stops', launches'⟩ := stopSquare_keeps t u
    exact ⟨stops.trans stops', launches'.trans launches⟩
  · exact ⟨stops, launches⟩

theorem launch_modLaunch_other (s : State) {id k : Nat} (other : k ≠ id) {f : Launch → Launch} (keeps : ∀ l, (f l).id = l.id) :
    (s.modLaunch id f).launch k = s.launch k := by
  unfold State.launch State.modLaunch
  rw [List.find?_map]
  have test : (fun l : Launch => l.id == k) ∘ (fun l => if l.id = id then f l else l) = (fun l => l.id == k) := by
    funext l
    dsimp only [Function.comp]
    split <;> simp [keeps]
  rw [test]
  cases found : s.launches.find? (fun l => l.id == k) with
  | none => rfl
  | some l =>
    have named : l.id = k := by simpa using List.find?_some found
    simp [named, other]

/-- What an abort changes: of launches, only the one that it names. -/
theorem abortLaunch_spec (s : State) (id : Nat) : onlyStops s (s.abortLaunch id) ∧
    (∀ m, s.launch id = some m → (s.abortLaunch id).launch id = some (abortedLaunch m)) ∧
    ∀ k, k ≠ id → (s.abortLaunch id).launch k = s.launch k := by
  cases found : s.launch id with
  | none =>
    have run : s.abortLaunch id = s := by rw [State.abortLaunch, found]
    rw [run]
    exact ⟨rfl, fun _ (nothing : none = some _) => (nomatch nothing), fun _ _ => rfl⟩
  | some l =>
    have unchanged (run : s.abortLaunch id = s) (same : abortedLaunch l = l) : onlyStops s (s.abortLaunch id) ∧
        (∀ m, some l = some m → (s.abortLaunch id).launch id = some (abortedLaunch m)) ∧
        ∀ k, k ≠ id → (s.abortLaunch id).launch k = s.launch k := by
      rw [run]
      exact ⟨rfl, fun m hm => by rw [← Option.some.inj hm, same, found], fun _ _ => rfl⟩
    cases stage : l.stage with
    | ended => exact unchanged (by simp only [State.abortLaunch, found, stage]) (by simp only [abortedLaunch, stage])
    | issued =>
      have run : s.abortLaunch id = s.modLaunch id (fun l => { l with stage := .running, set := [], aborted := true, stopAll := true }) := by
        simp only [State.abortLaunch, found, stage]
      rw [run]
      refine ⟨rfl, fun m hm => ?_, fun k other => launch_modLaunch_other s other (fun _ => rfl)⟩
      rw [launch_modLaunch s id (f := fun l => { l with stage := .running, set := [], aborted := true, stopAll := true }) (fun _ => rfl),
        found, ← Option.some.inj hm]
      simp only [Option.map_some, abortedLaunch, stage]
    | running =>
      by_cases reported : l.set.all (fun u => l.reports.any (fun r => r.sq == u)) = true
      · exact unchanged (by simp only [State.abortLaunch, found, stage, reported, if_true])
          (by simp only [abortedLaunch, stage, reported, if_true])
      · have run : s.abortLaunch id =
            stopSquares (s.modLaunch id (fun l => { l with aborted := true, stopAll := true })) id l.set := by
          simp only [State.abortLaunch, found, stage, reported, Bool.false_eq_true, if_false]
          rfl
        obtain ⟨stops, launches⟩ := stopSquares_keeps (s.modLaunch id (fun l => { l with aborted := true, stopAll := true })) id l.set
        rw [run]
        refine ⟨(onlyStops_modLaunch s id _).trans stops, fun m hm => ?_, fun k other => ?_⟩
        · rw [State.launch, launches, ← State.launch,
            launch_modLaunch s id (f := fun l => { l with aborted := true, stopAll := true }) (fun _ => rfl), found, ← Option.some.inj hm]
          simp only [Option.map_some, abortedLaunch, stage, reported, Bool.false_eq_true, if_false]
        · rw [State.launch, launches, ← State.launch]
          exact launch_modLaunch_other s other (fun _ => rfl)

/-! A launch of a partition whose work is destroyed. -/

/-- Where a launch `l` has come to: it has been aborted, or it is still as far as it was. -/
def launchComesTo (l m : Launch) : Prop :=
  m.part = l.part ∧ m.stage ≠ .ended ∧ (m.aborted = true ∨ m.stage = l.stage ∧ m.set = l.set ∧ m.reports = l.reports)

/-- It has been aborted. -/
def launchIsAborted (id : Nat) (t : State) : Prop := ∃ m, t.launch id = some m ∧ m.aborted = true

def launchIsTracked (id : Nat) (l : Launch) (t : State) : Prop := ∃ m, t.launch id = some m ∧ launchComesTo l m

theorem abortedLaunch_aborted {m : Launch} (h : m.aborted = true) : (abortedLaunch m).aborted = true := by
  unfold abortedLaunch
  split
  · exact h
  · rfl
  · split
    · exact h
    · rfl

theorem abortedLaunch_comesTo {l m : Launch} (h : launchComesTo l m) : launchComesTo l (abortedLaunch m) := by
  obtain ⟨part, going, state⟩ := h
  unfold abortedLaunch
  split
  · exact ⟨part, going, state⟩
  · exact ⟨part, by simp, .inl rfl⟩
  · split
    · exact ⟨part, going, state⟩
    · exact ⟨part, going, .inl rfl⟩

/-- A launch that has not started, or with a square that has not reported, is aborted. -/
theorem abortedLaunch_of_comesTo {l m : Launch} (h : launchComesTo l m)
    (unfinished : l.stage = .issued ∨ ∃ u, u ∈ l.set ∧ ∀ r, r ∈ l.reports → r.sq ≠ u) : (abortedLaunch m).aborted = true := by
  obtain ⟨-, going, done | ⟨stage, set, reports⟩⟩ := h
  · exact abortedLaunch_aborted done
  · unfold abortedLaunch
    split
    · next ended => exact absurd ended going
    · rfl
    · next running =>
      obtain issued | ⟨u, mem, unreported⟩ := unfinished
      · rw [← stage, running] at issued
        cases issued
      · have not_all : ¬ m.set.all (fun u => m.reports.any (fun r => r.sq == u)) = true := by
          rw [set, reports]
          simp only [List.all_eq_true, List.any_eq_true, beq_iff_eq]
          intro all
          obtain ⟨r, hr, same⟩ := all u mem
          exact unreported r hr same
        rw [if_neg not_all]

section
variable {id : Nat} {l : Launch} {t : State}

theorem launchIsTracked.abortLaunch (h : launchIsTracked id l t) (k : Nat) : launchIsTracked id l (t.abortLaunch k) := by
  obtain ⟨m, found, state⟩ := h
  obtain ⟨-, same, others⟩ := abortLaunch_spec t k
  by_cases this : id = k
  · subst this
    exact ⟨_, same m found, abortedLaunch_comesTo state⟩
  · exact ⟨m, (others id this).trans found, state⟩

theorem launchIsAborted.abortLaunch (h : launchIsAborted id t) (k : Nat) : launchIsAborted id (t.abortLaunch k) := by
  obtain ⟨m, found, aborted⟩ := h
  obtain ⟨-, same, others⟩ := abortLaunch_spec t k
  by_cases this : id = k
  · subst this
    exact ⟨_, same m found, abortedLaunch_aborted aborted⟩
  · exact ⟨m, (others id this).trans found, aborted⟩

theorem launchIsTracked.closing (h : launchIsTracked id l t) (k : Nat) :
    launchIsTracked id l (t.modLaunch k (fun l => { l with closing := true })) := by
  obtain ⟨m, found, state⟩ := h
  by_cases this : id = k
  · subst this
    exact ⟨{ m with closing := true }, by
      rw [launch_modLaunch t id (f := fun l => { l with closing := true }) (fun _ => rfl), found]; rfl, state⟩
  · exact ⟨m, (launch_modLaunch_other t this (f := fun l => { l with closing := true }) (fun _ => rfl)).trans found, state⟩

end

/-! Queues that are destroyed. -/

theorem onlyStops_abortQueue (s : State) (q : Nat) : onlyStops s (s.abortQueue q) := by
  unfold State.abortQueue
  exact forAll_keeps (P := onlyStops s) (fun t id _ h => (h.trans (abortLaunch_spec t id).1).trans (onlyStops_modLaunch _ _ _)) (onlyStops.refl s)

theorem launchIsTracked.abortQueue {id : Nat} {l : Launch} {t : State} (h : launchIsTracked id l t) (q : Nat) :
    launchIsTracked id l (t.abortQueue q) := by
  unfold State.abortQueue
  exact forAll_keeps (P := launchIsTracked id l) (fun t k _ h => (h.abortLaunch k).closing k) h

/-- Besides queues, launches and squares the state is unchanged. -/
def onlyDestroys (s t : State) : Prop := t = { s with queues := t.queues, launches := t.launches, squares := t.squares }

theorem onlyDestroys.refl (s : State) : onlyDestroys s s := rfl

theorem onlyDestroys.trans {s t u : State} (h : onlyDestroys s t) (k : onlyDestroys t u) : onlyDestroys s u := by
  unfold onlyDestroys at *
  rw [k, h]

theorem onlyStops.onlyDestroys {s t : State} (h : onlyStops s t) : onlyDestroys s t := by
  unfold onlyStops at h
  rw [h]
  rfl

theorem onlyStops.queue {s t : State} (h : onlyStops s t) (q : Nat) : t.queue q = s.queue q := by
  rw [h]
  rfl

theorem beginDestroy_spec (s : State) (q : Nat) : onlyDestroys s (s.beginDestroy q) ∧ ((s.beginDestroy q).queue q).state = 3 ∧
    ∀ k, k ≠ q → (s.beginDestroy q).queue k = s.queue k := by
  unfold State.beginDestroy
  extract_lets x
  have stops := onlyStops_abortQueue (s.setQueue q { x with state := 3, en := false, ctx := x.ctx.map cutOff }) q
  have set : onlyDestroys s (s.setQueue q { x with state := 3, en := false, ctx := x.ctx.map cutOff }) := rfl
  refine ⟨set.trans stops.onlyDestroys, ?_, fun k other => ?_⟩
  · rw [stops.queue, State.setQueue_queue_same]
  · rw [stops.queue, State.setQueue_queue, if_neg other]

theorem launchIsTracked.beginDestroy {id : Nat} {l : Launch} {t : State} (h : launchIsTracked id l t) (q : Nat) :
    launchIsTracked id l (t.beginDestroy q) := by
  unfold State.beginDestroy
  exact launchIsTracked.abortQueue (t := t.setQueue q _) h q

/-- The queues of a partition that owe an end to their entries are destroyed (R385). -/
def destroyQueues (s : State) (p : Nat) : State :=
  forAll (upto 256) (fun t q => if (t.queue q).part = p ∧ (t.queue q).owesEnd = true then t.beginDestroy q else t) s

theorem onlyDestroys_destroyQueues (s : State) (p : Nat) : onlyDestroys s (destroyQueues s p) := by
  unfold destroyQueues
  refine forAll_keeps (P := onlyDestroys s) (fun t q _ h => ?_) (onlyDestroys.refl s)
  split
  · exact h.trans (beginDestroy_spec t q).1
  · exact h

theorem launchIsTracked.destroyQueues {id : Nat} {l : Launch} {s : State} (h : launchIsTracked id l s) (p : Nat) :
    launchIsTracked id l (destroyQueues s p) := by
  unfold Proofs.destroyQueues
  refine forAll_keeps (P := launchIsTracked id l) (fun t q _ h => ?_) h
  split
  · exact h.beginDestroy q
  · exact h

theorem destroyQueues_state {s : State} {p q : Nat} (listed : q < 256) (mine : (s.queue q).part = p) (owes : (s.queue q).owesEnd = true) :
    ((destroyQueues s p).queue q).state = 3 := by
  unfold destroyQueues
  refine forAll_reaches (P := fun t => t.queue q = s.queue q ∨ (t.queue q).state = 3) (Q := fun t => (t.queue q).state = 3)
    (List.mem_range.mpr listed) (fun t h => ?_) (fun t k h => ?_) (fun t k h => ?_) (.inl rfl)
  · rcases h with same | closing
    · rw [if_pos (by rw [same]; exact ⟨mine, owes⟩)]
      exact (beginDestroy_spec t q).2.1
    · split
      · exact (beginDestroy_spec t q).2.1
      · exact closing
  · obtain ⟨-, closes, others⟩ := beginDestroy_spec t k
    split
    · by_cases this : q = k
      · exact .inr (this ▸ closes)
      · rw [others q this]
        exact h
    · exact h
  · obtain ⟨-, closes, others⟩ := beginDestroy_spec t k
    split
    · by_cases this : q = k
      · exact this ▸ closes
      · rw [others q this]
        exact h
    · exact h

/-! Step 2 of a reset. -/

/-- The launches of a partition that have not ended abort. -/
def abortLaunches (s : State) (p : Nat) : State :=
  forAll ((s.launches.filter (fun l => l.part == p && l.stage != .ended)).map (·.id)) State.abortLaunch s

theorem onlyStops_abortLaunches (s : State) (p : Nat) : onlyStops s (abortLaunches s p) :=
  forAll_keeps (P := onlyStops s) (fun t id _ h => h.trans (abortLaunch_spec t id).1) (onlyStops.refl s)

theorem abortLaunches_tracks {id : Nat} {l : Launch} {s : State} (h : launchIsTracked id l s) (p : Nat) :
    launchIsTracked id l (abortLaunches s p) :=
  forAll_keeps (P := launchIsTracked id l) (fun _ k _ h => h.abortLaunch k) h

theorem abortLaunches_aborts {id : Nat} {l : Launch} {s : State} (h : launchIsTracked id l s)
    (unfinished : l.stage = .issued ∨ ∃ u, u ∈ l.set ∧ ∀ r, r ∈ l.reports → r.sq ≠ u) :
    launchIsAborted id (abortLaunches s l.part) := by
  have listed : id ∈ (s.launches.filter (fun m => m.part == l.part && m.stage != .ended)).map (·.id) := by
    obtain ⟨m, found, part, going, -⟩ := h
    have named : m.id = id := by simpa using List.find?_some found
    exact List.mem_map.mpr ⟨m, List.mem_filter.mpr ⟨List.mem_of_find?_eq_some found, by simp [part, going]⟩, named⟩
  refine forAll_reaches (P := launchIsTracked id l) (Q := launchIsAborted id) listed (fun t h => ?_) (fun t k h => h.abortLaunch k)
    (fun t k h => h.abortLaunch k) h
  obtain ⟨m, found, state⟩ := h
  exact ⟨_, (abortLaunch_spec t id).2.1 m found, abortedLaunch_of_comesTo state unfinished⟩

theorem spoilReport_keeps (s : State) (p : Nat) : (s.spoilReport p).queues = s.queues ∧ (s.spoilReport p).launches = s.launches ∧
    (s.spoilReport p).out = s.out ∧ (s.spoilReport p).parts = s.parts := by
  unfold State.spoilReport
  extract_lets m
  split <;> exact ⟨rfl, rfl, rfl, rfl⟩

theorem part_mailbox_reset (s : State) (p : Nat) (f : Mailbox → Mailbox) (q : Nat) :
    ((s.modPart p (fun x => { x with mbox := f x.mbox })).part q).reset = (s.part q).reset := by
  rw [State.modPart_part]
  split
  · next same => rw [same]
  · rfl

/-- The end of a mailbox command that a reset aborts: no queue, launch or reset changes, nothing leaves, and memory only where the
command was an attestation under way (R486). -/
theorem abortMailbox_keeps (s : State) (p : Nat) : (s.abortMailbox p).queues = s.queues ∧ (s.abortMailbox p).launches = s.launches ∧
    (s.abortMailbox p).out = s.out ∧ (∀ q, ((s.abortMailbox p).part q).reset = (s.part q).reset) ∧
    (s.boot.running ≠ some p → (s.abortMailbox p).mem = s.mem) := by
  have reset (t : State) := part_mailbox_reset t p (fun m => { m with err := eAborted, done := true, busy := false })
  unfold State.abortMailbox
  split
  · next running =>
    obtain ⟨queues, launches, out, parts⟩ := spoilReport_keeps s p
    generalize s.spoilReport p = t at *
    have part (q : Nat) : t.part q = s.part q := by simp only [State.part, parts]
    exact ⟨queues, launches, out, fun q => (reset t q).trans (congrArg Part.reset (part q)), absurd running⟩
  · split
    · exact ⟨rfl, rfl, rfl, reset s, fun _ => rfl⟩
    · exact ⟨rfl, rfl, rfl, fun _ => rfl, fun _ => rfl⟩

theorem destroyWork_eq {s : State} {p : Nat} (resetting : (s.part p).reset.resetting = true) (stage : (s.part p).reset.stage = 1) :
    s.destroyWork p = (((abortLaunches (destroyQueues s p) p).abortMailbox p).modPart p
      (fun x => { x with reset := { x.reset with stage := 2 } })).traceStep p 2 := by
  unfold State.destroyWork
  simp only [resetting, stage, Bool.not_true, Bool.false_or, bne_self_eq_false, Bool.false_eq_true, if_false]
  unfold destroyQueues abortLaunches
  rfl

/-- After step 2 what the destruction of queues and launches left stands in the state. -/
theorem destroyWork_leaves {s : State} {p : Nat} (resetting : (s.part p).reset.resetting = true) (stage : (s.part p).reset.stage = 1) :
    ((s.destroyWork p).part p).reset = { (s.part p).reset with stage := 2 } ∧ (s.destroyWork p).queues = (destroyQueues s p).queues ∧
      (s.destroyWork p).launches = (abortLaunches (destroyQueues s p) p).launches ∧ (s.destroyWork p).out = s.out ∧
      (s.boot.running ≠ some p → (s.destroyWork p).mem = s.mem) := by
  have destroys := onlyDestroys_destroyQueues s p
  have stops := onlyStops_abortLaunches (destroyQueues s p) p
  obtain ⟨queues, launches, out, reset, mem⟩ := abortMailbox_keeps (abortLaunches (destroyQueues s p) p) p
  rw [destroyWork_eq resetting stage]
  generalize (abortLaunches (destroyQueues s p) p).abortMailbox p = m at *
  generalize abortLaunches (destroyQueues s p) p = a at *
  generalize destroyQueues s p = d at *
  obtain ⟨rest, parts⟩ := onlyTraces_traceStep (m.modPart p (fun x => { x with reset := { x.reset with stage := 2 } })) p 2
  refine ⟨?_, ?_, ?_, ?_, fun other => ?_⟩
  · rw [parts, State.modPart_part_same, reset, stops, destroys]
    rfl
  · rw [rest]
    exact queues.trans (by rw [stops])
  · rw [rest]
    exact launches
  · rw [rest]
    exact out.trans (by rw [stops, destroys])
  · rw [rest]
    refine (mem ?_).trans (by rw [stops, destroys])
    rw [stops, destroys]
    exact other

theorem Queue.owesEnd_iff (x : Queue) : x.owesEnd = true ↔ x.bound = true ∧ (x.state = 2 ∨ x.state = 1 ∧ x.head < x.tail) := by
  simp [Queue.owesEnd]

theorem exec_partitionReset (p : PartId) (s : State) : exec (.partitionReset p) s = .next (s.destroyWork p.val) := rfl

/-- Step 2 of a reset (R367, R385). -/
theorem partitionReset_destroys {s : State} {p : PartId} (resetting : (s.part p.val).reset.resetting = true)
    (stage : (s.part p.val).reset.stage = 1) :
    ∃ t, exec (.partitionReset p) s = .next t ∧ (t.part p.val).reset.stage = 2 ∧ (t.part p.val).reset.resetting = true ∧
      (s.boot.running ≠ some p.val → sameMemory s t) ∧ t.out = s.out ∧
      (∀ q, q < 256 → (s.queue q).bound = true → (s.queue q).part = p.val →
        ((s.queue q).state = 2 ∨ (s.queue q).state = 1 ∧ (s.queue q).head < (s.queue q).tail) → (t.queue q).state = 3) ∧
      (∀ id l, s.launch id = some l → l.part = p.val → l.stage ≠ .ended → ∃ m, t.launch id = some m ∧
        ((l.stage = .issued ∨ ∃ u, u ∈ l.set ∧ ∀ r, r ∈ l.reports → r.sq ≠ u) → m.aborted = true)) := by
  obtain ⟨reset, queues, launches, out, mem⟩ := destroyWork_leaves resetting stage
  refine ⟨_, exec_partitionReset p s, by rw [reset], by rw [reset, resetting], fun other => sameMemory.of_mem (mem other), out,
    fun q listed bound mine owes => ?_, fun id l found mine going => ?_⟩
  · rw [State.queue, queues, ← State.queue]
    exact destroyQueues_state listed mine ((Queue.owesEnd_iff _).mpr ⟨bound, owes⟩)
  · have tracked : launchIsTracked id l (destroyQueues s p.val) :=
      launchIsTracked.destroyQueues ⟨l, found, rfl, going, .inr ⟨rfl, rfl, rfl⟩⟩ p.val
    rw [State.launch, launches, ← State.launch]
    by_cases unfinished : l.stage = .issued ∨ ∃ u, u ∈ l.set ∧ ∀ r, r ∈ l.reports → r.sq ≠ u
    · obtain ⟨m, now, aborted⟩ := abortLaunches_aborts tracked unfinished
      rw [mine] at now
      exact ⟨m, now, fun _ => aborted⟩
    · obtain ⟨m, now, -⟩ := abortLaunches_tracks tracked p.val
      exact ⟨m, now, fun h => absurd h unfinished⟩

end Sys2Proof.Proofs

/-! Interrupts that moderation or a mask has held (R380, R382). -/

namespace Sys2Proof.Proofs
open Sys2Proof Sys2Proof.Machine

/-- A vector's messages are sent: MSI-X is enabled, and neither the function nor the vector is masked (R380). -/
def vectorOpen (f : Function) (v : Nat) : Prop := f.msixEn = true ∧ f.fmask = false ∧ Table.get false f.unmasked v = true

/-- Besides what moderation owes the state is unchanged. -/
def onlyOwes (s t : State) : Prop :=
  t = { s with parts := t.parts } ∧ ∀ q, t.part q = { s.part q with moderation := (t.part q).moderation }

theorem onlyOwes_modPart (s : State) (p : Nat) (f : Part → List Moderation) :
    onlyOwes s (s.modPart p (fun x => { x with moderation := f x })) := by
  refine ⟨rfl, fun q => ?_⟩
  rw [State.modPart_part]
  split
  · next same => rw [same]
  · rfl

/-- What moderation owes once an interval has begun, if the partition has one. -/
def intervalOwes (t : IntTarget) (now regUnit regAddr : Nat) (x : Part) : List Moderation :=
  if x.mod_ = 0 then x.moderation else startInterval x.moderation t (now + 128 * x.mod_) regUnit regAddr

theorem onlyOwes_beginInterval (s : State) (p : Nat) (t : IntTarget) (regUnit regAddr : Nat) : onlyOwes s (s.beginInterval p t regUnit regAddr) := by
  have shape : s.beginInterval p t regUnit regAddr = s.modPart p (fun x => { x with moderation := intervalOwes t s.time regUnit regAddr x }) := by
    unfold State.beginInterval intervalOwes
    congr 1
    funext x
    split <;> rfl
  rw [shape]
  exact onlyOwes_modPart s p _

theorem onlyOwes.out {s t : State} (h : onlyOwes s t) : t.out = s.out := by rw [h.1]

theorem onlyOwes.sameMemory {s t : State} (h : onlyOwes s t) : sameMemory s t := sameMemory.of_mem (by rw [h.1])

theorem onlyOwes.fn {s t : State} (h : onlyOwes s t) (q : Nat) : (t.part q).fn = (s.part q).fn := by rw [h.2]

theorem sendInt_open {s : State} {p v : Nat} (opens : vectorOpen (s.part p).fn v) (regUnit regAddr : Nat) :
    s.sendInt p (.msix v) regUnit regAddr = (s.emit (messageOf s p v), true) := by
  obtain ⟨enabled, unmasked, vector⟩ := opens
  simp [State.sendInt, enabled, unmasked, vector, messageOf]

theorem sendModerated_open {s : State} {p v : Nat} (opens : vectorOpen (s.part p).fn v) (regUnit regAddr : Nat) :
    onlyOwes (s.emit (messageOf s p v)) (s.sendModerated p (.msix v) regUnit regAddr) := by
  rw [State.sendModerated, sendInt_open opens]
  exact onlyOwes_beginInterval _ p _ regUnit regAddr

/-- A message that moderation does not merge is sent. -/
theorem raiseInt_open {s : State} {p v : Nat} (opens : vectorOpen (s.part p).fn v) (quiet : (s.part p).reset.resetting = false)
    (free : (s.part p).reset.holdDone = false) (ends : moderated (s.part p).moderation (.msix v) s.time = false) (regUnit regAddr : Nat) :
    onlyOwes (s.emit (messageOf s p v)) (s.raiseInt p (.msix v) regUnit regAddr) := by
  have run : s.raiseInt p (.msix v) regUnit regAddr = s.sendModerated p (.msix v) regUnit regAddr := by
    simp [State.raiseInt, quiet, free, ends, intDiscarded, opens.1]
  rw [run]
  exact sendModerated_open opens regUnit regAddr

theorem moderated_of_absent {m : List Moderation} {t : IntTarget} (absent : ∀ e, e ∈ m → e.target ≠ t) (now : Nat) :
    moderated m t now = false := by
  simp only [moderated, List.any_eq_false, Bool.and_eq_true, beq_iff_eq, not_and]
  exact fun e listed same => absurd same (absent e listed)

theorem exec_interruptModerationExpiry (p : PartId) (target : IntTarget) (s : State) :
    exec (.interruptModerationExpiry p target) s = .next (s.endInterval p.val target) := rfl

section
variable {s : State} {p : Nat} {v : Nat} {e : Moderation}
  (owed : (s.part p).moderation.find? (fun m => m.target == .msix v) = some e)
include owed

/-- The state as an interval has ended, before the message that it merged. -/
theorem endInterval_ends (due : e.until_ ≤ s.time) (quiet : (s.part p).reset.resetting = false)
    (free : (s.part p).reset.holdDone = false) (kept : (s.part p).fn.msixEn = true) : s.endInterval p (.msix v) =
      let t := s.modPart p (fun y => { y with moderation := y.moderation.filter (fun m => m.target != .msix v) })
      if e.pending then t.raiseInt p (.msix v) e.regUnit e.regAddr else t := by
  have due' : ¬ s.time < e.until_ := by omega
  simp [State.endInterval, owed, quiet, free, kept, intDiscarded, due']

theorem endInterval_waits (off : (s.part p).fn.msixEn = false) (merged : e.pending = true) : s.endInterval p (.msix v) = s := by
  simp [State.endInterval, owed, off, merged, intDiscarded]

theorem endInterval_sends (due : e.until_ ≤ s.time) (quiet : (s.part p).reset.resetting = false)
    (free : (s.part p).reset.holdDone = false) (opens : vectorOpen (s.part p).fn v) :
    sameMemory s (s.endInterval p (.msix v)) ∧
      (s.endInterval p (.msix v)).out = if e.pending then messageOf s p v :: s.out else s.out := by
  rw [endInterval_ends owed due quiet free opens.1]
  have ended : ((s.modPart p (fun y => { y with moderation := y.moderation.filter (fun m => m.target != .msix v) })).part p) =
      { s.part p with moderation := (s.part p).moderation.filter (fun m => m.target != .msix v) } := State.modPart_part_same ..
  have stays := onlyOwes_modPart s p (fun y => y.moderation.filter (fun m => m.target != .msix v))
  generalize s.modPart p (fun y => { y with moderation := y.moderation.filter (fun m => m.target != .msix v) }) = t at *
  dsimp only
  split
  · have absent : moderated (t.part p).moderation (.msix v) t.time = false :=
      moderated_of_absent (fun m listed => by
        rw [ended] at listed
        exact bne_iff_ne.mp (List.mem_filter.mp listed).2) _
    have sent := raiseInt_open (by rw [ended]; exact opens) (by rw [ended]; exact quiet) (by rw [ended]; exact free) absent e.regUnit e.regAddr
    refine ⟨stays.sameMemory.trans sent.sameMemory, sent.out.trans ?_⟩
    rw [State.emit, messageOf, ended, stays.out]
    rfl
  · exact ⟨stays.sameMemory, stays.out⟩

end

/-- The end of a moderation interval (R382). -/
theorem moderationExpiry_sends {s : State} {p : PartId} {v : Nat} {e : Moderation}
    (owed : (s.part p.val).moderation.find? (fun m => m.target == .msix v) = some e) (due : e.until_ ≤ s.time)
    (quiet : (s.part p.val).reset.resetting = false) (free : (s.part p.val).reset.holdDone = false) :
    ((s.part p.val).fn.msixEn = true → (s.part p.val).fn.fmask = false → Table.get false (s.part p.val).fn.unmasked v = true →
      ∃ t, exec (.interruptModerationExpiry p (.msix v)) s = .next t ∧ sameMemory s t ∧
        t.out = if e.pending then messageOf s p.val v :: s.out else s.out) ∧
    ((s.part p.val).fn.msixEn = false → e.pending = true → exec (.interruptModerationExpiry p (.msix v)) s = .next s) := by
  refine ⟨fun enabled unmasked vector => ?_, fun off merged => ?_⟩
  · exact ⟨_, exec_interruptModerationExpiry p _ s, endInterval_sends owed due quiet free ⟨enabled, unmasked, vector⟩⟩
  · rw [exec_interruptModerationExpiry, endInterval_waits owed off merged]

/-! A mask is lifted. -/

/-- A vector's message waits no longer. -/
def takeMessage (v : Nat) (x : Part) : Part := { x with fn := { x.fn with pend := Table.set false x.fn.pend v false } }

/-- A vector's mask is lifted. -/
def liftMask (v : Nat) (x : Part) : Part := { x with fn := { x.fn with unmasked := Table.set false x.fn.unmasked v true } }

/-- What a flush does with a message that waits. -/
def flushMessage (s : State) (p v : Nat) : State :=
  let t := s.modPart p (takeMessage v)
  if moderated (t.part p).moderation (.msix v) t.time then t.modPart p (fun x => { x with moderation := markPending x.moderation (.msix v) })
  else t.sendModerated p (.msix v) unitReset 0

section
variable {s : State} {p v : Nat} (opens : vectorOpen (s.part p).fn v)
include opens

theorem flushMsix_single (quiet : (s.part p).reset.resetting = false) (free : (s.part p).reset.holdDone = false)
    (waits : (s.part p).fn.pend = [(v, true)]) : s.flushMsix p = flushMessage s p v := by
  obtain ⟨enabled, unmasked, vector⟩ := opens
  simp only [State.flushMsix, quiet, free, waits, enabled, unmasked, vector, Bool.false_and, Bool.false_eq_true, if_false, List.map_cons,
    List.map_nil, List.filter_cons, List.filter_nil, Bool.not_false, Bool.and_true, if_true, forAll, List.foldl_cons, List.foldl_nil]
  rfl

theorem flushMessage_sends (absent : ∀ e, e ∈ (s.part p).moderation → e.target ≠ .msix v) :
    onlyOwes ((s.modPart p (takeMessage v)).emit (messageOf s p v)) (flushMessage s p v) := by
  have after : (s.modPart p (takeMessage v)).part p = takeMessage v (s.part p) := State.modPart_part_same ..
  unfold flushMessage
  generalize s.modPart p (takeMessage v) = t at *
  have message : messageOf t p v = messageOf s p v := by rw [messageOf, after]; rfl
  have sent := sendModerated_open (s := t) (p := p) (v := v) (by rw [after]; exact opens) unitReset 0
  rw [message] at sent
  simpa [moderated_of_absent (m := (t.part p).moderation) (by rw [after]; exact absent)] using sent

end

theorem takeMessage_pend {v : Nat} {x : Part} (waits : x.fn.pend = [(v, true)]) : (takeMessage v x).fn.pend = [] := by
  simp [takeMessage, waits, Table.set, Table.erase]

theorem exec_vectorUnmask {s : State} {p : PartId} (present : s.functionPresent p.val = true) (service : s.inService = true) (v : Fin 2048) :
    exec (.msixUnmask p (.vectorUnmask v)) s = .next ((s.modPart p.val (liftMask v.val)).flushMsix p.val) :=
  congrArg Host.Outcome.next (if_neg (by simp [present, service]))

/-- The mask of a vector is lifted (R380). -/
theorem vectorUnmask_sends {s : State} {p : PartId} {v : Fin 2048} (present : s.functionPresent p.val = true) (service : s.inService = true)
    (enabled : (s.part p.val).fn.msixEn = true) (unmasked : (s.part p.val).fn.fmask = false)
    (quiet : (s.part p.val).reset.resetting = false) (free : (s.part p.val).reset.holdDone = false)
    (waits : (s.part p.val).fn.pend = [(v.val, true)]) (absent : ∀ e, e ∈ (s.part p.val).moderation → e.target ≠ .msix v.val) :
    ∃ t, exec (.msixUnmask p (.vectorUnmask v)) s = .next t ∧ t.out = messageOf s p.val v.val :: s.out ∧ (t.part p.val).fn.pend = [] ∧
      Table.get false (t.part p.val).fn.unmasked v.val = true ∧ sameMemory s t := by
  refine ⟨_, exec_vectorUnmask present service v, ?_⟩
  have lifted : (s.modPart p.val (liftMask v.val)).part p.val = liftMask v.val (s.part p.val) := State.modPart_part_same ..
  have memory : sameMemory s (s.modPart p.val (liftMask v.val)) := sameMemory.of_mem rfl
  have out : (s.modPart p.val (liftMask v.val)).out = s.out := rfl
  generalize s.modPart p.val (liftMask v.val) = t at *
  have vector : Table.get false (t.part p.val).fn.unmasked v.val = true := by
    simp only [lifted, liftMask, Table.get_set_same]
  have opens : vectorOpen (t.part p.val).fn v.val := ⟨by rw [lifted]; exact enabled, by rw [lifted]; exact unmasked, vector⟩
  have message : messageOf t p.val v.val = messageOf s p.val v.val := by rw [messageOf, lifted]; rfl
  have waits' : (t.part p.val).fn.pend = [(v.val, true)] := by rw [lifted]; exact waits
  have taken : (t.modPart p.val (takeMessage v.val)).part p.val = takeMessage v.val (t.part p.val) := State.modPart_part_same ..
  rw [flushMsix_single opens (by rw [lifted]; exact quiet) (by rw [lifted]; exact free) waits']
  have sent := flushMessage_sends opens (by rw [lifted]; exact absent)
  have fn : ((flushMessage t p.val v.val).part p.val).fn = (takeMessage v.val (t.part p.val)).fn :=
    (sent.fn p.val).trans (congrArg Part.fn taken)
  refine ⟨?_, ?_, ?_, memory.trans ((sameMemory.of_mem rfl).trans sent.sameMemory)⟩
  · rw [sent.out, ← message, ← out]
    rfl
  · rw [fn, takeMessage_pend waits']
  · rw [fn]
    exact vector

end Sys2Proof.Proofs

/-! The end of a partition reset: its state at the reset values, and reset-done (R365, R385, R388). -/

namespace Sys2Proof.Proofs
open Sys2Proof Sys2Proof.Machine

/-! What follows reset-done. -/

/-- The registers of a partition's tree. -/
def treeRegs (x : Part) : Nat × Nat × Reg64 := (x.pfxBase, x.pfxLog2n, x.pfxKey)

/-- Interrupts are sent, resets of other partitions begin or are put off, and a wake starts. -/
def onlySignals (s t : State) : Prop :=
  t = { s with
    parts := t.parts, harts := t.harts, out := t.out, elog := t.elog, ctr := t.ctr, trcQ := t.trcQ, power := t.power,
    replicas := t.replicas, stop := t.stop, heldResets := t.heldResets } ∧ ∀ q, treeRegs (t.part q) = treeRegs (s.part q)

theorem onlySignals.refl (s : State) : onlySignals s s := ⟨rfl, fun _ => rfl⟩

theorem onlySignals.trans {s t u : State} (h : onlySignals s t) (k : onlySignals t u) : onlySignals s u := by
  obtain ⟨rest, tree⟩ := h
  obtain ⟨rest', tree'⟩ := k
  exact ⟨by rw [rest', rest], fun q => (tree' q).trans (tree q)⟩

theorem onlySignals_modPart {s : State} {p : Nat} {f : Part → Part} (keeps : treeRegs (f (s.part p)) = treeRegs (s.part p)) :
    onlySignals s (s.modPart p f) := by
  refine ⟨rfl, fun q => ?_⟩
  rw [State.modPart_part]
  split
  · next same => rw [same, keeps]
  · rfl

theorem onlyTraces.signals {s t : State} (h : onlyTraces s t) : onlySignals s t := by
  obtain ⟨rest, parts⟩ := h
  exact ⟨by rw [rest], fun q => by rw [parts]; rfl⟩

theorem onlyOwes.signals {s t : State} (h : onlyOwes s t) : onlySignals s t := by
  obtain ⟨rest, parts⟩ := h
  exact ⟨by rw [rest], fun q => by rw [parts]; rfl⟩

theorem onlySignals_beginReset (s : State) (p : Nat) (byP0 : Bool) : onlySignals s (s.beginReset p byP0) := by
  rw [beginReset_eq]
  have starts : onlySignals s (s.modPart p (startReset byP0)) := onlySignals_modPart rfl
  refine (starts.trans ?_).trans (onlyTraces_traceStep _ p 1).signals
  obtain ⟨rest, -⟩ := resetsBegin_haltCores (s.modPart p (startReset byP0)) p
  exact ⟨by rw [rest], fun q => by rw [haltCores_part]⟩

/-- Besides the controller and the replicas of the time base the state is unchanged. -/
def onlyWakes (s t : State) : Prop := t = { s with power := t.power, replicas := t.replicas }

theorem onlyWakes.trans {s t u : State} (h : onlyWakes s t) (k : onlyWakes t u) : onlyWakes s u := by
  unfold onlyWakes at *
  rw [k, h]

theorem onlyWakes.signals {s t : State} (h : onlyWakes s t) : onlySignals s t := by
  unfold onlyWakes at h
  rw [h]
  exact ⟨rfl, fun _ => rfl⟩

theorem onlyWakes_beginWake (s : State) : onlyWakes s s.beginWake := by
  unfold State.beginWake
  refine forAll_keeps (P := onlyWakes s) (fun t q _ h => h.trans ?_) ?_ <;> exact rfl

theorem onlySignals_requestWake (s : State) : onlySignals s s.requestWake := by
  unfold State.requestWake
  split
  · exact (onlyWakes_beginWake s).signals
  · split
    · exact ⟨rfl, fun _ => rfl⟩
    · exact .refl s

theorem onlySignals_triggerReset (s : State) (p : Nat) (byP0 : Bool) : onlySignals s (s.triggerReset p byP0) := by
  unfold State.triggerReset
  split
  · exact .refl s
  · split
    · exact ⟨rfl, fun _ => rfl⟩
    · split
      · exact onlySignals_beginReset s p byP0
      · have held : onlySignals s { s with heldResets := s.heldResets ++ [if byP0 then p + 16 else p] } := ⟨rfl, fun _ => rfl⟩
        exact held.trans (onlySignals_requestWake _)

theorem onlySignals_continuePfReset (s : State) : onlySignals s s.continuePfReset := by
  unfold State.continuePfReset
  split
  · refine .trans ?_ (onlySignals_triggerReset _ 0 false)
    exact onlySignals_modPart rfl
  · exact .refl s

/-- Reset-done changes of a reset at most that it is held, and sends what it sends. -/
def onlyAnnounces (s t : State) : Prop :=
  onlySignals s t ∧ ∀ q, (t.part q).reset = { (s.part q).reset with holdDone := (t.part q).reset.holdDone }

theorem onlyOwes.announces {s t u : State} (h : onlyOwes t u) (signals : onlySignals s t) (parts : ∀ q, (t.part q).reset = (s.part q).reset) :
    onlyAnnounces s u := by
  refine ⟨signals.trans h.signals, fun q => ?_⟩
  have same : (u.part q).reset = (t.part q).reset := by rw [h.2 q]
  rw [same, parts]

theorem onlyAnnounces_sendModerated (s : State) (p : Nat) (t : IntTarget) (regUnit regAddr : Nat) :
    onlyAnnounces s (s.sendModerated p t regUnit regAddr) := by
  have sent : onlySignals s (s.sendInt p t regUnit regAddr).1 ∧ ∀ q, ((s.sendInt p t regUnit regAddr).1.part q).reset = (s.part q).reset := by
    unfold State.sendInt
    split
    · dsimp only
      split
      · exact ⟨.refl s, fun _ => rfl⟩
      · split
        · dsimp only
          refine ⟨onlySignals_modPart rfl, fun q => ?_⟩
          rw [State.modPart_part]
          split
          · next same => rw [same]
          · rfl
        · exact ⟨⟨rfl, fun _ => rfl⟩, fun _ => rfl⟩
    · dsimp only
      split
      · exact ⟨⟨rfl, fun _ => rfl⟩, fun _ => rfl⟩
      · exact ⟨⟨rfl, fun _ => rfl⟩, fun _ => rfl⟩
  obtain ⟨signals, resets⟩ := sent
  unfold State.sendModerated
  dsimp only
  split
  · exact (onlyOwes_beginInterval _ p t regUnit regAddr).announces signals resets
  · exact ⟨signals, fun q => by rw [resets]⟩

/-- Reset-done is held until its vector is open (R388). -/
def holdResetDone (x : Part) : Part :=
  { x with
    reset := { x.reset with holdDone := true }
    fn := if x.fn.msixEn then { x.fn with pend := Table.set false x.fn.pend x.rdVec true } else x.fn }

theorem holdResetDone_reset (x : Part) : (holdResetDone x).reset = { x.reset with holdDone := true } := rfl

theorem onlyAnnounces_hold (s : State) (p : Nat) : onlyAnnounces s (s.modPart p holdResetDone) := by
  refine ⟨onlySignals_modPart rfl, fun q => ?_⟩
  rw [State.modPart_part]
  split
  · next same => rw [same, holdResetDone_reset]
  · rfl

theorem onlyAnnounces_raiseResetDone (s : State) (p : Nat) : onlyAnnounces s (s.raiseResetDone p) := by
  unfold State.raiseResetDone
  dsimp only
  split
  · exact onlyAnnounces_sendModerated ..
  · split
    · exact onlyAnnounces_sendModerated ..
    · exact onlyAnnounces_hold s p

section
variable {s : State} {p : Nat} (msix : (s.part p).rdItype = 0)
include msix

theorem raiseResetDone_sends (opens : vectorOpen (s.part p).fn (s.part p).rdVec) :
    (s.raiseResetDone p).out = messageOf s p (s.part p).rdVec :: s.out := by
  obtain ⟨enabled, unmasked, vector⟩ := opens
  have run : s.raiseResetDone p = s.sendModerated p (.msix (s.part p).rdVec) unitReset (0xF0002000300 + 8 * p) := by
    simp [State.raiseResetDone, msix, enabled, unmasked, vector]
  rw [run, (sendModerated_open ⟨enabled, unmasked, vector⟩ _ _).out]
  rfl

theorem raiseResetDone_holds (masked : ¬ vectorOpen (s.part p).fn (s.part p).rdVec) :
    s.raiseResetDone p = s.modPart p holdResetDone := by
  have not_open : ¬ ((s.part p).fn.msixEn && !(s.part p).fn.fmask && Table.get false (s.part p).fn.unmasked (s.part p).rdVec) = true := by
    simpa [vectorOpen, and_assoc] using masked
  unfold State.raiseResetDone
  dsimp only
  rw [if_neg (by rw [msix]; decide), if_neg not_open]
  rfl

end

/-! The state of a partition at its reset values. -/

theorem get_mapValues {α : Type} {d : α} {f : Nat → α → α} (fixed : ∀ k, f k d = d) (t : Table α) (k : Nat) :
    Table.get d (t.map (fun e => (e.1, f e.1 e.2))) k = f k (Table.get d t k) := by
  induction t with
  | nil => exact (fixed k).symm
  | cons e r ih =>
    simp only [List.map_cons, Table.get]
    split
    · next same => rw [same]
    · exact ih

/-- A range of a partition retires. -/
def retired (p : Nat) (r : SealRange) : SealRange := if r.part = p ∧ r.state ≠ 0 then { r with state := 2 } else r

/-- A handle of a partition is invalid. -/
def dropped (p k : Nat) (h : Handle) : Handle := if 256 * p ≤ k ∧ k < 256 * p + 256 then { h with valid := false } else h

/-- Hall counters, ranges and handles as step 5 leaves them, before the queues. -/
def resetTables (s : State) (p : Nat) : State :=
  { s with
    hallCtr := Table.clear s.hallCtr (256 * p) (256 * p + 256)
    seals := s.seals.map (fun e => (e.1, retired p e.2))
    handles := s.handles.map (fun e => (e.1, dropped p e.1 e.2)) }

/-- A queue that is bound to a partition, at its reset values. -/
def restingQueue (p : Nat) : Queue := { bound := true, part := p, state := 1 }

/-- The queues of a partition rest. -/
def restQueues (s : State) (p : Nat) : State :=
  forAll (upto 256) (fun t q => if (t.queue q).bound ∧ (t.queue q).part = p then t.setQueue q (restingQueue p) else t) s

theorem resetHall_eq (s : State) (p : Nat) : s.resetHall p = restQueues (resetTables s p) p := by
  have seals : (fun e : Nat × SealRange => if e.2.part = p ∧ e.2.state ≠ 0 then (e.1, { e.2 with state := 2 }) else e) =
      fun e => (e.1, retired p e.2) := by
    funext e
    unfold retired
    split <;> rfl
  have handles : (fun e : Nat × Handle => if 256 * p ≤ e.1 ∧ e.1 < 256 * p + 256 then (e.1, { e.2 with valid := false }) else e) =
      fun e => (e.1, dropped p e.1 e.2) := by
    funext e
    unfold dropped
    split <;> rfl
  unfold State.resetHall resetTables restQueues restingQueue
  rw [seals, handles]

theorem restQueues_keeps (s : State) (p : Nat) : restQueues s p = { s with queues := (restQueues s p).queues } := by
  unfold restQueues
  refine forAll_keeps (P := fun t => t = { s with queues := t.queues }) (fun t q _ h => ?_) rfl
  split
  · rw [h]
    rfl
  · exact h

theorem restQueues_rests {s : State} {p q : Nat} (listed : q < 256) (bound : (s.queue q).bound = true) (mine : (s.queue q).part = p) :
    (restQueues s p).queue q = restingQueue p := by
  unfold restQueues
  refine forAll_reaches (P := fun t => t.queue q = s.queue q ∨ t.queue q = restingQueue p) (Q := fun t => t.queue q = restingQueue p)
    (List.mem_range.mpr listed) (fun t h => ?_) (fun t k h => ?_) (fun t k h => ?_) (.inl rfl)
  · rw [if_pos (by rcases h with same | rests; exacts [by rw [same]; exact ⟨bound, mine⟩, by rw [rests]; exact ⟨rfl, rfl⟩]),
      State.setQueue_queue_same]
  · split
    · rw [State.setQueue_queue]
      split
      · exact .inr rfl
      · exact h
    · exact h
  · split
    · rw [State.setQueue_queue]
      split
      · rfl
      · exact h
    · exact h

/-- What step 5 leaves. -/
theorem resetHall_spec (s : State) (p : Nat) :
    s.resetHall p = { s with
      hallCtr := (s.resetHall p).hallCtr, seals := (s.resetHall p).seals, handles := (s.resetHall p).handles,
      queues := (s.resetHall p).queues } ∧
    (∀ c, c < 256 → (s.resetHall p).hallCounter (256 * p + c) = 0) ∧ (∀ n, (s.resetHall p).seal n = retired p (s.seal n)) ∧
    (∀ q, q < 256 → (s.queue q).bound = true → (s.queue q).part = p → (s.resetHall p).queue q = restingQueue p) ∧
    ∀ h, (s.resetHall p).handle p h = dropped p (256 * p + h) (s.handle p h) := by
  have rest := restQueues_keeps (resetTables s p) p
  have rests {q : Nat} (listed : q < 256) (bound : (s.queue q).bound = true) (mine : (s.queue q).part = p) :
      (restQueues (resetTables s p) p).queue q = restingQueue p := restQueues_rests listed bound mine
  rw [resetHall_eq]
  generalize restQueues (resetTables s p) p = t at *
  refine ⟨by rw [rest]; rfl, fun c listed => ?_, fun n => ?_, fun q => rests, fun h => ?_⟩
  · rw [rest]
    exact (Table.get_clear ..).trans (if_pos (by omega))
  · rw [rest]
    exact get_mapValues (f := fun _ => retired p) (fun _ => by simp [retired]) s.seals n
  · rw [rest]
    exact get_mapValues (f := dropped p) (fun _ => by simp [dropped]) s.handles (256 * p + h)

end Sys2Proof.Proofs

/-! The rest of a partition reset: squares, handovers and the registers of the partition (R385, R390). -/

namespace Sys2Proof.Proofs
open Sys2Proof Sys2Proof.Machine

/-! Steps 5 and 6. -/

/-- A partition without a tree. -/
def treeless (x : Part) : Part := { x with pfxBase := 0, pfxProbe := 0, pfxLog2n := 0, pfxKey := 0 }

/-- A partition whose reset is over. -/
def resetOver (x : Part) : Part := { x with reset := { x.reset with resetting := false, done := true, stage := 0, walk := 0 } }

/-- Steps 5 and 6 up to reset-done. -/
def closeReset (s : State) (p : Nat) : State :=
  (((((s.clearTree p).traceStep p 4).resetHall p).traceStep p 5).modPart p resetOver).traceStep p 6

theorem endReset_eq (s : State) (p : Nat) : s.endReset p = ((closeReset s p).raiseResetDone p).continuePfReset := rfl

/-- What steps 5 and 6 leave in the tables of the hall. -/
def hallResets (s t : State) (p : Nat) : Prop :=
  (∀ c, c < 256 → t.hallCounter (256 * p + c) = 0) ∧ (∀ n, t.seal n = retired p (s.seal n)) ∧
    (∀ q, q < 256 → (s.queue q).bound = true → (s.queue q).part = p → t.queue q = restingQueue p) ∧
    ∀ h, t.handle p h = dropped p (256 * p + h) (s.handle p h)

/-- The state before and after the hall's reset, seen through its tables. -/
theorem hallResets.of_same {s t s' t' : State} {p : Nat} (h : hallResets s t p)
    (before : s'.seals = s.seals ∧ s'.queues = s.queues ∧ s'.handles = s.handles)
    (after : t'.hallCtr = t.hallCtr ∧ t'.seals = t.seals ∧ t'.queues = t.queues ∧ t'.handles = t.handles) : hallResets s' t' p := by
  obtain ⟨seals, queues, handles⟩ := before
  obtain ⟨hallCtr', seals', queues', handles'⟩ := after
  simpa only [hallResets, State.hallCounter, State.seal, State.queue, State.handle, seals, queues, handles, hallCtr', seals', queues', handles']
    using h

theorem closeReset_spec (s : State) (p : Nat) :
    closeReset s p = { s with
      parts := (closeReset s p).parts, ctr := (closeReset s p).ctr, trcQ := (closeReset s p).trcQ, hallCtr := (closeReset s p).hallCtr,
      seals := (closeReset s p).seals, handles := (closeReset s p).handles, queues := (closeReset s p).queues } ∧
    hallResets s (closeReset s p) p ∧
    ∀ q, (closeReset s p).part q =
      { (if q = p then resetOver (treeless (s.part p)) else s.part q) with trc := ((closeReset s p).part q).trc } := by
  have tree (q : Nat) : (s.clearTree p).part q = if q = p then treeless (s.part p) else s.part q := State.modPart_part ..
  have clears : s.clearTree p = { s with parts := (s.clearTree p).parts } := rfl
  unfold closeReset
  generalize s.clearTree p = a at *
  obtain ⟨rest₁, parts₁⟩ := onlyTraces_traceStep a p 4
  generalize a.traceStep p 4 = b at *
  obtain ⟨rest₂, counters, seals, queues, handles⟩ := resetHall_spec b p
  have hall : hallResets b (b.resetHall p) p := ⟨counters, seals, queues, handles⟩
  generalize b.resetHall p = c at *
  obtain ⟨rest₃, parts₃⟩ := onlyTraces_traceStep c p 5
  generalize c.traceStep p 5 = d at *
  have done (q : Nat) : (d.modPart p resetOver).part q = if q = p then resetOver (d.part p) else d.part q := State.modPart_part ..
  have marks : d.modPart p resetOver = { d with parts := (d.modPart p resetOver).parts } := rfl
  generalize d.modPart p resetOver = e at *
  obtain ⟨rest₅, parts₅⟩ := onlyTraces_traceStep e p 6
  generalize e.traceStep p 6 = f at *
  refine ⟨?_, hall.of_same ?_ ?_, fun q => ?_⟩
  · rw [rest₅, marks, rest₃, rest₂, rest₁, clears]
  · rw [rest₁, clears]
    exact ⟨rfl, rfl, rfl⟩
  · rw [rest₅, marks, rest₃]
    exact ⟨rfl, rfl, rfl, rfl⟩
  · have same (k : Nat) : c.part k = b.part k := by
      rw [rest₂]
      rfl
    rw [parts₅, done]
    split
    · rw [parts₃, same, parts₁, tree, if_pos rfl]
      rfl
    · next other =>
      rw [parts₃, same, parts₁, tree, if_neg other]

/-- What a reset's last steps leave. -/
theorem endReset_leaves (s : State) (p : Nat) : (s.endReset p).mem = s.mem ∧ (s.endReset p).squares = s.squares ∧
    (s.endReset p).sqCtr = s.sqCtr ∧ (s.endReset p).sqOwn = s.sqOwn ∧ hallResets s (s.endReset p) p ∧
    treeRegs ((s.endReset p).part p) = (0, 0, 0) := by
  obtain ⟨rest, hall, parts⟩ := closeReset_spec s p
  rw [endReset_eq]
  have tree : treeRegs ((closeReset s p).part p) = (0, 0, 0) := by
    rw [parts, if_pos rfl]
    rfl
  generalize closeReset s p = c at *
  have signals := (onlyAnnounces_raiseResetDone c p).1.trans (onlySignals_continuePfReset _)
  generalize (c.raiseResetDone p).continuePfReset = t at *
  obtain ⟨after, kept⟩ := signals
  refine ⟨?_, ?_, ?_, ?_, hall.of_same ⟨rfl, rfl, rfl⟩ ?_, (kept p).trans tree⟩
  · rw [after, rest]
  · rw [after, rest]
  · rw [after, rest]
  · rw [after, rest]
  · rw [after]
    exact ⟨rfl, rfl, rfl, rfl⟩

theorem continuePfReset_of_unasked {s : State} (unasked : (s.part 0).reset.byPf = false) : s.continuePfReset = s :=
  if_neg (by rw [unasked]; simp)

/-- Reset-done, where the physical function's reset does not wait for this one (R388). -/
theorem endReset_announces {s : State} {p : Nat} (unasked : (s.part 0).reset.byPf = false) :
    ((s.endReset p).part p).reset.resetting = false ∧ ((s.endReset p).part p).reset.done = true ∧
    ((s.part p).rdItype = 0 →
      (vectorOpen (s.part p).fn (s.part p).rdVec → (s.endReset p).out = messageOf s p (s.part p).rdVec :: s.out) ∧
      (¬ vectorOpen (s.part p).fn (s.part p).rdVec → ((s.endReset p).part p).reset.holdDone = true ∧ (s.endReset p).out = s.out)) := by
  obtain ⟨rest, -, parts⟩ := closeReset_spec s p
  rw [endReset_eq]
  have byPf : ((closeReset s p).part 0).reset.byPf = false := by
    rw [parts]
    split
    · next same => exact same ▸ unasked
    · exact unasked
  have out : (closeReset s p).out = s.out := by rw [rest]
  have part := parts p
  rw [if_pos rfl] at part
  generalize closeReset s p = c at *
  obtain ⟨-, resets⟩ := onlyAnnounces_raiseResetDone c p
  rw [continuePfReset_of_unasked (by rw [resets 0, byPf])]
  refine ⟨by rw [resets p, part]; rfl, by rw [resets p, part]; rfl, fun msix => ⟨fun opens => ?_, fun masked => ?_⟩⟩
  · rw [raiseResetDone_sends (by rw [part]; exact msix) (by rw [part]; exact opens), out, messageOf, part]
    rfl
  · rw [raiseResetDone_holds (by rw [part]; exact msix) (by rw [part]; exact masked), State.modPart_part_same]
    exact ⟨rfl, out⟩

end Sys2Proof.Proofs

/-! Step 3 of a partition reset, and what a reset without context records and tree leaves (R385, R390). -/

namespace Sys2Proof.Proofs
open Sys2Proof Sys2Proof.Machine

/-! Squares. -/

/-- Every square of a partition in a quarter in service is reset. -/
def cleanSquares (s : State) (p : Nat) : State :=
  forAll ((upto 128).filter (fun u => s.squareOwnedBy u p && !(s.fence (u / 16)).fenced)) State.resetSquare s

/-- Besides squares, their memory and their requests the state is unchanged. -/
def onlyCleans (s t : State) : Prop :=
  t = { s with
    squares := t.squares, sqCtr := t.sqCtr, mem := t.mem, parity := t.parity, resv := t.resv, links := t.links, hostReqs := t.hostReqs }

theorem onlyCleans.trans {s t u : State} (h : onlyCleans s t) (k : onlyCleans t u) : onlyCleans s u := by
  unfold onlyCleans at *
  rw [k, h]

theorem onlyCleans_resetSquare (s : State) (u : Nat) : onlyCleans s (s.resetSquare u) := by
  have fountain : onlyCleans s (s.clearFountain u) := rfl
  have counters (t : State) : onlyCleans t (t.clearSquareCounters u) := rfl
  have requests (t : State) : onlyCleans t (t.orphan (loadsFor u)) := rfl
  have square (t : State) (f : Square → Square) : onlyCleans t (t.modSq u f) := rfl
  have bytes (t : State) : onlyCleans t (t.zeroCistern u) := rfl
  unfold State.resetSquare State.discardNear State.clearBanks
  exact ((((fountain.trans (counters _)).trans (requests _)).trans (square _ _)).trans (square _ _)).trans (bytes _)

theorem onlyCleans_cleanSquares (s : State) (p : Nat) : onlyCleans s (cleanSquares s p) := by
  unfold cleanSquares
  exact forAll_keeps (P := onlyCleans s) (fun t u _ h => h.trans (onlyCleans_resetSquare t u)) rfl

/-- A square at its reset values: counters, near cache and cistern. -/
def squareCleared (u : Nat) (t : State) : Prop :=
  (∀ c, c < 64 → t.squareCounter u c = 0) ∧ (t.sq u).near = [] ∧ ∀ b, b < 2 ^ 24 → t.byte (cisternAddr u b) = 0

theorem resetSquare_counter (s : State) (k u c : Nat) :
    (s.resetSquare k).squareCounter u c = if 64 * k ≤ 64 * u + c ∧ 64 * u + c < 64 * k + 64 then 0 else s.squareCounter u c :=
  Table.get_clear ..

theorem resetSquare_byte (s : State) (k a : Nat) :
    (s.resetSquare k).byte a = if cisternAddr k 0 ≤ a ∧ a < cisternAddr (k + 1) 0 then 0 else s.byte a := by
  unfold State.resetSquare State.zeroCistern State.discardNear State.clearBanks
  rw [State.zero_byte, State.modSq_byte, State.modSq_byte]
  rfl

theorem resetSquare_near (s : State) (k u : Nat) : ((s.resetSquare k).sq u).near = if u = k then [] else (s.sq u).near := by
  unfold State.resetSquare State.zeroCistern State.discardNear
  rw [State.zero_sq, State.modSq_sq]
  split
  · rfl
  · next other =>
    have fountain : (s.clearFountain k).sq u = s.sq u := (State.modSq_sq ..).trans (if_neg other)
    unfold State.clearBanks
    rw [State.modSq_sq, if_neg other, ← fountain]
    rfl

theorem squareCleared_resetSquare (s : State) (u : Nat) : squareCleared u (s.resetSquare u) := by
  refine ⟨fun c listed => ?_, ?_, fun b inside => ?_⟩
  · rw [resetSquare_counter, if_pos (by omega)]
  · rw [resetSquare_near, if_pos rfl]
  · rw [resetSquare_byte, if_pos (by unfold cisternAddr; omega)]

theorem squareCleared.resetSquare {s : State} {u : Nat} (h : squareCleared u s) (k : Nat) : squareCleared u (s.resetSquare k) := by
  obtain ⟨counters, near, bytes⟩ := h
  refine ⟨fun c listed => ?_, ?_, fun b inside => ?_⟩
  · rw [resetSquare_counter, counters c listed, ite_self]
  · rw [resetSquare_near, near, ite_self]
  · rw [resetSquare_byte, bytes b inside, ite_self]

theorem cleanSquares_clears {s : State} {p u : Nat} (listed : u < 128) (mine : s.squareOwnedBy u p = true)
    (works : (s.fence (u / 16)).fenced = false) : squareCleared u (cleanSquares s p) := by
  unfold cleanSquares
  have named : u ∈ (upto 128).filter (fun u => s.squareOwnedBy u p && !(s.fence (u / 16)).fenced) := by
    simp [List.mem_filter, upto, listed, mine, works]
  exact forAll_reaches (P := fun _ => True) (Q := squareCleared u) named (fun t _ => squareCleared_resetSquare t u) (fun _ _ _ => trivial)
    (fun _ k h => h.resetSquare k) trivial

theorem cleanSquares_none {s : State} {p : Nat} (noSquare : ∀ u, u < 128 → s.squareOwnedBy u p = false) : cleanSquares s p = s := by
  have empty : (upto 128).filter (fun u => s.squareOwnedBy u p && !(s.fence (u / 16)).fenced) = [] := by
    simp only [List.filter_eq_nil_iff, upto, List.mem_range, Bool.and_eq_true, not_and]
    intro u listed mine
    rw [noSquare u listed] at mine
    cases mine
  unfold cleanSquares
  rw [empty]
  rfl

/-! Handovers that waited. -/

/-- A square's entry changed before step 3, and its handover has not begun (R390). -/
def handoverHeld (s : State) (p : Nat) (o : SquareOwner) (u : Nat) : Prop :=
  o.eff = p + 1 ∧ o.busy = false ∧ ownerEff o ≠ p + 1 ∧ (s.fence (u / 16)).fenced = false

/-- An entry as its handover begins. -/
def handoverBegun (o : SquareOwner) : SquareOwner := { o with busy := true, moveTo := ownerEff o, moved := (o.valid, o.owner) }

theorem startHeldHandover_of_held {s : State} {p u : Nat} (held : handoverHeld s p (s.owner u) u) :
    s.startHeldHandover p u = s.setOwner u (handoverBegun (s.owner u)) := if_pos held

theorem startHeldHandover_of_not_held {s : State} {p u : Nat} (other : ¬ handoverHeld s p (s.owner u) u) :
    s.startHeldHandover p u = s := if_neg other

/-- The handovers that waited for step 3 begin. -/
def startHandovers (s : State) (p : Nat) : State := forAll (upto 128) (fun t u => t.startHeldHandover p u) s

/-- Besides the entries of squares the state is unchanged. -/
def onlyOwners (s t : State) : Prop := t = { s with sqOwn := t.sqOwn }

theorem onlyOwners_startHeldHandover {s t : State} (h : onlyOwners s t) (p u : Nat) : onlyOwners s (t.startHeldHandover p u) := by
  by_cases held : handoverHeld t p (t.owner u) u
  · rw [startHeldHandover_of_held held]
    unfold onlyOwners at *
    rw [h]
    rfl
  · rw [startHeldHandover_of_not_held held]
    exact h

theorem onlyOwners_startHandovers (s : State) (p : Nat) : onlyOwners s (startHandovers s p) := by
  unfold startHandovers
  exact forAll_keeps (P := onlyOwners s) (fun t u _ h => onlyOwners_startHeldHandover h p u) rfl

theorem startHeldHandover_busy {s : State} {u : Nat} (busy : (s.owner u).busy = true) (p k : Nat) :
    ((s.startHeldHandover p k).owner u).busy = true := by
  by_cases held : handoverHeld s p (s.owner k) k
  · rw [startHeldHandover_of_held held, State.setOwner_owner]
    split
    · rfl
    · exact busy
  · rw [startHeldHandover_of_not_held held]
    exact busy

theorem startHandovers_busy {s : State} {p u : Nat} (listed : u < 128) (held : handoverHeld s p (s.owner u) u) :
    ((startHandovers s p).owner u).busy = true := by
  unfold startHandovers
  refine forAll_reaches (P := fun t => onlyOwners s t ∧ (t.owner u = s.owner u ∨ (t.owner u).busy = true))
    (Q := fun t => (t.owner u).busy = true) (List.mem_range.mpr listed) (fun t h => ?_) (fun t k h => ?_)
    (fun t k busy => startHeldHandover_busy busy p k) ⟨rfl, .inl rfl⟩
  · obtain ⟨rest, same | busy⟩ := h
    · have held' : handoverHeld t p (t.owner u) u := by
        rw [same, rest]
        exact held
      rw [startHeldHandover_of_held held', State.setOwner_owner_same]
      rfl
    · exact startHeldHandover_busy busy p u
  · obtain ⟨rest, same | busy⟩ := h
    · refine ⟨onlyOwners_startHeldHandover rest p k, ?_⟩
      by_cases held' : handoverHeld t p (t.owner k) k
      · rw [startHeldHandover_of_held held', State.setOwner_owner]
        split
        · exact .inr rfl
        · exact .inl same
      · rw [startHeldHandover_of_not_held held']
        exact .inl same
    · exact ⟨onlyOwners_startHeldHandover rest p k, .inr (startHeldHandover_busy busy p k)⟩

/-! Step 3, and the reset of a partition without a tree. -/

/-- A partition whose tree is to be walked. -/
def awaitWalk (x : Part) : Part := { x with reset := { x.reset with stage := 3, walk := 0 } }

/-- The end of step 3. -/
def standBy (s : State) (p : Nat) : State := startHandovers ((s.modPart p awaitWalk).traceStep p 3) p

theorem resetSquares_eq (s : State) (p : Nat) : s.resetSquares p = standBy ((cleanSquares s p).invalidateContexts p) p := rfl

theorem standBy_spec (s : State) (p : Nat) :
    standBy s p = { s with
      parts := (standBy s p).parts, ctr := (standBy s p).ctr, trcQ := (standBy s p).trcQ, sqOwn := (standBy s p).sqOwn } ∧
    (∀ q, (standBy s p).part q = { (if q = p then awaitWalk (s.part p) else s.part q) with trc := ((standBy s p).part q).trc }) ∧
    ∀ u, u < 128 → handoverHeld s p (s.owner u) u → ((standBy s p).owner u).busy = true := by
  have marks (q : Nat) : (s.modPart p awaitWalk).part q = if q = p then awaitWalk (s.part p) else s.part q := State.modPart_part ..
  have only : s.modPart p awaitWalk = { s with parts := (s.modPart p awaitWalk).parts } := rfl
  unfold standBy
  generalize s.modPart p awaitWalk = a at *
  obtain ⟨rest, parts⟩ := onlyTraces_traceStep a p 3
  generalize a.traceStep p 3 = b at *
  have owners := onlyOwners_startHandovers b p
  have starts {u : Nat} (listed : u < 128) (held : handoverHeld b p (b.owner u) u) := startHandovers_busy listed held
  generalize startHandovers b p = c at *
  refine ⟨?_, fun q => ?_, fun u listed held => starts listed ?_⟩
  · rw [owners, rest, only]
  · have same : c.part q = b.part q := by
      rw [owners]
      rfl
    rw [same, parts, marks]
  · rw [rest, only]
    exact held

theorem workDestroyed_stage {s : State} {p : Nat} (destroyed : s.workDestroyed p = true) :
    (s.part p).reset.resetting = true ∧ (s.part p).reset.stage = 2 := by
  simp only [State.workDestroyed, Bool.and_eq_true, beq_iff_eq] at destroyed
  obtain ⟨⟨⟨⟨resetting, stage⟩, -⟩, -⟩, -⟩ := destroyed
  exact ⟨resetting, stage⟩

section
variable {s : State} {p : Nat} (destroyed : s.workDestroyed p = true) (going : s.stop.stopped = false)
include destroyed going

/-- Steps 3 to 6 from the destruction of the work on. -/
theorem finishReset_of_destroyed : s.finishReset p =
    let r := (s.resetSquares p).walkTree p ((s.resetSquares p).slotsLeft p)
    if r.2 then r.1.endReset p else r.1 := by
  have stage := (workDestroyed_stage destroyed).2
  simp [State.finishReset, destroyed, going, stage]

theorem finishReset_of_treeless (treeless : ((s.resetSquares p).part p).pfxLog2n = 0) : s.finishReset p = (s.resetSquares p).endReset p := by
  rw [finishReset_of_destroyed destroyed going]
  generalize s.resetSquares p = r at *
  have unvisited : r.slotsLeft p = 0 := by
    unfold State.slotsLeft
    exact if_pos treeless
  simp only [unvisited, State.walkTree, if_true]

end

theorem invalidateContexts_none {s : State} {p : Nat} (off : (s.part p).ctxEn = false) (base : (s.part p).ctxBase = 0) :
    s.invalidateContexts p = s := if_neg (by simp [off, base])

theorem exec_partitionResetComplete (p : PartId) (s : State) : exec (.partitionResetComplete p) s = .next (s.finishReset p.val) := rfl

/-- What step 3 leaves, where no context record is to be made invalid. -/
theorem resetSquares_spec {s : State} {p : Nat} (off : (s.part p).ctxEn = false) (base : (s.part p).ctxBase = 0) :
    (s.resetSquares p).seals = s.seals ∧ (s.resetSquares p).queues = s.queues ∧ (s.resetSquares p).handles = s.handles ∧
    (s.resetSquares p).out = s.out ∧
    (∀ q, (s.resetSquares p).part q =
      { (if q = p then awaitWalk (s.part p) else s.part q) with trc := ((s.resetSquares p).part q).trc }) ∧
    (∀ u, u < 128 → s.squareOwnedBy u p = true → (s.fence (u / 16)).fenced = false → squareCleared u (s.resetSquares p)) ∧
    ∀ u, u < 128 → handoverHeld s p (s.owner u) u → ((s.resetSquares p).owner u).busy = true := by
  have cleans := onlyCleans_cleanSquares s p
  have clears {u : Nat} (listed : u < 128) (mine : s.squareOwnedBy u p = true) (works : (s.fence (u / 16)).fenced = false) :=
    cleanSquares_clears listed mine works
  rw [resetSquares_eq]
  generalize cleanSquares s p = c at *
  have part (q : Nat) : c.part q = s.part q := by
    rw [cleans]
    rfl
  rw [invalidateContexts_none (by rw [part, off]) (by rw [part, base])]
  obtain ⟨rest, parts, starts⟩ := standBy_spec c p
  generalize standBy c p = t at *
  refine ⟨by rw [rest, cleans], by rw [rest, cleans], by rw [rest, cleans], by rw [rest, cleans], fun q => ?_, fun u listed mine works => ?_,
    fun u listed held => starts u listed ?_⟩
  · rw [parts, part, part]
  · rw [rest]
    exact clears listed mine works
  · rw [cleans]
    exact held

theorem handoverHeld_of_changed {s : State} {p u : Nat} (mine : (s.owner u).eff = p + 1) (idle : (s.owner u).busy = false)
    (works : (s.fence (u / 16)).fenced = false) (changed : ((s.owner u).valid, (s.owner u).owner) ≠ (true, p)) :
    handoverHeld s p (s.owner u) u := by
  refine ⟨mine, idle, fun same => changed ?_, works⟩
  unfold ownerEff at same
  split at same
  · next valid => rw [valid, Nat.add_right_cancel same]
  · omega

/-- The end of a reset of a partition without context records and tree (R366, R385, R388, R390). -/
theorem resetComplete_leaves {s : State} {p : PartId} (destroyed : s.workDestroyed p.val = true) (going : s.stop.stopped = false)
    (off : (s.part p.val).ctxEn = false) (base : (s.part p.val).ctxBase = 0) (noTree : (s.part p.val).pfxLog2n = 0) :
    ∃ t, exec (.partitionResetComplete p) s = .next t ∧ (t.part p.val).pfxBase = 0 ∧ (t.part p.val).pfxLog2n = 0 ∧ (t.part p.val).pfxKey = 0 ∧
      (∀ c, c < 256 → t.hallCounter (256 * p.val + c) = 0) ∧
      (∀ n, t.seal n = if (s.seal n).part = p.val ∧ (s.seal n).state ≠ 0 then { s.seal n with state := 2 } else s.seal n) ∧
      (∀ q, q < 256 → (s.queue q).bound = true → (s.queue q).part = p.val → t.queue q = { bound := true, part := p.val, state := 1 }) ∧
      (∀ h, h < 256 → (t.handle p.val h).valid = false ∧ (t.handle p.val h).ver = (s.handle p.val h).ver) ∧
      (∀ u, u < 128 → s.squareOwnedBy u p.val = true → (s.fence (u / 16)).fenced = false →
        (∀ c, c < 64 → t.squareCounter u c = 0) ∧ (t.sq u).near = [] ∧ ∀ b, b < 2 ^ 24 → t.byte (cisternAddr u b) = 0) ∧
      (∀ u, u < 128 → (s.owner u).eff = p.val + 1 → (s.owner u).busy = false → (s.fence (u / 16)).fenced = false →
        ((s.owner u).valid, (s.owner u).owner) ≠ (true, p.val) → (t.owner u).busy = true) ∧
      ((s.part 0).reset.byPf = false → (t.part p.val).reset.resetting = false ∧ (t.part p.val).reset.done = true ∧
        let f := (s.part p.val).fn
        let v := (s.part p.val).rdVec
        ((s.part p.val).rdItype = 0 →
          if f.msixEn = true ∧ f.fmask = false ∧ Table.get false f.unmasked v = true then t.out = messageOf s p.val v :: s.out
          else (t.part p.val).reset.holdDone = true ∧ t.out = s.out)) := by
  obtain ⟨seals, queues, handles, out, parts, squares, handovers⟩ := resetSquares_spec off base
  have part := parts p.val
  rw [if_pos rfl] at part
  have run := finishReset_of_treeless destroyed going (by rw [part]; exact noTree)
  refine ⟨_, (exec_partitionResetComplete p s).trans (congrArg _ run), ?_⟩
  have byPf (unasked : (s.part 0).reset.byPf = false) : ((s.resetSquares p.val).part 0).reset.byPf = false := by
    rw [parts]
    split
    · next same => exact same ▸ unasked
    · exact unasked
  generalize s.resetSquares p.val = r at *
  have announces (unasked : (r.part 0).reset.byPf = false) := endReset_announces (p := p.val) unasked
  obtain ⟨mem, sq, sqCtr, sqOwn, hall, tree⟩ := endReset_leaves r p.val
  obtain ⟨counters, retires, rests, drops⟩ := hall.of_same ⟨seals.symm, queues.symm, handles.symm⟩ ⟨rfl, rfl, rfl, rfl⟩
  generalize r.endReset p.val = t at *
  simp only [treeRegs, Prod.mk.injEq] at tree
  obtain ⟨baseNow, sizeNow, keyNow⟩ := tree
  refine ⟨baseNow, sizeNow, keyNow, counters, retires, rests, fun h listed => ?_, fun u listed mine works => ?_,
    fun u listed mine idle works changed => ?_, fun unasked => ?_⟩
  · rw [drops, dropped, if_pos (by omega)]
    exact ⟨rfl, rfl⟩
  · obtain ⟨zero, near, bytes⟩ := squares u listed mine works
    exact ⟨fun c h => by rw [State.squareCounter, sqCtr]; exact zero c h, by rw [State.sq, sq]; exact near,
      fun b h => by rw [State.byte, mem]; exact bytes b h⟩
  · rw [State.owner, sqOwn]
    exact handovers u listed (handoverHeld_of_changed mine idle works changed)
  · obtain ⟨ended, done, sends⟩ := announces (byPf unasked)
    refine ⟨ended, done, fun msix => ?_⟩
    obtain ⟨sent, held⟩ := sends (by rw [part]; exact msix)
    rw [part, out] at sent held
    have message : messageOf r p.val (s.part p.val).rdVec = messageOf s p.val (s.part p.val).rdVec := by
      rw [messageOf, part]
      rfl
    split
    · next opens => exact (sent opens).trans (congrArg (· :: s.out) message)
    · next masked => exact held masked

end Sys2Proof.Proofs

/-! Context records in a partition reset (R203, R385). -/

namespace Sys2Proof.Proofs
open Sys2Proof Sys2Proof.Machine

/-! A write of memory that passes its checks. -/

theorem onlyCounts_homeWrite (s : State) (a : Nat) (bs : List Byte) : onlyCounts (s.store a bs) (s.homeWrite a bs) := by
  have counted := onlyCounts_countHomes (s.store a bs) a 1 bs.length
  unfold State.homeWrite
  extract_lets s1
  split
  · refine forAll_keeps (P := onlyCounts (s.store a bs)) (fun t g _ h => ?_) counted
    split
    · exact h.trans (onlyCounts_count t _ _ _)
    · exact (h.trans (onlyCounts_countHome t _ _ _)).trans (onlyCounts_count _ _ _ _)
  · exact counted

theorem accWrite_of_pass {s : State} {x : Acc} (pass : s.checkAcc x = 0) (memory : placeOf s.isM x.addr ≠ .host) (bs : List Byte) :
    ∃ t, onlyCounts (s.store x.addr bs) t ∧ s.accWrite x bs = (t, eOk) := by
  have carried := (onlyCounts_carryAcc s x).store x.addr bs
  refine ⟨_, carried.trans (onlyCounts_homeWrite _ _ _), ?_⟩
  simp only [State.accWrite, pass, ne_eq, not_true_eq_false, if_false, memory]

/-- A partition that is being reset has no access to host memory (R385). -/
theorem place_ne_host_of_resetting {s : State} {x : Acc} (resetting : (s.part x.part).reset.resetting = true) (pass : s.checkAcc x = 0) :
    placeOf s.isM x.addr ≠ .host := by
  intro host
  revert pass
  unfold State.checkAcc
  simp only [host, resetting, Bool.or_true, and_true]
  split_ifs <;> decide

/-! What a store leaves of the checks of other accesses. -/

theorem parityIn_store_apart (s : State) {a : Nat} {bs : List Byte} {b m : Nat} (apart : b + m ≤ a ∨ a + bs.length ≤ b) :
    (s.store a bs).parityIn b m = s.parityIn b m := by
  have same : (Table.clear s.parity a (a + bs.length)).filter (fun e => decide (b ≤ e.1) && decide (e.1 < b + m)) =
      s.parity.filter (fun e => decide (b ≤ e.1) && decide (e.1 < b + m)) := by
    unfold Table.clear
    rw [List.filter_filter]
    refine List.filter_congr fun e _ => ?_
    rw [Bool.eq_iff_iff]
    simp only [Bool.and_eq_true, Bool.not_eq_true', Bool.and_eq_false_iff, decide_eq_true_eq, decide_eq_false_iff_not]
    omega
  exact congrArg (List.foldl (fun m e => max m e.2) 0) same

theorem edgeParity_congr {s t : State} {a n : Nat} (modules : t.isM = s.isM)
    (first : t.parityIn (a / 32 * 32) 32 = s.parityIn (a / 32 * 32) 32)
    (last : t.parityIn ((a + n - 1) / 32 * 32) 32 = s.parityIn ((a + n - 1) / 32 * 32) 32) : t.edgeParity a n = s.edgeParity a n := by
  unfold State.edgeParity
  rw [modules, first, last]

theorem checkAcc_congr {s t : State} (rest : t = { s with mem := t.mem, parity := t.parity, resv := t.resv, ctr := t.ctr }) {x : Acc}
    (edge : t.edgeParity x.addr x.len = s.edgeParity x.addr x.len) : t.checkAcc x = s.checkAcc x := by
  have corrupt : t.writeCorrupt x = s.writeCorrupt x := by
    unfold State.writeCorrupt
    rw [edge, rest]
  unfold State.checkAcc
  rw [corrupt, rest]
  rfl

/-! Records that are made invalid. -/

/-- Where the VALID bit of a record stands (R202). -/
def recordMark (base u : Nat) : Nat := base + 8224 * u + 16

/-- The write of a record's VALID bit. -/
def markAcc (p base u : Nat) : Acc := ⟨unitReset, p, recordMark base u, 1, .write, true⟩

/-- One record is made invalid. -/
def invalidateContext (s : State) (p u : Nat) : State :=
  let x := markAcc p (s.part p).ctxBase u
  let r := s.accWrite x [s.byte x.addr &&& 2]
  if r.2 = eOk then r.1 else r.1.logAccess x r.2

theorem invalidateContexts_eq {s : State} {p : Nat} (area : (s.part p).ctxEn = true ∨ (s.part p).ctxBase ≠ 0) :
    s.invalidateContexts p = forAll (upto 128) (fun t u => invalidateContext t p u) s := if_pos (by simpa using area)

/-- Besides memory and counters the state is unchanged. -/
def onlyWrites (s t : State) : Prop := t = { s with mem := t.mem, parity := t.parity, resv := t.resv, ctr := t.ctr }

theorem onlyWrites.trans {s t u : State} (h : onlyWrites s t) (k : onlyWrites t u) : onlyWrites s u := by
  unfold onlyWrites at *
  rw [k, h]

theorem onlyWrites_of_counts {s t : State} {a : Nat} {bs : List Byte} (h : onlyCounts (s.store a bs) t) : onlyWrites s t := by
  unfold onlyCounts at h
  rw [h]
  rfl

theorem byte_of_stored {s t : State} {a : Nat} {b : Byte} (h : onlyCounts (s.store a [b]) t) (k : Nat) :
    t.byte k = if k = a then b else s.byte k := by
  have same : t.byte k = (s.store a [b]).byte k := by
    rw [h]
    rfl
  rw [same]
  split
  · next here =>
    have stored := s.store_bytes a [b]
    simpa [State.bytes, Table.getList, State.byte, here] using stored
  · next other => exact (State.store_sameMemoryBut s a [b]) k (by simp; omega)

section
variable {s : State} {p : Nat} (resetting : (s.part p).reset.resetting = true)
include resetting

theorem invalidateContext_stores {u : Nat} (pass : s.checkAcc (markAcc p (s.part p).ctxBase u) = 0) :
    onlyCounts (s.store (recordMark (s.part p).ctxBase u) [s.byte (recordMark (s.part p).ctxBase u) &&& 2]) (invalidateContext s p u) := by
  obtain ⟨t, stored, run⟩ := accWrite_of_pass pass (place_ne_host_of_resetting resetting pass)
    [s.byte (recordMark (s.part p).ctxBase u) &&& 2]
  have written : invalidateContext s p u = t := by
    unfold invalidateContext
    dsimp only
    rw [show (markAcc p (s.part p).ctxBase u).addr = recordMark (s.part p).ctxBase u from rfl, run]
    rfl
  rw [written]
  exact stored

omit resetting in
/-- Records lie in granules of their own, so that one's write leaves another's checks as they are (R288). -/
theorem checkAcc_mark_other {t : State} {base u v : Nat} {b : Byte} (other : v ≠ u)
    (stored : onlyCounts (s.store (recordMark base u) [b]) t) : t.checkAcc (markAcc p base v) = s.checkAcc (markAcc p base v) := by
  refine checkAcc_congr (onlyWrites_of_counts stored) ?_
  have granule : (s.store (recordMark base u) [b]).parityIn (recordMark base v / 32 * 32) 32 = s.parityIn (recordMark base v / 32 * 32) 32 := by
    refine parityIn_store_apart s ?_
    unfold recordMark
    simp only [List.length_cons, List.length_nil]
    omega
  have parity : t.parityIn (recordMark base v / 32 * 32) 32 = s.parityIn (recordMark base v / 32 * 32) 32 := by
    rw [stored]
    exact granule
  have modules : t.isM = s.isM := by
    rw [stored]
    rfl
  exact edgeParity_congr modules parity parity

/-- The records of a list of squares are made invalid, and nothing else in memory changes. -/
theorem invalidateContext_each {us : List Nat} (single : us.Nodup)
    (pass : ∀ u, u ∈ us → s.checkAcc (markAcc p (s.part p).ctxBase u) = 0) :
    let t := forAll us (fun t u => invalidateContext t p u) s
    onlyWrites s t ∧
      (∀ u, u ∈ us → t.byte (recordMark (s.part p).ctxBase u) = s.byte (recordMark (s.part p).ctxBase u) &&& 2) ∧
      ∀ a, (∀ u, u ∈ us → a ≠ recordMark (s.part p).ctxBase u) → t.byte a = s.byte a := by
  induction us generalizing s with
  | nil => exact ⟨rfl, fun u listed => absurd listed List.not_mem_nil, fun _ _ => rfl⟩
  | cons u us ih =>
    obtain ⟨fresh, single⟩ := List.nodup_cons.mp single
    have stored := invalidateContext_stores resetting (pass u (List.mem_cons_self ..))
    have byte := byte_of_stored stored
    have same : (invalidateContext s p u).part p = s.part p := by
      rw [stored]
      rfl
    have apart {v : Nat} (listed : v ∈ us) : v ≠ u := fun same => fresh (same ▸ listed)
    have pass' (v : Nat) (listed : v ∈ us) :
        (invalidateContext s p u).checkAcc (markAcc p ((invalidateContext s p u).part p).ctxBase v) = 0 := by
      rw [same, checkAcc_mark_other (apart listed) stored]
      exact pass v (List.mem_cons_of_mem _ listed)
    obtain ⟨rest, marked, others⟩ := ih (s := invalidateContext s p u) (by rw [same]; exact resetting) single pass'
    rw [same] at marked others
    have here : (invalidateContext s p u).byte (recordMark (s.part p).ctxBase u) = s.byte (recordMark (s.part p).ctxBase u) &&& 2 := by
      rw [byte, if_pos rfl]
    have moved {v : Nat} (other : v ≠ u) : recordMark (s.part p).ctxBase v ≠ recordMark (s.part p).ctxBase u := by
      unfold recordMark
      omega
    refine ⟨(onlyWrites_of_counts stored).trans rest, fun v listed => ?_, fun a elsewhere => ?_⟩
    · rcases List.mem_cons.mp listed with rfl | later
      · exact (others _ fun w hw => (moved (apart hw)).symm).trans here
      · refine (marked v later).trans ?_
        rw [byte, if_neg (moved (apart later))]
    · refine (others a fun w hw => elsewhere w (List.mem_cons_of_mem _ hw)).trans ?_
      rw [byte, if_neg (elsewhere u (List.mem_cons_self ..))]

end

/-- The end of a reset of a partition with context records (R203, R385). -/
theorem resetComplete_invalidates {s : State} {p : PartId} (destroyed : s.workDestroyed p.val = true) (going : s.stop.stopped = false)
    (area : (s.part p.val).ctxEn = true ∨ (s.part p.val).ctxBase ≠ 0) (noTree : (s.part p.val).pfxLog2n = 0)
    (noSquare : ∀ u, u < 128 → s.squareOwnedBy u p.val = false)
    (pass : ∀ u, u < 128 → s.checkAcc (markAcc p.val (s.part p.val).ctxBase u) = 0) :
    ∃ t, exec (.partitionResetComplete p) s = .next t ∧
      (∀ u, u < 128 → t.byte (recordMark (s.part p.val).ctxBase u) = s.byte (recordMark (s.part p.val).ctxBase u) &&& 2) ∧
      ∀ a, (∀ u, u < 128 → a ≠ recordMark (s.part p.val).ctxBase u) → t.byte a = s.byte a := by
  have listed {u : Nat} : u ∈ upto 128 ↔ u < 128 := List.mem_range
  have each := invalidateContext_each (workDestroyed_stage destroyed).1 (us := upto 128) List.nodup_range fun u mem => pass u (listed.mp mem)
  dsimp only at each
  rw [← invalidateContexts_eq area] at each
  obtain ⟨rest, marked, others⟩ := each
  have squares : s.resetSquares p.val = standBy (s.invalidateContexts p.val) p.val := by
    rw [resetSquares_eq, cleanSquares_none noSquare]
  generalize s.invalidateContexts p.val = c at *
  obtain ⟨stands, parts, -⟩ := standBy_spec c p.val
  have part : c.part p.val = s.part p.val := by
    rw [rest]
    rfl
  have mem : (standBy c p.val).mem = c.mem := by rw [stands]
  have run := finishReset_of_treeless destroyed going (by rw [squares, parts, if_pos rfl, part]; exact noTree)
  rw [squares] at run
  have byte (a : Nat) : ((standBy c p.val).endReset p.val).byte a = c.byte a := by
    rw [State.byte, (endReset_leaves _ _).1, mem, State.byte]
  exact ⟨_, (exec_partitionResetComplete p s).trans (congrArg _ run), fun u bound => (byte _).trans (marked u (listed.mpr bound)),
    fun a apart => (byte a).trans (others a fun u mem => apart u (listed.mp mem))⟩

end Sys2Proof.Proofs

/-! The tree of a partition in its reset: each record that it holds has one reference fewer (R265, R385). -/

namespace Sys2Proof.Proofs
open Sys2Proof Sys2Proof.Machine

/-! What the walk leaves of accesses that it does not write. -/

/-- Besides memory, counters, answers from elsewhere and how far resets have come the state is unchanged. -/
def walkKeeps (s t : State) : Prop :=
  t = { s with
    parts := t.parts, ctr := t.ctr, trcQ := t.trcQ, far := t.far, mem := t.mem, parity := t.parity, resv := t.resv } ∧
  ∀ q, (t.part q).fn = (s.part q).fn ∧ (t.part q).reset.resetting = (s.part q).reset.resetting ∧ treeRegs (t.part q) = treeRegs (s.part q)

theorem walkKeeps.trans {s t u : State} (h : walkKeeps s t) (k : walkKeeps t u) : walkKeeps s u := by
  obtain ⟨rest, parts⟩ := h
  obtain ⟨rest', parts'⟩ := k
  refine ⟨by rw [rest', rest], fun q => ?_⟩
  obtain ⟨fn, resetting, tree⟩ := parts q
  obtain ⟨fn', resetting', tree'⟩ := parts' q
  exact ⟨fn'.trans fn, resetting'.trans resetting, tree'.trans tree⟩

theorem walkKeeps_modReset (s : State) (p : Nat) {f : ResetState → ResetState} (keeps : ∀ x, (f x).resetting = x.resetting) :
    walkKeeps s (s.modPart p (fun x => { x with reset := f x.reset })) := by
  refine ⟨rfl, fun q => ?_⟩
  rw [State.modPart_part]
  split
  · next same => exact same ▸ ⟨rfl, keeps _, rfl⟩
  · exact ⟨rfl, rfl, rfl⟩

theorem onlyTraces.walkKeeps {s t : State} (h : onlyTraces s t) : walkKeeps s t := by
  obtain ⟨rest, parts⟩ := h
  refine ⟨by rw [rest], fun q => ?_⟩
  rw [parts]
  exact ⟨rfl, rfl, rfl⟩

theorem walkKeeps_store (s : State) (a : Nat) (bs : List Byte) : walkKeeps s (s.store a bs) := ⟨rfl, fun _ => ⟨rfl, rfl, rfl⟩⟩

/-- Besides counters and answers from elsewhere the state is unchanged. -/
def onlyAsks (s t : State) : Prop := t = { s with ctr := t.ctr, far := t.far }

theorem onlyAsks.walkKeeps {s t : State} (h : onlyAsks s t) : walkKeeps s t := by
  unfold onlyAsks at h
  rw [h]
  exact ⟨rfl, fun _ => ⟨rfl, rfl, rfl⟩⟩

theorem onlyCounts.asks {s t : State} (h : onlyCounts s t) : onlyAsks s t := by
  unfold onlyCounts at h
  rw [h]
  rfl

theorem onlyAsks.forgetFar {s t : State} (h : onlyAsks s t) (o : FarOwner) : onlyAsks s (t.forgetFar o) := by
  unfold onlyAsks at h
  rw [h]
  rfl

/-- The checks of an access other than a write see neither memory nor parity (R293). -/
theorem walkKeeps.checkAcc {s t : State} (h : walkKeeps s t) {x : Acc} (reads : (x.op == .write) = false) : t.checkAcc x = s.checkAcc x := by
  obtain ⟨rest, parts⟩ := h
  obtain ⟨fn, resetting, -⟩ := parts x.part
  have corrupt : t.writeCorrupt x = s.writeCorrupt x := by
    unfold State.writeCorrupt
    rw [reads, rest]
    rfl
  unfold State.checkAcc
  rw [corrupt, fn, resetting, rest]
  rfl

theorem walkKeeps.base {s t : State} (h : walkKeeps s t) (p : Nat) : (t.part p).pfxBase = (s.part p).pfxBase :=
  congrArg Prod.fst (h.2 p).2.2

theorem walkKeeps.size {s t : State} (h : walkKeeps s t) (p : Nat) : (t.part p).pfxLog2n = (s.part p).pfxLog2n :=
  congrArg (fun r => r.2.1) (h.2 p).2.2

theorem parityOf_congr {s t : State} (modules : t.isM = s.isM) (parity : t.parity = s.parity) (a n : Nat) : t.parityOf a n = s.parityOf a n := by
  unfold State.parityOf State.parityIn
  rw [modules, parity]

theorem sameMemory_of_eq {s t : State} (mem : t.mem = s.mem) (a n : Nat) : t.bytes a n = s.bytes a n := (sameMemory.of_mem mem).bytes a n

/-! The slots of a tree. -/

/-- A slot of a partition's tree can be read, and holds a value. -/
def slotReads (s : State) (p k v : Nat) : Prop :=
  s.checkAcc ⟨unitReset, p, (s.part p).pfxBase + 64 * k, 64, .read, true⟩ = 0 ∧ s.parityOf ((s.part p).pfxBase + 64 * k) 64 = 0 ∧
    ofBytes (s.bytes ((s.part p).pfxBase + 64 * k) 64) = v

/-- A slot names no record. -/
def slotIdle (s : State) (p k : Nat) : Prop := ∃ v, slotReads s p k v ∧ (bits v 0 64 < 2 ∨ bits v 128 56 = 0)

section
variable {s t : State} (kept : walkKeeps s t) {p k : Nat}
include kept

theorem slotReads.of_kept {v : Nat} (reads : slotReads s p k v) (mem : t.mem = s.mem) (parity : t.parity = s.parity) : slotReads t p k v := by
  obtain ⟨pass, sound, value⟩ := reads
  have modules : t.isM = s.isM := by rw [kept.1]
  unfold slotReads
  rw [kept.base, kept.checkAcc rfl, parityOf_congr modules parity, sameMemory_of_eq mem]
  exact ⟨pass, sound, value⟩

theorem slotIdle.of_kept (idle : slotIdle s p k) (mem : t.mem = s.mem) (parity : t.parity = s.parity) : slotIdle t p k := by
  obtain ⟨v, reads, nothing⟩ := idle
  exact ⟨v, reads.of_kept kept mem parity, nothing⟩

end

/-- A store elsewhere leaves a slot as it is. -/
theorem slotIdle.store {s : State} {p k : Nat} (idle : slotIdle s p k) {a : Nat} {bs : List Byte}
    (apart : (s.part p).pfxBase + 64 * k + 64 ≤ a ∨ a + bs.length ≤ (s.part p).pfxBase + 64 * k) : slotIdle (s.store a bs) p k := by
  obtain ⟨v, ⟨pass, sound, value⟩, nothing⟩ := idle
  have kept := walkKeeps_store s a bs
  refine ⟨v, ⟨?_, ?_, ?_⟩, nothing⟩
  · rw [kept.base, kept.checkAcc rfl]
    exact pass
  · rw [kept.base]
    exact parityOf_store_of_sound sound a bs
  · rw [kept.base, (State.store_sameMemoryBut s a bs).bytes _ _ apart]
    exact value

theorem releaseSlot_of_idle {s : State} {p k : Nat} (idle : slotIdle s p k) : ∃ t, onlyCounts s t ∧ s.releaseSlot p k = (t, true) := by
  obtain ⟨v, ⟨pass, sound, value⟩, nothing⟩ := idle
  obtain ⟨t, counts, read⟩ := accRead_of_sound pass sound
  refine ⟨t, counts, ?_⟩
  unfold State.releaseSlot
  dsimp only at read ⊢
  rw [read]
  dsimp only
  rw [value, if_pos nothing]

/-! A record that the tree holds. -/

theorem releaseWord_lt (w : Nat) : releaseWord w < 2 ^ 64 := by
  have rest : bits w 32 2 < 2 ^ 2 := Nat.mod_lt _ (by decide)
  unfold releaseWord countWord
  dsimp only
  split <;> omega

/-- Memory once a record has been released: a word whose TREE bit is set changes. -/
def released (s : State) (a : Nat) : State :=
  if (ofBytes (s.bytes a 8)).testBit 34 then s.store a (toBytes 8 (releaseWord (ofBytes (s.bytes a 8)))) else s

section
variable {s : State} {p brec : Nat} (reads : readsAs s unitReset p brec 8 true (s.bytes (brec % 2 ^ 44) 8))
  (may : swappable s unitReset p brec)
include reads may

theorem releaseRecord_releases : ∃ t, onlyAsks (released s (brec % 2 ^ 44)) t ∧ s.releaseRecord p brec = (t, true) := by
  obtain ⟨t, counts, read⟩ := farAccess_of_readsAs reads (.reset p) { type := 2, len := 8 }
  have same : t.bytes (brec % 2 ^ 44) 8 = s.bytes (brec % 2 ^ 44) 8 := by
    rw [counts]
    rfl
  obtain ⟨v, stored, swapped⟩ := farAccess_cas_swaps (may.of_onlyCounts counts)
    (releaseWord_lt (ofBytes (s.bytes (brec % 2 ^ 44) 8))) (.reset p)
    (txnFor (.cas 8 (releaseWord (ofBytes (s.bytes (brec % 2 ^ 44) 8))) (ofBytes (s.bytes (brec % 2 ^ 44) 8))))
  rw [same] at swapped
  by_cases held : (ofBytes (s.bytes (brec % 2 ^ 44) 8)).testBit 34 = true
  · refine ⟨v.forgetFar (.reset p), ?_, ?_⟩
    · rw [released, if_pos held]
      exact (((counts.store _ _).trans stored).asks).forgetFar _
    · unfold State.releaseRecord
      dsimp only
      rw [read]
      simp only [held, Bool.not_true, Bool.false_eq_true, if_false, swapped, ofBytes_toBytes_word, decide_true]
  · refine ⟨t.forgetFar (.reset p), ?_, ?_⟩
    · rw [released, if_neg held]
      exact counts.asks.forgetFar _
    · unfold State.releaseRecord
      dsimp only
      rw [read]
      simp only [held, Bool.not_false, if_true]

theorem releaseSlot_releases {k v : Nat} (slot : slotReads s p k v) (full : 2 ≤ bits v 0 64) (named : bits v 128 56 = brec)
    (genuine : brec ≠ 0) :
    ∃ t, onlyAsks (released s (brec % 2 ^ 44)) t ∧ s.releaseSlot p k = (t, true) := by
  obtain ⟨pass, sound, value⟩ := slot
  obtain ⟨u, counts, read⟩ := accRead_of_sound pass sound
  have same : u.bytes (brec % 2 ^ 44) 8 = s.bytes (brec % 2 ^ 44) 8 := by
    rw [counts]
    rfl
  obtain ⟨t, asks, run⟩ := releaseRecord_releases (same ▸ readsAs_of_onlyCounts counts reads) (may.of_onlyCounts counts)
  refine ⟨t, ?_, ?_⟩
  · have before : onlyAsks (released s (brec % 2 ^ 44)) (released u (brec % 2 ^ 44)) := by
      unfold released
      rw [same]
      split
      · exact (counts.store _ _).asks
      · exact counts.asks
    unfold onlyAsks at *
    rw [asks, before]
  · unfold State.releaseSlot
    dsimp only at read ⊢
    rw [read]
    dsimp only
    rw [value, named, if_neg (by omega), run]

end

/-! The walk. -/

/-- The walk goes on to the next slot. -/
def nextSlot (x : Part) : Part := { x with reset := { x.reset with walk := x.reset.walk + 1 } }

theorem walkTree_of_done {s t : State} {p n : Nat} (run : s.releaseSlot p (s.part p).reset.walk = (t, true)) :
    s.walkTree p (n + 1) = (t.modPart p nextSlot).walkTree p n := by
  rw [State.walkTree, run]
  rfl

/-- The walk over a number of slots has passed them without a change of memory. -/
def walkPasses (s t : State) (p n : Nat) : Prop :=
  walkKeeps s t ∧ t.mem = s.mem ∧ t.parity = s.parity ∧ (t.part p).reset.walk = (s.part p).reset.walk + n

theorem walkPasses_next {s t : State} {p : Nat} (h : onlyAsks s t) : walkPasses s (t.modPart p nextSlot) p 1 := by
  have kept := h.walkKeeps.trans (walkKeeps_modReset t p (f := fun r => { r with walk := r.walk + 1 }) fun _ => rfl)
  have same : t.part p = s.part p := by
    rw [h]
    rfl
  refine ⟨kept, ?_, ?_, ?_⟩
  · rw [State.modPart_mem, h]
  · rw [State.modPart_parity, h]
  · rw [State.modPart_part_same, same]
    rfl

theorem walkPasses.trans {s t u : State} {p n m : Nat} (h : walkPasses s t p n) (k : walkPasses t u p m) : walkPasses s u p (n + m) := by
  obtain ⟨kept, mem, parity, walk⟩ := h
  obtain ⟨kept', mem', parity', walk'⟩ := k
  exact ⟨kept.trans kept', mem'.trans mem, parity'.trans parity, by rw [walk', walk, Nat.add_assoc]⟩

/-- Slots that name no record are passed. -/
theorem walkTree_idle {s : State} {p n : Nat} (idle : ∀ k, k < n → slotIdle s p ((s.part p).reset.walk + k)) (m : Nat) :
    ∃ t, walkPasses s t p n ∧ s.walkTree p (n + m) = t.walkTree p m := by
  induction n generalizing s with
  | zero => exact ⟨s, ⟨⟨rfl, fun _ => ⟨rfl, rfl, rfl⟩⟩, rfl, rfl, rfl⟩, by rw [Nat.zero_add]⟩
  | succ n ih =>
    obtain ⟨u, counts, run⟩ := releaseSlot_of_idle (idle 0 (by omega))
    have passes := walkPasses_next (p := p) counts.asks
    obtain ⟨kept, mem, parity, walk⟩ := passes
    obtain ⟨t, more, rest⟩ := ih (s := u.modPart p nextSlot) fun k below => by
      have at_ : (s.part p).reset.walk + 1 + k = (s.part p).reset.walk + (k + 1) := by omega
      rw [walk, at_]
      exact (idle (k + 1) (by omega)).of_kept kept mem parity
    refine ⟨t, Nat.add_comm 1 n ▸ walkPasses.trans ⟨kept, mem, parity, walk⟩ more, ?_⟩
    rw [Nat.add_right_comm, walkTree_of_done run, rest]

/-- What the walk over a tree with one record needs. -/
structure TreeHolds (s : State) (p n i v : Nat) : Prop where
  inside : i < n
  slot : slotReads s p i v
  full : 2 ≤ bits v 0 64
  named : bits v 128 56 ≠ 0
  others : ∀ k, k < n → k ≠ i → slotIdle s p k
  reads : readsAs s unitReset p (bits v 128 56) 8 true (s.bytes (bits v 128 56 % 2 ^ 44) 8)
  may : swappable s unitReset p (bits v 128 56)
  apart : bits v 128 56 % 2 ^ 44 + 8 ≤ (s.part p).pfxBase ∨ (s.part p).pfxBase + 64 * n ≤ bits v 128 56 % 2 ^ 44

section
variable {s t : State} (kept : walkKeeps s t) (mem : t.mem = s.mem) (parity : t.parity = s.parity)
include kept mem parity

theorem readsAs_of_kept {p g n : Nat} {bs : List Byte} (reads : readsAs s unitReset p g n true bs) : readsAs t unitReset p g n true bs := by
  obtain ⟨here, noReg, noHost, pass, sound, value⟩ := reads
  have modules : t.isM = s.isM := by rw [kept.1]
  have near : t.isLocal g = s.isLocal g := by
    rw [kept.1]
    rfl
  unfold readsAs
  rw [near, modules, kept.checkAcc rfl, parityOf_congr modules parity, sameMemory_of_eq mem]
  exact ⟨here, noReg, noHost, pass, sound, value⟩

omit mem in
theorem swappable_of_kept {p g : Nat} (may : swappable s unitReset p g) : swappable t unitReset p g := by
  obtain ⟨here, noReg, noHost, pass, sound⟩ := may
  have modules : t.isM = s.isM := by rw [kept.1]
  have near : t.isLocal g = s.isLocal g := by
    rw [kept.1]
    rfl
  unfold swappable
  rw [near, modules, kept.checkAcc rfl, parityOf_congr modules parity]
  exact ⟨here, noReg, noHost, pass, sound⟩

theorem TreeHolds.of_kept {p n i v : Nat} (h : TreeHolds s p n i v) : TreeHolds t p n i v where
  inside := h.inside
  slot := h.slot.of_kept kept mem parity
  full := h.full
  named := h.named
  others k below other := (h.others k below other).of_kept kept mem parity
  reads := by
    rw [sameMemory_of_eq mem]
    exact readsAs_of_kept kept mem parity h.reads
  may := swappable_of_kept kept parity h.may
  apart := by
    rw [kept.base]
    exact h.apart

end

theorem walkKeeps_released (s : State) (a : Nat) : walkKeeps s (released s a) := by
  unfold released
  split
  · exact walkKeeps_store s a _
  · exact ⟨rfl, fun _ => ⟨rfl, rfl, rfl⟩⟩

theorem slotIdle.released {s : State} {p k a : Nat} (idle : slotIdle s p k)
    (apart : (s.part p).pfxBase + 64 * k + 64 ≤ a ∨ a + 8 ≤ (s.part p).pfxBase + 64 * k) : slotIdle (released s a) p k := by
  unfold Proofs.released
  split
  · exact idle.store (by rw [length_toBytes]; exact apart)
  · exact idle

theorem released_mem_congr {s t : State} (mem : t.mem = s.mem) (a : Nat) : (released t a).mem = (released s a).mem := by
  unfold released
  rw [sameMemory_of_eq mem]
  split
  · unfold State.store
    dsimp only
    rw [mem]
  · exact mem

/-- The walk over a tree with one record releases it. -/
theorem walkTree_releases {s : State} {p n i v : Nat} (holds : TreeHolds s p n i v) (start : (s.part p).reset.walk = 0) :
    ∃ t, s.walkTree p n = (t, true) ∧ walkKeeps s t ∧ t.mem = (released s (bits v 128 56 % 2 ^ 44)).mem := by
  have inside := holds.inside
  obtain ⟨a, ⟨kept, mem, parity, walk⟩, run⟩ := walkTree_idle (n := i) (p := p) (s := s)
    (fun k below => by rw [start, Nat.zero_add]; exact holds.others k (by omega) (by omega)) (n - i)
  have here := holds.of_kept kept mem parity
  rw [start, Nat.zero_add] at walk
  obtain ⟨b, asks, run'⟩ := releaseSlot_releases here.reads here.may here.slot here.full rfl here.named
  have passes := walkPasses_next (p := p) asks
  have freed := walkKeeps_released a (bits v 128 56 % 2 ^ 44)
  have place : ((released a (bits v 128 56 % 2 ^ 44)).part p).reset.walk = i := by
    rw [← walk]
    unfold released
    split <;> rfl
  obtain ⟨kept', mem', parity', walk'⟩ := passes
  rw [place] at walk'
  obtain ⟨c, ⟨kept'', mem'', -, -⟩, run''⟩ := walkTree_idle (n := n - i - 1) (p := p) (s := b.modPart p nextSlot) (fun k below => by
    rw [walk']
    refine slotIdle.of_kept kept' ?_ mem' parity'
    exact (here.others (i + 1 + k) (by omega) (by omega)).released (by have apart := here.apart; omega)) 0
  refine ⟨c, ?_, ((kept.trans freed).trans kept').trans kept'', ?_⟩
  · calc
      s.walkTree p n = s.walkTree p (i + (n - i)) := by rw [Nat.add_sub_cancel' inside.le]
      _ = a.walkTree p (n - i - 1 + 1) := by rw [run, Nat.sub_add_cancel (by omega)]
      _ = (b.modPart p nextSlot).walkTree p (n - i - 1 + 0) := walkTree_of_done (by rw [walk]; exact run')
      _ = (c, true) := run''
  · rw [mem'', mem']
    exact released_mem_congr mem _

/-! The reset of a partition with a tree. -/

theorem startHandovers_none {s : State} {p : Nat} (noSquare : ∀ u, u < 128 → s.squareOwnedBy u p = false) : startHandovers s p = s := by
  unfold startHandovers
  refine forAll_keeps (P := fun t => t = s) (fun t u listed same => ?_) rfl
  rw [same]
  refine startHeldHandover_of_not_held fun held => ?_
  have owned : s.squareOwnedBy u p = true := beq_iff_eq.mpr held.1
  rw [noSquare u (List.mem_range.mp listed)] at owned
  cases owned

/-- Step 3 of a partition without squares and context records. -/
theorem resetSquares_none {s : State} {p : Nat} (off : (s.part p).ctxEn = false) (base : (s.part p).ctxBase = 0)
    (noSquare : ∀ u, u < 128 → s.squareOwnedBy u p = false) :
    walkKeeps s (s.resetSquares p) ∧ (s.resetSquares p).mem = s.mem ∧ (s.resetSquares p).parity = s.parity ∧
      ((s.resetSquares p).part p).reset.walk = 0 := by
  have marks : (s.modPart p awaitWalk).part p = awaitWalk (s.part p) := State.modPart_part_same ..
  have kept : walkKeeps s (s.modPart p awaitWalk) := walkKeeps_modReset s p (f := fun r => { r with stage := 3, walk := 0 }) fun _ => rfl
  have only : s.modPart p awaitWalk = { s with parts := (s.modPart p awaitWalk).parts } := rfl
  rw [resetSquares_eq, cleanSquares_none noSquare, invalidateContexts_none off base, standBy]
  generalize s.modPart p awaitWalk = a at *
  have traces := onlyTraces_traceStep a p 3
  generalize a.traceStep p 3 = b at *
  have rest := traces.1
  rw [startHandovers_none (s := b) fun u listed => by rw [rest, only]; exact noSquare u listed]
  refine ⟨kept.trans traces.walkKeeps, by rw [rest, only], by rw [rest, only], ?_⟩
  rw [traces.2, marks]
  rfl

/-- The end of a reset of a partition with a tree (R265, R385). -/
theorem finishReset_releases {s : State} {p i v : Nat} (destroyed : s.workDestroyed p = true) (going : s.stop.stopped = false)
    (off : (s.part p).ctxEn = false) (base : (s.part p).ctxBase = 0) (tree : (s.part p).pfxLog2n ≠ 0)
    (noSquare : ∀ u, u < 128 → s.squareOwnedBy u p = false) (holds : TreeHolds s p (2 ^ (s.part p).pfxLog2n) i v) :
    ((s.finishReset p).part p).pfxLog2n = 0 ∧ (s.finishReset p).mem = (released s (bits v 128 56 % 2 ^ 44)).mem := by
  obtain ⟨kept, mem, parity, walk⟩ := resetSquares_none off base noSquare
  rw [finishReset_of_destroyed destroyed going]
  generalize s.resetSquares p = r at *
  have slots : r.slotsLeft p = 2 ^ (s.part p).pfxLog2n := by
    unfold State.slotsLeft
    dsimp only
    rw [kept.size, if_neg tree, walk, Nat.sub_zero]
  obtain ⟨t, run, -, after⟩ := walkTree_releases (holds.of_kept kept mem parity) walk
  simp only [slots, run, if_true]
  obtain ⟨same, -, -, -, -, clear⟩ := endReset_leaves t p
  exact ⟨congrArg (fun r => r.2.1) clear, same.trans (after.trans (released_mem_congr mem _))⟩

/-- What the release of a record leaves in memory. -/
theorem released_memory {s t : State} {a : Nat} (mem : t.mem = (released s a).mem) :
    sameMemoryBut s t a 8 ∧ ofBytes (t.bytes a 8) =
      if (ofBytes (s.bytes a 8)).testBit 34 then releaseWord (ofBytes (s.bytes a 8)) else ofBytes (s.bytes a 8) := by
  have same := sameMemory.of_mem mem
  rw [same.bytes]
  unfold released at same ⊢
  split
  · next held =>
    rw [if_pos held] at same
    have alone := State.store_sameMemoryBut s a (toBytes 8 (releaseWord (ofBytes (s.bytes a 8))))
    rw [length_toBytes] at alone
    exact ⟨fun b outside => (same b).trans (alone b outside), ofBytes_store_word s a (releaseWord_lt _)⟩
  · next free =>
    rw [if_neg free] at same
    exact ⟨.of_same same a 8, rfl⟩

/-- The walk of a reset over a tree that holds one record, as the command that ends the reset makes it (R265, R385). -/
theorem resetComplete_releases {s : State} {p : PartId} {i v : Nat} (destroyed : s.workDestroyed p.val = true) (going : s.stop.stopped = false)
    (off : (s.part p.val).ctxEn = false) (base : (s.part p.val).ctxBase = 0) (tree : (s.part p.val).pfxLog2n ≠ 0)
    (noSquare : ∀ u, u < 128 → s.squareOwnedBy u p.val = false) (holds : TreeHolds s p.val (2 ^ (s.part p.val).pfxLog2n) i v) :
    ∃ t, exec (.partitionResetComplete p) s = .next t ∧ (t.part p.val).pfxLog2n = 0 ∧ sameMemoryBut s t (bits v 128 56 % 2 ^ 44) 8 ∧
      ofBytes (t.bytes (bits v 128 56 % 2 ^ 44) 8) =
        if (ofBytes (s.bytes (bits v 128 56 % 2 ^ 44) 8)).testBit 34 then releaseWord (ofBytes (s.bytes (bits v 128 56 % 2 ^ 44) 8))
        else ofBytes (s.bytes (bits v 128 56 % 2 ^ 44) 8) := by
  obtain ⟨size, mem⟩ := finishReset_releases destroyed going off base tree noSquare holds
  exact ⟨_, exec_partitionResetComplete p s, size, released_memory mem⟩

end Sys2Proof.Proofs

/-! Partition resets and interrupts, together: O45 (R380 to R388, R525). -/

namespace Sys2Proof.Proofs
open Sys2Proof Sys2Proof.Machine

theorem place_of_memory {pl : Place} (memory : pl = .reservoir ∨ ∃ q, pl = .well q) : pl ≠ .reg ∧ pl ≠ .host := by
  obtain rfl | ⟨q, rfl⟩ := memory <;> exact ⟨nofun, nofun⟩

/-- Settles O45: each trigger begins resets only, and what ends a reset passes its steps in turn: squares, context records, the walk over the
tree, the tables of the hall, and reset-done. -/
theorem partitionsReset : Obligations.PartitionsReset := by
  unfold Obligations.PartitionsReset
  refine ⟨?prst, ?virtual, ?physical, ?leaving, ?destroys, ?completes, ?contexts, ?tree, ?interval, ?unmask⟩
  case prst =>
    intro s w p allowed noCold noWarm low asked going awake idle
    exact prst_resets allowed noCold noWarm low asked ⟨going, awake⟩ idle
  case virtual =>
    intro s p present virtual going awake idle
    exact functionReset_begins present virtual ⟨going, awake⟩ idle
  case physical =>
    intro s p q present physical low high going awake idle
    exact physicalReset_begins present physical low high ⟨going, awake⟩ idle
  case leaving =>
    intro s en n p service enabled had gone going awake idle
    exact vfEnableClear_resets service enabled had gone ⟨going, awake⟩ idle
  case destroys => exact fun s p resetting stage => partitionReset_destroys resetting stage
  case completes => exact fun s p destroyed going off base noTree => resetComplete_leaves destroyed going off base noTree
  case contexts =>
    intro s p x record destroyed going area noTree noSquare pass
    exact resetComplete_invalidates destroyed going area noTree noSquare pass
  case tree =>
    intro s p i x slot brec word refs destroyed going off base hasTree inside noSquare slots full named here memory pass swaps sound apart
    obtain ⟨noReg, noHost⟩ := place_of_memory memory
    have holds : TreeHolds s p.val (2 ^ x.pfxLog2n) i (slot i) := {
      inside := inside
      slot := ⟨(slots i inside).1, (slots i inside).2.1, rfl⟩
      full := full
      named := named
      others := fun k below other => ⟨slot k, ⟨(slots k below).1, (slots k below).2.1, rfl⟩, (slots k below).2.2 other⟩
      reads := ⟨here, noReg, noHost, pass, sound, rfl⟩
      may := ⟨here, noReg, noHost, swaps, sound⟩
      apart := apart }
    exact resetComplete_releases destroyed going off base hasTree noSquare holds
  case interval =>
    intro s p v e x owed due quiet free
    exact moderationExpiry_sends owed due quiet free
  case unmask =>
    intro s p v x present service enabled unmasked quiet free waits absent
    exact vectorUnmask_sends present service enabled unmasked quiet free waits absent

end Sys2Proof.Proofs

/-! Memory stays canonical, part one: what each operation of the model does to memory. Only `State.store`, `State.zero`, `State.freeRange` and
`State.warmed` write bytes and keep the canonical form, and a reset leaves none; every other operation goes through these or leaves memory as it
is (R267, R268, R275). -/

namespace Sys2Proof.Proofs
open Sys2Proof Sys2Proof.Machine

theorem onlyCounts.mem {s t : State} (h : onlyCounts s t) : t.mem = s.mem := by rw [h]

@[simp] theorem mem_ite (c : Prop) [Decidable c] (s t : State) : (if c then s else t).mem = if c then s.mem else t.mem :=
  apply_ite State.mem c s t

@[simp] theorem fst_ite {α β : Type} (c : Prop) [Decidable c] (x y : α × β) : (if c then x else y).1 = if c then x.1 else y.1 :=
  apply_ite Prod.fst c x y

@[simp] theorem wf_ite (c : Prop) [Decidable c] (m n : List Host.Cell) :
    Memory.wf (if c then m else n) = if c then Memory.wf m else Memory.wf n :=
  apply_ite Memory.wf c m n

/-- No entry's change of a loop writes memory. -/
def leavesMemory {α : Type} (f : State → α → State) : Prop := ∀ t x, (f t x).mem = t.mem

@[simp] theorem leavesMemory_iff {α : Type} {f : State → α → State} : leavesMemory f ↔ ∀ t x, (f t x).mem = t.mem := ⟨id, id⟩

@[simp] theorem forAll_mem {α : Type} {f : State → α → State} (leaves : leavesMemory f) (xs : List α) (s : State) :
    (forAll xs f s).mem = s.mem :=
  forAll_keeps (P := fun t => t.mem = s.mem) (fun t x _ h => (leaves t x).trans h) rfl

theorem forAll_wf {α : Type} {f : State → α → State} (keeps : ∀ t x, Memory.wf t.mem = true → Memory.wf (f t x).mem = true) (xs : List α)
    {s : State} (w : Memory.wf s.mem = true) : Memory.wf (forAll xs f s).mem = true :=
  forAll_keeps (P := fun t => Memory.wf t.mem = true) (fun t x _ => keeps t x) w

/-- Memory is `m`, as a predicate of the state: a definition that names long loops is then opened under the predicate, where the kernel compares
two states field by field only when it has to. -/
def memoryIs (m : List Host.Cell) (s : State) : Prop := s.mem = m

/-- Memory is in canonical form, as a predicate of the state (see `memoryIs`). -/
def canonical (s : State) : Prop := Memory.wf s.mem = true

theorem canonical.of_mem {s t : State} (h : canonical s) (same : t.mem = s.mem) : canonical t := by
  unfold canonical
  rwa [same]

theorem canonical.forAll {α : Type} {f : State → α → State} {s : State} (w : canonical s) (xs : List α)
    (keeps : ∀ t x, canonical t → canonical (f t x)) : canonical (forAll xs f s) :=
  forAll_keeps (P := canonical) (fun t x _ => keeps t x) w

theorem canonical.ite {c : Prop} [Decidable c] {s t : State} (h : canonical s) (k : canonical t) : canonical (if c then s else t) := by
  split
  · exact h
  · exact k

/-! Memory under the operations of the model, in the order of its files: `foo_mem` where an operation leaves memory as it is, `foo_wf` where it
may write. -/

/-! ### Machine/Ops -/

@[simp] theorem countTime_mem (s : State) : s.countTime.mem = s.mem := by simp [State.countTime]

@[simp] theorem clearCounters_mem (s : State) : s.clearCounters.mem = s.mem := rfl

@[simp] theorem hallTime_mem (s : State) (p ns : Nat) : (s.hallTime p ns).mem = s.mem := by simp [State.hallTime]

@[simp] theorem traceRaw_mem (s : State) (ring : Nat) (rec : TrcRecord) : (s.traceRaw ring rec).mem = s.mem := by simp [State.traceRaw]

@[simp] theorem traceCost_mem (s : State) (cls part : Nat) : (s.traceCost cls part).mem = s.mem := by simp [State.traceCost]

@[simp] theorem trace_mem (s : State) (cls event part unit arg0 arg1 : Nat) : (s.trace cls event part unit arg0 arg1).mem = s.mem := by
  simp [State.trace]

@[simp] theorem sendInt_mem (s : State) (p : Nat) (t : IntTarget) (regUnit regAddr : Nat) : (s.sendInt p t regUnit regAddr).1.mem = s.mem := by
  unfold State.sendInt
  split <;> simp

@[simp] theorem beginInterval_mem (s : State) (p : Nat) (t : IntTarget) (regUnit regAddr : Nat) :
    (s.beginInterval p t regUnit regAddr).mem = s.mem := rfl

@[simp] theorem sendModerated_mem (s : State) (p : Nat) (t : IntTarget) (regUnit regAddr : Nat) :
    (s.sendModerated p t regUnit regAddr).mem = s.mem := by simp [State.sendModerated]

@[simp] theorem raiseInt_mem (s : State) (p : Nat) (t : IntTarget) (regUnit regAddr : Nat) : (s.raiseInt p t regUnit regAddr).mem = s.mem := by
  unfold State.raiseInt
  split <;> simp

@[simp] theorem raiseResetDone_mem (s : State) (p : Nat) : (s.raiseResetDone p).mem = s.mem := by simp [State.raiseResetDone]

@[simp] theorem raiseManagement_mem (s : State) : s.raiseManagement.mem = s.mem := by simp [State.raiseManagement]

@[simp] theorem takeBadWrite_mem (s : State) (unit : Nat) : (s.takeBadWrite unit).mem = s.mem := rfl

@[simp] theorem advanceTo_mem (s : State) (t : Nat) : (s.advanceTo t).mem = s.mem := rfl

@[simp] theorem carry_mem (s : State) (src dst n : Nat) : (s.carry src dst n).mem = s.mem := (onlyCounts_carry s src dst n).mem

@[simp] theorem carryAcc_mem (s : State) (x : Machine.Acc) : (s.carryAcc x).mem = s.mem := (onlyCounts_carryAcc s x).mem

@[simp] theorem countHome_mem (s : State) (a i n : Nat) : (s.countHome a i n).mem = s.mem := (onlyCounts_countHome s a i n).mem

@[simp] theorem countHomes_mem (s : State) (a i n : Nat) : (s.countHomes a i n).mem = s.mem := (onlyCounts_countHomes s a i n).mem

@[simp] theorem refused_mem (s : State) (x : Machine.Acc) (c : Nat) : (s.refused x c).mem = s.mem := by simp [State.refused]

@[simp] theorem homeRead_mem (s : State) (a n : Nat) : (s.homeRead a n).1.mem = s.mem := (onlyCounts_homeRead s a n).mem

@[simp] theorem homeWrite_wf {s : State} (a : Nat) (bs : List Byte) (w : Memory.wf s.mem = true) : Memory.wf (s.homeWrite a bs).mem = true := by
  rw [(onlyCounts_homeWrite s a bs).mem]
  exact s.store_wf a bs w

@[simp] theorem homeMerge_wf {s : State} (a : Nat) (bs : List Byte) (w : Memory.wf s.mem = true) : Memory.wf (s.homeMerge a bs).mem = true := by
  rw [(onlyCounts_homeMerge s a bs).mem]
  exact s.store_wf a bs w

@[simp] theorem homeAtomic_wf {s : State} (a size op operand compare : Nat) (w : Memory.wf s.mem = true) :
    Memory.wf (s.homeAtomic a size op operand compare).1.mem = true := by
  dsimp only [State.homeAtomic]
  split <;> simp [w]

@[simp] theorem accRead_mem (s : State) (x : Machine.Acc) : (s.accRead x).1.mem = s.mem := (onlyCounts_accRead s x).mem

@[simp] theorem hostPost_mem (s : State) (p a : Nat) (bs : List Byte) : (s.hostPost p a bs).mem = s.mem := by simp [State.hostPost]

@[simp] theorem accWrite_wf {s : State} (x : Machine.Acc) (bs : List Byte) (w : Memory.wf s.mem = true) :
    Memory.wf (s.accWrite x bs).1.mem = true := by
  unfold State.accWrite
  split <;> simp [w]

@[simp] theorem logAccess_mem (s : State) (x : Machine.Acc) (code : Nat) : (s.logAccess x code).mem = s.mem := rfl

/-! ### Machine/Stopping -/

@[simp] theorem orphan_mem (s : State) (f : Waiter → Bool) : (s.orphan f).mem = s.mem := rfl

@[simp] theorem stopSquare_mem (s : State) (u : Nat) : (s.stopSquare u).mem = s.mem := by simp [State.stopSquare]

@[simp] theorem faultSquareAt_mem (s : State) (u code iidx stamp : Nat) : (s.faultSquareAt u code iidx stamp).mem = s.mem := by
  simp [State.faultSquareAt]

@[simp] theorem faultSquare_mem (s : State) (u code iidx : Nat) : (s.faultSquare u code iidx).mem = s.mem := by simp [State.faultSquare]

@[simp] theorem faultLogged_mem (s : State) (u code iidx addr : Nat) : (s.faultLogged u code iidx addr).mem = s.mem := by simp [State.faultLogged]

@[simp] theorem countDescriptor_mem (s : State) (u ticket code : Nat) : (s.countDescriptor u ticket code).mem = s.mem := by
  simp [State.countDescriptor]

@[simp] theorem abortLaunch_mem (s : State) (id : Nat) : (s.abortLaunch id).mem = s.mem := by
  fun_cases State.abortLaunch s id <;> simp [*]

@[simp] theorem abortQueue_mem (s : State) (q : Nat) : (s.abortQueue q).mem = s.mem := by simp [State.abortQueue]

@[simp] theorem discardNear_mem (s : State) (u : Nat) : (s.discardNear u).mem = s.mem := rfl

@[simp] theorem discardNearRange_mem (s : State) (lo hi : Nat) : (s.discardNearRange lo hi).mem = s.mem := by simp [State.discardNearRange]

@[simp] theorem clearSquareCounters_mem (s : State) (u : Nat) : (s.clearSquareCounters u).mem = s.mem := rfl

@[simp] theorem clearBanks_mem (s : State) (u : Nat) : (s.clearBanks u).mem = s.mem := rfl

@[simp] theorem zeroCistern_wf {s : State} (u : Nat) (w : Memory.wf s.mem = true) : Memory.wf (s.zeroCistern u).mem = true := s.zero_wf _ _ w

@[simp] theorem zeroWell_wf {s : State} (q : Nat) (w : Memory.wf s.mem = true) : Memory.wf (s.zeroWell q).mem = true := s.zero_wf _ _ w

/-! ### Machine/Fountain -/

@[simp] theorem saveFountain_wf {s : State} (u p : Nat) (w : Memory.wf s.mem = true) : Memory.wf (s.saveFountain u p).mem = true := by
  simp [State.saveFountain, w]

@[simp] theorem clearFountain_mem (s : State) (u : Nat) : (s.clearFountain u).mem = s.mem := rfl

@[simp] theorem takeRecord_mem (s : State) (u : Nat) (bs : List Byte) : (s.takeRecord u bs).mem = s.mem := by simp [State.takeRecord]

@[simp] theorem invalidateContexts_wf {s : State} (p : Nat) (w : Memory.wf s.mem = true) : Memory.wf (s.invalidateContexts p).mem = true := by
  unfold State.invalidateContexts
  split
  · exact forAll_wf (fun t u w => by simp [w]) _ w
  · exact w

@[simp] theorem setChecked_mem (s : State) (ok : Fountain → Bool) (reloaded : Bool) : (s.setChecked ok reloaded).mem = s.mem := by
  simp [State.setChecked]

@[simp] theorem startFountainJob_mem (s : State) (reload selftest : Bool) : (s.startFountainJob reload selftest).mem = s.mem := by
  simp [State.startFountainJob]

/-! ### Machine/LinkTx -/

@[simp] theorem drainPort_mem (s : State) (n : Nat) : (s.drainPort n).mem = s.mem := by simp [State.drainPort]

@[simp] theorem toPort_mem (s : State) (n : Nat) (t : Txn) : (s.toPort n t).mem = s.mem := by simp [State.toPort]

@[simp] theorem sendAlong_mem (s : State) (die w : Nat) (t : Txn) : (s.sendAlong die w t).mem = s.mem := by
  unfold State.sendAlong
  split <;> simp

@[simp] theorem issueRequest_mem (s : State) (unit part g r : Nat) (e : Pair) (t : Txn) (w : Waiter) :
    (s.issueRequest unit part g r e t w).mem = s.mem := by simp [State.issueRequest]

@[simp] theorem keepRequest_mem (s : State) (unit part g : Nat) (t : Txn) (w : Waiter) : (s.keepRequest unit part g t w).mem = s.mem := rfl

@[simp] theorem linkRequest_mem (s : State) (unit part g : Nat) (t : Txn) (w : Waiter) (reply : Nat → Reply) :
    (s.linkRequest unit part g t w reply).1.mem = s.mem := by
  dsimp only [State.linkRequest]
  repeat' split
  all_goals simp

@[simp] theorem sendResponse_mem (s : State) (q : Txn) (type code : Nat) (payload : List Byte) :
    (s.sendResponse q type code payload).mem = s.mem := by
  unfold State.sendResponse
  split <;> simp

@[simp] theorem answerTxn_mem (s : State) (q : Txn) (bs : List Byte) : (s.answerTxn q bs).mem = s.mem := by
  unfold State.answerTxn
  split <;> simp

@[simp] theorem sendCtl_mem (s : State) (n code : Nat) (payload : List Byte) : (s.sendCtl n code payload).mem = s.mem := by simp [State.sendCtl]

@[simp] theorem enterPortState_mem (s : State) (n st : Nat) : (s.enterPortState n st).mem = s.mem := by simp [State.enterPortState]

@[simp] theorem leaveUp_mem (s : State) (n st : Nat) : (s.leaveUp n st).mem = s.mem := by simp [State.leaveUp]

@[simp] theorem setPortDown_mem (s : State) (n st : Nat) : (s.setPortDown n st).mem = s.mem := by simp [State.setPortDown]

@[simp] theorem retrainAll_mem (s : State) : s.retrainAll.mem = s.mem := by simp [State.retrainAll]

@[simp] theorem sendHostPiece_mem (s : State) (i : Nat) (e : Nat × Nat) : (s.sendHostPiece i e).mem = s.mem := by
  unfold State.sendHostPiece
  split <;> simp

@[simp] theorem sendHost_mem (s : State) : s.sendHost.mem = s.mem :=
  forAll_mem (fun t i => by split <;> simp) _ s

@[simp] theorem hostRequest_mem (s : State) (unit part addr len : Nat) (k : AccessKind) (w : Waiter) :
    (s.hostRequest unit part addr len k w).mem = s.mem := by simp [State.hostRequest]

/-! ### Machine/PartOps -/

@[simp] theorem abortOn_mem (s : State) (q : Nat) : (s.abortOn q).mem = s.mem := by simp [State.abortOn]

@[simp] theorem dropAnswers_mem (s : State) (q : Nat) : (s.dropAnswers q).mem = s.mem := rfl

@[simp] theorem performAccepted_wf {s : State} (unit part g : Nat) (k : AccessKind) (w : Memory.wf s.mem = true) :
    Memory.wf (s.performAccepted unit part g k).mem = true := by
  unfold State.performAccepted
  split <;> simp [w]

@[simp] theorem performLost_wf {s : State} (src : AccessSource) (w : Memory.wf s.mem = true) : Memory.wf (s.performLost src).mem = true := by
  fun_cases State.performLost s src <;> simp [*]

@[simp] theorem dropRetries_wf {s : State} (q : Nat) (w : Memory.wf s.mem = true) : Memory.wf (s.dropRetries q).mem = true :=
  forAll_wf (fun _ r w => performLost_wf r.src w) _ w

theorem canonical_loseQuarter {s : State} (q : Nat) (w : canonical s) : canonical (s.loseQuarter q) := by
  unfold State.loseQuarter
  extract_lets s1 s2 s3 s4 s5
  have w1 : canonical s1 := canonical.of_mem (dropRetries_wf q ((abortOn_mem s q).symm ▸ w)) (dropAnswers_mem _ q)
  have w2 : canonical s2 := w1.forAll _ fun t u h => h.of_mem (clearSquareCounters_mem _ _)
  have w3 : canonical s3 := w2.forAll _ fun t u h => h
  have w4 : canonical s4 := w3.forAll _ fun t u h => h.of_mem (setPortDown_mem _ _ _)
  have w5 : canonical s5 := w4.forAll _ fun t u h => h
  exact w5.of_mem (State.modStop_mem s5 _)

@[simp] theorem loseQuarter_wf {s : State} (q : Nat) (w : Memory.wf s.mem = true) : Memory.wf (s.loseQuarter q).mem = true :=
  canonical_loseQuarter q w

@[simp] theorem beginFence_wf {s : State} (q cause : Nat) (w : Memory.wf s.mem = true) : Memory.wf (s.beginFence q cause).mem = true := by
  dsimp only [State.beginFence]
  split <;> simp [w]

@[simp] theorem endFence_mem (s : State) (q : Nat) : (s.endFence q).mem = s.mem := by simp [State.endFence]

@[simp] theorem beginRestore_mem (s : State) (q : Nat) : (s.beginRestore q).mem = s.mem := by simp [State.beginRestore]

@[simp] theorem writeFenceCtl_wf {s : State} (v : Nat) (w : Memory.wf s.mem = true) : Memory.wf (s.writeFenceCtl v).mem = true :=
  forAll_wf (fun t q w => by simp [w]) _ w

@[simp] theorem forgetPins_mem (s : State) (n : Nat) : (s.forgetPins n).mem = s.mem := rfl

@[simp] theorem freeSealsIn_mem (s : State) (n : Nat) : (s.freeSealsIn n).mem = s.mem := by simp [State.freeSealsIn]

@[simp] theorem discardCoreLines_mem (s : State) (lo hi : Nat) : (s.discardCoreLines lo hi).mem = s.mem := rfl

@[simp] theorem startScrub_wf {s : State} (n : Nat) (valid : Bool) (owner : Nat) (w : Memory.wf s.mem = true) :
    Memory.wf (s.startScrub n valid owner).mem = true := by
  simp [State.startScrub, State.zero_wf, w]

@[simp] theorem writeXtent_wf {s : State} (n : Nat) (h : Half) (v : Nat) (w : Memory.wf s.mem = true) : Memory.wf (s.writeXtent n h v).mem = true :=
  forAll_wf (fun t i w => by simp [w]) _ w

@[simp] theorem writeOwnerEntry_mem (s : State) (u : Nat) (valid : Bool) (owner : Nat) : (s.writeOwnerEntry u valid owner).mem = s.mem := by
  simp [State.writeOwnerEntry]

@[simp] theorem writeSqown_mem (s : State) (n : Nat) (h : Half) (v : Nat) : (s.writeSqown n h v).mem = s.mem := by simp [State.writeSqown]

@[simp] theorem beginWake_mem (s : State) : s.beginWake.mem = s.mem := by simp [State.beginWake]

@[simp] theorem requestWake_mem (s : State) : s.requestWake.mem = s.mem := by simp [State.requestWake]

@[simp] theorem requestEnter_mem (s : State) : s.requestEnter.mem = s.mem := by simp [State.requestEnter]

@[simp] theorem traceStep_mem (s : State) (p step : Nat) : (s.traceStep p step).mem = s.mem := by simp [State.traceStep]

@[simp] theorem beginReset_mem (s : State) (p : Nat) (byP0 : Bool) : (s.beginReset p byP0).mem = s.mem := by simp [State.beginReset]

@[simp] theorem triggerReset_mem (s : State) (p : Nat) (byP0 : Bool) : (s.triggerReset p byP0).mem = s.mem := by simp [State.triggerReset]

@[simp] theorem releaseResets_mem (s : State) (ps : List Nat) : (s.releaseResets ps).mem = s.mem := by simp [State.releaseResets]

@[simp] theorem writePrst_mem (s : State) (v : Nat) : (s.writePrst v).mem = s.mem := by simp [State.writePrst]

@[simp] theorem resetFunction_mem (s : State) (p : Nat) : (s.resetFunction p).mem = s.mem := rfl

@[simp] theorem setVfs_mem (s : State) (en : Bool) (n : Nat) : (s.setVfs en n).mem = s.mem := by simp [State.setVfs]

@[simp] theorem functionReset_mem (s : State) (p : Nat) : (s.functionReset p).mem = s.mem := by simp [State.functionReset]

@[simp] theorem continuePfReset_mem (s : State) : s.continuePfReset.mem = s.mem := by simp [State.continuePfReset]

@[simp] theorem writeBackCaches_mem (s : State) (c part : Nat) : (s.writeBackCaches c part).mem = s.mem := by simp [State.writeBackCaches]

@[simp] theorem writeHart_mem (s : State) (c v : Nat) : (s.writeHart c v).mem = s.mem := by simp [State.writeHart]

/-! ### Machine/Flash -/

@[simp] theorem mailboxOutcome_mem (s : State) (code : Nat) : (s.mailboxOutcome code).mem = s.mem := rfl

@[simp] theorem eraseFlash_mem (s : State) (a n : Nat) : (s.eraseFlash a n).mem = s.mem := rfl

@[simp] theorem setErased_mem (s : State) (slot : Nat) (v : Bool) : (s.setErased slot v).mem = s.mem := rfl

theorem memoryIs_eraseSlot {m : List Host.Cell} {s : State} (h : memoryIs m s) (c : Prop) [Decidable c] (lo k : Nat) :
    memoryIs m (if c then (s.eraseFlash lo 65536).setErased k true else s) := by
  split
  · exact (setErased_mem _ _ _).trans ((eraseFlash_mem _ _ _).trans h)
  · exact h

@[simp] theorem guardManifest_mem (s : State) (a n : Nat) : (s.guardManifest a n).mem = s.mem := by
  change memoryIs s.mem _
  unfold State.guardManifest
  exact forAll_keeps (P := memoryIs s.mem) (fun t k _ h => memoryIs_eraseSlot h _ (slotBase k) k) rfl

@[simp] theorem noteWrite_mem (s : State) (a n : Nat) : (s.noteWrite a n).mem = s.mem := by simp [State.noteWrite]

@[simp] theorem mbErase_mem (s : State) (a n : Nat) : (s.mbErase a n).1.mem = s.mem := by simp [State.mbErase]

@[simp] theorem mbWrite_mem (s : State) (a n : Nat) : (s.mbWrite a n).1.mem = s.mem := by simp [State.mbWrite]

@[simp] theorem mbRead_mem (s : State) (a n : Nat) : (s.mbRead a n).1.mem = s.mem := by simp [State.mbRead]

@[simp] theorem interruptFlash_mem (s : State) : s.interruptFlash.mem = s.mem := by
  unfold State.interruptFlash
  split <;> simp

/-! ### Machine/PowerOps -/

@[simp] theorem modDie_mem (s : State) (d : Nat) (f : Die → Die) : (s.modDie d f).mem = s.mem := rfl

@[simp] theorem clampTarget_mem (s : State) : s.clampTarget.mem = s.mem := rfl

@[simp] theorem setRails_mem (s : State) : s.setRails.mem = s.mem := by simp [State.setRails]

theorem canonical_endRestore {s : State} (q : Nat) (selfTest : Bool) (w : canonical s) : canonical (s.endRestore q selfTest) := by
  unfold State.endRestore
  extract_lets f s1 s2 s3 s4 s5 s6 s7
  have w1 : canonical s1 := zeroWell_wf q (w.forAll _ fun t u w => zeroCistern_wf u w)
  have w2 : canonical s2 := w1.forAll _ fun t u w => w.of_mem ((State.setOwner_mem _ _ _).trans ((forgetFar_mem _ _).trans
    (clearSquareCounters_mem _ _)))
  have w3 : canonical s3 := w2.of_mem (State.modFence_mem _ _ _)
  have w4 : canonical s4 := w3.forAll _ fun t n w => by split_ifs <;> exact w.of_mem (setPortDown_mem _ _ _)
  have w6 : canonical s6 := canonical.of_mem (s := s5) (w4.of_mem (State.modPower_mem s4 _)) rfl
  have w7 : canonical s7 := w6.forAll _ fun t h w => w
  clear_value s7
  split_ifs
  · exact w.of_mem (raiseManagement_mem _)
  · exact w7.of_mem (by simp)
  · exact w

@[simp] theorem endRestore_wf {s : State} (q : Nat) (selfTest : Bool) (w : Memory.wf s.mem = true) :
    Memory.wf (s.endRestore q selfTest).mem = true :=
  canonical_endRestore q selfTest w

@[simp] theorem evaluate_mem (s : State) : s.evaluate.mem = s.mem := by simp [State.evaluate]

theorem canonical_supplyStop {s : State} (thermal : Bool) (w : canonical s) : canonical (s.supplyStop thermal) := by
  unfold State.supplyStop
  extract_lets s0 s1 s2
  have w1 : canonical s1 := (w.of_mem (interruptFlash_mem s)).forAll _ fun t q w =>
    canonical.of_mem (loseQuarter_wf q (w.of_mem (State.modFence_mem _ _ _))) (modDie_mem _ _ _)
  have w2 : canonical s2 := w1.of_mem (State.modPower_mem _ _)
  clear_value s2
  split_ifs
  · exact w
  · exact w2.of_mem (by simp)

@[simp] theorem supplyStop_wf {s : State} (thermal : Bool) (w : Memory.wf s.mem = true) : Memory.wf (s.supplyStop thermal).mem = true :=
  canonical_supplyStop thermal w

@[simp] theorem sample_wf {s : State} (t : Telemetry) (w : Memory.wf s.mem = true) : Memory.wf (s.sample t).mem = true := by simp [State.sample, w]

theorem canonical_enterDormant {s : State} (w : canonical s) : canonical s.enterDormant := by
  unfold State.enterDormant
  extract_lets saved s1 s2 s3 s4 s5 s6
  have w2 : canonical s2 := canonical.forAll (s := s1) w _ fun t c w => w
  have w3 : canonical s3 := s2.zero_wf _ _ w2
  have w4 : canonical s4 := w3.forAll _ fun t q w => w
  have w6 : canonical s6 := (w4.of_mem (State.modPower_mem _ _)).of_mem (evaluate_mem s5)
  clear_value s6
  split_ifs
  · exact w6.of_mem (requestWake_mem _)
  · exact w6

@[simp] theorem enterDormant_wf {s : State} (w : Memory.wf s.mem = true) : Memory.wf (s.enterDormant).mem = true :=
  canonical_enterDormant w

@[simp] theorem wakeUp_mem (s : State) : s.wakeUp.mem = s.mem := by simp [State.wakeUp]

@[simp] theorem writePowerCtl_mem (s : State) (h : Half) (v : Nat) : (s.writePowerCtl h v).mem = s.mem := by simp [State.writePowerCtl]

/-! ### Machine/BootOps -/

@[simp] theorem sampleStrap_mem (s : State) : s.sampleStrap.mem = s.mem := rfl

@[simp] theorem beginStart_mem (s : State) (cause : Nat) : (s.beginStart cause).mem = s.mem := rfl

@[simp] theorem resetModule_wf (s : State) (cause : Nat) : Memory.wf (s.resetModule cause).mem = true := rfl

@[simp] theorem restart_wf (s : State) (cause : Nat) : Memory.wf (s.restart cause).mem = true := by simp [State.restart]

@[simp] theorem applyDieData_mem (s : State) (ok : Bool) (rcd : List Byte) : (s.applyDieData ok rcd).mem = s.mem := by simp [State.applyDieData]

@[simp] theorem writeLnkId_mem (s : State) (h : Half) (v : Nat) : (s.writeLnkId h v).mem = s.mem := by simp [State.writeLnkId]

@[simp] theorem applySite_mem (s : State) (v : Nat) : (s.applySite v).mem = s.mem := by simp [State.applySite]

@[simp] theorem assignExtents_wf {s : State} (lo n : Nat) (w : Memory.wf s.mem = true) : Memory.wf (s.assignExtents lo n).mem = true :=
  forAll_wf (fun t i w => by simp [w]) _ w

@[simp] theorem loadHostrt_wf {s : State} (slot : Nat) (h : List Byte) (cores cause : Nat) (w : Memory.wf s.mem = true) :
    Memory.wf (s.loadHostrt slot h cores cause).1.mem = true := by simp [State.loadHostrt, w]

@[simp] theorem drawKeys_mem (s : State) : s.drawKeys.mem = s.mem := rfl

@[simp] theorem bootSlot_wf {s : State} (slot : Nat) (w : Memory.wf s.mem = true) : Memory.wf (s.bootSlot slot).1.mem = true := by
  simp [State.bootSlot, w]

@[simp] theorem recover_mem (s : State) : s.recover.mem = s.mem := rfl

@[simp] theorem failSlot_mem (s : State) (slot : Nat) : (s.failSlot slot).mem = s.mem := rfl

@[simp] theorem bootFrom_wf {s : State} (slot : Nat) (w : Memory.wf s.mem = true) : Memory.wf (s.bootFrom slot).mem = true := by
  dsimp only [State.bootFrom]
  repeat' split
  all_goals simp [w]

@[simp] theorem verifyStage_mem (s : State) : s.verifyStage.mem = s.mem := by simp [State.verifyStage]

@[simp] theorem checkStage_mem (s : State) : s.checkStage.mem = s.mem := by
  dsimp only [State.checkStage]
  split <;> simp

@[simp] theorem startUp_wf {s : State} (w : Memory.wf s.mem = true) : Memory.wf s.startUp.mem = true := by simp [State.startUp, w]

@[simp] theorem startTick_mem (s : State) : s.startTick.mem = s.mem := by simp [State.startTick]

@[simp] theorem warmed_wf {s : State} (w : Memory.wf s.mem = true) : Memory.wf s.warmed.mem = true := s.clear_wf _ _ w

@[simp] theorem wf_beginWarm {s : State} (w : Memory.wf s.mem = true) : Memory.wf s.beginWarm.mem = true := by simp [State.beginWarm, w]

@[simp] theorem wf_endWarm {s : State} (w : Memory.wf s.mem = true) : Memory.wf s.endWarm.mem = true := by
  unfold State.endWarm
  split <;> simp [w]

@[simp] theorem writeRstCtl_wf {s : State} (v : Nat) (w : Memory.wf s.mem = true) : Memory.wf (s.writeRstCtl v).mem = true := by
  unfold State.writeRstCtl
  split <;> simp [w]

@[simp] theorem writeMailbox_mem (s : State) (p : Nat) (h : Half) (v : Nat) : (s.writeMailbox p h v).mem = s.mem := by
  dsimp only [State.writeMailbox]
  repeat' split
  all_goals simp

@[simp] theorem endMailbox_mem (s : State) (p code : Nat) : (s.endMailbox p code).mem = s.mem := rfl

@[simp] theorem spoilReport_wf {s : State} (p : Nat) (w : Memory.wf s.mem = true) : Memory.wf (s.spoilReport p).mem = true := by
  simp [State.spoilReport, State.store_wf, w]

@[simp] theorem abortMailbox_wf {s : State} (p : Nat) (w : Memory.wf s.mem = true) : Memory.wf (s.abortMailbox p).mem = true := by
  simp [State.abortMailbox, w]

@[simp] theorem mbCommit_mem (s : State) : s.mbCommit.mem = s.mem := rfl

@[simp] theorem resetStreams_mem (s : State) (slot : Nat) : (s.resetStreams slot).mem = s.mem := by simp [State.resetStreams]

@[simp] theorem mbKeyload_wf {s : State} (slot g : Nat) (w : Memory.wf s.mem = true) : Memory.wf (s.mbKeyload slot g).1.mem = true := by
  dsimp only [State.mbKeyload]
  repeat' split
  all_goals simp [w]

@[simp] theorem mbKeyclear_mem (s : State) (slot : Nat) : (s.mbKeyclear slot).1.mem = s.mem := by simp [State.mbKeyclear]

@[simp] theorem mbAttest_wf {s : State} (p g : Nat) (w : Memory.wf s.mem = true) : Memory.wf (s.mbAttest p g).1.mem = true := by
  dsimp only [State.mbAttest]
  repeat' split
  all_goals simp [w]

/-! ### Machine/QueueOps -/

@[simp] theorem raiseQueue_mem (s : State) (q : Nat) : (s.raiseQueue q).mem = s.mem := by simp [State.raiseQueue]

@[simp] theorem writeQbind_mem (s : State) (q : Nat) (h : Half) (v : Nat) : (s.writeQbind q h v).mem = s.mem := by simp [State.writeQbind]

@[simp] theorem writeQtail_mem (s : State) (q : Nat) (h : Half) (v : Nat) : (s.writeQtail q h v).1.mem = s.mem := by simp [State.writeQtail]

@[simp] theorem writeQen_mem (s : State) (q : Nat) (en : Bool) : (s.writeQen q en).mem = s.mem := by simp [State.writeQen]

@[simp] theorem beginDestroy_mem (s : State) (q : Nat) : (s.beginDestroy q).mem = s.mem := by simp [State.beginDestroy]

@[simp] theorem destroyQueue_mem (s : State) (q : Nat) : (s.destroyQueue q).mem = s.mem := by simp [State.destroyQueue]

@[simp] theorem writeQctl_mem (s : State) (q : Nat) (w : RegWrite) : (s.writeQctl q w).mem = s.mem := by simp [State.writeQctl]

@[simp] theorem writeQueueReg_mem (s : State) (q off : Nat) (w : RegWrite) : (s.writeQueueReg q off w).1.mem = s.mem := by
  unfold State.writeQueueReg
  split <;> simp

/-! ### Machine/ObsOps -/

@[simp] theorem armSnapshot_mem (s : State) : s.armSnapshot.mem = s.mem := by simp [State.armSnapshot]

@[simp] theorem writeSnapCtl_mem (s : State) (h : Half) (v : Nat) : (s.writeSnapCtl h v).mem = s.mem := by simp [State.writeSnapCtl]

@[simp] theorem ringWrite_wf {s : State} (unit p base : Nat) (bs : List Byte) (w : Memory.wf s.mem = true) :
    Memory.wf (s.ringWrite unit p base bs).1.mem = true := by simp [State.ringWrite, w]

@[simp] theorem offerRing_wf {s : State} (p : Nat) (r : ErrRecord) (w : Memory.wf s.mem = true) : Memory.wf (s.offerRing p r).mem = true := by
  dsimp only [State.offerRing]
  split <;> simp [w]

@[simp] theorem writeElogRing_wf {s : State} (p : Nat) (h : Half) (v : Nat) (w : Memory.wf s.mem = true) :
    Memory.wf (s.writeElogRing p h v).mem = true := by
  dsimp only [State.writeElogRing]
  split
  · generalize (if mergeHalf h ((s.part p).elog.base + (s.part p).elog.log2n) v % 32 = 0 then 0 else _) = n
    split
    · exact w
    · exact forAll_wf (fun t r w => offerRing_wf p r w) _ w
  · exact w

@[simp] theorem writeTrcRing_mem (s : State) (p : Nat) (h : Half) (v : Nat) : (s.writeTrcRing p h v).mem = s.mem := by simp [State.writeTrcRing]

@[simp] theorem writeTrcMark_mem (s : State) (p unit v : Nat) : (s.writeTrcMark p unit v).mem = s.mem := by simp [State.writeTrcMark]

@[simp] theorem putTrace_wf {s : State} (p : Nat) (r : TrcRecord) (w : Memory.wf s.mem = true) : Memory.wf (s.putTrace p r).1.mem = true := by
  simp [State.putTrace, w]

@[simp] theorem flushLoss_wf {s : State} (p : Nat) (w : Memory.wf s.mem = true) : Memory.wf (s.flushLoss p).mem = true := by
  simp [State.flushLoss, w]

@[simp] theorem collect_wf {s : State} (r : TrcRecord) (w : Memory.wf s.mem = true) : Memory.wf (s.collect r).mem = true := by
  dsimp only [State.collect]
  repeat' split
  all_goals simp [w]

@[simp] theorem sendMarks_mem (s : State) (n id : Nat) : (s.sendMarks n id).mem = s.mem := by simp [State.sendMarks]

@[simp] theorem enterStop_mem (s : State) (id cause : Nat) : (s.enterStop id cause).mem = s.mem := by simp [State.enterStop]

@[simp] theorem triggerStop_mem (s : State) (id cause origin : Nat) : (s.triggerStop id cause origin).mem = s.mem := by simp [State.triggerStop]

@[simp] theorem endStop_mem (s : State) : s.endStop.mem = s.mem := by simp [State.endStop]

@[simp] theorem settleStop_mem (s : State) : s.settleStop.mem = s.mem := by
  unfold State.settleStop
  split <;> simp

@[simp] theorem leaveStop_mem (s : State) : s.leaveStop.mem = s.mem := by simp [State.leaveStop]

@[simp] theorem writeStopCtl_mem (s : State) (h : Half) (v : Nat) : (s.writeStopCtl h v).mem = s.mem := by simp [State.writeStopCtl]

@[simp] theorem writePort_mem (s : State) (n : Nat) (h : Half) (v : Nat) : (s.writePort n h v).mem = s.mem := by simp [State.writePort]

@[simp] theorem writeLnkPrec_mem (s : State) (h : Half) (v : Nat) : (s.writeLnkPrec h v).mem = s.mem := by simp [State.writeLnkPrec]

@[simp] theorem writeLnkTime_mem (s : State) (h : Half) (v : Nat) : (s.writeLnkTime h v).mem = s.mem := by simp [State.writeLnkTime]

@[simp] theorem writeLnkEpoch_mem (s : State) (h : Half) (v : Nat) : (s.writeLnkEpoch h v).mem = s.mem := rfl

@[simp] theorem toChildren_mem (s : State) (code : Nat) (payload : List Byte) : (s.toChildren code payload).mem = s.mem := by
  simp [State.toChildren]

@[simp] theorem settleEpoch_mem (s : State) : s.settleEpoch.mem = s.mem := by simp [State.settleEpoch]

@[simp] theorem writeEpochGo_mem (s : State) (h : Half) (v : Nat) : (s.writeEpochGo h v).mem = s.mem := by simp [State.writeEpochGo]

/-! ### Machine/Regs -/

@[simp] theorem writePower_mem (s : State) (off : Nat) (h : Half) (v : Nat) : (s.writePower off h v).mem = s.mem := by simp [State.writePower]

@[simp] theorem writeElog_wf {s : State} (p off : Nat) (h : Half) (v : Nat) (w : Memory.wf s.mem = true) :
    Memory.wf (s.writeElog p off h v).mem = true := by
  unfold State.writeElog
  split <;> simp [w]

@[simp] theorem writeTrc_wf {s : State} (p unit off : Nat) (h : Half) (v : Nat) (w : Memory.wf s.mem = true) :
    Memory.wf (s.writeTrc p unit off h v).mem = true := by
  unfold State.writeTrc
  split <;> simp [w]

@[simp] theorem regWrite_wf {s : State} (r : Reg) (x : RegWrite) (w : Memory.wf s.mem = true) : Memory.wf (s.regWrite r x).1.mem = true := by
  cases r
  case lnk off =>
    dsimp only [State.regWrite]
    split <;> simp [w]
  all_goals simp [State.regWrite, w]

@[simp] theorem regStore_wf {s : State} (unit : Nat) (p : PartId) (a : Nat) (bs : List Byte) (w : Memory.wf s.mem = true) :
    Memory.wf (s.regStore unit p a bs).1.mem = true := by
  cases found : s.findReg unit a with
  | error c => rwa [regStore_of_error found]
  | ok r =>
    rw [regStore_of_ok found]
    simp [w]

/-- The lookup is named and never evaluated, as in `onlyHomes_of_regAtomic`. -/
theorem mem_of_regAtomic {s t : State} {unit p a n op v : Nat} {out : Except Nat Nat} (h : s.regAtomic unit p a n op v = (t, out)) :
    t.mem = s.mem := by
  have body : @State.regAtomic = @State.regAtomic := rfl
  conv at body => rhs; delta State.regAtomic
  rw [body] at h
  beta_reduce at h
  cases found : s.findReg unit a with
  | error c =>
    rw [found] at h
    obtain ⟨rfl, -⟩ := Prod.mk.inj h
    rfl
  | ok r =>
    rw [found] at h
    dsimp only at h
    split at h
    · obtain ⟨rfl, -⟩ := Prod.mk.inj h
      rfl
    · split at h
      · split_ifs at h <;> (obtain ⟨rfl, -⟩ := Prod.mk.inj h; rfl)
      · split_ifs at h <;> (obtain ⟨rfl, -⟩ := Prod.mk.inj h; rfl)
      · obtain ⟨rfl, -⟩ := Prod.mk.inj h
        rfl

@[simp] theorem regAtomic_mem (s : State) (unit p a n op v : Nat) : (s.regAtomic unit p a n op v).1.mem = s.mem :=
  mem_of_regAtomic Prod.mk.eta.symm

@[simp] theorem carryRegister_mem (s : State) (unit a n : Nat) (op : AccOp) : (s.carryRegister unit a n op).mem = s.mem :=
  (onlyCounts_carryRegister s unit a n op).mem

@[simp] theorem performWrite_wf {s : State} (o : Nat) (x : RegWrite) (w : Memory.wf s.mem = true) : Memory.wf (s.performWrite o x).mem = true := by
  have stored : Memory.wf (storeOf s o x).1.mem = true := regStore_wf _ _ _ _ w
  rw [performWrite_eq]
  split
  · rw [State.emit_mem, carryRegister_mem]
    exact stored
  · rw [State.logErr_mem]
    exact stored

@[simp] theorem registerCommand_wf {s : State} (o : Nat) (x : RegWrite) (w : Memory.wf s.mem = true) :
    Memory.wf (s.registerCommand o x).mem = true := by
  simp [State.registerCommand, w]

/-! ### Machine/Operands -/

@[simp] theorem faultAt_mem (s : State) (u code addr : Nat) : (s.faultAt u code addr).mem = s.mem := by simp [State.faultAt]

@[simp] theorem faultHere_mem (s : State) (u code : Nat) : (s.faultHere u code).mem = s.mem := by simp [State.faultHere]

@[simp] theorem advance_mem (s : State) (u : Nat) : (s.advance u).mem = s.mem := rfl

@[simp] theorem issue_wf {s : State} (u cls op : Nat) {f : Nat → State} (w : Memory.wf s.mem = true) (next : ∀ x, Memory.wf (f x).mem = true) :
    Memory.wf (s.issue u cls op f).mem = true := by
  unfold State.issue
  split <;> simp [w, next]

@[simp] theorem checked_wf {s t : State} (u : Nat) (check : Option (Nat × Nat)) (w : Memory.wf s.mem = true) (next : Memory.wf t.mem = true) :
    Memory.wf (s.checked u check t).mem = true := by
  unfold State.checked
  split <;> simp [w, next]

@[simp] theorem readCistern_wf {s : State} (u off n : Nat) {f : List Byte → State} (w : Memory.wf s.mem = true)
    (next : ∀ bs, Memory.wf (f bs).mem = true) : Memory.wf (s.readCistern u off n f).mem = true := by
  unfold State.readCistern
  split <;> simp [w, next]

@[simp] theorem writeCistern_wf {s : State} (u off : Nat) (bs : List Byte) (w : Memory.wf s.mem = true) :
    Memory.wf (s.writeCistern u off bs).mem = true := s.store_wf _ _ w

/-! ### Machine/Control -/

@[simp] theorem ctIssue_wf {s : State} (u op : Nat) (extra : Nat → Bool) (regs : Nat → List Nat) {f : Nat → State} (w : Memory.wf s.mem = true)
    (next : ∀ x, Memory.wf (f x).mem = true) : Memory.wf (s.ctIssue u op extra regs f).mem = true := by
  simp [State.ctIssue, w, next]

@[simp] theorem ctArith_wf {s : State} (u op : Nat) (f : Reg64 → Reg64 → Reg64) (w : Memory.wf s.mem = true) :
    Memory.wf (s.ctArith u op f).mem = true := by simp [State.ctArith, w]

@[simp] theorem branchTo_mem (s : State) (u w : Nat) : (s.branchTo u w).mem = s.mem := rfl

@[simp] theorem ctBranch_wf {s : State} (u op : Nat) (c : Reg64 → Reg64 → Bool) (w : Memory.wf s.mem = true) :
    Memory.wf (s.ctBranch u op c).mem = true := by simp [State.ctBranch, w]

@[simp] theorem spoilSpace_wf {s : State} (u : Nat) (w : Memory.wf s.mem = true) : Memory.wf (s.spoilSpace u).mem = true := by
  simp [State.spoilSpace, State.freeRange_wf, w]

@[simp] theorem reportSquare_wf {s : State} (u : Nat) (w : Memory.wf s.mem = true) : Memory.wf (s.reportSquare u).mem = true := by
  simp [State.reportSquare, w]

@[simp] theorem endReport_wf {s : State} (u : Nat) (w : Memory.wf s.mem = true) : Memory.wf (s.endReport u).mem = true := by
  fun_cases State.endReport s u <;> simp [*]

@[simp] theorem syIssue_wf {s : State} (u op : Nat) (ok : Nat → Bool) (reg ctr : Bool) {f : Nat → State} (w : Memory.wf s.mem = true)
    (next : ∀ x, Memory.wf (f x).mem = true) : Memory.wf (s.syIssue u op ok reg ctr f).mem = true := by
  simp [State.syIssue, w, next]

@[simp] theorem acquire_mem (s : State) (u scope : Nat) : (s.acquire u scope).mem = s.mem := by simp [State.acquire]

@[simp] theorem resume_mem (s : State) (u : Nat) : (s.resume u).mem = s.mem := rfl

/-! ### Machine/Matrix -/

@[simp] theorem mxIssue_wf {s : State} (u op : Nat) (regs : Nat → List Nat) (check : Nat → Option (Nat × Nat)) {f : Nat → State}
    (w : Memory.wf s.mem = true) (next : ∀ x, Memory.wf (f x).mem = true) : Memory.wf (s.mxIssue u op regs check f).mem = true := by
  simp [State.mxIssue, w, next]

@[simp] theorem drainSteps_mem (s : State) (u n : Nat) : (s.drainSteps u n).mem = s.mem := rfl

@[simp] theorem rowOrder_mem (s : State) (stride run : Nat) : (s.rowOrder stride run).2.mem = s.mem := by
  unfold State.rowOrder
  split <;> simp

/-! ### Machine/Vector -/

@[simp] theorem vxIssue_wf {s : State} (u op : Nat) (regs : Nat → List Nat) (check : Nat → Option (Nat × Nat)) {f : Nat → State}
    (w : Memory.wf s.mem = true) (next : ∀ x, Memory.wf (f x).mem = true) : Memory.wf (s.vxIssue u op regs check f).mem = true := by
  simp [State.vxIssue, w, next]

@[simp] theorem vxBinary_wf {s : State} (u op : Nat) (shift : Bool) (f : Nat → Word → Word → Word × Bool) (w : Memory.wf s.mem = true) :
    Memory.wf (s.vxBinary u op shift f).mem = true := by simp [State.vxBinary, w]

@[simp] theorem vxUnary_wf {s : State} (u op : Nat) (shift : Bool) (f : Nat → Word → Word × Bool) (w : Memory.wf s.mem = true) :
    Memory.wf (s.vxUnary u op shift f).mem = true := by simp [State.vxUnary, w]

@[simp] theorem vxReduce_wf {s : State} (u op : Nat) (f : List Word → Word) (w : Memory.wf s.mem = true) :
    Memory.wf (s.vxReduce u op f).mem = true := by simp [State.vxReduce, w]

@[simp] theorem vxPair_wf {s : State} (u op : Nat) (fs : List (Nat × Nat)) (extra : Nat → Bool) (f : Nat → Word → Int)
    (w : Memory.wf s.mem = true) : Memory.wf (s.vxPair u op fs extra f).mem = true := by simp [State.vxPair, w]

/-! ### Machine/Access -/

/-- The result of the lookup is named, so that it is never evaluated, as in `mem_of_regAtomic`. -/
theorem wf_of_regPerform {s t : State} {unit part a : Nat} {k} {out : AccOut} (h : s.regPerform unit part a k = (t, out))
    (w : Memory.wf s.mem = true) : Memory.wf t.mem = true := by
  obtain ⟨lookup, named⟩ : ∃ lookup, s.regRead unit part a = lookup := ⟨_, rfl⟩
  have body : @State.regPerform = @State.regPerform := rfl
  conv at body => rhs; delta State.regPerform
  rw [body] at h
  beta_reduce at h
  rw [named] at h
  cases k with
  | load n =>
    dsimp only at h
    split at h <;> (obtain ⟨rfl, -⟩ := Prod.mk.inj h; exact w)
  | store bs =>
    obtain ⟨rfl, -⟩ := Prod.mk.inj h
    exact regStore_wf unit (asPart part) a bs w
  | atom op n v => 
    obtain ⟨rfl, -⟩ := Prod.mk.inj h
    rwa [regAtomic_mem]
  | cas n v c =>
    obtain ⟨rfl, -⟩ := Prod.mk.inj h
    rwa [regAtomic_mem]

@[simp] theorem regPerform_wf {s : State} (unit part a : Nat) (k) (w : Memory.wf s.mem = true) :
    Memory.wf (s.regPerform unit part a k).1.mem = true :=
  wf_of_regPerform Prod.mk.eta.symm w

@[simp] theorem carryReg_mem (s : State) (unit part a : Nat) (k : AccessKind) : (s.carryReg unit part a k).mem = s.mem := by simp [State.carryReg]

@[simp] theorem regAccess_wf {s : State} (unit part a : Nat) (k : AccessKind) (w : Memory.wf s.mem = true) :
    Memory.wf (s.regAccess unit part a k).1.mem = true := by
  dsimp only [State.regAccess]
  split <;> simp [w]

@[simp] theorem memAccess_wf {s : State} (a : Nat) (k : AccessKind) (w : Memory.wf s.mem = true) : Memory.wf (s.memAccess a k).1.mem = true := by
  unfold State.memAccess
  split <;> simp [w]

@[simp] theorem localAccess_wf {s : State} (unit part a : Nat) (k : AccessKind) (bulk : Bool) (w : Memory.wf s.mem = true) :
    Memory.wf (s.localAccess unit part a k bulk).1.mem = true := by
  fun_cases State.localAccess s unit part a k bulk <;> simp [*]

@[simp] theorem hostAccess_mem (s : State) (unit part a : Nat) (k : AccessKind) (w : Waiter) : (s.hostAccess unit part a k w).mem = s.mem := by
  unfold State.hostAccess
  split <;> simp

@[simp] theorem takeFree_mem (s : State) : s.takeFree.2.mem = s.mem := rfl

@[simp] theorem dropNear_mem (s : State) (u a n : Nat) : (s.dropNear u a n).mem = s.mem := rfl

@[simp] theorem installLine_mem (s : State) (u line : Nat) (bs : List Byte) : (s.installLine u line bs).mem = s.mem := by simp [State.installLine]

@[simp] theorem nearRead_wf {s : State} (u part a n : Nat) (fill bulk : Bool) (w : Memory.wf s.mem = true) :
    Memory.wf (s.nearRead u part a n fill bulk).1.mem = true := by
  dsimp only [State.nearRead]
  repeat' split
  all_goals simp [w]

@[simp] theorem endRow_mem (s : State) (u op row : Nat) (st : AtStage) (old : Nat) : (s.endRow u op row st old).mem = s.mem := by
  dsimp only [State.endRow]
  repeat' split
  all_goals simp

@[simp] theorem rowSent_mem (s : State) (u op row : Nat) : (s.rowSent u op row).mem = s.mem := rfl

@[simp] theorem rowRefused_mem (s : State) (u op row code addr : Nat) : (s.rowRefused u op row code addr).mem = s.mem := by simp [State.rowRefused]

@[simp] theorem atLocal_wf {s : State} (u : Nat) (o : AtOp) (row : Nat) (r : AtRow) (w : Memory.wf s.mem = true) :
    Memory.wf (s.atLocal u o row r).mem = true := by
  have body : @State.atLocal = @State.atLocal := rfl
  conv at body => rhs; delta State.atLocal
  generalize h : s.atLocal u o row r = t
  rw [body] at h
  beta_reduce at h
  extract_lets q a k x at h
  have got : Memory.wf x.1.mem = true := by
    unfold x
    split_ifs
    · exact w
    · exact nearRead_wf _ _ _ _ _ _ w
    · simp [w]
  clear_value x
  split at h <;> subst h <;> simp [got]

@[simp] theorem atAccess_wf {s : State} (u op row : Nat) (w : Memory.wf s.mem = true) : Memory.wf (s.atAccess u op row).mem = true := by
  dsimp only [State.atAccess]
  repeat' split
  all_goals simp [w]

@[simp] theorem fenceCore_mem (s : State) (c : Nat) : (s.fenceCore c).mem = s.mem := by simp [State.fenceCore]

@[simp] theorem markDirty_mem (s : State) (c a n : Nat) : (s.markDirty c a n).mem = s.mem := rfl

@[simp] theorem cachedWrite_mem (s : State) (c g : Nat) (k : AccessKind) : (s.cachedWrite c g k).mem = s.mem := by
  unfold State.cachedWrite
  split <;> simp

@[simp] theorem coreDo_wf {s : State} (c g : Nat) (k : AccessKind) (w : Memory.wf s.mem = true) : Memory.wf (s.coreDo c g k).mem = true := by
  dsimp only [State.coreDo]
  repeat' split
  all_goals simp [w]

@[simp] theorem syncDo_wf {s : State} (c g : Nat) (op : SyncOp) (w : Memory.wf s.mem = true) : Memory.wf (s.syncDo c g op).mem = true := by
  dsimp only [State.syncDo]
  repeat' split
  all_goals simp [w]

@[simp] theorem perform_wf {s : State} (src : AccessSource) (w : Memory.wf s.mem = true) : Memory.wf (s.perform src).mem = true := by
  unfold State.perform
  split <;> simp [w]

@[simp] theorem holdCore_mem (s : State) (c : Option Nat) : (s.holdCore c).mem = s.mem := by
  unfold State.holdCore
  split <;> simp

@[simp] theorem homeStep_wf {s : State} (src : AccessSource) (plain : Bool) (w : Memory.wf s.mem = true) :
    Memory.wf (s.homeStep src plain).mem = true := by
  fun_cases State.homeStep s src plain <;> simp [*]

@[simp] theorem atIssue_wf {s : State} (u op : Nat) (form : Nat → Bool) (size : Nat → Nat) (regs : Nat → List Nat) (mk : Nat → Nat → AtOp)
    (w : Memory.wf s.mem = true) : Memory.wf (s.atIssue u op form size regs mk).mem = true := by simp [State.atIssue, w]

/-! ### Machine/PumpUnit -/

@[simp] theorem enqueue_wf {s : State} (u off st : Nat) (w : Memory.wf s.mem = true) : Memory.wf (s.enqueue u off st).mem = true := by
  simp [State.enqueue, w]

@[simp] theorem pumpFail_mem (s : State) (u code addr : Nat) : (s.pumpFail u code addr).mem = s.mem := by simp [State.pumpFail]

@[simp] theorem modRun_mem (s : State) (u : Nat) (f : PumpRun → PumpRun) : (s.modRun u f).mem = s.mem := rfl

@[simp] theorem beginDescriptor_mem (s : State) (u : Nat) : (s.beginDescriptor u).mem = s.mem := by
  dsimp only [State.beginDescriptor]
  repeat' split
  all_goals simp

@[simp] theorem readPieces_wf {s : State} (u part : Nat) (fill : Bool) (ps : List (Nat × Nat)) (got : List Byte) (w : Memory.wf s.mem = true) :
    Memory.wf (s.readPieces u part fill ps got).1.mem = true := by
  induction ps generalizing s got with
  | nil => exact w
  | cons p ps ih =>
    dsimp only [State.readPieces]
    split <;> simp [w, ih]

@[simp] theorem pumpRead_wf {s : State} (u a n : Nat) (fill : Bool) (w : Memory.wf s.mem = true) :
    Memory.wf (s.pumpRead u a n fill).1.mem = true := by
  dsimp only [State.pumpRead]
  repeat' split
  all_goals simp [w]

@[simp] theorem pumpUnsent_mem (s : State) (u code : Nat) : (s.pumpUnsent u code).mem = s.mem := rfl

@[simp] theorem pumpStore_wf {s : State} (u : Nat) (w : PumpWrite) (wf : Memory.wf s.mem = true) : Memory.wf (s.pumpStore u w).1.mem = true := by
  dsimp only [State.pumpStore]
  split <;> simp [wf]

@[simp] theorem pumpWrites_wf {s : State} (u : Nat) (ws : List PumpWrite) (w : Memory.wf s.mem = true) :
    Memory.wf (s.pumpWrites u ws).mem = true := by
  induction ws generalizing s with
  | nil => exact w
  | cons x ws ih => simp [State.pumpWrites, w, ih]

@[simp] theorem writeBlock_wf {s : State} (u : Nat) (ws : List PumpWrite) (w : Memory.wf s.mem = true) :
    Memory.wf (s.writeBlock u ws).mem = true := by
  unfold State.writeBlock
  split <;> simp [w]

@[simp] theorem takePiece_mem (s : State) (u : Nat) (p : Piece) (tag : Nat) (stored : List Byte) : (s.takePiece u p tag stored).mem = s.mem := by
  unfold State.takePiece
  split <;> simp

@[simp] theorem useBank_mem (s : State) (u : Nat) (p : Piece) (tag : Nat) (take : Bool) : (s.useBank u p tag take).mem = s.mem := by
  simp [State.useBank]

@[simp] theorem fetchData_wf {s : State} (u : Nat) (p : Piece) (tag : Nat) (fill : Bool) (w : Memory.wf s.mem = true) :
   Memory.wf (s.fetchData u p tag fill).mem = true := by
  change canonical _
  unfold State.fetchData 
  extract_lets wait x y
  have waits : ∀ x : State, (wait x).mem = x.mem := fun x => rfl
  clear_value wait
  split
  · have read : Memory.wf x.1.mem = true := by simp [x, w]
    clear_value x
    split <;> simp [canonical, waits, read]
  split
  · have read : Memory.wf y.1.mem = true := by simp [y, w]
    clear_value y
    split <;> simp [canonical, waits, read]
  · exact w

@[simp] theorem checkTag_wf {s : State} (u : Nat) (p : Piece) (tag : Nat) (fill : Bool) (w : Memory.wf s.mem = true) :
    Memory.wf (s.checkTag u p tag fill).mem = true := by simp [State.checkTag, w]

@[simp] theorem fetchTag_wf {s : State} (u : Nat) (p : Piece) (fill : Bool) (w : Memory.wf s.mem = true) :
    Memory.wf (s.fetchTag u p fill).mem = true := by
  dsimp only [State.fetchTag]
  repeat' split
  all_goals simp [w]

@[simp] theorem readPiece_wf {s : State} (u : Nat) (p : Piece) (f : Fetch) (fill : Bool) (w : Memory.wf s.mem = true) :
    Memory.wf (s.readPiece u p f fill).mem = true := by
  unfold State.readPiece
  split <;> simp [w]

@[simp] theorem gather_wf {s : State} (u : Nat) (ps : List Piece) (w : Memory.wf s.mem = true) : Memory.wf (s.gather u ps).mem = true := by
  induction ps generalizing s with
  | nil => exact w
  | cons p ps ih =>
    dsimp only [State.gather]
    split
    · exact w
    · split <;> simp [w, ih]

@[simp] theorem finishStep_wf {s : State} (u : Nat) (r : PumpRun) (w : Memory.wf s.mem = true) : Memory.wf (s.finishStep u r).mem = true := by
  simp [State.finishStep, w]

@[simp] theorem resumeBlock_wf {s : State} (u : Nat) (r : PumpRun) (w : Memory.wf s.mem = true) : Memory.wf (s.resumeBlock u r).mem = true := by
  simp [State.resumeBlock, w]

@[simp] theorem pumpStep_wf {s : State} (u : Nat) (w : Memory.wf s.mem = true) : Memory.wf (s.pumpStep u).mem = true := by
  dsimp only [State.pumpStep]
  repeat' split
  all_goals simp [w]

@[simp] theorem pumpSignal_wf {s : State} (u : Nat) (w : Memory.wf s.mem = true) : Memory.wf (s.pumpSignal u).mem = true := by
  dsimp only [State.pumpSignal]
  repeat' split
  all_goals simp [w]

@[simp] theorem endDescriptor_mem (s : State) (u : Nat) : (s.endDescriptor u).mem = s.mem := by
  unfold State.endDescriptor
  split <;> simp

@[simp] theorem readImage_wf {s : State} (u : Nat) (w : Memory.wf s.mem = true) : Memory.wf (s.readImage u).mem = true := by
  dsimp only [State.readImage]
  repeat' split
  all_goals simp [w]

/-! ### Machine/Far -/

@[simp] theorem noteFar_mem (s : State) (o : FarOwner) (g : Nat) (k : AccessKind) : (s.noteFar o g k).mem = s.mem := rfl

@[simp] theorem answerFar_mem (s : State) (key code : Nat) (bs : List Byte) (stamp : Nat) : (s.answerFar key code bs stamp).mem = s.mem := rfl

@[simp] theorem farSend_mem (s : State) (o : FarOwner) (unit part g : Nat) (k : AccessKind) (t : Txn) :
    (s.farSend o unit part g k t).1.mem = s.mem := by
  dsimp only [State.farSend]
  repeat' split
  all_goals simp

@[simp] theorem farAccess_wf {s : State} (o : FarOwner) (unit part g : Nat) (k : AccessKind) (bulk : Bool) (t : Txn) (w : Memory.wf s.mem = true) :
    Memory.wf (s.farAccess o unit part g k bulk t).1.mem = true := by
  dsimp only [State.farAccess]
  repeat' split
  all_goals simp [w]

@[simp] theorem readFarPieces_wf {s : State} (o : FarOwner) (unit part : Nat) (ps : List (Nat × Nat)) (got : List Byte)
    (w : Memory.wf s.mem = true) : Memory.wf (s.readFarPieces o unit part ps got).1.mem = true := by
  induction ps generalizing s got with
  | nil => exact w
  | cons p ps ih =>
    dsimp only [State.readFarPieces]
    split <;> simp [w, ih]

@[simp] theorem readFar_wf {s : State} (o : FarOwner) (unit part g n : Nat) (w : Memory.wf s.mem = true) :
    Memory.wf (s.readFar o unit part g n).1.mem = true := by simp [State.readFar, w]

@[simp] theorem readOnce_wf {s : State} (o : FarOwner) (unit part g n : Nat) (w : Memory.wf s.mem = true) :
    Memory.wf (s.readOnce o unit part g n).1.mem = true := by
  dsimp only [State.readOnce]
  repeat' split
  all_goals simp [w]

@[simp] theorem farWrite_wf {s : State} (o : FarOwner) (unit part g : Nat) (bs : List Byte) (w : Memory.wf s.mem = true) :
    Memory.wf (s.farWrite o unit part g bs).1.mem = true := by
  dsimp only [State.farWrite]
  repeat' split
  all_goals simp [w]

@[simp] theorem forgetLaunch_mem (s : State) (id : Nat) : (s.forgetLaunch id).mem = s.mem := rfl

@[simp] theorem launchAnswered_mem (s : State) (id : Nat) : (s.launchAnswered id).mem = s.mem := rfl

@[simp] theorem deliverOk_mem (s : State) (w : Waiter) (bs : List Byte) : (s.deliverOk w bs).mem = s.mem := by
  unfold State.deliverOk
  split <;> simp

@[simp] theorem pumpError_mem (s : State) (u code stamp : Nat) : (s.pumpError u code stamp).mem = s.mem := by
  unfold State.pumpError
  split <;> simp

@[simp] theorem letGo_mem (s : State) (r : Reply) (stamp : Nat) : (s.letGo r stamp).mem = s.mem := by
  unfold State.letGo
  split <;> simp

@[simp] theorem pumpRefused_mem (s : State) (w : Waiter) (u unit part addr code : Nat) : (s.pumpRefused w u unit part addr code).mem = s.mem := by
  simp [State.pumpRefused]

@[simp] theorem deliverErr_mem (s : State) (w : Waiter) (unit part addr code : Nat) : (s.deliverErr w unit part addr code).mem = s.mem := by
  unfold State.deliverErr
  split <;> simp

/-! ### Machine/Fused -/

@[simp] theorem cmdFault_mem (s : State) (u code addr : Nat) (logged : Option Nat) : (s.cmdFault u code addr logged).mem = s.mem := by
  unfold State.cmdFault
  split <;> simp

@[simp] theorem cmdRead_wf {s : State} (o : FarOwner) (l : Launch) (u g n : Nat) {f : State → List Byte → State} (w : Memory.wf s.mem = true)
    (next : ∀ t bs, Memory.wf t.mem = true → Memory.wf (f t bs).mem = true) : Memory.wf (s.cmdRead o l u g n f).mem = true := by
  dsimp only [State.cmdRead]
  split <;> simp [w, next]

@[simp] theorem cmdReads_wf {s : State} (o : FarOwner) (l : Launch) (u : Nat) {f : State → List (List Byte) → State} (ps : List (Nat × Nat))
    (got : List (List Byte)) (w : Memory.wf s.mem = true) (next : ∀ t bs, Memory.wf t.mem = true → Memory.wf (f t bs).mem = true) :
    Memory.wf (s.cmdReads o l u f ps got).mem = true := by
  induction ps generalizing s got with
  | nil => exact next s got w
  | cons p ps ih =>
    dsimp only [State.cmdReads]
    split <;> simp [w, ih]

@[simp] theorem cmdSent_mem (s : State) (id : Nat) : (s.cmdSent id).mem = s.mem := rfl

@[simp] theorem cmdSend_mem (s : State) (l : Launch) (u g : Nat) (t : Txn) : (s.cmdSend l u g t).mem = s.mem := by simp [State.cmdSend]

@[simp] theorem cmdWrite_wf {s : State} (l : Launch) (u g : Nat) (bs : List Byte) (w : Memory.wf s.mem = true) :
    Memory.wf (s.cmdWrite l u g bs).mem = true := by
  dsimp only [State.cmdWrite]
  repeat' split
  all_goals simp [w]

@[simp] theorem cmdWrites_wf {s : State} (l : Launch) (u : Nat) (ws : List (Nat × List Byte)) (w : Memory.wf s.mem = true) :
    Memory.wf (s.cmdWrites l u ws).mem = true := by
  unfold State.cmdWrites
  split
  · simp [w]
  · exact forAll_wf (fun t x w => by simp [w]) ws w

@[simp] theorem cmdAdd_wf {s : State} (l : Launch) (u g v : Nat) (w : Memory.wf s.mem = true) : Memory.wf (s.cmdAdd l u g v).mem = true := by
  dsimp only [State.cmdAdd]
  repeat' split
  all_goals simp [w]

@[simp] theorem tailAdd_wf {s : State} (l : Launch) (u g v : Nat) (w : Memory.wf s.mem = true) : Memory.wf (s.tailAdd l u g v).mem = true := by
  dsimp only [State.tailAdd]
  repeat' split
  all_goals simp [w]

@[simp] theorem cmdAdds_wf {s : State} (l : Launch) (u : Nat) (as : List (Nat × Nat)) (w : Memory.wf s.mem = true) :
    Memory.wf (s.cmdAdds l u as).mem = true :=
  forAll_wf (fun t x w => by simp [w]) as w

@[simp] theorem cmdSat_mem (s : State) (u : Nat) (sat : Bool) : (s.cmdSat u sat).mem = s.mem := by simp [State.cmdSat]

@[simp] theorem readBlocks_mem (s : State) (u part : Nat) (rs : List Region) (old : Table Byte) (n a : Nat) (got : List Byte) :
    (s.readBlocks u part rs old n a got).1.mem = s.mem := (onlyCounts_readBlocks s u part rs old n a got).mem

/-! ### Machine/Attention -/

@[simp] theorem readIf_wf {s : State} (l : Launch) (u : Nat) (b : Bool) (g n : Nat) (w : Memory.wf s.mem = true) :
    Memory.wf (s.readIf l u b g n).1.mem = true := by simp [State.readIf, w]

@[simp] theorem attnStart_wf {s : State} (l : Launch) (u : Nat) (w : Memory.wf s.mem = true) :
   Memory.wf (s.attnStart l u).1.mem = true := by
  change canonical _
  unfold State.attnStart
  extract_lets r0
  have w0 : Memory.wf r0.1.mem = true := readOnce_wf _ _ _ _ _ w
  clear_value r0
  split
  · exact w0
  · exact w0
  · extract_lets v d r1 r2 r3
    have w3 : Memory.wf r3.1.mem = true := readIf_wf _ _ _ _ _ (readIf_wf _ _ _ _ _ (readIf_wf _ _ _ _ _ w0))
    clear_value r3
    split <;> exact w3

@[simp] theorem modItem_mem (s : State) (id : Nat) (w : WorkItem) (f : ItemState → ItemState) : (s.modItem id w f).mem = s.mem := rfl

@[simp] theorem itemDone_mem (s : State) (l : Launch) (w : WorkItem) (f : ItemState → ItemState) : (s.itemDone l w f).mem = s.mem := rfl

@[simp] theorem attnItem_wf {s : State} (u : Nat) (x : WorkItem) {f : Launch → Attn → ItemState → State} (w : Memory.wf s.mem = true)
    (next : ∀ l a i, Memory.wf (f l a i).mem = true) : Memory.wf (s.attnItem u x f).mem = true := by
  unfold State.attnItem
  split
  · exact w
  · split <;> simp [w, next]

@[simp] theorem readPage_wf {s : State} (l : Launch) (a : Attn) (u : Nat) (x : WorkItem) (g n : Nat) {f : State → List Byte → State}
    (w : Memory.wf s.mem = true) (next : ∀ t bs, Memory.wf t.mem = true → Memory.wf (f t bs).mem = true) :
    Memory.wf (s.readPage l a u x g n f).mem = true := by
  dsimp only [State.readPage]
  split
  · exact cmdRead_wf _ _ _ _ _ w next
  split
  · simp [w]
  split
  · simp [w]
  split
  · exact cmdRead_wf _ _ _ _ _ w next
  split
  · simp [w]
  · exact next _ _ (by simp [w])

@[simp] theorem walkPage_wf {s : State} (l : Launch) (a : Attn) (u : Nat) (x : WorkItem) (page : Nat) (w : Memory.wf s.mem = true) :
    Memory.wf (s.walkPage l a u x page).mem = true :=
  readPage_wf _ _ _ _ _ _ w fun t bs w => by simp [w]

@[simp] theorem walkEntry_wf {s : State} (l : Launch) (a : Attn) (u : Nat) (w : WorkItem) (b : Nat) (wf : Memory.wf s.mem = true) :
    Memory.wf (s.walkEntry l a u w b).mem = true := by
  dsimp only [State.walkEntry]
  repeat' split
  all_goals simp [wf]

@[simp] theorem walkBlock_wf {s : State} (u : Nat) (x : WorkItem) (w : Memory.wf s.mem = true) : Memory.wf (s.walkBlock u x).mem = true := by
  refine attnItem_wf _ _ w fun l a i => ?_
  dsimp only
  split
  · exact w
  · split
    · exact cmdReads_wf _ _ _ _ _ w fun t got w => by simp [w]
    · simp [w]

@[simp] theorem storeScores_wf {s : State} (l : Launch) (a : Attn) (u : Nat) (x : WorkItem) (next : Nat) (ss : List (List (Option Int)))
    (w : Memory.wf s.mem = true) : Memory.wf (s.storeScores l a u x next ss).mem = true := by
  unfold State.storeScores
  split
  · exact w
  · exact forAll_wf (fun t y w => by simp [w]) ss.zipIdx w

@[simp] theorem foldItem_wf {s : State} (u : Nat) (x : WorkItem) (w : Memory.wf s.mem = true) : Memory.wf (s.foldItem u x).mem = true := by
  refine attnItem_wf _ _ w fun l a i => ?_
  dsimp only
  split
  · exact w
  split
  · exact w
  split
  · simp [w]
  · exact readPage_wf _ _ _ _ _ _ w fun t page w => by simp [w]

@[simp] theorem setMerged_mem (s : State) (l : Launch) (a : Attn) (u : Nat) (x : WorkItem) (rows : List (RowState × Bool)) :
    (s.setMerged l a u x rows).mem = s.mem := by
  have parts := forAll_mem (f := fun t p => t.modItem l.id (partItem x (p + 1)) (fun i => { i with done := true })) (fun _ _ => rfl)
    (upto (a.desc.parts - 1)) ((s.cmdSat u (rows.any Prod.snd)).itemDone l x (fun i => { i with rows := rows.map Prod.fst, merged := true }))
  exact parts.trans (by simp)

@[simp] theorem mergeItem_wf {s : State} (u : Nat) (x : WorkItem) (w : Memory.wf s.mem = true) : Memory.wf (s.mergeItem u x).mem = true := by
  refine attnItem_wf _ _ w fun l a i => ?_
  dsimp only
  split
  · exact w
  split
  · exact cmdReads_wf _ _ _ _ _ w fun t got w => by simp [w]
  · simp [w]

@[simp] theorem finishItem_wf {s : State} (u : Nat) (x : WorkItem) (w : Memory.wf s.mem = true) : Memory.wf (s.finishItem u x).mem = true := by
  refine attnItem_wf _ _ w fun l a i => ?_
  dsimp only
  split
  · exact w
  · have rows := forAll_wf (f := fun (t : State) y =>
      if (t.sq u).run = .running then
        (t.cmdSat u (a.rowOut (a.recs.getD x.record {}) i y.2 (rowIndex a.desc y.1)).2).cmdWrites l u
          (a.rowOut (a.recs.getD x.record {}) i y.2 (rowIndex a.desc y.1)).1
      else t) (fun t y w => by simp [w]) (tileRows a.desc (a.recs.getD x.record {}) x.head x.tile).zipIdx w
    split <;> exact rows

@[simp] theorem backScores_wf {s : State} (l : Launch) (a : Attn) (u : Nat) (x : WorkItem) (i : ItemState) (toks : List Token)
    (vis : List (List Bool)) {f : State → List (List (Option Int)) → Bool → State} (w : Memory.wf s.mem = true)
    (next : ∀ t ss sat, Memory.wf t.mem = true → Memory.wf (f t ss sat).mem = true) :
    Memory.wf (s.backScores l a u x i toks vis f).mem = true := by
  dsimp only [State.backScores]
  split
  · exact next _ _ _ w
  split
  · exact cmdReads_wf _ _ _ _ _ w fun t got w => next _ _ _ w
  · exact next _ _ _ w

@[simp] theorem gradBase_wf {s : State} (l : Launch) (a : Attn) (u : Nat) (x : WorkItem) (i : ItemState) {f : State → Nat → Nat → Nat → State}
    (w : Memory.wf s.mem = true) (next : ∀ t dk dv j, Memory.wf t.mem = true → Memory.wf (f t dk dv j).mem = true) :
    Memory.wf (s.gradBase l a u x i f).mem = true := by
  dsimp only [State.gradBase]
  split
  · exact cmdRead_wf _ _ _ _ _ w fun t bs w => next _ _ _ _ w
  · exact next _ _ _ _ w

@[simp] theorem addGrads_wf {s : State} (l : Launch) (a : Attn) (u : Nat) (x : WorkItem) (i : ItemState) (toks : List Token)
    (ss : List (List (Option Int))) (sat : Bool) (w : Memory.wf s.mem = true) : Memory.wf (s.addGrads l a u x i toks ss sat).mem = true :=
  gradBase_wf _ _ _ _ _ w fun t dk dv j w => by simp [w]

@[simp] theorem backItem_wf {s : State} (u : Nat) (x : WorkItem) (w : Memory.wf s.mem = true) : Memory.wf (s.backItem u x).mem = true := by
  refine attnItem_wf _ _ w fun l a i => ?_
  dsimp only
  split
  · exact w
  split
  · exact w
  split
  · simp [w]
  split
  · exact w
  · exact readPage_wf _ _ _ _ _ _ w fun t page w => backScores_wf _ _ _ _ _ _ _ w fun t ss sat w => addGrads_wf _ _ _ _ _ _ _ _ w

@[simp] theorem ringOf_wf {s : State} (id : Nat) {f : Launch → Attn → Nat → State} (w : Memory.wf s.mem = true)
    (next : ∀ l a lead, Memory.wf (f l a lead).mem = true) : Memory.wf (s.ringOf id f).mem = true := by
  unfold State.ringOf
  split
  · exact w
  · split <;> simp [w, next]

@[simp] theorem modRing_mem (s : State) (id : Nat) (f : RingState → RingState) : (s.modRing id f).mem = s.mem := rfl

@[simp] theorem ringAbort_mem (s : State) (id u c poison : Nat) : (s.ringAbort id u c poison).mem = s.mem := by simp [State.ringAbort]

@[simp] theorem takeSlab_mem (s : State) (id ticket : Nat) : (s.takeSlab id ticket).mem = s.mem := rfl

@[simp] theorem ringForward_mem (s : State) (id : Nat) (a : Attn) (u t : Nat) : (s.ringForward id a u t).mem = s.mem := by simp [State.ringForward]

@[simp] theorem ringStep_wf {s : State} (id : Nat) (w : Memory.wf s.mem = true) : Memory.wf (s.ringStep id).mem = true := by
  simp [State.ringStep, w]

@[simp] theorem ringCredit_wf {s : State} (id : Nat) (w : Memory.wf s.mem = true) : Memory.wf (s.ringCredit id).mem = true := by
  simp [State.ringCredit, w]

@[simp] theorem ringPoison_wf {s : State} (id : Nat) (w : Memory.wf s.mem = true) : Memory.wf (s.ringPoison id).mem = true := by
  dsimp only [State.ringPoison]
  repeat' split
  all_goals simp [w]

/-! ### Machine/BootUnit -/

@[simp] theorem mailboxRun_wf {s : State} (p op : Nat) (denied : Bool) {f : Nat → Nat → State × Nat} (w : Memory.wf s.mem = true)
    (runs : ∀ a b, Memory.wf (f a b).1.mem = true) : Memory.wf (s.mailboxRun p op denied f).mem = true := by
  simp [State.mailboxRun, w, runs]

@[simp] theorem mailboxDone_mem (s : State) : s.mailboxDone.mem = s.mem := by
  unfold State.mailboxDone
  split <;> simp

/-! ### Machine/FountainUnit -/

@[simp] theorem fnIssue_wf {s : State} (u op : Nat) (form : Nat → Bool) (usesState draw : Bool) {f : Nat → State} (w : Memory.wf s.mem = true)
    (next : ∀ x, Memory.wf (f x).mem = true) : Memory.wf (s.fnIssue u op form usesState draw f).mem = true := by
  refine issue_wf _ _ _ w fun x => ?_
  change canonical _
  extract_lets q positioned 
  have here : canonical (s.faultHere u eIllegal) := by simp [canonical, w]
  refine canonical.ite here (canonical.ite w (canonical.ite here (canonical.ite w ?_)))
  split <;> simp [canonical, w, next]

@[simp] theorem fnLanes_wf {s : State} (u op : Nat) (form : Nat → Bool) (f : Nat → Nat → Word) (w : Memory.wf s.mem = true) :
    Memory.wf (s.fnLanes u op form f).mem = true := by simp [State.fnLanes, w]

@[simp] theorem reloadParams_wf {s : State} (w : Memory.wf s.mem = true) : Memory.wf s.reloadParams.1.mem = true := by
  dsimp only [State.reloadParams]
  repeat' split
  all_goals simp [w]

@[simp] theorem endFountainJob_wf {s : State} (w : Memory.wf s.mem = true) : Memory.wf s.endFountainJob.mem = true := by
  dsimp only [State.endFountainJob]
  split <;> simp [w]

/-! ### Machine/HallUnit -/

@[simp] theorem modCtx_mem (s : State) (q : Nat) (f : Ctx → Ctx) : (s.modCtx q f).mem = s.mem := rfl

@[simp] theorem hallFault_mem (s : State) (q code addr : Nat) (insn : Option Nat) (logged : Bool) :
    (s.hallFault q code addr insn logged).mem = s.mem := by simp [State.hallFault]

@[simp] theorem withTurn_mem (s : State) : s.withTurn.mem = s.mem := rfl

@[simp] theorem settleHall_mem (s : State) : s.settleHall.mem = s.mem := rfl

@[simp] theorem endTurn_mem (s : State) : s.endTurn.mem = s.mem := by
  unfold State.endTurn
  split <;> simp

@[simp] theorem turnStep_mem (s : State) (q : Nat) (launched : Bool) : (s.turnStep q launched).mem = s.mem := by simp [State.turnStep]

@[simp] theorem blockOn_mem (s : State) (q : Nat) (b : Block) : (s.blockOn q b).mem = s.mem := by simp [State.blockOn]

@[simp] theorem pinTarget_mem (s : State) (q g : Nat) : (s.pinTarget q g).mem = s.mem := by
  unfold State.pinTarget
  split <;> simp

@[simp] theorem releasePins_mem (s : State) (ns : List Nat) : (s.releasePins ns).mem = s.mem := by simp [State.releasePins]

@[simp] theorem fetchEntry_wf {s : State} (q : Nat) (w : Memory.wf s.mem = true) : Memory.wf (s.fetchEntry q).mem = true := by
  dsimp only [State.fetchEntry]
  repeat' split
  all_goals simp [w]

@[simp] theorem hallStop_mem (s : State) (q code addr : Nat) (c : Ctx) (logged : Bool) (ns : optParam Nat 10) :
    (s.hallStop q code addr c logged ns).mem = s.mem := by simp [State.hallStop]

@[simp] theorem hallIssue_wf {s : State} (q op : Nat) {f : Nat → Ctx → State → State} (w : Memory.wf s.mem = true)
    (next : ∀ x c t, Memory.wf t.mem = true → Memory.wf (f x c t).mem = true) : Memory.wf (s.hallIssue q op f).mem = true := by
  dsimp only [State.hallIssue]
  split
  · exact w
  · split
    · exact w
    · split <;> simp [w, next]

@[simp] theorem hallOp_wf {s : State} (q op : Nat) (fields : List (Nat × Nat)) {f : Nat → Ctx → State → State} (w : Memory.wf s.mem = true)
    (next : ∀ x c t, Memory.wf t.mem = true → Memory.wf (f x c t).mem = true) : Memory.wf (s.hallOp q op fields f).mem = true :=
  hallIssue_wf _ _ w fun x c t w => by simp [w, next]

@[simp] theorem hallNext_mem (s : State) (q ns : Nat) (f : Ctx → Ctx) (launched : optParam Bool false) : (s.hallNext q ns f launched).mem = s.mem :=
  by simp [State.hallNext]

@[simp] theorem hallAccess_wf {s : State} (q : Nat) (c : Ctx) (a n : Nat) (k : AccessKind) (bulk : Bool) (txn : Txn) {f : List Byte → State → State}
    (ns : Nat) (w : Memory.wf s.mem = true) (next : ∀ bs t, Memory.wf t.mem = true → Memory.wf (f bs t).mem = true) :
    Memory.wf (s.hallAccess q c a n k bulk txn f ns).mem = true := by
  dsimp only [State.hallAccess]
  split
  · simp [w]
  split
  · simp [w]
  · split <;> simp [w, next]

@[simp] theorem issueLaunch_wf {s : State} (q op : Nat) (kind : LaunchKind) (w : Memory.wf s.mem = true) :
    Memory.wf (s.issueLaunch q op kind).mem = true :=
  hallIssue_wf _ _ w fun x c t w => by
    change canonical _
    extract_lets l bad off add
    have adds : ∀ u m, canonical u → canonical (add u m) := fun u m h => h.of_mem (hallNext_mem _ _ _ _ _)
    clear_value add
    split
    · exact adds _ _ w
    · exact adds _ _ (canonical.of_mem w (State.logErr_mem _ _ _ _ _ _ _))

@[simp] theorem hallWait_mem (s : State) (q : Nat) (hall : Bool) (ctr addr w : Nat) (c : Ctx) : (s.hallWait q hall ctr addr w c).mem = s.mem := by
  simp [State.hallWait]

@[simp] theorem commandEnd_mem (s : State) (q : Nat) (c : Ctx) : (s.commandEnd q c).1.mem = s.mem := by
  dsimp only [State.commandEnd]
  repeat' split
  all_goals simp

@[simp] theorem writeStatus_wf {s : State} (q addr word insn stamp : Nat) (w : Memory.wf s.mem = true) :
    Memory.wf (s.writeStatus q addr word insn stamp).1.mem = true := by simp [State.writeStatus, w]

@[simp] theorem traceEntry_mem (s : State) (p q seq word : Nat) : (s.traceEntry p q seq word).mem = s.mem := by simp [State.traceEntry]

@[simp] theorem dropLaunches_mem (s : State) (ids : List Nat) : (s.dropLaunches ids).mem = s.mem := rfl

@[simp] theorem entryDone_mem (s : State) (q : Nat) (c : Ctx) : (s.entryDone q c).mem = s.mem := by simp [State.entryDone]

@[simp] theorem writeCompletion_wf {s : State} (q : Nat) (c : Ctx) (w : Memory.wf s.mem = true) : Memory.wf (s.writeCompletion q c).mem = true := by
  simp [State.writeCompletion, w]

@[simp] theorem completeEntry_wf {s : State} (q : Nat) (c : Ctx) (w : Memory.wf s.mem = true) : Memory.wf (s.completeEntry q c).mem = true := by
  dsimp only [State.completeEntry]
  repeat' split
  all_goals simp [w]

@[simp] theorem endEntry_wf {s : State} (q : Nat) (w : Memory.wf s.mem = true) : Memory.wf (s.endEntry q).mem = true := by
  dsimp only [State.endEntry]
  repeat' split
  all_goals simp [w]

@[simp] theorem destroyArea_wf {s : State} (q word : Nat) (w : Memory.wf s.mem = true) : Memory.wf (s.destroyArea q word).1.mem = true := by
  unfold State.destroyArea
  split <;> simp [w]

@[simp] theorem takeArea_mem (s : State) (q addr : Nat) : (s.takeArea q addr).mem = s.mem := rfl

@[simp] theorem abortRunning_wf {s : State} (q : Nat) (w : Memory.wf s.mem = true) : Memory.wf (s.abortRunning q).1.mem = true := by
  unfold State.abortRunning
  split <;> simp [w]

@[simp] theorem abortUnfetched_wf {s : State} (q c : Nat) (w : Memory.wf s.mem = true) : Memory.wf (s.abortUnfetched q c).1.mem = true := by
  dsimp only [State.abortUnfetched]
  repeat' split
  all_goals simp [w]

@[simp] theorem destroyWrite_wf {s : State} (q i : Nat) (w : Memory.wf s.mem = true) : Memory.wf (s.destroyWrite q i).1.mem = true := by
  fun_cases State.destroyWrite s q i <;> simp [*]

@[simp] theorem destroyWrites_wf {s : State} (q n : Nat) (w : Memory.wf s.mem = true) : Memory.wf (s.destroyWrites q n).1.mem = true := by
  induction n generalizing s with
  | zero => exact w
  | succ n ih => simp [State.destroyWrites, w, ih]

@[simp] theorem closeQueue_mem (s : State) (q : Nat) : (s.closeQueue q).mem = s.mem := by simp [State.closeQueue]

@[simp] theorem finishDestroy_wf {s : State} (q : Nat) (w : Memory.wf s.mem = true) : Memory.wf (s.finishDestroy q).mem = true := by
  simp [State.finishDestroy, w]

@[simp] theorem endDestroy_wf {s : State} (q : Nat) (w : Memory.wf s.mem = true) : Memory.wf (s.endDestroy q).mem = true := by
  simp [State.endDestroy, w]

/-! ### Machine/Links -/

@[simp] theorem takeHeader_mem (s : State) (n : Nat) (f : Flit) (ack : Bool) : (s.takeHeader n f ack).mem = s.mem := by simp [State.takeHeader]

@[simp] theorem sendIdle_mem (s : State) (n ch k : Nat) : (s.sendIdle n ch k).mem = s.mem := rfl

@[simp] theorem freeFlits_mem (s : State) (n ch k : Nat) : (s.freeFlits n ch k).mem = s.mem := by simp [State.freeFlits]

@[simp] theorem discardFlit_mem (s : State) (n : Nat) : (s.discardFlit n).mem = s.mem := by simp [State.discardFlit]

@[simp] theorem acceptFlit_mem (s : State) (n : Nat) (f : Flit) : (s.acceptFlit n f).1.mem = s.mem := by simp [State.acceptFlit]

@[simp] theorem replayPort_mem (s : State) (n : Nat) : (s.replayPort n).mem = s.mem := by simp [State.replayPort]

@[simp] theorem takeBody_mem (s : State) (n : Nat) (f : Flit) : (s.takeBody n f).mem = s.mem := by
  dsimp only [State.takeBody]
  split <;> simp

@[simp] theorem dataFlit_mem (s : State) (n : Nat) (f : Flit) : (s.dataFlit n f).mem = s.mem := by simp [State.dataFlit]

@[simp] theorem takeHello_mem (s : State) (n : Nat) (h : HelloMsg) : (s.takeHello n h).mem = s.mem := by simp [State.takeHello]

@[simp] theorem refuseTxn_mem (s : State) (n : Nat) (q : Txn) (code : Nat) : (s.refuseTxn n q code).mem = s.mem := rfl

@[simp] theorem readSlots_wf {s : State} (n : Nat) (q : Txn) (es : List (Nat × Nat)) (got : List Byte) (w : Memory.wf s.mem = true) :
    Memory.wf (s.readSlots n q es got).1.mem = true := by
  induction es generalizing s got with
  | nil => exact w
  | cons e es ih =>
    dsimp only [State.readSlots]
    split <;> simp [w, ih]

@[simp] theorem writeSlots_wf {s : State} (n : Nat) (q : Txn) (es : List (Nat × Nat)) (bs : List Byte) (w : Memory.wf s.mem = true) :
    Memory.wf (s.writeSlots n q es bs).mem = true := by
  induction es generalizing s bs with
  | nil => exact w
  | cons e es ih => exact ih _ (localAccess_wf _ _ _ _ _ w)

@[simp] theorem serveBlock_wf {s : State} (n : Nat) (q : Txn) (w : Memory.wf s.mem = true) : Memory.wf (s.serveBlock n q).mem = true := by
  dsimp only [State.serveBlock]
  repeat' split
  all_goals simp [w]

@[simp] theorem serveTxn_wf {s : State} (n : Nat) (q : Txn) (w : Memory.wf s.mem = true) : Memory.wf (s.serveTxn n q).mem = true := by
  dsimp only [State.serveTxn]
  repeat' split
  all_goals simp [w]

@[simp] theorem serveOrHold_wf {s : State} (n : Nat) (q : Txn) (w : Memory.wf s.mem = true) : Memory.wf (s.serveOrHold n q).mem = true := by
  simp [State.serveOrHold, w]

@[simp] theorem issueWaiting_mem (s : State) (n : Nat) : (s.issueWaiting n).mem = s.mem := by
  induction n generalizing s with
  | zero => rfl
  | succ n ih =>
    dsimp only [State.issueWaiting]
    split <;> simp [ih]

@[simp] theorem endRequest_mem (s : State) (tid : Nat) : (s.endRequest tid).mem = s.mem := by simp [State.endRequest]

@[simp] theorem takeResponse_mem (s : State) (n : Nat) (t : Txn) : (s.takeResponse n t).mem = s.mem := by
  dsimp only [State.takeResponse]
  repeat' split
  all_goals simp

@[simp] theorem takeTreq_mem (s : State) (n : Nat) (t : Txn) : (s.takeTreq n t).mem = s.mem := by simp [State.takeTreq]

@[simp] theorem takeTresp_mem (s : State) (n : Nat) (t : Txn) : (s.takeTresp n t).mem = s.mem := by simp [State.takeTresp]

@[simp] theorem answerEpoch_mem (s : State) : s.answerEpoch.mem = s.mem := by simp [State.answerEpoch]

@[simp] theorem takeEprep_mem (s : State) (n : Nat) (t : Txn) : (s.takeEprep n t).mem = s.mem := by simp [State.takeEprep]

@[simp] theorem takeEack_mem (s : State) (n : Nat) (t : Txn) : (s.takeEack n t).mem = s.mem := by simp [State.takeEack]

@[simp] theorem flipEpoch_mem (s : State) (late : Bool) : (s.flipEpoch late).mem = s.mem := by simp [State.flipEpoch]

@[simp] theorem takeEcommit_mem (s : State) (n : Nat) (t : Txn) : (s.takeEcommit n t).mem = s.mem := by simp [State.takeEcommit]

@[simp] theorem abandonEpoch_mem (s : State) : s.abandonEpoch.mem = s.mem := rfl

@[simp] theorem takeEabandon_mem (s : State) (n : Nat) (t : Txn) : (s.takeEabandon n t).mem = s.mem := by simp [State.takeEabandon]

@[simp] theorem takeStopreq_mem (s : State) (n : Nat) (t : Txn) : (s.takeStopreq n t).mem = s.mem := by simp [State.takeStopreq]

@[simp] theorem takeControl_mem (s : State) (n : Nat) (t : Txn) : (s.takeControl n t).mem = s.mem := by
  unfold State.takeControl
  split <;> simp

@[simp] theorem dropTxn_mem (s : State) (n : Nat) (t : Txn) (code addr : Nat) : (s.dropTxn n t code addr).mem = s.mem := by simp [State.dropTxn]

@[simp] theorem handOn_wf {s : State} (n : Nat) (t : Txn) (cr : Crypt) (plain : List Byte) (w : Memory.wf s.mem = true) :
    Memory.wf (s.handOn n t cr plain).mem = true := by simp [State.handOn, w]

@[simp] theorem handHeld_wf {s : State} (k n : Nat) (w : Memory.wf s.mem = true) : Memory.wf (s.handHeld k n).mem = true := by
  induction n generalizing s with
  | zero => exact w
  | succ n ih =>
    dsimp only [State.handHeld]
    split <;> simp [w, ih]

@[simp] theorem arriveOn_wf {s : State} (n ch : Nat) (mine : Txn → Bool) (cr : Crypt) (w : Memory.wf s.mem = true) :
    Memory.wf (s.arriveOn n ch mine cr).mem = true := by
  dsimp only [State.arriveOn]
  repeat' split
  all_goals simp [w]

@[simp] theorem arrive_wf {s : State} (n ch : Nat) (mine : Txn → Bool) (cr : Crypt) (w : Memory.wf s.mem = true) :
    Memory.wf (s.arrive n ch mine cr).mem = true := by simp [State.arrive, w]

@[simp] theorem forward_mem (s : State) (n ch : Nat) : (s.forward n ch).mem = s.mem := by
  dsimp only [State.forward]
  repeat' split
  all_goals simp

@[simp] theorem timeOut_mem (s : State) (tid : Nat) : (s.timeOut tid).mem = s.mem := by
  unfold State.timeOut
  split <;> simp

@[simp] theorem closeGap_wf {s : State} (k : Nat) (w : Memory.wf s.mem = true) : Memory.wf (s.closeGap k).mem = true := by
  unfold State.closeGap
  split <;> simp [w]

@[simp] theorem markFlit_wf {s : State} (n : Nat) (f : Flit) (resume : Bool) {act : State → State} (w : Memory.wf s.mem = true)
    (next : ∀ t, Memory.wf t.mem = true → Memory.wf (act t).mem = true) : Memory.wf (s.markFlit n f resume act).mem = true := by
  simp [State.markFlit, w, next]

/-! ### Machine/Prefix -/

@[simp] theorem lookStart_wf {s : State} (l : Launch) (u : Nat) (w : Memory.wf s.mem = true) : Memory.wf (s.lookStart l u).1.mem = true := by
  dsimp only [State.lookStart]
  repeat' split
  all_goals simp [w]

@[simp] theorem lookItem_wf {s : State} (u req : Nat) {f : Launch → Lookup → LookReq → State} (w : Memory.wf s.mem = true)
    (next : ∀ l k r, Memory.wf (f l k r).mem = true) : Memory.wf (s.lookItem u req f).mem = true := by
  unfold State.lookItem
  split
  · exact w
  split
  · exact w
  · split <;> simp [w, next]

@[simp] theorem scanWindow_mem (s : State) (u part : Nat) (h prev : Reg64) (b n i : Nat) : (s.scanWindow u part h prev b n i).1.mem = s.mem := by
  induction n generalizing s i with
  | zero => rfl
  | succ n ih =>
    dsimp only [State.scanWindow]
    split
    · simp
    · split <;> simp [ih]

@[simp] theorem probe_mem (s : State) (u part : Nat) (r : LookReq) (b : Nat) : (s.probe u part r b).1.mem = s.mem := by simp [State.probe]

@[simp] theorem lookRequest_wf {s : State} (u req : Nat) (w : Memory.wf s.mem = true) : Memory.wf (s.lookRequest u req).mem = true :=
  lookItem_wf _ _ w fun l k r => by
    change canonical _
    dsimp only
    refine canonical.ite w (canonical.ite ?_ (canonical.ite w ?_))
    · exact cmdRead_wf _ _ _ _ _ w fun t bs w => by simp [w]
    · split <;> simp [canonical, w]

@[simp] theorem stopReq_mem (s : State) (id req code : Nat) : (s.stopReq id req code).mem = s.mem := rfl

@[simp] theorem undoPin_wf {s : State} (l : Launch) (u brec : Nat) (w : Memory.wf s.mem = true) : Memory.wf (s.undoPin l u brec).mem = true := by
  simp [State.undoPin, w]

@[simp] theorem dropPin_wf {s : State} (l : Launch) (u brec : Nat) (w : Memory.wf s.mem = true) : Memory.wf (s.dropPin l u brec).mem = true := by
  simp [State.dropPin, w]

@[simp] theorem failPin_wf {s : State} (l : Launch) (u req brec code addr : Nat) (logged : Option Nat) (w : Memory.wf s.mem = true) :
    Memory.wf (s.failPin l u req brec code addr logged).mem = true := by simp [State.failPin, w]

@[simp] theorem verifyPin_wf {s : State} (l : Launch) (k : Lookup) (r : LookReq) (u req b node brec : Nat) (w : Memory.wf s.mem = true) :
    Memory.wf (s.verifyPin l k r u req b node brec).mem = true := by
  dsimp only [State.verifyPin]
  repeat' split
  all_goals simp [w]

@[simp] theorem pinBlock_wf {s : State} (u req : Nat) (w : Memory.wf s.mem = true) : Memory.wf (s.pinBlock u req).mem = true :=
  lookItem_wf _ _ w fun l k r => by
    change canonical _
    split
    · exact w
    split
    · exact w
    refine canonical.ite w (canonical.ite w ?_)
    extract_lets x
    have read : Memory.wf x.1.mem = true := farAccess_wf _ _ _ _ _ _ _ w
    clear_value x
    split
    · exact read
    · simp [canonical, read]
    extract_lets old st k' y
    have swapped : Memory.wf y.1.mem = true := farAccess_wf _ _ _ _ _ _ _ read
    clear_value y
    refine canonical.ite read (canonical.ite read ?_)
    split <;> simp [canonical, swapped]

@[simp] theorem withdraw_wf {s : State} (l : Launch) (u : Nat) (r : Machine.LookReq) (b : Nat) (w : Memory.wf s.mem = true) :
    Memory.wf (s.withdraw l u r b).mem = true :=
  forAll_wf (fun t i w => by simp [w]) (upto r.wrote) w

@[simp] theorem writeEntries_wf {s : State} (l : Launch) (u req : Nat) (r : LookReq) (b brec node : Nat) (es : List Nat)
    (w : Memory.wf s.mem = true) :
   Memory.wf (s.writeEntries l u req r b brec node es).mem = true := by
  change canonical _
  unfold State.writeEntries
  extract_lets now t0 t1 k' x
  have written : canonical t0 := canonical.forAll w _ fun t x w => by
    split
    · exact cmdWrite_wf _ _ _ _ w
    · exact w
  have w1 : Memory.wf t1.mem = true := written.of_mem (modReq_mem _ _ _ _)
  have got : Memory.wf x.1.mem = true := farAccess_wf _ _ _ _ _ _ _ w1
  clear_value t1 x
  split
  · exact w1
  · split <;> simp [canonical, got]

@[simp] theorem commitBlock_wf {s : State} (u req : Nat) (w : Memory.wf s.mem = true) : Memory.wf (s.commitBlock u req).mem = true :=
  lookItem_wf _ _ w fun l k r => by
    change canonical _
    split
    · exact w
    refine canonical.ite w (cmdRead_wf _ _ _ _ _ w fun t bs w => ?_)
    dsimp only
    split <;> simp [w]

@[simp] theorem lookResult_wf {s : State} (u req : Nat) (w : Memory.wf s.mem = true) : Memory.wf (s.lookResult u req).mem = true := by
  simp [State.lookResult, w]

@[simp] theorem undoPins_wf {s : State} (l : Launch) (w : Memory.wf s.mem = true) : Memory.wf (s.undoPins l).mem = true := by
  have undone := forAll_wf (f := fun t g => t.dropPin l l.lead g) (fun t g w => by simp [w]) (s.openPins l) w
  simpa [State.undoPins, forAll] using undone

/-! ### Machine/Launch -/

@[simp] theorem failLaunch_mem (s : State) (id code : Nat) : (s.failLaunch id code).mem = s.mem := rfl

@[simp] theorem squareLoad_wf {s : State} (l : Launch) (u g n : Nat) (f : Square → List Byte → Square) (w : Memory.wf s.mem = true) :
    Memory.wf (s.squareLoad l u g n f).mem = true :=
  canonical.ite w (cmdRead_wf _ _ _ _ _ w fun _ _ w => w)

@[simp] theorem squareLoads_wf {s : State} (l : Launch) (d : KernelDesc) (u : Nat) (w : Memory.wf s.mem = true) :
    Memory.wf (s.squareLoads l d u).mem = true := by
  change canonical _
  unfold State.squareLoads
  exact squareLoad_wf _ _ _ _ _ (squareLoad_wf _ _ _ _ _ (squareLoad_wf _ _ _ _ _ w))

@[simp] theorem startSquare_wf {s : State} (l : Launch) (d : KernelDesc) (n : Nat) (x : Nat × Nat) (w : Memory.wf s.mem = true) :
    Memory.wf (s.startSquare l d n x).mem = true := by simp [State.startSquare, w]

@[simp] theorem launchStarted_mem (s : State) (l : Launch) (us : List Nat) : (s.launchStarted l us).mem = s.mem := by simp [State.launchStarted]

@[simp] theorem prefetch_wf {s : State} (l : Launch) (u : Nat) (rs : List (Nat × Nat)) (w : Memory.wf s.mem = true) :
    Memory.wf (s.prefetch l u rs).1.mem = true := by
  refine List.foldlRecOn (motive := fun x : State × Bool => Memory.wf x.1.mem = true) rs _ w fun x w r _ => ?_
  dsimp only
  split
  · exact w
  · split <;> simp [w]

@[simp] theorem prefetchAll_wf {s : State} (l : Launch) (us : List Nat) (rs : List (Nat × Nat)) (w : Memory.wf s.mem = true) :
    Memory.wf (s.prefetchAll l us rs).1.mem = true :=
  List.foldlRecOn (motive := fun x : State × Bool => Memory.wf x.1.mem = true) us _ w fun x w u _ => by simp [w]

@[simp] theorem startKernel_wf {s : State} (l : Launch) (us : List Nat) (w : Memory.wf s.mem = true) :
    Memory.wf (s.startKernel l us).mem = true := by
  change canonical _
  unfold State.startKernel
  extract_lets r v d x
  have read : Memory.wf r.1.mem = true := readOnce_wf _ _ _ _ _ w
  have got : Memory.wf x.1.mem = true := prefetchAll_wf l us _ read
  clear_value r x
  split
  · exact read
  split
  · simp [canonical, read]
  · split
    · exact got
    · exact canonical.forAll (by simp [canonical, got]) us.zipIdx fun t u w => startSquare_wf l d us.length u w

@[simp] theorem takeSquares_wf {s : State} (l : Launch) (us : List Nat) (d : AttnDesc) (w : Memory.wf s.mem = true) :
    Memory.wf (s.takeSquares l us d).mem = true :=
  forAll_wf (fun t u w => by simp [w]) us.zipIdx w

@[simp] theorem startAttention_wf {s : State} (l : Launch) (us : List Nat) (w : Memory.wf s.mem = true) :
    Memory.wf (s.startAttention l us).mem = true := by
  dsimp only [State.startAttention]
  split <;> simp [w]

@[simp] theorem startLookup_wf {s : State} (l : Launch) (us : List Nat) (w : Memory.wf s.mem = true) :
    Memory.wf (s.startLookup l us).mem = true := by
  dsimp only [State.startLookup]
  split <;> simp [w]

@[simp] theorem startLaunch_wf {s : State} (id : Nat) (w : Memory.wf s.mem = true) : Memory.wf (s.startLaunch id).mem = true := by
  fun_cases State.startLaunch s id <;> simp [*]

@[simp] theorem writeKernelStatus_wf {s : State} (l : Launch) (w : Reg64) (wf : Memory.wf s.mem = true) :
    Memory.wf (s.writeKernelStatus l w).1.mem = true := by simp [State.writeKernelStatus, wf]

@[simp] theorem signalEnd_mem (s : State) (l : Launch) : (s.signalEnd l).mem = s.mem := by simp [State.signalEnd]

@[simp] theorem finishLaunch_wf {s : State} (l : Launch) (w : Memory.wf s.mem = true) : Memory.wf (s.finishLaunch l).mem = true := by
  simp [State.finishLaunch, w]

@[simp] theorem endLaunch_wf {s : State} (id : Nat) (w : Memory.wf s.mem = true) : Memory.wf (s.endLaunch id).mem = true := by
  fun_cases State.endLaunch s id <;> simp [*]

/-! ### Machine/Partition -/

@[simp] theorem scrubSquare_wf {s : State} (u : Nat) (w : Memory.wf s.mem = true) : Memory.wf (s.scrubSquare u).mem = true := by
  dsimp only [State.scrubSquare]
  split <;> simp [w]

@[simp] theorem restoreContext_wf {s : State} (u p : Nat) (w : Memory.wf s.mem = true) : Memory.wf (s.restoreContext u p).1.mem = true := by
  dsimp only [State.restoreContext]
  repeat' split
  all_goals simp [w]

@[simp] theorem endHandover_mem (s : State) (u : Nat) : (s.endHandover u).mem = s.mem := rfl

@[simp] theorem cleanHandover_wf {s : State} (u : Nat) (w : Memory.wf s.mem = true) : Memory.wf (s.cleanHandover u).mem = true := by
  dsimp only [State.cleanHandover]
  repeat' split
  all_goals simp [w]

@[simp] theorem endInterval_mem (s : State) (p : Nat) (t : IntTarget) : (s.endInterval p t).mem = s.mem := by
  dsimp only [State.endInterval]
  split <;> simp

@[simp] theorem flushMsix_mem (s : State) (p : Nat) : (s.flushMsix p).mem = s.mem := by simp [State.flushMsix]

@[simp] theorem destroyWork_wf {s : State} (p : Nat) (w : Memory.wf s.mem = true) : Memory.wf (s.destroyWork p).mem = true := by
  dsimp only [State.destroyWork]
  split <;> simp [w]

@[simp] theorem resetSquare_wf {s : State} (u : Nat) (w : Memory.wf s.mem = true) : Memory.wf (s.resetSquare u).mem = true := by
  simp [State.resetSquare, w]

@[simp] theorem releaseRecord_wf {s : State} (p brec : Nat) (w : Memory.wf s.mem = true) : Memory.wf (s.releaseRecord p brec).1.mem = true := by
  dsimp only [State.releaseRecord]
  repeat' split
  all_goals simp [w]

@[simp] theorem releaseSlot_wf {s : State} (p k : Nat) (w : Memory.wf s.mem = true) : Memory.wf (s.releaseSlot p k).1.mem = true := by
  dsimp only [State.releaseSlot]
  split <;> simp [w]

@[simp] theorem walkTree_wf {s : State} (p n : Nat) (w : Memory.wf s.mem = true) : Memory.wf (s.walkTree p n).1.mem = true := by
  induction n generalizing s with
  | zero => exact w
  | succ n ih => simp [State.walkTree, w, ih]

@[simp] theorem clearTree_mem (s : State) (p : Nat) : (s.clearTree p).mem = s.mem := rfl

@[simp] theorem resetHall_mem (s : State) (p : Nat) : (s.resetHall p).mem = s.mem := by simp [State.resetHall]

@[simp] theorem startHeldHandover_mem (s : State) (p u : Nat) : (s.startHeldHandover p u).mem = s.mem := by simp [State.startHeldHandover]

theorem canonical_resetSquares {s : State} (p : Nat) (w : canonical s) : canonical (s.resetSquares p) := by
  unfold State.resetSquares
  extract_lets s1
  have w1 : canonical s1 := w.forAll _ fun t u w => resetSquare_wf u w
  clear_value s1
  have w2 : Memory.wf (((s1.invalidateContexts p).modPart p fun x => { x with reset :=
    { x.reset with stage := 3, walk := 0 } }).traceStep p 3).mem = true := by
    simp [show Memory.wf s1.mem = true from w1]
  exact canonical.forAll w2 _ fun t u w => w.of_mem (startHeldHandover_mem _ _ _)

@[simp] theorem resetSquares_wf {s : State} (p : Nat) (w : Memory.wf s.mem = true) : Memory.wf (s.resetSquares p).mem = true :=
  canonical_resetSquares p w

@[simp] theorem endReset_mem (s : State) (p : Nat) : (s.endReset p).mem = s.mem := by simp [State.endReset]

@[simp] theorem finishReset_wf {s : State} (p : Nat) (w : Memory.wf s.mem = true) : Memory.wf (s.finishReset p).mem = true := by
  dsimp only [State.finishReset]
  repeat' split
  all_goals simp [w]

/-! ### Machine/HostPort -/

@[simp] theorem unsupported_mem (s : State) (p : Nat) (write : Bool) (tag : Nat) : (s.unsupported p write tag).mem = s.mem := by
  simp [State.unsupported]

@[simp] theorem bar4Perform_mem (s : State) (r : HostRequest) : (s.bar4Perform r).mem = s.mem := by simp [State.bar4Perform]

@[simp] theorem hostPerform_wf {s : State} (r : HostRequest) (w : Memory.wf s.mem = true) : Memory.wf (s.hostPerform r).mem = true := by
  dsimp only [State.hostPerform]
  repeat' split
  all_goals simp [w]

@[simp] theorem hostMem_wf {s : State} (r : HostRequest) (w : Memory.wf s.mem = true) : Memory.wf (s.hostMem r).mem = true := by
  dsimp only [State.hostMem]
  split <;> simp [w]

@[simp] theorem resizeBar2_mem (s : State) (p k : Nat) : (s.resizeBar2 p k).mem = s.mem := by simp [State.resizeBar2]

@[simp] theorem configWrite_mem (s : State) (p : Nat) (c : ConfigReq) : (s.configWrite p c).mem = s.mem := by
  unfold State.configWrite
  split <;> simp

@[simp] theorem config_mem (s : State) (p : Nat) (c : ConfigReq) : (s.config p c).mem = s.mem := by simp [State.config]

@[simp] theorem endHostReq_mem (s : State) (tag : Nat) (x : Except Nat (List Byte)) : (s.endHostReq tag x).mem = s.mem := by
  dsimp only [State.endHostReq]
  repeat' split
  all_goals simp

@[simp] theorem smbus_mem (s : State) (t : SmbusTransaction) : (s.smbus t).mem = s.mem := by
  fun_cases State.smbus s t <;> simp [*]

@[simp] theorem performHeld_wf {s : State} (h : Held) (w : Memory.wf s.mem = true) : Memory.wf (s.performHeld h).mem = true := by
  unfold State.performHeld
  split <;> simp [w]

@[simp] theorem fullService_wf {s : State} (w : Memory.wf s.mem = true) : Memory.wf s.fullService.mem = true :=
  forAll_wf (fun t h w => performHeld_wf h w) _ (by simp [w])

/-! ### Machine/Observe -/

@[simp] theorem recordArrives_mem (s : State) (idx : Nat) : (s.recordArrives idx).mem = s.mem := by
  unfold State.recordArrives
  split <;> simp

@[simp] theorem acceptRecord_wf {s : State} (r : ErrRecord) (rest : List ErrRecord) (w : Memory.wf s.mem = true) :
    Memory.wf (s.acceptRecord r rest).mem = true := by
  unfold State.acceptRecord
  split <;> simp [w]

@[simp] theorem traceArrives_wf {s : State} (idx : Nat) (w : Memory.wf s.mem = true) : Memory.wf (s.traceArrives idx).mem = true := by
  unfold State.traceArrives
  split <;> simp [w]

/-! ### Machine/PowerUnit -/

@[simp] theorem sagAt_mem (s : State) (mv : Nat) : (s.sagAt mv).mem = s.mem := by simp [State.sagAt]

@[simp] theorem stopEnds_wf {s : State} (cause : Nat) (w : Memory.wf s.mem = true) : Memory.wf (s.stopEnds cause).mem = true := by
  simp [State.stopEnds, w]

@[simp] theorem unpowered_wf (s : State) (mv : Nat) : Memory.wf (s.unpowered mv).mem = true := rfl

@[simp] theorem powerOff_wf (s : State) (mv : Nat) : Memory.wf (s.powerOff mv).mem = true := rfl

@[simp] theorem powerOn_mem (s : State) : s.powerOn.mem = s.mem := rfl

/-! ### Machine/Tick -/

@[simp] theorem steerTick_mem (s : State) : s.steerTick.mem = s.mem := by simp [State.steerTick]

@[simp] theorem tick_mem (s : State) : (tick s).mem = s.mem := by simp [tick]

end Sys2Proof.Proofs

/-! Memory stays canonical, part two: each command's arm, and the step (O4). -/

namespace Sys2Proof.Proofs
open Sys2Proof Sys2Proof.Machine

/-- The outcome's next state, where it has one, is canonical. -/
def canonicalNext (o : Host.Outcome State Fault Refusal) : Prop := ∀ t, o = .next t → canonical t

@[simp] theorem canonicalNext_next {s : State} : canonicalNext (.next s) ↔ Memory.wf s.mem = true :=
  ⟨fun h => h s rfl, fun w t h => by
    injection h with h
    rwa [← h]⟩

/-! ### The arms of Machine/Control -/

@[simp] theorem execCtNop_wf {s : State} (sq : SquareId) (w : Memory.wf s.mem = true) : canonicalNext (execCtNop sq s) := by
  simp [execCtNop, w]

@[simp] theorem execCtMovi_wf {s : State} (sq : SquareId) (w : Memory.wf s.mem = true) : canonicalNext (execCtMovi sq s) := by
  simp [execCtMovi, w]

@[simp] theorem execCtAdd_wf {s : State} (sq : SquareId) (w : Memory.wf s.mem = true) : canonicalNext (execCtAdd sq s) := by
  simp [execCtAdd, w]

@[simp] theorem execCtSub_wf {s : State} (sq : SquareId) (w : Memory.wf s.mem = true) : canonicalNext (execCtSub sq s) := by
  simp [execCtSub, w]

@[simp] theorem execCtMul_wf {s : State} (sq : SquareId) (w : Memory.wf s.mem = true) : canonicalNext (execCtMul sq s) := by
  simp [execCtMul, w]

@[simp] theorem execCtAnd_wf {s : State} (sq : SquareId) (w : Memory.wf s.mem = true) : canonicalNext (execCtAnd sq s) := by
  simp [execCtAnd, w]

@[simp] theorem execCtOr_wf {s : State} (sq : SquareId) (w : Memory.wf s.mem = true) : canonicalNext (execCtOr sq s) := by
  simp [execCtOr, w]

@[simp] theorem execCtXor_wf {s : State} (sq : SquareId) (w : Memory.wf s.mem = true) : canonicalNext (execCtXor sq s) := by
  simp [execCtXor, w]

@[simp] theorem execCtShl_wf {s : State} (sq : SquareId) (w : Memory.wf s.mem = true) : canonicalNext (execCtShl sq s) := by
  simp [execCtShl, w]

@[simp] theorem execCtSrl_wf {s : State} (sq : SquareId) (w : Memory.wf s.mem = true) : canonicalNext (execCtSrl sq s) := by
  simp [execCtSrl, w]

@[simp] theorem execCtSra_wf {s : State} (sq : SquareId) (w : Memory.wf s.mem = true) : canonicalNext (execCtSra sq s) := by
  simp [execCtSra, w]

@[simp] theorem execCtMin_wf {s : State} (sq : SquareId) (w : Memory.wf s.mem = true) : canonicalNext (execCtMin sq s) := by
  simp [execCtMin, w]

@[simp] theorem execCtMax_wf {s : State} (sq : SquareId) (w : Memory.wf s.mem = true) : canonicalNext (execCtMax sq s) := by
  simp [execCtMax, w]

@[simp] theorem execCtMinu_wf {s : State} (sq : SquareId) (w : Memory.wf s.mem = true) : canonicalNext (execCtMinu sq s) := by
  simp [execCtMinu, w]

@[simp] theorem execCtMaxu_wf {s : State} (sq : SquareId) (w : Memory.wf s.mem = true) : canonicalNext (execCtMaxu sq s) := by
  simp [execCtMaxu, w]

@[simp] theorem execCtBeq_wf {s : State} (sq : SquareId) (w : Memory.wf s.mem = true) : canonicalNext (execCtBeq sq s) := by
  simp [execCtBeq, w]

@[simp] theorem execCtBne_wf {s : State} (sq : SquareId) (w : Memory.wf s.mem = true) : canonicalNext (execCtBne sq s) := by
  simp [execCtBne, w]

@[simp] theorem execCtBlt_wf {s : State} (sq : SquareId) (w : Memory.wf s.mem = true) : canonicalNext (execCtBlt sq s) := by
  simp [execCtBlt, w]

@[simp] theorem execCtBge_wf {s : State} (sq : SquareId) (w : Memory.wf s.mem = true) : canonicalNext (execCtBge sq s) := by
  simp [execCtBge, w]

@[simp] theorem execCtBltu_wf {s : State} (sq : SquareId) (w : Memory.wf s.mem = true) : canonicalNext (execCtBltu sq s) := by
  simp [execCtBltu, w]

@[simp] theorem execCtBgeu_wf {s : State} (sq : SquareId) (w : Memory.wf s.mem = true) : canonicalNext (execCtBgeu sq s) := by
  simp [execCtBgeu, w]

@[simp] theorem execCtJmp_wf {s : State} (sq : SquareId) (w : Memory.wf s.mem = true) : canonicalNext (execCtJmp sq s) := by
  simp [execCtJmp, w]

@[simp] theorem execCtLoop_wf {s : State} (sq : SquareId) (w : Memory.wf s.mem = true) : canonicalNext (execCtLoop sq s) := by
  simp [execCtLoop, w]

@[simp] theorem execCtNext_wf {s : State} (sq : SquareId) (w : Memory.wf s.mem = true) : canonicalNext (execCtNext sq s) :=
  canonicalNext_next.2 (ctIssue_wf _ _ _ _ w fun x => by
    split <;> simp [w])

@[simp] theorem execCtRdsr_wf {s : State} (sq : SquareId) (w : Memory.wf s.mem = true) : canonicalNext (execCtRdsr sq s) := by
  simp [execCtRdsr, w]

@[simp] theorem execCtEnd_wf {s : State} (sq : SquareId) (w : Memory.wf s.mem = true) : canonicalNext (execCtEnd sq s) := by
  simp [execCtEnd, w]

@[simp] theorem execSquareEndReport_wf {s : State} (sq : SquareId) (w : Memory.wf s.mem = true) : canonicalNext (execSquareEndReport sq s) := by
  simp [execSquareEndReport, w]

@[simp] theorem execKernelStop_wf {s : State} (sq : SquareId) (w : Memory.wf s.mem = true) : canonicalNext (execKernelStop sq s) := by
  simp only [execKernelStop, canonicalNext_next]
  split <;> simp [w]

@[simp] theorem execSyRel_wf {s : State} (sq : SquareId) (w : Memory.wf s.mem = true) : canonicalNext (execSyRel sq s) := by
  simp [execSyRel, w]

@[simp] theorem execSyAcq_wf {s : State} (sq : SquareId) (w : Memory.wf s.mem = true) : canonicalNext (execSyAcq sq s) := by
  simp [execSyAcq, w]

@[simp] theorem execSyFence_wf {s : State} (sq : SquareId) (w : Memory.wf s.mem = true) : canonicalNext (execSyFence sq s) := by
  simp [execSyFence, w]

@[simp] theorem execSyFencePass_wf {s : State} (sq : SquareId) (w : Memory.wf s.mem = true) : canonicalNext (execSyFencePass sq s) := by
  simp only [execSyFencePass, canonicalNext_next]
  split <;> simp [w]

@[simp] theorem execSyWait_wf {s : State} (sq : SquareId) (w : Memory.wf s.mem = true) : canonicalNext (execSyWait sq s) := by
  simp [execSyWait, w]

@[simp] theorem execSyWaitMet_wf {s : State} (sq : SquareId) (w : Memory.wf s.mem = true) : canonicalNext (execSyWaitMet sq s) := by
  simp only [execSyWaitMet, canonicalNext_next]
  split <;> simp [w]

@[simp] theorem execSyCset_wf {s : State} (sq : SquareId) (w : Memory.wf s.mem = true) : canonicalNext (execSyCset sq s) := by
  simp [execSyCset, w]

@[simp] theorem execSyCrd_wf {s : State} (sq : SquareId) (w : Memory.wf s.mem = true) : canonicalNext (execSyCrd sq s) := by
  simp [execSyCrd, w]

/-! ### The arms of Machine/Matrix -/

@[simp] theorem execMxMma_wf {s : State} (sq : SquareId) (w : Memory.wf s.mem = true) : canonicalNext (execMxMma sq s) := by
  simp [execMxMma, w]

@[simp] theorem execMxFill_wf {s : State} (sq : SquareId) (w : Memory.wf s.mem = true) : canonicalNext (execMxFill sq s) := by
  simp [execMxFill, w]

@[simp] theorem execMxLdt_wf {s : State} (sq : SquareId) (w : Memory.wf s.mem = true) : canonicalNext (execMxLdt sq s) := by
  simp [execMxLdt, w]

@[simp] theorem execMxStt_wf {s : State} (sq : SquareId) (w : Memory.wf s.mem = true) : canonicalNext (execMxStt sq s) :=
  canonicalNext_next.2 (mxIssue_wf _ _ _ _ w fun x => by
    have stored := forAll_wf (f := fun t r => t.writeCistern sq.val ((s.sq sq.val).off x 14 + r * (s.sq sq.val).off x 19)
      ((s.sq sq.val).tileRow (mxTile x) r)) (fun t r h => writeCistern_wf _ _ _ h) (s.rowOrder ((s.sq sq.val).off x 19) 128).1
      (s := (s.rowOrder ((s.sq sq.val).off x 19) 128).2) (by simp [w])
    simp [stored])

@[simp] theorem execMxTov_wf {s : State} (sq : SquareId) (w : Memory.wf s.mem = true) : canonicalNext (execMxTov sq s) := by
  simp [execMxTov, w]

@[simp] theorem execMxFromv_wf {s : State} (sq : SquareId) (w : Memory.wf s.mem = true) : canonicalNext (execMxFromv sq s) := by
  simp [execMxFromv, w]

@[simp] theorem execMxRsc_wf {s : State} (sq : SquareId) (w : Memory.wf s.mem = true) : canonicalNext (execMxRsc sq s) :=
  canonicalNext_next.2 (mxIssue_wf _ _ _ _ w fun x => by
    dsimp only
    rw [advance_mem, drainSteps_mem, State.modSq_mem]
    exact forAll_wf (fun t e h => writeCistern_wf _ _ _ h) _ (by simp [w]))

@[simp] theorem execMxLdsf_wf {s : State} (sq : SquareId) (w : Memory.wf s.mem = true) : canonicalNext (execMxLdsf sq s) := by
  simp [execMxLdsf, w]

@[simp] theorem execMxLdcb_wf {s : State} (sq : SquareId) (w : Memory.wf s.mem = true) : canonicalNext (execMxLdcb sq s) := by
  simp [execMxLdcb, w]

/-! ### The arms of Machine/Vector -/

@[simp] theorem execVxAdd_wf {s : State} (sq : SquareId) (w : Memory.wf s.mem = true) : canonicalNext (execVxAdd sq s) := by
  simp [execVxAdd, w]

@[simp] theorem execVxSub_wf {s : State} (sq : SquareId) (w : Memory.wf s.mem = true) : canonicalNext (execVxSub sq s) := by
  simp [execVxSub, w]

@[simp] theorem execVxMulsh_wf {s : State} (sq : SquareId) (w : Memory.wf s.mem = true) : canonicalNext (execVxMulsh sq s) := by
  simp [execVxMulsh, w]

@[simp] theorem execVxRsh_wf {s : State} (sq : SquareId) (w : Memory.wf s.mem = true) : canonicalNext (execVxRsh sq s) := by
  simp [execVxRsh, w]

@[simp] theorem execVxAbs_wf {s : State} (sq : SquareId) (w : Memory.wf s.mem = true) : canonicalNext (execVxAbs sq s) := by
  simp [execVxAbs, w]

@[simp] theorem execVxNeg_wf {s : State} (sq : SquareId) (w : Memory.wf s.mem = true) : canonicalNext (execVxNeg sq s) := by
  simp [execVxNeg, w]

@[simp] theorem execVxMin_wf {s : State} (sq : SquareId) (w : Memory.wf s.mem = true) : canonicalNext (execVxMin sq s) := by
  simp [execVxMin, w]

@[simp] theorem execVxMax_wf {s : State} (sq : SquareId) (w : Memory.wf s.mem = true) : canonicalNext (execVxMax sq s) := by
  simp [execVxMax, w]

@[simp] theorem execVxAnd_wf {s : State} (sq : SquareId) (w : Memory.wf s.mem = true) : canonicalNext (execVxAnd sq s) := by
  simp [execVxAnd, w]

@[simp] theorem execVxOr_wf {s : State} (sq : SquareId) (w : Memory.wf s.mem = true) : canonicalNext (execVxOr sq s) := by
  simp [execVxOr, w]

@[simp] theorem execVxXor_wf {s : State} (sq : SquareId) (w : Memory.wf s.mem = true) : canonicalNext (execVxXor sq s) := by
  simp [execVxXor, w]

@[simp] theorem execVxShl_wf {s : State} (sq : SquareId) (w : Memory.wf s.mem = true) : canonicalNext (execVxShl sq s) := by
  simp [execVxShl, w]

@[simp] theorem execVxSrl_wf {s : State} (sq : SquareId) (w : Memory.wf s.mem = true) : canonicalNext (execVxSrl sq s) := by
  simp [execVxSrl, w]

@[simp] theorem execVxSra_wf {s : State} (sq : SquareId) (w : Memory.wf s.mem = true) : canonicalNext (execVxSra sq s) := by
  simp [execVxSra, w]

@[simp] theorem execVxCmpeq_wf {s : State} (sq : SquareId) (w : Memory.wf s.mem = true) : canonicalNext (execVxCmpeq sq s) := by
  simp [execVxCmpeq, w]

@[simp] theorem execVxCmplt_wf {s : State} (sq : SquareId) (w : Memory.wf s.mem = true) : canonicalNext (execVxCmplt sq s) := by
  simp [execVxCmplt, w]

@[simp] theorem execVxCmple_wf {s : State} (sq : SquareId) (w : Memory.wf s.mem = true) : canonicalNext (execVxCmple sq s) := by
  simp [execVxCmple, w]

@[simp] theorem execVxMov_wf {s : State} (sq : SquareId) (w : Memory.wf s.mem = true) : canonicalNext (execVxMov sq s) := by
  simp [execVxMov, w]

@[simp] theorem execVxSel_wf {s : State} (sq : SquareId) (w : Memory.wf s.mem = true) : canonicalNext (execVxSel sq s) := by
  simp [execVxSel, w]

@[simp] theorem execVxIota_wf {s : State} (sq : SquareId) (w : Memory.wf s.mem = true) : canonicalNext (execVxIota sq s) := by
  simp [execVxIota, w]

@[simp] theorem execVxBcast_wf {s : State} (sq : SquareId) (w : Memory.wf s.mem = true) : canonicalNext (execVxBcast sq s) := by
  simp [execVxBcast, w]

@[simp] theorem execVxTos_wf {s : State} (sq : SquareId) (w : Memory.wf s.mem = true) : canonicalNext (execVxTos sq s) := by
  simp [execVxTos, w]

@[simp] theorem execVxLd_wf {s : State} (sq : SquareId) (w : Memory.wf s.mem = true) : canonicalNext (execVxLd sq s) := by
  simp [execVxLd, w]

@[simp] theorem execVxSt_wf {s : State} (sq : SquareId) (w : Memory.wf s.mem = true) : canonicalNext (execVxSt sq s) := by
  simp [execVxSt, w]

@[simp] theorem execVxRmax_wf {s : State} (sq : SquareId) (w : Memory.wf s.mem = true) : canonicalNext (execVxRmax sq s) := by
  simp [execVxRmax, w]

@[simp] theorem execVxRmin_wf {s : State} (sq : SquareId) (w : Memory.wf s.mem = true) : canonicalNext (execVxRmin sq s) := by
  simp [execVxRmin, w]

@[simp] theorem execVxRamax_wf {s : State} (sq : SquareId) (w : Memory.wf s.mem = true) : canonicalNext (execVxRamax sq s) := by
  simp [execVxRamax, w]

@[simp] theorem execVxRsum_wf {s : State} (sq : SquareId) (w : Memory.wf s.mem = true) : canonicalNext (execVxRsum sq s) := by
  simp [execVxRsum, w]

@[simp] theorem execVxRssq_wf {s : State} (sq : SquareId) (w : Memory.wf s.mem = true) : canonicalNext (execVxRssq sq s) := by
  simp [execVxRssq, w]

@[simp] theorem execVxDsc_wf {s : State} (sq : SquareId) (w : Memory.wf s.mem = true) : canonicalNext (execVxDsc sq s) := by
  simp [execVxDsc, w]

@[simp] theorem execVxQnt_wf {s : State} (sq : SquareId) (w : Memory.wf s.mem = true) : canonicalNext (execVxQnt sq s) := by
  simp [execVxQnt, w]

@[simp] theorem execVxSmul_wf {s : State} (sq : SquareId) (w : Memory.wf s.mem = true) : canonicalNext (execVxSmul sq s) := by
  simp [execVxSmul, w]

@[simp] theorem execVxSrcp_wf {s : State} (sq : SquareId) (w : Memory.wf s.mem = true) : canonicalNext (execVxSrcp sq s) := by
  simp [execVxSrcp, w]

@[simp] theorem execVxSc64_wf {s : State} (sq : SquareId) (w : Memory.wf s.mem = true) : canonicalNext (execVxSc64 sq s) := by
  simp [execVxSc64, w]

@[simp] theorem execVxSrsq_wf {s : State} (sq : SquareId) (w : Memory.wf s.mem = true) : canonicalNext (execVxSrsq sq s) := by
  simp [execVxSrsq, w]

@[simp] theorem execVxSfn_wf {s : State} (sq : SquareId) (w : Memory.wf s.mem = true) : canonicalNext (execVxSfn sq s) := by
  simp [execVxSfn, w]

@[simp] theorem execVxTld_wf {s : State} (sq : SquareId) (w : Memory.wf s.mem = true) : canonicalNext (execVxTld sq s) := by
  simp [execVxTld, w]

@[simp] theorem execVxTst_wf {s : State} (sq : SquareId) (w : Memory.wf s.mem = true) : canonicalNext (execVxTst sq s) := by
  simp [execVxTst, w]

/-! ### The arms of Machine/Access -/

@[simp] theorem execHomeAccess_wf {s : State} (src : AccessSource) (w : Memory.wf s.mem = true) : canonicalNext (execHomeAccess src s) := by
  simp [execHomeAccess, w]

@[simp] theorem execHomeAtomic_wf {s : State} (src : AccessSource) (w : Memory.wf s.mem = true) : canonicalNext (execHomeAtomic src s) := by
  simp [execHomeAtomic, w]

@[simp] theorem execParityRetry_wf {s : State} (idx : Nat) (w : Memory.wf s.mem = true) : canonicalNext (execParityRetry idx s) := by
  simp only [execParityRetry, canonicalNext_next]
  split <;> simp [w]

@[simp] theorem execAtLd_wf {s : State} (sq : SquareId) (w : Memory.wf s.mem = true) : canonicalNext (execAtLd sq s) := by
  simp [execAtLd, w]

@[simp] theorem execAtSt_wf {s : State} (sq : SquareId) (w : Memory.wf s.mem = true) : canonicalNext (execAtSt sq s) := by
  simp [execAtSt, w]

@[simp] theorem execAtAtom_wf {s : State} (sq : SquareId) (w : Memory.wf s.mem = true) : canonicalNext (execAtAtom sq s) := by
  simp [execAtAtom, w]

@[simp] theorem execAtCas128_wf {s : State} (sq : SquareId) (w : Memory.wf s.mem = true) : canonicalNext (execAtCas128 sq s) := by
  simp [execAtCas128, w]

@[simp] theorem execAtVatom_wf {s : State} (sq : SquareId) (w : Memory.wf s.mem = true) : canonicalNext (execAtVatom sq s) := by
  simp [execAtVatom, w]

/-! ### The arms of Machine/PumpUnit -/

@[simp] theorem execPmEnq_wf {s : State} (sq : SquareId) (w : Memory.wf s.mem = true) : canonicalNext (execPmEnq sq s) := by
  simp [execPmEnq, w]

@[simp] theorem execPmWait_wf {s : State} (sq : SquareId) (w : Memory.wf s.mem = true) : canonicalNext (execPmWait sq s) := by
  simp [execPmWait, w]

@[simp] theorem execPmWaitMet_wf {s : State} (sq : SquareId) (w : Memory.wf s.mem = true) : canonicalNext (execPmWaitMet sq s) := by
  simp only [execPmWaitMet, canonicalNext_next]
  split <;> simp [w]

@[simp] theorem execPumpDescriptorBegin_wf {s : State} (sq : SquareId) (w : Memory.wf s.mem = true) :
    canonicalNext (execPumpDescriptorBegin sq s) := by
  simp [execPumpDescriptorBegin, w]

@[simp] theorem execPumpBlock_wf {s : State} (sq : SquareId) (w : Memory.wf s.mem = true) : canonicalNext (execPumpBlock sq s) := by
  simp [execPumpBlock, w]

@[simp] theorem execPumpSignal_wf {s : State} (sq : SquareId) (w : Memory.wf s.mem = true) : canonicalNext (execPumpSignal sq s) := by
  simp [execPumpSignal, w]

@[simp] theorem execPumpDescriptorComplete_wf {s : State} (sq : SquareId) (w : Memory.wf s.mem = true) :
    canonicalNext (execPumpDescriptorComplete sq s) := by
  simp [execPumpDescriptorComplete, w]

@[simp] theorem execTableImageRead_wf {s : State} (sq : SquareId) (w : Memory.wf s.mem = true) : canonicalNext (execTableImageRead sq s) := by
  simp [execTableImageRead, w]

@[simp] theorem execTableLoadDone_wf {s : State} (sq : SquareId) (w : Memory.wf s.mem = true) : canonicalNext (execTableLoadDone sq s) := by
  simp [execTableLoadDone, w]

/-! ### The arms of Machine/Attention -/

@[simp] theorem execAttnWalkBlock_wf {s : State} (sq : SquareId) (item : WorkItem) (w : Memory.wf s.mem = true) :
    canonicalNext (execAttnWalkBlock sq item s) := by
  simp [execAttnWalkBlock, w]

@[simp] theorem execAttnFold_wf {s : State} (sq : SquareId) (item : WorkItem) (w : Memory.wf s.mem = true) :
    canonicalNext (execAttnFold sq item s) := by
  simp [execAttnFold, w]

@[simp] theorem execAttnMerge_wf {s : State} (sq : SquareId) (item : WorkItem) (w : Memory.wf s.mem = true) :
    canonicalNext (execAttnMerge sq item s) := by
  simp [execAttnMerge, w]

@[simp] theorem execAttnFinish_wf {s : State} (sq : SquareId) (item : WorkItem) (w : Memory.wf s.mem = true) :
    canonicalNext (execAttnFinish sq item s) := by
  simp [execAttnFinish, w]

@[simp] theorem execBwdAccumulate_wf {s : State} (sq : SquareId) (item : WorkItem) (w : Memory.wf s.mem = true) :
    canonicalNext (execBwdAccumulate sq item s) := by
  simp [execBwdAccumulate, w]

@[simp] theorem execRingStep_wf {s : State} (launch : Nat) (w : Memory.wf s.mem = true) : canonicalNext (execRingStep launch s) := by
  simp [execRingStep, w]

@[simp] theorem execRingCredit_wf {s : State} (launch : Nat) (w : Memory.wf s.mem = true) : canonicalNext (execRingCredit launch s) := by
  simp [execRingCredit, w]

@[simp] theorem execRingPoison_wf {s : State} (launch : Nat) (w : Memory.wf s.mem = true) : canonicalNext (execRingPoison launch s) := by
  simp [execRingPoison, w]

/-! ### The arms of Machine/BootUnit -/

@[simp] theorem execFerase_wf {s : State} (p : PartId) (w : Memory.wf s.mem = true) : canonicalNext (execFerase p s) := by
  simp [execFerase, w]

@[simp] theorem execFwrite_wf {s : State} (p : PartId) (w : Memory.wf s.mem = true) : canonicalNext (execFwrite p s) := by
  simp [execFwrite, w]

@[simp] theorem execFread_wf {s : State} (p : PartId) (w : Memory.wf s.mem = true) : canonicalNext (execFread p s) := by
  simp [execFread, w]

@[simp] theorem execCommit_wf {s : State} (p : PartId) (w : Memory.wf s.mem = true) : canonicalNext (execCommit p s) := by
  simp [execCommit, w]

@[simp] theorem execAttest_wf {s : State} (p : PartId) (w : Memory.wf s.mem = true) : canonicalNext (execAttest p s) := by
  simp [execAttest, w]

@[simp] theorem execKeyload_wf {s : State} (p : PartId) (w : Memory.wf s.mem = true) : canonicalNext (execKeyload p s) := by
  simp [execKeyload, w]

@[simp] theorem execKeyclear_wf {s : State} (p : PartId) (w : Memory.wf s.mem = true) : canonicalNext (execKeyclear p s) := by
  simp [execKeyclear, w]

@[simp] theorem execReboot_wf {s : State} (p : PartId) (w : Memory.wf s.mem = true) : canonicalNext (execReboot p s) := by
  simp [execReboot, w]

@[simp] theorem execMailboxCommandDone_wf {s : State} (w : Memory.wf s.mem = true) : canonicalNext (execMailboxCommandDone s) := by
  simp [execMailboxCommandDone, w]

/-! ### The arms of Machine/FountainUnit -/

@[simp] theorem execFnSeed_wf {s : State} (sq : SquareId) (w : Memory.wf s.mem = true) : canonicalNext (execFnSeed sq s) := by
  simp [execFnSeed, w]

@[simp] theorem execFnUni_wf {s : State} (sq : SquareId) (w : Memory.wf s.mem = true) : canonicalNext (execFnUni sq s) := by
  simp [execFnUni, w]

@[simp] theorem execFnMask_wf {s : State} (sq : SquareId) (w : Memory.wf s.mem = true) : canonicalNext (execFnMask sq s) := by
  simp [execFnMask, w]

@[simp] theorem execFnInit_wf {s : State} (sq : SquareId) (w : Memory.wf s.mem = true) : canonicalNext (execFnInit sq s) := by
  simp [execFnInit, w]

@[simp] theorem execFnDraw_wf {s : State} (sq : SquareId) (w : Memory.wf s.mem = true) : canonicalNext (execFnDraw sq s) := by
  simp [execFnDraw, w]

@[simp] theorem execFtnReloadDone_wf {s : State} (w : Memory.wf s.mem = true) : canonicalNext (execFtnReloadDone s) := by
  simp [execFtnReloadDone, w]

/-! ### The arms of Machine/HallUnit -/

@[simp] theorem execEntryFetch_wf {s : State} (q : QueueId) (w : Memory.wf s.mem = true) : canonicalNext (execEntryFetch q s) := by
  simp [execEntryFetch, w]

@[simp] theorem execDspNop_wf {s : State} (q : QueueId) (w : Memory.wf s.mem = true) : canonicalNext (execDspNop q s) := by
  simp [execDspNop, w]

@[simp] theorem execDspMovi_wf {s : State} (q : QueueId) (w : Memory.wf s.mem = true) : canonicalNext (execDspMovi q s) := by
  simp [execDspMovi, w]

@[simp] theorem execDspAdd_wf {s : State} (q : QueueId) (w : Memory.wf s.mem = true) : canonicalNext (execDspAdd q s) := by
  simp [execDspAdd, w]

@[simp] theorem execDspLd_wf {s : State} (q : QueueId) (w : Memory.wf s.mem = true) : canonicalNext (execDspLd q s) :=
  canonicalNext_next.2 (hallOp_wf _ _ _ w fun x c t w => hallAccess_wf _ _ _ _ _ _ _ _ w fun bs t w => by simp [w])

@[simp] theorem execDspSt_wf {s : State} (q : QueueId) (w : Memory.wf s.mem = true) : canonicalNext (execDspSt q s) :=
  canonicalNext_next.2 (hallOp_wf _ _ _ w fun x c t w => hallAccess_wf _ _ _ _ _ _ _ _ w fun bs t w => by simp [w])

@[simp] theorem execDspBr_wf {s : State} (q : QueueId) (w : Memory.wf s.mem = true) : canonicalNext (execDspBr q s) :=
  canonicalNext_next.2 (hallOp_wf _ _ _ w fun x c t w => by split <;> simp [w])

@[simp] theorem execDspCall_wf {s : State} (q : QueueId) (w : Memory.wf s.mem = true) : canonicalNext (execDspCall q s) := by
  simp [execDspCall, w]

@[simp] theorem execDspRet_wf {s : State} (q : QueueId) (w : Memory.wf s.mem = true) : canonicalNext (execDspRet q s) :=
  canonicalNext_next.2 (hallOp_wf _ _ _ w fun x c t w => by split <;> simp [w])

@[simp] theorem execDspSync_wf {s : State} (q : QueueId) (w : Memory.wf s.mem = true) : canonicalNext (execDspSync q s) := by
  simp [execDspSync, w]

@[simp] theorem execDspStat_wf {s : State} (q : QueueId) (w : Memory.wf s.mem = true) : canonicalNext (execDspStat q s) :=
  canonicalNext_next.2 (hallOp_wf _ _ _ w fun x c t w => by split <;> simp [w])

@[simp] theorem execDspLaunch_wf {s : State} (q : QueueId) (w : Memory.wf s.mem = true) : canonicalNext (execDspLaunch q s) := by
  simp [execDspLaunch, w]

@[simp] theorem execDspAttn_wf {s : State} (q : QueueId) (w : Memory.wf s.mem = true) : canonicalNext (execDspAttn q s) := by
  simp [execDspAttn, w]

@[simp] theorem execDspPlook_wf {s : State} (q : QueueId) (w : Memory.wf s.mem = true) : canonicalNext (execDspPlook q s) := by
  simp [execDspPlook, w]

@[simp] theorem execDspBucket_wf {s : State} (q : QueueId) (w : Memory.wf s.mem = true) : canonicalNext (execDspBucket q s) :=
  canonicalNext_next.2 (hallOp_wf _ _ _ w fun x c t w => by
    dsimp only
    split
    · simp [w]
    · refine hallAccess_wf _ _ _ _ _ _ _ _ w fun bs t w => ?_
      split
      · simp [w]
      · exact hallAccess_wf _ _ _ _ _ _ _ _ w fun bs t w => by split <;> simp [w])

@[simp] theorem execDspWait_wf {s : State} (q : QueueId) (w : Memory.wf s.mem = true) : canonicalNext (execDspWait q s) :=
  canonicalNext_next.2 (hallOp_wf _ _ _ w fun x c t w => by
    change canonical _
    obtain ⟨lookup, named⟩ : ∃ lookup, State.regRead = lookup := ⟨_, rfl⟩
    rw [named]
    dsimp only
    repeat' split
    all_goals simp [canonical, w])

@[simp] theorem execDspWaitMet_wf {s : State} (q : QueueId) (w : Memory.wf s.mem = true) : canonicalNext (execDspWaitMet q s) := by
  simp only [execDspWaitMet, canonicalNext_next]
  repeat' split
  all_goals simp [w]

@[simp] theorem execDspSignal_wf {s : State} (q : QueueId) (w : Memory.wf s.mem = true) : canonicalNext (execDspSignal q s) :=
  canonicalNext_next.2 (hallOp_wf _ _ _ w fun x c t w => by
    have ended : Memory.wf (if dsF x 0 then t.commandEnd q.val c else (t, true)).1.mem = true := by simp [w]
    dsimp only
    generalize (if dsF x 0 then t.commandEnd q.val c else (t, true)) = e at ended
    repeat' split
    · simp [ended]
    · simp [ended]
    · simp [ended]
    · exact hallAccess_wf _ _ _ _ _ _ _ _ ended fun bs t w => by simp [w])

@[simp] theorem execDspIrq_wf {s : State} (q : QueueId) (w : Memory.wf s.mem = true) : canonicalNext (execDspIrq q s) := by
  simp [execDspIrq, w]

@[simp] theorem execEntryEnd_wf {s : State} (q : QueueId) (w : Memory.wf s.mem = true) : canonicalNext (execEntryEnd q s) := by
  simp [execEntryEnd, w]

@[simp] theorem execDspDone_wf {s : State} (q : QueueId) (w : Memory.wf s.mem = true) : canonicalNext (execDspDone q s) :=
  canonicalNext_next.2 (hallOp_wf _ _ _ w fun x c t w => by simp [w])

@[simp] theorem execDspSeal_wf {s : State} (q : QueueId) (w : Memory.wf s.mem = true) : canonicalNext (execDspSeal q s) := by
  simp [execDspSeal, w]

@[simp] theorem execDspPublish_wf {s : State} (q : QueueId) (w : Memory.wf s.mem = true) : canonicalNext (execDspPublish q s) :=
  canonicalNext_next.2 (hallOp_wf _ _ _ w fun x c t w => by
    change canonical _
    dsimp only
    repeat' split
    all_goals simp [canonical, w])

@[simp] theorem execDspRetire_wf {s : State} (q : QueueId) (w : Memory.wf s.mem = true) : canonicalNext (execDspRetire q s) := by
  simp [execDspRetire, w]

@[simp] theorem execSealRangeFree_wf {s : State} (range : Fin 1024) (w : Memory.wf s.mem = true) : canonicalNext (execSealRangeFree range s) := by
  simp [execSealRangeFree, w]

@[simp] theorem execDestroyComplete_wf {s : State} (q : QueueId) (w : Memory.wf s.mem = true) : canonicalNext (execDestroyComplete q s) := by
  simp [execDestroyComplete, w]

/-! ### The arms of Machine/Links -/

@[simp] theorem execDataFlit_wf {s : State} (port : PortId) (f : Flit) (w : Memory.wf s.mem = true) : canonicalNext (execDataFlit port f s) := by
  simp [execDataFlit, w]

@[simp] theorem execIdleFlit_wf {s : State} (port : PortId) (f : Flit) (w : Memory.wf s.mem = true) : canonicalNext (execIdleFlit port f s) := by
  simp [execIdleFlit, w]

@[simp] theorem execNak_wf {s : State} (port : PortId) (f : Flit) (w : Memory.wf s.mem = true) : canonicalNext (execNak port f s) := by
  simp [execNak, w]

@[simp] theorem execReplayTimeout_wf {s : State} (port : PortId) (w : Memory.wf s.mem = true) : canonicalNext (execReplayTimeout port s) := by
  simp only [execReplayTimeout, canonicalNext_next]
  split <;> simp [w]

@[simp] theorem execPortLeaveUp_wf {s : State} (port : PortId) (w : Memory.wf s.mem = true) : canonicalNext (execPortLeaveUp port s) := by
  simp [execPortLeaveUp, w]

@[simp] theorem execHello_wf {s : State} (port : PortId) (h : HelloMsg) (w : Memory.wf s.mem = true) : canonicalNext (execHello port h s) := by
  simp [execHello, w]

@[simp] theorem execPut_wf {s : State} (port : PortId) (cr : Crypt) (w : Memory.wf s.mem = true) : canonicalNext (execPut port cr s) := by
  simp [execPut, w]

@[simp] theorem execGet_wf {s : State} (port : PortId) (cr : Crypt) (w : Memory.wf s.mem = true) : canonicalNext (execGet port cr s) := by
  simp [execGet, w]

@[simp] theorem execAtom_wf {s : State} (port : PortId) (cr : Crypt) (w : Memory.wf s.mem = true) : canonicalNext (execAtom port cr s) := by
  simp [execAtom, w]

@[simp] theorem execSignal_wf {s : State} (port : PortId) (cr : Crypt) (w : Memory.wf s.mem = true) : canonicalNext (execSignal port cr s) := by
  simp [execSignal, w]

@[simp] theorem execAck_wf {s : State} (port : PortId) (cr : Crypt) (w : Memory.wf s.mem = true) : canonicalNext (execAck port cr s) := by
  simp [execAck, w]

@[simp] theorem execData_wf {s : State} (port : PortId) (cr : Crypt) (w : Memory.wf s.mem = true) : canonicalNext (execData port cr s) := by
  simp [execData, w]

@[simp] theorem execErr_wf {s : State} (port : PortId) (cr : Crypt) (w : Memory.wf s.mem = true) : canonicalNext (execErr port cr s) := by
  simp [execErr, w]

@[simp] theorem execTreq_wf {s : State} (port : PortId) (cr : Crypt) (w : Memory.wf s.mem = true) : canonicalNext (execTreq port cr s) := by
  simp [execTreq, w]

@[simp] theorem execTresp_wf {s : State} (port : PortId) (cr : Crypt) (w : Memory.wf s.mem = true) : canonicalNext (execTresp port cr s) := by
  simp [execTresp, w]

@[simp] theorem execEprep_wf {s : State} (port : PortId) (cr : Crypt) (w : Memory.wf s.mem = true) : canonicalNext (execEprep port cr s) := by
  simp [execEprep, w]

@[simp] theorem execEack_wf {s : State} (port : PortId) (cr : Crypt) (w : Memory.wf s.mem = true) : canonicalNext (execEack port cr s) := by
  simp [execEack, w]

@[simp] theorem execEcommit_wf {s : State} (port : PortId) (cr : Crypt) (w : Memory.wf s.mem = true) : canonicalNext (execEcommit port cr s) := by
  simp [execEcommit, w]

@[simp] theorem execEabandon_wf {s : State} (port : PortId) (cr : Crypt) (w : Memory.wf s.mem = true) : canonicalNext (execEabandon port cr s) := by
  simp [execEabandon, w]

@[simp] theorem execStopreq_wf {s : State} (port : PortId) (cr : Crypt) (w : Memory.wf s.mem = true) : canonicalNext (execStopreq port cr s) := by
  simp [execStopreq, w]

@[simp] theorem execTransitForward_wf {s : State} (port : PortId) (ch : Fin 2) (w : Memory.wf s.mem = true) :
    canonicalNext (execTransitForward port ch s) := by
  simp [execTransitForward, w]

@[simp] theorem execLinkTimeoutExpiry_wf {s : State} (tid : BitVec 16) (w : Memory.wf s.mem = true) :
    canonicalNext (execLinkTimeoutExpiry tid s) := by
  simp [execLinkTimeoutExpiry, w]

@[simp] theorem execGapTimeout_wf {s : State} (stream : StreamId) (w : Memory.wf s.mem = true) : canonicalNext (execGapTimeout stream s) := by
  simp [execGapTimeout, w]

@[simp] theorem execTimeExchange_wf {s : State} (w : Memory.wf s.mem = true) : canonicalNext (execTimeExchange s) := by
  simp [execTimeExchange, w]

@[simp] theorem execTlockTimeout_wf {s : State} (w : Memory.wf s.mem = true) : canonicalNext (execTlockTimeout s) := by
  simp [execTlockTimeout, w]

@[simp] theorem execEpochCommitTime_wf {s : State} (w : Memory.wf s.mem = true) : canonicalNext (execEpochCommitTime s) := by
  simp [execEpochCommitTime, w]

@[simp] theorem execEpochAbandonTimeout_wf {s : State} (w : Memory.wf s.mem = true) : canonicalNext (execEpochAbandonTimeout s) := by
  simp [execEpochAbandonTimeout, w]

@[simp] theorem execMark_wf {s : State} (port : PortId) (f : Flit) (w : Memory.wf s.mem = true) : canonicalNext (execMark port f s) := by
  simp [execMark, w]

@[simp] theorem execResumeMark_wf {s : State} (port : PortId) (f : Flit) (w : Memory.wf s.mem = true) :
    canonicalNext (execResumeMark port f s) := by
  simp [execResumeMark, w]

/-! ### The arms of Machine/Prefix -/

@[simp] theorem execLookupRequest_wf {s : State} (sq : SquareId) (req : Nat) (w : Memory.wf s.mem = true) :
    canonicalNext (execLookupRequest sq req s) := by
  simp [execLookupRequest, w]

@[simp] theorem execLookupBlockPin_wf {s : State} (sq : SquareId) (req : Nat) (w : Memory.wf s.mem = true) :
    canonicalNext (execLookupBlockPin sq req s) := by
  simp [execLookupBlockPin, w]

@[simp] theorem execLookupBlockCommit_wf {s : State} (sq : SquareId) (req : Nat) (w : Memory.wf s.mem = true) :
    canonicalNext (execLookupBlockCommit sq req s) := by
  simp [execLookupBlockCommit, w]

@[simp] theorem execLookupResult_wf {s : State} (sq : SquareId) (req : Nat) (w : Memory.wf s.mem = true) :
    canonicalNext (execLookupResult sq req s) := by
  simp [execLookupResult, w]

/-! ### The arms of Machine/Launch -/

@[simp] theorem execLaunchStart_wf {s : State} (launch : Nat) (w : Memory.wf s.mem = true) : canonicalNext (execLaunchStart launch s) := by
  simp [execLaunchStart, w]

@[simp] theorem execLaunchEnd_wf {s : State} (launch : Nat) (w : Memory.wf s.mem = true) : canonicalNext (execLaunchEnd launch s) := by
  simp [execLaunchEnd, w]

/-! ### The arms of Machine/Partition -/

@[simp] theorem execScrubComplete_wf {s : State} (extent : Fin 10240) (w : Memory.wf s.mem = true) :
    canonicalNext (execScrubComplete extent s) := by
  simp [execScrubComplete, w]

@[simp] theorem execBridgeTimeout_wf {s : State} (q : QuarterId) (w : Memory.wf s.mem = true) : canonicalNext (execBridgeTimeout q s) := by
  simp [execBridgeTimeout, w]

@[simp] theorem execPhaseFault_wf {s : State} (q : QuarterId) (w : Memory.wf s.mem = true) : canonicalNext (execPhaseFault q s) := by
  simp [execPhaseFault, w]

@[simp] theorem execFenceComplete_wf {s : State} (q : QuarterId) (w : Memory.wf s.mem = true) : canonicalNext (execFenceComplete q s) := by
  simp [execFenceComplete, w]

@[simp] theorem execRestoreDone_wf {s : State} (q : QuarterId) (selfTest : Bool) (w : Memory.wf s.mem = true) :
    canonicalNext (execRestoreDone q selfTest s) := by
  simp [execRestoreDone, w]

@[simp] theorem execHandoverClean_wf {s : State} (sq : SquareId) (w : Memory.wf s.mem = true) : canonicalNext (execHandoverClean sq s) := by
  simp [execHandoverClean, w]

@[simp] theorem execCoreHalt_wf {s : State} (core : CoreId) (w : Memory.wf s.mem = true) : canonicalNext (execCoreHalt core s) := by
  simp [execCoreHalt, w]

@[simp] theorem execInterruptModerationExpiry_wf {s : State} (p : PartId) (target : IntTarget) (w : Memory.wf s.mem = true) :
    canonicalNext (execInterruptModerationExpiry p target s) := by
  simp [execInterruptModerationExpiry, w]

@[simp] theorem execMsixUnmask_wf {s : State} (fn : PartId) (ev : MsixEvent) (w : Memory.wf s.mem = true) :
    canonicalNext (execMsixUnmask fn ev s) := by
  simp [execMsixUnmask, w]

@[simp] theorem execFunctionLevelReset_wf {s : State} (fn : PartId) (w : Memory.wf s.mem = true) : canonicalNext (execFunctionLevelReset fn s) := by
  simp [execFunctionLevelReset, w]

@[simp] theorem execVfEnableClear_wf {s : State} (vfEnable : Bool) (numVfs : PartId) (w : Memory.wf s.mem = true) :
    canonicalNext (execVfEnableClear vfEnable numVfs s) := by
  simp [execVfEnableClear, w]

@[simp] theorem execPartitionReset_wf {s : State} (p : PartId) (w : Memory.wf s.mem = true) : canonicalNext (execPartitionReset p s) := by
  simp [execPartitionReset, w]

@[simp] theorem execPartitionResetComplete_wf {s : State} (p : PartId) (w : Memory.wf s.mem = true) :
    canonicalNext (execPartitionResetComplete p s) := by
  simp [execPartitionResetComplete, w]

/-! ### The arms of Machine/HostPort -/

@[simp] theorem execHostMemRequest_wf {s : State} (r : HostRequest) (w : Memory.wf s.mem = true) : canonicalNext (execHostMemRequest r s) := by
  simp [execHostMemRequest, w]

@[simp] theorem execHostAtomicop_wf {s : State} (fn : PartId) (tag : Nat) (w : Memory.wf s.mem = true) :
    canonicalNext (execHostAtomicop fn tag s) := by
  simp [execHostAtomicop, w]

@[simp] theorem execConfigRequest_wf {s : State} (fn : PartId) (c : ConfigReq) (w : Memory.wf s.mem = true) :
    canonicalNext (execConfigRequest fn c s) := by
  simp [execConfigRequest, w]

@[simp] theorem execHostWindowCompletion_wf {s : State} (tag : Nat) (c : HostCompletion) (w : Memory.wf s.mem = true) :
    canonicalNext (execHostWindowCompletion tag c s) := by
  simp [execHostWindowCompletion, w]

@[simp] theorem execHostCompletionTimeout_wf {s : State} (tag : Nat) (w : Memory.wf s.mem = true) :
    canonicalNext (execHostCompletionTimeout tag s) := by
  simp [execHostCompletionTimeout, w]

@[simp] theorem execSmbusBlockRead_wf {s : State} (t : SmbusTransaction) (w : Memory.wf s.mem = true) : canonicalNext (execSmbusBlockRead t s) := by
  simp [execSmbusBlockRead, w]

@[simp] theorem execFullService_wf {s : State} (w : Memory.wf s.mem = true) : canonicalNext (execFullService s) := by
  simp [execFullService, w]

/-! ### The arms of Machine/Observe -/

@[simp] theorem execSnapshotTick_wf {s : State} (w : Memory.wf s.mem = true) : canonicalNext (execSnapshotTick s) := by
  simp [execSnapshotTick, w]

@[simp] theorem execErrorRecordArrive_wf {s : State} (idx : Nat) (w : Memory.wf s.mem = true) : canonicalNext (execErrorRecordArrive idx s) := by
  simp [execErrorRecordArrive, w]

@[simp] theorem execErrorRecordAccept_wf {s : State} (w : Memory.wf s.mem = true) : canonicalNext (execErrorRecordAccept s) := by
  simp only [execErrorRecordAccept, canonicalNext_next]
  split <;> simp [w]

@[simp] theorem execTraceRecord_wf {s : State} (idx : Nat) (w : Memory.wf s.mem = true) : canonicalNext (execTraceRecord idx s) := by
  simp [execTraceRecord, w]

/-! ### The arms of Machine/PowerUnit -/

@[simp] theorem execSagDetect_wf {s : State} (mv : Nat) (w : Memory.wf s.mem = true) : canonicalNext (execSagDetect mv s) := by
  simp [execSagDetect, w]

@[simp] theorem execSagHoldExpiry_wf {s : State} (w : Memory.wf s.mem = true) : canonicalNext (execSagHoldExpiry s) := by
  simp [execSagHoldExpiry, w]

@[simp] theorem execBusRecovery_wf {s : State} (mv : Nat) (w : Memory.wf s.mem = true) : canonicalNext (execBusRecovery mv s) := by
  simp [execBusRecovery, w]

@[simp] theorem execBusOvervoltage_wf {s : State} (mv : Nat) (w : Memory.wf s.mem = true) : canonicalNext (execBusOvervoltage mv s) := by
  simp [execBusOvervoltage, w]

@[simp] theorem execSupplyLossStop_wf {s : State} (mv : Nat) (w : Memory.wf s.mem = true) : canonicalNext (execSupplyLossStop mv s) := by
  simp [execSupplyLossStop, w]

@[simp] theorem execSagDurationExpiry_wf {s : State} (w : Memory.wf s.mem = true) : canonicalNext (execSagDurationExpiry s) := by
  simp [execSagDurationExpiry, w]

@[simp] theorem execOvervoltageExpiry_wf {s : State} (w : Memory.wf s.mem = true) : canonicalNext (execOvervoltageExpiry s) := by
  simp [execOvervoltageExpiry, w]

@[simp] theorem execSupplyRecoveryExpiry_wf {s : State} (w : Memory.wf s.mem = true) : canonicalNext (execSupplyRecoveryExpiry s) := by
  simp [execSupplyRecoveryExpiry, w]

@[simp] theorem execGatePowerLoss_wf {s : State} (mv : Nat) (w : Memory.wf s.mem = true) : canonicalNext (execGatePowerLoss mv s) := by
  simp [execGatePowerLoss, w]

@[simp] theorem execBrakeAssert_wf {s : State} (w : Memory.wf s.mem = true) : canonicalNext (execBrakeAssert s) := by
  simp [execBrakeAssert, w]

@[simp] theorem execBrakeRelease_wf {s : State} (w : Memory.wf s.mem = true) : canonicalNext (execBrakeRelease s) := by
  simp [execBrakeRelease, w]

@[simp] theorem execTelemetrySample_wf {s : State} (t : Telemetry) (w : Memory.wf s.mem = true) : canonicalNext (execTelemetrySample t s) := by
  simp [execTelemetrySample, w]

@[simp] theorem execThermalRecovery_wf {s : State} (w : Memory.wf s.mem = true) : canonicalNext (execThermalRecovery s) := by
  simp [execThermalRecovery, w]

@[simp] theorem execControllerEvaluation_wf {s : State} (w : Memory.wf s.mem = true) : canonicalNext (execControllerEvaluation s) := by
  simp [execControllerEvaluation, w]

@[simp] theorem execDormantEntryDone_wf {s : State} (w : Memory.wf s.mem = true) : canonicalNext (execDormantEntryDone s) := by
  simp [execDormantEntryDone, w]

@[simp] theorem execReplicaLoad_wf {s : State} (r : RegionId) (w : Memory.wf s.mem = true) : canonicalNext (execReplicaLoad r s) := by
  simp [execReplicaLoad, w]

@[simp] theorem execResyncWindowExpiry_wf {s : State} (r : RegionId) (w : Memory.wf s.mem = true) : canonicalNext (execResyncWindowExpiry r s) := by
  simp [execResyncWindowExpiry, w]

@[simp] theorem execVenMate_wf {s : State} (w : Memory.wf s.mem = true) : canonicalNext (execVenMate s) := by
  simp [execVenMate, w]

@[simp] theorem execInputPowerGood_wf {s : State} (w : Memory.wf s.mem = true) : canonicalNext (execInputPowerGood s) := by
  simp [execInputPowerGood, w]

@[simp] theorem execVenBreak_wf {s : State} (w : Memory.wf s.mem = true) : canonicalNext (execVenBreak s) := by
  simp [execVenBreak, w]

@[simp] theorem execPerstNAssert_wf {s : State} (w : Memory.wf s.mem = true) : canonicalNext (execPerstNAssert s) := by
  simp [execPerstNAssert, w]

@[simp] theorem execPerstNRelease_wf {s : State} (w : Memory.wf s.mem = true) : canonicalNext (execPerstNRelease s) := by
  simp [execPerstNRelease, w]

@[simp] theorem execStartUpDone_wf {s : State} (w : Memory.wf s.mem = true) : canonicalNext (execStartUpDone s) := by
  simp [execStartUpDone, w]

@[simp] theorem execWarmResetDone_wf {s : State} (w : Memory.wf s.mem = true) : canonicalNext (execWarmResetDone s) := by
  simp [execWarmResetDone, w]

/-! ### The arms of Machine/RegCommands -/

@[simp] theorem execPmpTblLoad_wf {s : State} (sq : SquareId) (w : RegWrite) (wf : Memory.wf s.mem = true) :
    canonicalNext (execPmpTblLoad sq w s) := by
  simp [execPmpTblLoad, wf]

@[simp] theorem execFtnReload_wf {s : State} (w : RegWrite) (wf : Memory.wf s.mem = true) : canonicalNext (execFtnReload w s) := by
  simp [execFtnReload, wf]

@[simp] theorem execFtnSelftest_wf {s : State} (w : RegWrite) (wf : Memory.wf s.mem = true) : canonicalNext (execFtnSelftest w s) := by
  simp [execFtnSelftest, wf]

@[simp] theorem execPtnXtentWrite_wf {s : State} (n : Fin 1280) (w : RegWrite) (wf : Memory.wf s.mem = true) :
    canonicalNext (execPtnXtentWrite n w s) := by
  simp [execPtnXtentWrite, wf]

@[simp] theorem execFence_wf {s : State} (w : RegWrite) (wf : Memory.wf s.mem = true) : canonicalNext (execFence w s) := by
  simp [execFence, wf]

@[simp] theorem execRestore_wf {s : State} (w : RegWrite) (wf : Memory.wf s.mem = true) : canonicalNext (execRestore w s) := by
  simp [execRestore, wf]

@[simp] theorem execQueueBind_wf {s : State} (q : QueueId) (w : RegWrite) (wf : Memory.wf s.mem = true) : canonicalNext (execQueueBind q w s) := by
  simp [execQueueBind, wf]

@[simp] theorem execDoorbell_wf {s : State} (q : QueueId) (w : RegWrite) (wf : Memory.wf s.mem = true) : canonicalNext (execDoorbell q w s) := by
  simp [execDoorbell, wf]

@[simp] theorem execQueueEnable_wf {s : State} (q : QueueId) (w : RegWrite) (wf : Memory.wf s.mem = true) :
    canonicalNext (execQueueEnable q w s) := by
  simp [execQueueEnable, wf]

@[simp] theorem execDestroy_wf {s : State} (q : QueueId) (w : RegWrite) (wf : Memory.wf s.mem = true) : canonicalNext (execDestroy q w s) := by
  simp [execDestroy, wf]

@[simp] theorem execHandover_wf {s : State} (n : Fin 16) (w : RegWrite) (wf : Memory.wf s.mem = true) : canonicalNext (execHandover n w s) := by
  simp [execHandover, wf]

@[simp] theorem execPtnHartWrite_wf {s : State} (core : CoreId) (w : RegWrite) (wf : Memory.wf s.mem = true) :
    canonicalNext (execPtnHartWrite core w s) := by
  simp [execPtnHartWrite, wf]

@[simp] theorem execPrst_wf {s : State} (w : RegWrite) (wf : Memory.wf s.mem = true) : canonicalNext (execPrst w s) := by
  simp [execPrst, wf]

@[simp] theorem wf_execWarm {s : State} (w : RegWrite) (wf : Memory.wf s.mem = true) : canonicalNext (execWarm w s) := by
  simp [execWarm, wf]

@[simp] theorem execCold_wf {s : State} (w : RegWrite) (wf : Memory.wf s.mem = true) : canonicalNext (execCold w s) := by
  simp [execCold, wf]

@[simp] theorem execEnter_wf {s : State} (w : RegWrite) (wf : Memory.wf s.mem = true) : canonicalNext (execEnter w s) := by
  simp [execEnter, wf]

@[simp] theorem execWake_wf {s : State} (w : RegWrite) (wf : Memory.wf s.mem = true) : canonicalNext (execWake w s) := by
  simp [execWake, wf]

@[simp] theorem execLnkIdWrite_wf {s : State} (w : RegWrite) (wf : Memory.wf s.mem = true) : canonicalNext (execLnkIdWrite w s) := by
  simp [execLnkIdWrite, wf]

@[simp] theorem execLnkTimeWrite_wf {s : State} (w : RegWrite) (wf : Memory.wf s.mem = true) : canonicalNext (execLnkTimeWrite w s) := by
  simp [execLnkTimeWrite, wf]

@[simp] theorem execLnkEpochGo_wf {s : State} (w : RegWrite) (wf : Memory.wf s.mem = true) : canonicalNext (execLnkEpochGo w s) := by
  simp [execLnkEpochGo, wf]

@[simp] theorem execObsStopGo_wf {s : State} (w : RegWrite) (wf : Memory.wf s.mem = true) : canonicalNext (execObsStopGo w s) := by
  simp [execObsStopGo, wf]

@[simp] theorem execObsStopResume_wf {s : State} (w : RegWrite) (wf : Memory.wf s.mem = true) : canonicalNext (execObsStopResume w s) := by
  simp [execObsStopResume, wf]

@[simp] theorem execSnapshotArm_wf {s : State} (w : RegWrite) (wf : Memory.wf s.mem = true) : canonicalNext (execSnapshotArm w s) := by
  simp [execSnapshotArm, wf]

@[simp] theorem execObsElogRingWrite_wf {s : State} (p : PartId) (w : RegWrite) (wf : Memory.wf s.mem = true) :
    canonicalNext (execObsElogRingWrite p w s) := by
  simp [execObsElogRingWrite, wf]

@[simp] theorem execObsTrcRingWrite_wf {s : State} (p : PartId) (w : RegWrite) (wf : Memory.wf s.mem = true) :
    canonicalNext (execObsTrcRingWrite p w s) := by
  simp [execObsTrcRingWrite, wf]

@[simp] theorem execObsTrcMark_wf {s : State} (p : PartId) (w : RegWrite) (wf : Memory.wf s.mem = true) : canonicalNext (execObsTrcMark p w s) := by
  simp [execObsTrcMark, wf]

@[simp] theorem execLnkPortWrite_wf {s : State} (port : PortId) (w : RegWrite) (wf : Memory.wf s.mem = true) :
    canonicalNext (execLnkPortWrite port w s) := by
  simp [execLnkPortWrite, wf]

@[simp] theorem execRegisterWrite_wf {s : State} (reg : Nat) (w : RegWrite) (wf : Memory.wf s.mem = true) :
    canonicalNext (execRegisterWrite reg w s) := by
  simp [execRegisterWrite, wf]

theorem exec_wf {s : State} (c : Instr) (w : Memory.wf s.mem = true) : canonicalNext (exec c s) := by
  cases c <;> simp [exec, w]

theorem step_wf {s : State} (w : Memory.wf s.mem = true) : canonicalNext (step s) := by
  unfold step
  split
  · simp [w]
  · exact exec_wf _ w

/-- Settles O4: by cases on the command; each arm is made of operations that leave memory alone or keep its form. -/
theorem stepKeepsMemoryCanonical : Obligations.StepKeepsMemoryCanonical := by
  unfold Obligations.StepKeepsMemoryCanonical
  exact fun s t w next => step_wf w t next

end Sys2Proof.Proofs

/-! Fences of quarters (R294 to R297): what a quarter loses, and what it leaves alone. -/

namespace Sys2Proof.Proofs
open Sys2Proof Sys2Proof.Machine

/-- What one entry brings about at its turn, when every other entry keeps what stood before it and what stands after it. -/
theorem forAll_at {α : Type} {f : State → α → State} {P Q : State → Prop} {xs : List α} {x : α} (nodup : xs.Nodup) (mem : x ∈ xs)
    (before : ∀ t y, y ≠ x → P t → P (f t y)) (makes : ∀ t, P t → Q (f t x)) (after : ∀ t y, y ≠ x → Q t → Q (f t y)) {s : State}
    (h : P s) : Q (forAll xs f s) := by
  induction xs generalizing s with
  | nil => cases mem
  | cons y xs ih =>
    obtain ⟨absent, nodup⟩ := List.nodup_cons.mp nodup
    rcases List.mem_cons.mp mem with rfl | later
    · exact forAll_keeps (s := f s x) (fun t y hy => after t y (fun same => absent (same ▸ hy))) (makes s h)
    · exact ih nodup later (before s y (fun same => absent (same ▸ later)) h)

theorem nodup_upto (n : Nat) : (upto n).Nodup := List.nodup_range

theorem mem_upto {k n : Nat} : k ∈ upto n ↔ k < n := List.mem_range

/-! Traces and ports. -/

/-- Besides what ports hold, send and count the state is unchanged. -/
def onlyPorts (s t : State) : Prop :=
  t = { s with links := t.links, parts := t.parts, hall := t.hall, ctr := t.ctr, trcQ := t.trcQ, out := t.out }

theorem onlyPorts.trans {s t u : State} (h : onlyPorts s t) (k : onlyPorts t u) : onlyPorts s u := by
  unfold onlyPorts at *
  rw [k, h]

theorem onlyPorts_traceRaw (s : State) (ring : Nat) (r : TrcRecord) : onlyPorts s (s.traceRaw ring r) := by
  unfold State.traceRaw
  split <;> exact rfl

theorem onlyCounts.onlyPorts {s t : State} (h : onlyCounts s t) : onlyPorts s t := by
  unfold onlyCounts at h
  rw [h]
  exact rfl

theorem onlyPorts_hallTime (s : State) (p ns : Nat) : onlyPorts s (s.hallTime p ns) := by
  unfold State.hallTime
  extract_lets t
  have counted : onlyPorts s t := ((onlyCounts_count s unitHall 2 ns).trans (onlyCounts_count _ unitHall (16 + p) ns)).onlyPorts
  clear_value t
  split
  · exact counted
  · have charged (x : HallTurn) : onlyPorts t { t with hall := x } := rfl
    exact counted.trans (charged _)

theorem onlyPorts_traceCost (s : State) (cls part : Nat) : onlyPorts s (s.traceCost cls part) := by
  unfold State.traceCost
  split
  · exact onlyPorts_hallTime s part 10
  · exact rfl

theorem onlyPorts_trace (s : State) (cls event part unit a b : Nat) : onlyPorts s (s.trace cls event part unit a b) := by
  unfold State.trace
  split
  · exact (onlyPorts_traceRaw ..).trans (onlyPorts_traceCost ..)
  · exact rfl

theorem onlyPorts_enterPortState (s : State) (n st : Nat) : onlyPorts s (s.enterPortState n st) := by
  have moved : onlyPorts s (s.modPort n (fun p => { p with state := st })) := rfl
  have traced := moved.trans (onlyPorts_trace _ 6 0x0F 0 (unitPort n) (n + 256 * st) 0)
  unfold State.enterPortState
  extract_lets t
  have entered : onlyPorts s t := traced
  clear_value t
  split
  · have sent : onlyPorts t (t.emit (.ctl n 1 (t.helloTxn n).wire)) := rfl
    exact entered.trans sent
  · exact entered

theorem onlyPorts_leaveUp (s : State) (n st : Nat) : onlyPorts s (s.leaveUp n st) := by
  unfold State.leaveUp
  refine onlyPorts.trans ?_ (onlyPorts_enterPortState _ n st)
  exact rfl

theorem onlyPorts_setPortDown (s : State) (n st : Nat) : onlyPorts s (s.setPortDown n st) := by
  unfold State.setPortDown
  split
  · exact onlyPorts_leaveUp s n st
  · split
    · exact rfl
    · exact onlyPorts_enterPortState s n st

/-! What a quarter that is lost leaves alone. -/

/-- A square holds nothing. -/
def emptyAt (v : Nat) (s : State) : Prop := s.sq v = {}

/-- Fences, supply, waiting retries and memory are as they were, and a square that held nothing still holds nothing. -/
structure quarterFrame (s t : State) : Prop where
  fences : t.fences = s.fences
  power : t.power = s.power
  retries : t.retries = s.retries
  mem : t.mem = s.mem
  blank : ∀ v, s.sq v = {} → t.sq v = {}

theorem quarterFrame.refl (s : State) : quarterFrame s s := ⟨rfl, rfl, rfl, rfl, fun _ => id⟩

theorem quarterFrame.trans {s t u : State} (h : quarterFrame s t) (k : quarterFrame t u) : quarterFrame s u :=
  ⟨k.fences.trans h.fences, k.power.trans h.power, k.retries.trans h.retries, k.mem.trans h.mem, fun v => k.blank v ∘ h.blank v⟩

theorem quarterFrame.forAll {α : Type} {f : State → α → State} (keeps : ∀ t x, quarterFrame t (f t x)) (xs : List α) (s : State) :
    quarterFrame s (forAll xs f s) :=
  forAll_keeps (P := quarterFrame s) (fun t x _ h => h.trans (keeps t x)) (.refl s)

theorem onlyPorts.quarterFrame {s t : State} (h : onlyPorts s t) : quarterFrame s t := by
  unfold onlyPorts at h
  exact ⟨by rw [h], by rw [h], by rw [h], by rw [h], fun v none => by rw [h]; exact none⟩

theorem stopSquare_blank {s : State} {v : Nat} (blank : s.sq v = {}) (u : Nat) : (s.stopSquare u).sq v = {} := by
  unfold State.stopSquare
  split
  · next running =>
    have other : v ≠ u := by
      rintro rfl
      rw [blank] at running
      cases running
    rwa [State.modSq_sq, if_neg other]
  · exact blank

theorem abortLaunch_blank {s : State} {v : Nat} (blank : s.sq v = {}) (id : Nat) : (s.abortLaunch id).sq v = {} := by
  unfold State.abortLaunch
  split
  · exact blank
  · split
    · exact blank
    · exact blank
    · split
      · exact blank
      · refine forAll_keeps (P := fun t => t.sq v = {}) (fun t u _ h => ?_) blank
        split
        · exact stopSquare_blank h u
        · exact h

theorem quarterFrame_abortOn (s : State) (q : Nat) : quarterFrame s (s.abortOn q) := by
  refine .forAll (fun t id => ?_) (s.launchesOn q) s
  have stops := (abortLaunch_spec t id).1.trans (onlyStops_modLaunch _ id (fun l => { l with reports := l.reports ++ lostReports s q l }))
  have idle (v : Nat) (h : t.sq v = {}) := abortLaunch_blank h id
  unfold onlyStops at stops
  exact ⟨by rw [stops], by rw [stops], by rw [stops], by rw [stops], idle⟩

theorem onlyHomes_performAccepted (s : State) (unit part g : Nat) (k : AccessKind) : onlyHomes s (s.performAccepted unit part g k) := by
  unfold State.performAccepted
  extract_lets x
  split
  · exact .refl s
  · split
    · exact onlyHomes_homeAtomic ..
    · exact onlyHomes_homeAtomic ..
    · exact .refl s

theorem onlyHomes_performLost (s : State) (src : AccessSource) : onlyHomes s (s.performLost src) := by
  unfold State.performLost
  split
  · split
    · split
      · exact onlyHomes_performAccepted ..
      · exact .refl s
    · exact .refl s
  · exact onlyHomes_performAccepted ..
  · exact onlyHomes_performAccepted ..
  · exact .refl s

theorem onlyHomes_dropRetries (s : State) (q : Nat) :
    onlyHomes { s with retries := s.retries.filter (fun r => !sourceInQuarter r.src q) } (s.dropRetries q) :=
  forAll_keeps (P := onlyHomes _) (fun t r _ h => h.trans (onlyHomes_performLost t r.src)) (.refl _)

theorem dropRetries_elsewhere {s : State} {q : Nat} (elsewhere : retriesElsewhere s q) : (s.dropRetries q).mem = s.mem := by
  have none : s.retries.filter (fun r => sourceInQuarter r.src q) = [] :=
    List.filter_eq_nil_iff.mpr fun r mem => by rw [elsewhere r mem]; exact Bool.false_ne_true
  unfold State.dropRetries
  rw [none]
  rfl

/-- What a quarter loses (R295): its squares' content and its retries. -/
structure quarterLost (q : Nat) (s t : State) : Prop where
  fences : t.fences = s.fences
  power : t.power = s.power
  retries : t.retries = s.retries.filter (fun r => !sourceInQuarter r.src q)
  mem : retriesElsewhere s q → t.mem = s.mem
  empty : ∀ u, u < 16 → t.sq (16 * q + u) = {}
  blank : ∀ v, s.sq v = {} → t.sq v = {}

theorem mem_squaresOf {u q : Nat} (h : u < 16) : 16 * q + u ∈ squaresOf q := List.mem_map.mpr ⟨u, mem_upto.mpr h, rfl⟩

theorem quarterFrame_clearSquare (s : State) (u : Nat) : quarterFrame s ((s.setSq u {}).clearSquareCounters u) :=
  ⟨rfl, rfl, rfl, rfl, fun v blank => by
    show (s.setSq u {}).sq v = {}
    rw [State.setSq_sq]
    split
    · rfl
    · exact blank⟩

theorem clearSquareCounters_sq (s : State) (u v : Nat) : (s.clearSquareCounters u).sq v = s.sq v := rfl

theorem emptyAt_clearSquares (s : State) {u q : Nat} (h : u < 16) :
    emptyAt (16 * q + u) (forAll (squaresOf q) (fun t u => (t.setSq u {}).clearSquareCounters u) s) :=
  forAll_reaches (f := fun t u => (t.setSq u {}).clearSquareCounters u) (P := fun _ => True) (Q := emptyAt (16 * q + u)) (mem_squaresOf h)
    (fun t _ => (clearSquareCounters_sq ..).trans (State.setSq_sq_same t _ {})) (fun _ _ _ => trivial)
    (fun t v => (quarterFrame_clearSquare t v).blank _) trivial

theorem quarterFrame_modHart (s : State) (c : Nat) (f : Hart → Hart) : quarterFrame s (s.modHart c f) := ⟨rfl, rfl, rfl, rfl, fun _ => id⟩

theorem quarterFrame_setExtent (s : State) (n : Nat) (e : Extent) : quarterFrame s (s.setExtent n e) := ⟨rfl, rfl, rfl, rfl, fun _ => id⟩

theorem quarterFrame_modStop (s : State) (f : Stop → Stop) : quarterFrame s (s.modStop f) := ⟨rfl, rfl, rfl, rfl, fun _ => id⟩

theorem quarterFrame_dropAnswers (s : State) (q : Nat) : quarterFrame s (s.dropAnswers q) := ⟨rfl, rfl, rfl, rfl, fun _ => id⟩

theorem quarterLost.trans {q : Nat} {s t u : State} (h : quarterLost q s t) (k : quarterFrame t u) : quarterLost q s u where
  fences := k.fences.trans h.fences
  power := k.power.trans h.power
  retries := k.retries.trans h.retries
  mem := fun elsewhere => k.mem.trans (h.mem elsewhere)
  empty := fun v below => k.blank _ (h.empty v below)
  blank := fun v none => k.blank v (h.blank v none)

/-- A quarter's launches are aborted, its retries ended and its squares emptied. -/
theorem quarterLost_of_dropped {q : Nat} {s a d t : State} (aborted : quarterFrame s a)
    (dropped : onlyHomes { a with retries := a.retries.filter (fun r => !sourceInQuarter r.src q) } d)
    (elsewhere : retriesElsewhere a q → d.mem = a.mem) (cleared : quarterFrame d t) (empty : ∀ u, u < 16 → emptyAt (16 * q + u) t) :
    quarterLost q s t := by
  have memory (h : retriesElsewhere s q) : d.mem = s.mem :=
    (elsewhere (fun r mem => h r (aborted.retries ▸ mem))).trans aborted.mem
  unfold onlyHomes at dropped
  have fences : d.fences = a.fences := by rw [dropped]
  have power : d.power = a.power := by rw [dropped]
  have retries : d.retries = a.retries.filter (fun r => !sourceInQuarter r.src q) := by rw [dropped]
  have squares : d.squares = a.squares := by rw [dropped]
  exact {
    fences := (cleared.fences.trans fences).trans aborted.fences
    power := (cleared.power.trans power).trans aborted.power
    retries := (cleared.retries.trans retries).trans (congrArg _ aborted.retries)
    mem := fun h => cleared.mem.trans (memory h)
    empty := empty
    blank := fun v none => cleared.blank v (by rw [State.sq, squares]; exact aborted.blank v none) }

theorem quarterLost_loseQuarter (s : State) (q : Nat) : quarterLost q s (s.loseQuarter q) := by
  have aborted := quarterFrame_abortOn s q
  have dropped := onlyHomes_dropRetries (s.abortOn q) q
  have elsewhere := dropRetries_elsewhere (s := s.abortOn q) (q := q)
  unfold State.loseQuarter
  generalize s.abortOn q = a at *
  generalize a.dropRetries q = d at *
  extract_lets s1 s2 s3 s4 s5
  have answers : quarterFrame d s1 := quarterFrame_dropAnswers d q
  have squares : quarterFrame s1 s2 := .forAll quarterFrame_clearSquare _ _
  have cores : quarterFrame s2 s3 := .forAll (fun t h => quarterFrame_modHart ..) _ _
  have ports : quarterFrame s3 s4 := .forAll (fun t n => (onlyPorts_setPortDown t n 3).quarterFrame) _ _
  have extents : quarterFrame s4 s5 := .forAll (fun t i => quarterFrame_setExtent ..) _ _
  have empty (u : Nat) (h : u < 16) : emptyAt (16 * q + u) s2 := emptyAt_clearSquares s1 h
  clear_value s5 s4 s3 s2 s1
  exact (quarterLost_of_dropped aborted dropped elsewhere (answers.trans squares) empty).trans
    (((cores.trans ports).trans extents).trans (quarterFrame_modStop s5 _))

end Sys2Proof.Proofs

/-! Fences begin (R294 to R297, R299). -/

namespace Sys2Proof.Proofs
open Sys2Proof Sys2Proof.Machine

theorem fence_of_fences {s t : State} (h : t.fences = s.fences) (q : Nat) : t.fence q = s.fence q := by
  unfold State.fence
  rw [h]

/-- A fence for a cause, as its quarter holds it until it completes. -/
def fenceBegun (cause : Nat) (f : QuarterFence) : QuarterFence := { f with fenced := true, busy := true, restoring := false, pendCause := cause }

/-- Quarter `q` goes out of service for a cause: its squares hold nothing, its retries have ended, and other quarters have the fences they had. -/
structure quarterFenced (q cause : Nat) (s t : State) : Prop where
  fence : t.fence q = fenceBegun cause (s.fence q)
  others : ∀ k, k ≠ q → t.fence k = s.fence k
  power : t.power = s.power
  empty : ∀ u, u < 16 → t.sq (16 * q + u) = {}
  blank : ∀ v, s.sq v = {} → t.sq v = {}
  retries : t.retries = s.retries.filter (fun r => !sourceInQuarter r.src q)
  mem : retriesElsewhere s q → t.mem = s.mem

theorem quarterFenced.retriesElsewhere {q cause : Nat} {s t : State} (h : quarterFenced q cause s t) : retriesElsewhere t q := by
  intro r mem
  rw [h.retries] at mem
  simpa using (List.mem_filter.mp mem).2

theorem quarterFenced_beginFence {s : State} {q : Nat} (live : (s.fence q).fenced = false) (idle : (s.fence q).busy = false) (cause : Nat) :
    quarterFenced q cause s (s.beginFence q cause) := by
  have run : s.beginFence q cause = (s.modFence q (fenceBegun cause)).loseQuarter q :=
    if_neg (by rw [live, idle]; exact Bool.false_ne_true)
  have lost := quarterLost_loseQuarter (s.modFence q (fenceBegun cause)) q
  rw [run]
  generalize (s.modFence q (fenceBegun cause)).loseQuarter q = t at lost
  exact {
    fence := (fence_of_fences lost.fences q).trans (State.modFence_fence_same s q _)
    others := fun k other => (fence_of_fences lost.fences k).trans (by rw [State.modFence_fence, if_neg other])
    power := lost.power
    empty := lost.empty
    blank := lost.blank
    retries := lost.retries
    mem := lost.mem }

theorem beginFence_of_fenced {s : State} {q : Nat} (out : (s.fence q).fenced = true ∨ (s.fence q).busy = true) (cause : Nat) :
    s.beginFence q cause = s := by
  unfold State.beginFence
  rcases out with h | h <;> simp [h]

theorem beginRestore_of_fenced {s : State} {q : Nat} (out : (s.fence q).fenced = true) (idle : (s.fence q).busy = false) :
    s.beginRestore q = s.modFence q (fun f => { f with busy := true, restoring := true }) := if_pos ⟨out, idle⟩

/-! A write of PTN_QFENCE_CTL (R294, R298, R299): what it does for one quarter, and what the others keep. -/

/-- Other quarters keep their fences, an empty square stays empty, retries only end, and memory is written only where one ends. -/
structure fenceKeeps (q : Nat) (s t : State) : Prop where
  others : ∀ k, k ≠ q → t.fence k = s.fence k
  blank : ∀ v, s.sq v = {} → t.sq v = {}
  retries : ∀ r, r ∈ t.retries → r ∈ s.retries
  mem : s.retries = [] → t.mem = s.mem

theorem fenceKeeps.refl (q : Nat) (s : State) : fenceKeeps q s s := ⟨fun _ _ => rfl, fun _ => id, fun _ => id, fun _ => rfl⟩

theorem quarterFenced.fenceKeeps {q cause : Nat} {s t : State} (h : quarterFenced q cause s t) : fenceKeeps q s t where
  others := h.others
  blank := h.blank
  retries := fun r mem => (List.mem_filter.mp (h.retries ▸ mem)).1
  mem := fun none => h.mem (fun r mem => by rw [none] at mem; cases mem)

theorem fenceKeeps_beginFence (s : State) (q cause : Nat) : fenceKeeps q s (s.beginFence q cause) := by
  cases live : (s.fence q).fenced with
  | true => rw [beginFence_of_fenced (.inl live)]; exact .refl q s
  | false =>
    cases idle : (s.fence q).busy with
    | true => rw [beginFence_of_fenced (.inr idle)]; exact .refl q s
    | false => exact (quarterFenced_beginFence live idle cause).fenceKeeps

theorem fenceKeeps_beginRestore (s : State) (q : Nat) : fenceKeeps q s (s.beginRestore q) := by
  unfold State.beginRestore
  extract_lets f
  split
  · exact ⟨fun k other => by rw [State.modFence_fence, if_neg other], fun _ => id, fun _ => id, fun _ => rfl⟩
  · exact .refl q s

/-- What a write of `v` to PTN_QFENCE_CTL does for one quarter. -/
def fenceStep (v : Nat) (t : State) (q : Nat) : State :=
  if v.testBit q && v.testBit (8 + q) then t
  else if v.testBit q then t.beginFence q 1
  else if v.testBit (8 + q) then t.beginRestore q
  else t

theorem writeFenceCtl_eq (s : State) (v : Nat) : s.writeFenceCtl v = forAll (upto 8) (fenceStep v) s := rfl

theorem fenceStep_fences {v q : Nat} (asked : v.testBit q = true) (only : v.testBit (8 + q) = false) (t : State) :
    fenceStep v t q = t.beginFence q 1 := by
  simp [fenceStep, asked, only]

theorem fenceStep_restores {v q : Nat} (only : v.testBit q = false) (asked : v.testBit (8 + q) = true) (t : State) :
    fenceStep v t q = t.beginRestore q := by
  simp [fenceStep, asked, only]

theorem fenceStep_both {v q : Nat} (both : v.testBit q = v.testBit (8 + q)) (t : State) : fenceStep v t q = t := by
  unfold fenceStep
  rw [← both]
  cases v.testBit q <;> rfl

theorem fenceKeeps_fenceStep (v : Nat) (t : State) (q : Nat) : fenceKeeps q t (fenceStep v t q) := by
  unfold fenceStep
  split
  · exact .refl q t
  · split
    · exact fenceKeeps_beginFence t q 1
    · split
      · exact fenceKeeps_beginRestore t q
      · exact .refl q t

theorem writeFenceCtl_sameMemory {s : State} (none : s.retries = []) (v : Nat) : sameMemory s (s.writeFenceCtl v) := by
  have kept : (s.writeFenceCtl v).retries = [] ∧ memoryIs s.mem (s.writeFenceCtl v) := by
    rw [writeFenceCtl_eq]
    refine forAll_keeps (P := fun t => t.retries = [] ∧ memoryIs s.mem t) (fun t q _ h => ?_) ⟨none, rfl⟩
    obtain ⟨empty, same⟩ := h
    have keeps := fenceKeeps_fenceStep v t q
    have gone : (fenceStep v t q).retries = [] := List.eq_nil_iff_forall_not_mem.mpr fun r mem => by
      have old := keeps.retries r mem
      rw [empty] at old
      cases old
    exact ⟨gone, (keeps.mem empty).trans same⟩
  exact sameMemory.of_mem kept.2


/-- What the write makes of one quarter is made at that quarter's turn; at the others' turns it keeps its fence, and what is empty stays so. -/
theorem writeFenceCtl_at {s : State} {v q : Nat} (below : q < 8) {Q : State → Prop} (makes : ∀ t, t.fence q = s.fence q → Q (fenceStep v t q))
    (after : ∀ t k, k ≠ q → fenceKeeps k t (fenceStep v t k) → Q t → Q (fenceStep v t k)) : Q (s.writeFenceCtl v) := by
  rw [writeFenceCtl_eq]
  exact forAll_at (P := fun t => t.fence q = s.fence q) (nodup_upto 8) (mem_upto.mpr below)
    (fun t k other h => ((fenceKeeps_fenceStep v t k).others q other.symm).trans h) makes
    (fun t k other => after t k other (fenceKeeps_fenceStep v t k)) rfl

/-- A quarter after the write of FENCE. -/
structure quarterOut (q : Nat) (f : QuarterFence) (t : State) : Prop where
  fence : t.fence q = f
  empty : ∀ u, u < 16 → t.sq (16 * q + u) = {}
  elsewhere : retriesElsewhere t q

theorem writeFenceCtl_fences {s : State} {v q : Nat} (below : q < 8) (asked : v.testBit q = true) (only : v.testBit (8 + q) = false)
    (live : (s.fence q).fenced = false) (idle : (s.fence q).busy = false) :
    quarterOut q (fenceBegun 1 (s.fence q)) (s.writeFenceCtl v) := by
  refine writeFenceCtl_at below (fun t same => ?_) (fun t k other keeps out => ?_)
  · rw [fenceStep_fences asked only]
    have fenced := quarterFenced_beginFence (s := t) (q := q) (by rw [same, live]) (by rw [same, idle]) 1
    exact ⟨fenced.fence.trans (by rw [same]), fenced.empty, fenced.retriesElsewhere⟩
  · exact ⟨(keeps.others q other.symm).trans out.fence, fun u below => keeps.blank _ (out.empty u below),
      fun r mem => out.elsewhere r (keeps.retries r mem)⟩

theorem writeFenceCtl_restores {s : State} {v q : Nat} (below : q < 8) (only : v.testBit q = false) (asked : v.testBit (8 + q) = true)
    (out : (s.fence q).fenced = true) (idle : (s.fence q).busy = false) :
    (s.writeFenceCtl v).fence q = { s.fence q with busy := true, restoring := true } := by
  refine writeFenceCtl_at (Q := fun t => t.fence q = { s.fence q with busy := true, restoring := true }) below (fun t same => ?_)
    (fun t k other keeps h => (keeps.others q other.symm).trans h)
  rw [fenceStep_restores only asked, beginRestore_of_fenced (by rw [same, out]) (by rw [same, idle]), State.modFence_fence_same, same]

theorem writeFenceCtl_both {s : State} {v q : Nat} (below : q < 8) (both : v.testBit q = v.testBit (8 + q)) :
    (s.writeFenceCtl v).fence q = s.fence q :=
  writeFenceCtl_at (Q := fun t => t.fence q = s.fence q) below (fun t same => by rw [fenceStep_both both, same])
    (fun t k other keeps h => (keeps.others q other.symm).trans h)

/-! The commands. -/

/-- A write of 64 bits to a register that needs no wake does what the register's rule says, and is answered; beside that counters move. -/
theorem registerCommand_of_quiet {s u : State} {off : Nat} {w : RegWrite} {r : Reg} (allowed : writeAllowed s off w r)
    (aligned : off % 8 = 0) (quiet : r.wakes = false) (rule : s.regWrite r (presented w) = (u, 0)) :
    onlyCounts { u with out := .resp w.unit 0 [] :: u.out } (s.registerCommand off w) := by
  obtain ⟨found, may, full, -, reached, holds, behind, whole⟩ := allowed
  have addr : writeAddr off w = regBase + off := by
    rw [writeAddr, halfOffset, full]
    exact congrArg (regBase + ·) (show off / 8 * 8 + 0 = off by omega)
  rw [← addr] at found
  have stored := storeOf_performed found (sizeFits_full r off full) may whole
  rw [registerCommand_performs ⟨reached, holds, behind⟩ (.inr (asleep_of_plain found quiet))]
  exact performWrite_done (stored.trans rule)

theorem presented_full {w : RegWrite} (full : w.half = .full) : halfBits (presented w).half (presented w).val.toNat = w.val.toNat := by
  have whole : halfBits .full w.val.toNat = w.val.toNat := Nat.mod_eq_of_lt w.val.isLt
  rw [show (presented w).half = w.half from rfl, halfBits_presented, full, whole]

theorem regWrite_fenceCtl {s : State} {w : RegWrite} (full : w.half = .full) :
    s.regWrite .fenceCtl (presented w) = (s.writeFenceCtl w.val.toNat, 0) := by
  simp only [State.regWrite, presented_full full]

/-- Both instructions of PTN_QFENCE_CTL are a write of it (R294, R298). -/
theorem exec_fenceCtl {w : RegWrite} {i : Instr} (h : i = .fence w ∨ i = .restore w) (s : State) :
    exec i s = .next (s.registerCommand 0x5A02800 w) := by
  rcases h with rfl | rfl <;> rfl

theorem exec_fence_or_restore {s : State} {w : RegWrite} {i : Instr} (allowed : writeAllowed s 0x5A02800 w .fenceCtl)
    (either : i = .fence w ∨ i = .restore w) :
    ∃ t, exec i s = .next t ∧ t.out.head? = some (.resp w.unit 0 []) ∧ (s.retries = [] → sameMemory s t) ∧ ∀ q, q < 8 →
      let v := w.val.toNat
      (v.testBit q = true → v.testBit (8 + q) = false → (s.fence q).fenced = false → (s.fence q).busy = false →
        t.fence q = { s.fence q with fenced := true, busy := true, restoring := false, pendCause := 1 } ∧
        (∀ u, u < 16 → t.sq (16 * q + u) = {}) ∧ retriesElsewhere t q) ∧
      (v.testBit q = false → v.testBit (8 + q) = true → (s.fence q).fenced = true → (s.fence q).busy = false →
        t.fence q = { s.fence q with busy := true, restoring := true }) ∧
      (v.testBit q = v.testBit (8 + q) → t.fence q = s.fence q) := by
  have full := allowed.2.2.1
  have done := registerCommand_of_quiet allowed (by decide) rfl (regWrite_fenceCtl full)
  have memory (none : s.retries = []) := writeFenceCtl_sameMemory none w.val.toNat
  have fences {q : Nat} := @writeFenceCtl_fences s w.val.toNat q
  have restores {q : Nat} := @writeFenceCtl_restores s w.val.toNat q
  have both {q : Nat} := @writeFenceCtl_both s w.val.toNat q
  refine ⟨_, exec_fenceCtl either s, ?_⟩
  generalize s.registerCommand 0x5A02800 w = t at done
  generalize s.writeFenceCtl w.val.toNat = u at *
  unfold onlyCounts at done
  rw [done]
  refine ⟨rfl, memory, fun q below => ⟨fun asked only live idle => ?_, restores below, both below⟩⟩
  have out := fences below asked only live idle
  exact ⟨out.fence, out.empty, out.elsewhere⟩

/-- A fence that is no register write: the bridge timeout's, or a regulator fault's (R294). -/
theorem exec_bridgeTimeout_stopped {s : State} {q : QuarterId} (stopped : s.stop.stopped = true) : exec (.bridgeTimeout q) s = .next s :=
  congrArg Host.Outcome.next (if_pos stopped)

theorem exec_bridgeTimeout {s : State} {q : QuarterId} (going : s.stop.stopped = false) :
    exec (.bridgeTimeout q) s = .next (s.beginFence q.val 3) :=
  congrArg Host.Outcome.next (if_neg (by rw [going]; exact Bool.false_ne_true))

/-- A regulator fault is reported for its die. -/
def phaseFaulted (s : State) (q : Nat) : State := s.modDie q (fun d => { d with phflt := true })

theorem exec_phaseFault (s : State) (q : QuarterId) : exec (.phaseFault q) s = .next ((phaseFaulted s q.val).beginFence q.val 2) := rfl

theorem phaseFaulted_reports (s : State) (q : Nat) : (Table.get {} (phaseFaulted s q).power.dies q).phflt = true := by
  unfold phaseFaulted State.modDie State.modPower
  dsimp only
  rw [Table.get_set_same]

end Sys2Proof.Proofs

/-! Fences complete and quarters are restored (R294, R298, R379, R479). -/

namespace Sys2Proof.Proofs
open Sys2Proof Sys2Proof.Machine

/-! An interrupt that is raised. -/

/-- An interrupt moves partitions' moderation, a core's interrupt file, what is sent and the log; every record stays on its way, and every core
keeps the cause of its next start. -/
structure raisesOnly (s t : State) : Prop where
  frame : t = { s with parts := t.parts, harts := t.harts, out := t.out, elog := t.elog }
  records : ∀ e, e ∈ s.elog.transit → e ∈ t.elog.transit
  starts : ∀ c, (t.hart c).startCause = (s.hart c).startCause

theorem raisesOnly.trans {s t u : State} (h : raisesOnly s t) (k : raisesOnly t u) : raisesOnly s u :=
  ⟨by rw [k.frame, h.frame], fun e mem => k.records e (h.records e mem), fun c => (k.starts c).trans (h.starts c)⟩

theorem raisesOnly_modPart (s : State) (p : Nat) (f : Part → Part) : raisesOnly s (s.modPart p f) := ⟨rfl, fun _ => id, fun _ => rfl⟩

theorem raisesOnly.refl (s : State) : raisesOnly s s := ⟨rfl, fun _ => id, fun _ => rfl⟩

theorem raisesOnly_emit (s : State) (o : Out) : raisesOnly s (s.emit o) := ⟨rfl, fun _ => id, fun _ => rfl⟩

theorem raisesOnly_logErr (s : State) (unit part code addr : Nat) : raisesOnly s (s.logErr unit part code addr) :=
  ⟨rfl, fun _ mem => List.mem_append_left _ mem, fun _ => rfl⟩

theorem raisesOnly_sendInt (s : State) (p : Nat) (t : IntTarget) (regUnit regAddr : Nat) : raisesOnly s (s.sendInt p t regUnit regAddr).1 := by
  unfold State.sendInt
  split
  · dsimp only
    split
    · exact .refl s
    · split
      · dsimp only
        exact raisesOnly_modPart ..
      · exact raisesOnly_emit ..
  · next h v =>
    dsimp only
    split
    · refine raisesOnly.trans (t := s.modHart h (fun x => { x with eip := Table.set false x.eip v true })) ⟨rfl, fun _ => id, fun c => ?_⟩
        (raisesOnly_emit ..)
      rw [State.modHart_hart]
      split
      · next same => rw [same]
      · rfl
    · exact raisesOnly_logErr ..

theorem raisesOnly_sendModerated (s : State) (p : Nat) (t : IntTarget) (regUnit regAddr : Nat) :
    raisesOnly s (s.sendModerated p t regUnit regAddr) := by
  have sent := raisesOnly_sendInt s p t regUnit regAddr
  unfold State.sendModerated
  extract_lets r
  split
  · exact sent.trans (raisesOnly_modPart ..)
  · exact sent

theorem raisesOnly_raiseInt (s : State) (p : Nat) (t : IntTarget) (regUnit regAddr : Nat) : raisesOnly s (s.raiseInt p t regUnit regAddr) := by
  unfold State.raiseInt
  extract_lets x
  split
  · exact .refl s
  · split
    · split
      · exact raisesOnly_modPart ..
      · split <;> exact raisesOnly_modPart ..
    · split
      · exact raisesOnly_modPart ..
      · exact raisesOnly_sendModerated ..

theorem raisesOnly_raiseManagement (s : State) : raisesOnly s s.raiseManagement := raisesOnly_raiseInt ..

/-! What a trace and a raised interrupt keep together. -/

/-- Squares, their owners, fences, supply and memory are as they were; every record stays on its way, and every core keeps the cause of its next
start. -/
structure reportsOnly (s t : State) : Prop where
  squares : t.squares = s.squares
  owners : t.sqOwn = s.sqOwn
  fences : t.fences = s.fences
  power : t.power = s.power
  mem : t.mem = s.mem
  records : ∀ e, e ∈ s.elog.transit → e ∈ t.elog.transit
  starts : ∀ c, (t.hart c).startCause = (s.hart c).startCause

theorem reportsOnly.trans {s t u : State} (h : reportsOnly s t) (k : reportsOnly t u) : reportsOnly s u where
  squares := k.squares.trans h.squares
  owners := k.owners.trans h.owners
  fences := k.fences.trans h.fences
  power := k.power.trans h.power
  mem := k.mem.trans h.mem
  records := fun e mem => k.records e (h.records e mem)
  starts := fun c => (k.starts c).trans (h.starts c)

theorem raisesOnly.reportsOnly {s t : State} (h : raisesOnly s t) : reportsOnly s t := by
  obtain ⟨frame, records, starts⟩ := h
  exact ⟨by rw [frame], by rw [frame], by rw [frame], by rw [frame], by rw [frame], records, starts⟩

theorem onlyPorts.reportsOnly {s t : State} (h : onlyPorts s t) : reportsOnly s t := by
  unfold onlyPorts at h
  exact ⟨by rw [h], by rw [h], by rw [h], by rw [h], by rw [h], fun e mem => by rw [h]; exact mem, fun c => by rw [h]; rfl⟩

/-- A trace event of quarters, and the management interrupt after it. -/
theorem reportsOnly_announce (s : State) (cls event part unit a b : Nat) :
    reportsOnly s (s.trace cls event part unit a b).raiseManagement :=
  (onlyPorts_trace s cls event part unit a b).reportsOnly.trans (raisesOnly_raiseManagement _).reportsOnly

/-! A fence completes. -/

/-- The fence's record, and what the quarter shows of it. -/
def fenceEnded (s : State) (q : Nat) : State :=
  (s.modFence q (fun g => { g with busy := false, cause := g.pendCause })).modDie q (fun d => { d with off := true, core := 0 })

theorem endFence_eq {s : State} {q : Nat} (busy : (s.fence q).busy = true) (out : (s.fence q).fenced = true)
    (fencing : (s.fence q).restoring = false) :
    s.endFence q = (((fenceEnded s q).logErr (unitQuarter q) 0 eAborted (globalOf (wellBase q))).trace 6 0x0D 0 (unitQuarter q) q
      (s.fence q).pendCause).raiseManagement := if_pos ⟨busy, out, fencing⟩

theorem recordAddr_globalOf (s : State) (a : Nat) : s.recordAddr (globalOf a) = globalOf a := by
  have low : globalOf a % 2 ^ 44 = a % 2 ^ 44 := by unfold globalOf; omega
  unfold State.recordAddr
  split
  · unfold globalOf at low ⊢
    rw [low]
  · rfl

theorem globalOf_wellBase {q : Nat} (below : q < 8) : globalOf (wellBase q) = 0xFFF * 2 ^ 44 + 0x1000000000 * q := by
  unfold globalOf wellBase
  omega

theorem fenceComplete_ends {s : State} {q : QuarterId} (out : (s.fence q.val).fenced = true) (busy : (s.fence q.val).busy = true)
    (fencing : (s.fence q.val).restoring = false) :
    ∃ t, exec (.fenceComplete q) s = .next t ∧ sameMemory s t ∧ t.squares = s.squares ∧
      t.fence q.val = { s.fence q.val with busy := false, cause := (s.fence q.val).pendCause } ∧
      (Table.get {} t.power.dies q.val).off = true ∧
      ∃ e, e ∈ t.elog.transit ∧ e.code = 11 ∧ e.unit = 0xB0 + q.val ∧ e.part = 0 ∧ e.stamp = s.time ∧
        e.addr = 0xFFF * 2 ^ 44 + 0x1000000000 * q.val := by
  have run : exec (.fenceComplete q) s = .next (s.endFence q.val) := rfl
  rw [endFence_eq busy out fencing] at run
  have announced := reportsOnly_announce ((fenceEnded s q.val).logErr (unitQuarter q.val) 0 eAborted (globalOf (wellBase q.val))) 6 0x0D 0
    (unitQuarter q.val) q.val (s.fence q.val).pendCause
  refine ⟨_, run, ?_⟩
  generalize State.raiseManagement _ = t at announced
  have fence : (fenceEnded s q.val).fence q.val = { s.fence q.val with busy := false, cause := (s.fence q.val).pendCause } :=
    State.modFence_fence_same s q.val (fun g => { g with busy := false, cause := g.pendCause })
  have dark : (Table.get {} (fenceEnded s q.val).power.dies q.val).off = true := by
    unfold fenceEnded State.modDie State.modPower
    dsimp only
    rw [Table.get_set_same]
  refine ⟨sameMemory.of_mem announced.mem, announced.squares, (fence_of_fences announced.fences q.val).trans fence, ?_, ?_⟩
  · rw [announced.power]
    exact dark
  · exact ⟨_, announced.records _ (List.mem_append_right _ (List.mem_singleton.mpr rfl)), rfl, rfl, rfl, rfl,
      (recordAddr_globalOf _ _).trans (globalOf_wellBase q.isLt)⟩

end Sys2Proof.Proofs

/-! A quarter is restored (R298, R448, R450, R479). -/

namespace Sys2Proof.Proofs
open Sys2Proof Sys2Proof.Machine

/-! The cleared memory: the cisterns of the quarter's squares, and its well (R298). -/

/-- Memory with the quarter's cisterns and its well cleared. -/
def quarterCleared (s : State) (q : Nat) : State := (forAll (squaresOf q) State.zeroCistern s).zeroWell q

/-- A byte reads zero. -/
def byteIs (a : Nat) (v : Byte) (s : State) : Prop := s.byte a = v

theorem byteIs_zeroCistern {s : State} {a : Nat} (zero : byteIs a 0 s) (u : Nat) : byteIs a 0 (s.zeroCistern u) := by
  refine (s.zero_byte _ _ a).trans ?_
  split
  · rfl
  · exact zero

theorem zeroCistern_byte_inside (s : State) {u o : Nat} (h : o < 2 ^ 24) : byteIs (cisternAddr u o) 0 (s.zeroCistern u) := by
  refine (s.zero_byte _ _ _).trans (if_pos ?_)
  unfold cisternAddr
  omega

theorem zeroWell_byte_inside (s : State) {q a : Nat} (h : a / 2 ^ 36 = q) : byteIs a 0 (s.zeroWell q) := by
  refine (s.zero_byte _ _ _).trans (if_pos ?_)
  unfold wellBase
  omega

theorem zeroWell_byte_zero {s : State} {a : Nat} (zero : byteIs a 0 s) (q : Nat) : byteIs a 0 (s.zeroWell q) := by
  refine (s.zero_byte _ _ a).trans ?_
  split
  · rfl
  · exact zero

theorem quarterCleared_well (s : State) {q a : Nat} (h : a / 2 ^ 36 = q) : byteIs a 0 (quarterCleared s q) := zeroWell_byte_inside _ h

theorem quarterCleared_cistern (s : State) {q u o : Nat} (square : u < 16) (inside : o < 2 ^ 24) :
    byteIs (cisternAddr (16 * q + u) o) 0 (quarterCleared s q) :=
  zeroWell_byte_zero (forAll_reaches (f := State.zeroCistern) (P := fun _ => True) (Q := byteIs (cisternAddr (16 * q + u) o) 0)
    (mem_squaresOf square) (fun t _ => zeroCistern_byte_inside t inside) (fun _ _ _ => trivial) (fun _ v h => byteIs_zeroCistern h v)
    trivial) q

theorem quarterCleared_other (s : State) {q a : Nat} (well : a / 2 ^ 36 ≠ q)
    (cistern : a < cisternAddr (16 * q) 0 ∨ cisternAddr (16 * q + 16) 0 ≤ a) : byteIs a (s.byte a) (quarterCleared s q) := by
  have cisterns : byteIs a (s.byte a) (forAll (squaresOf q) State.zeroCistern s) := by
    refine forAll_keeps (P := byteIs a (s.byte a)) (fun t u mem h => ?_) rfl
    obtain ⟨k, below, rfl⟩ := List.mem_map.mp mem
    have below := mem_upto.mp below
    refine ((t.zero_byte _ _ a).trans (if_neg ?_)).trans h
    unfold cisternAddr at cistern ⊢
    omega
  refine ((State.zero_byte _ _ _ a).trans (if_neg ?_)).trans cisterns
  unfold wellBase
  omega

/-! The squares' owners. -/

/-- A square's owner once its quarter is restored: a handover that the fence ended has taken place. -/
def restoredOwner (o : SquareOwner) : SquareOwner :=
  { o with busy := false, cleaned := false, eff := ownerEff o, moveTo := ownerEff o, moved := (o.valid, o.owner) }

/-- A square of a restored quarter. -/
def restoreSquare (t : State) (u : Nat) : State :=
  (((t.setSq u {}).clearSquareCounters u).forgetFar (.handover u)).setOwner u (restoredOwner (t.owner u))

/-- A square holds nothing, and has the restored owner. -/
structure squareRestored (u : Nat) (o : SquareOwner) (t : State) : Prop where
  empty : t.sq u = {}
  owner : t.owner u = restoredOwner o

def ownerIs (u : Nat) (o : SquareOwner) (t : State) : Prop := t.owner u = o

theorem restoreSquare_sq (t : State) (u v : Nat) : (restoreSquare t u).sq v = if v = u then {} else t.sq v := State.setSq_sq t u {} v

theorem restoreSquare_owner (t : State) (u v : Nat) : (restoreSquare t u).owner v = if v = u then restoredOwner (t.owner u) else t.owner v :=
  State.setOwner_owner _ u _ v

theorem nodup_squaresOf (q : Nat) : (squaresOf q).Nodup := (nodup_upto 16).map fun _ _ same => Nat.add_left_cancel same

theorem restoreSquares_at (s : State) {q u : Nat} (below : u < 16) :
    squareRestored (16 * q + u) (s.owner (16 * q + u)) (forAll (squaresOf q) restoreSquare s) := by
  refine forAll_at (f := restoreSquare) (P := ownerIs (16 * q + u) (s.owner (16 * q + u))) (Q := squareRestored (16 * q + u) (s.owner (16 * q + u)))
    (nodup_squaresOf q) (mem_squaresOf below) (fun t v other h => ?_) (fun t h => ?_) (fun t v other h => ?_) rfl
  · exact (restoreSquare_owner ..).trans ((if_neg other.symm).trans h)
  · exact ⟨by rw [restoreSquare_sq, if_pos rfl], by rw [restoreSquare_owner, if_pos rfl, show t.owner (16 * q + u) = _ from h]⟩
  · exact ⟨by rw [restoreSquare_sq, if_neg other.symm, h.empty], by rw [restoreSquare_owner, if_neg other.symm, h.owner]⟩

/-! What the end of a restore leaves. -/

/-- Fences and memory are as they were. -/
structure squaresOnly (s t : State) : Prop where
  fences : t.fences = s.fences
  mem : t.mem = s.mem

theorem squaresOnly_restoreSquare (t : State) (u : Nat) : squaresOnly t (restoreSquare t u) := ⟨rfl, rfl⟩

theorem squaresOnly_restoreSquares (s : State) (q : Nat) : squaresOnly s (forAll (squaresOf q) restoreSquare s) :=
  forAll_keeps (P := squaresOnly s) (fun t u _ h =>
    ⟨(squaresOnly_restoreSquare t u).fences.trans h.fences, (squaresOnly_restoreSquare t u).mem.trans h.mem⟩) ⟨rfl, rfl⟩

/-- Squares, their owners, fences and memory are as they were. -/
structure ownersKept (s t : State) : Prop where
  squares : t.squares = s.squares
  owners : t.sqOwn = s.sqOwn
  fences : t.fences = s.fences
  mem : t.mem = s.mem

theorem ownersKept.trans {s t u : State} (h : ownersKept s t) (k : ownersKept t u) : ownersKept s u :=
  ⟨k.squares.trans h.squares, k.owners.trans h.owners, k.fences.trans h.fences, k.mem.trans h.mem⟩

theorem ownersKept.forAll {α : Type} {f : State → α → State} (keeps : ∀ t x, ownersKept t (f t x)) (xs : List α) (s : State) :
    ownersKept s (forAll xs f s) :=
  forAll_keeps (P := ownersKept s) (fun t x _ h => h.trans (keeps t x)) ⟨rfl, rfl, rfl, rfl⟩

theorem reportsOnly.ownersKept {s t : State} (h : reportsOnly s t) : ownersKept s t := ⟨h.squares, h.owners, h.fences, h.mem⟩

theorem ownersKept_modPower (s : State) (f : Power → Power) : ownersKept s (s.modPower f) := ⟨rfl, rfl, rfl, rfl⟩

theorem ownersKept_modHart (s : State) (c : Nat) (f : Hart → Hart) : ownersKept s (s.modHart c f) := ⟨rfl, rfl, rfl, rfl⟩

/-- A core's next start starts it anew, with a cause. -/
def startsWith (c cause : Nat) (s : State) : Prop := (s.hart c).startCause = some cause

theorem ownersKept_setRails (s : State) : ownersKept s s.setRails := by
  unfold State.setRails
  split
  · exact .forAll (fun t d => ownersKept_modPower t _) _ _
  · exact ⟨rfl, rfl, rfl, rfl⟩

theorem startsWith_setRails {s : State} {c cause : Nat} (starts : startsWith c cause s) : startsWith c cause s.setRails := by
  unfold State.setRails
  split
  · refine forAll_keeps (P := startsWith c cause) (fun t d _ h => ?_) starts
    exact h
  · exact starts

/-- A core's cause of its next start is set. -/
def restoreCore (q : Nat) (t : State) (h : Nat) : State := t.modHart (6 * q + h) (fun c => { c with startCause := some 4 })

theorem restoreCores_start (s : State) {q h : Nat} (below : h < 6) : startsWith (6 * q + h) 4 (forAll (upto 6) (restoreCore q) s) := by
  refine forAll_reaches (P := fun _ => True) (Q := startsWith (6 * q + h) 4) (mem_upto.mpr below) (fun t _ => ?_) (fun _ _ _ => trivial)
    (fun t k starts => ?_) trivial
  · exact congrArg Hart.startCause (State.modHart_hart_same t (6 * q + h) (fun c => { c with startCause := some 4 }))
  · unfold startsWith restoreCore
    rw [State.modHart_hart]
    split
    · rfl
    · exact starts

/-- A restored quarter's fence: it is in service, and no cause is left. -/
def fenceLifted (f : QuarterFence) : QuarterFence := { f with fenced := false, busy := false, restoring := false, cause := 0, pendCause := 0 }

/-- What a restore leaves of a quarter (R298). -/
structure quarterRestored (q : Nat) (s t : State) : Prop where
  fence : t.fence q = fenceLifted (s.fence q)
  square : ∀ u, u < 16 → squareRestored (16 * q + u) (s.owner (16 * q + u)) t
  mem : t.mem = (quarterCleared s q).mem

theorem quarterRestored.trans {q : Nat} {s t u : State} (h : quarterRestored q s t) (k : ownersKept t u) : quarterRestored q s u where
  fence := (fence_of_fences k.fences q).trans h.fence
  square := fun v below => ⟨by rw [State.sq, k.squares]; exact (h.square v below).empty,
    by rw [State.owner, k.owners]; exact (h.square v below).owner⟩
  mem := k.mem.trans h.mem

theorem onlyWrites_zeroCistern (s : State) (u : Nat) : onlyWrites s (s.zeroCistern u) := rfl

theorem onlyWrites_zeroWell (s : State) (q : Nat) : onlyWrites s (s.zeroWell q) := rfl

theorem onlyWrites_quarterCleared (s : State) (q : Nat) : onlyWrites s (quarterCleared s q) := by
  have cisterns : onlyWrites s (forAll (squaresOf q) State.zeroCistern s) :=
    forAll_keeps (P := onlyWrites s) (fun t u _ h => h.trans (onlyWrites_zeroCistern t u)) rfl
  exact cisterns.trans (onlyWrites_zeroWell _ q)

theorem onlyWrites.quarter {s t : State} (h : onlyWrites s t) : t.fences = s.fences ∧ t.sqOwn = s.sqOwn := by
  unfold onlyWrites at h
  exact ⟨by rw [h], by rw [h]⟩

theorem quarterRestored_modFence {s t : State} {q : Nat} (fences : t.fences = s.fences)
    (square : ∀ u, u < 16 → squareRestored (16 * q + u) (s.owner (16 * q + u)) t) (mem : t.mem = (quarterCleared s q).mem) :
    quarterRestored q s (t.modFence q fenceLifted) where
  fence := by rw [State.modFence_fence_same, fence_of_fences fences]
  square := fun u below => ⟨(square u below).empty, (square u below).owner⟩
  mem := mem

/-- The squares, the cisterns, the well and the fence of a quarter, as its restore leaves them. -/
theorem quarterRestored_fence (s : State) (q : Nat) :
    quarterRestored q s ((forAll (squaresOf q) restoreSquare (quarterCleared s q)).modFence q fenceLifted) := by
  obtain ⟨fences, owners⟩ := (onlyWrites_quarterCleared s q).quarter
  have same (u : Nat) : (quarterCleared s q).owner u = s.owner u := by
    unfold State.owner
    rw [owners]
  have kept := squaresOnly_restoreSquares (quarterCleared s q) q
  exact quarterRestored_modFence (kept.fences.trans fences) (fun u below => same (16 * q + u) ▸ restoreSquares_at _ below) kept.mem

/-- The ports of a restored quarter train again, or stay down (R298). -/
def restorePort (t : State) (n : Nat) : State := if (t.port n).en then t.setPortDown n 1 else t.setPortDown n 0

theorem ownersKept_restorePort (t : State) (n : Nat) : ownersKept t (restorePort t n) := by
  unfold restorePort
  split <;> exact (onlyPorts_setPortDown ..).reportsOnly.ownersKept

theorem endRestore_restores {s : State} {q : Nat} (busy : (s.fence q).busy = true) (restoring : (s.fence q).restoring = true)
    (gone : s.causePresent q = false) :
    quarterRestored q s (s.endRestore q true) ∧ ∀ h, h < 6 → startsWith (6 * q + h) 4 (s.endRestore q true) := by
  have fence := quarterRestored_fence s q
  unfold State.endRestore
  extract_lets f s1 s2 s3 s4 s5 s6 s7
  have lifted : quarterRestored q s s3 := fence
  have ports : ownersKept s3 s4 := .forAll ownersKept_restorePort _ _
  have rails : ownersKept s4 s6 := (ownersKept_modPower s4 _).trans (t := s5) ⟨rfl, rfl, rfl, rfl⟩
  have cores : ownersKept s6 s7 := .forAll (fun t h => ownersKept_modHart t _ _) _ _
  have starts (h : Nat) (below : h < 6) : startsWith (6 * q + h) 4 s7 := restoreCores_start s6 below
  have all := lifted.trans ((ports.trans rails).trans cores)
  clear_value s7
  rw [if_pos ⟨busy, restoring⟩, if_neg (by rw [gone]; exact Bool.false_ne_true)]
  have target : ownersKept s7 s7.clampTarget.setRails := (ownersKept_modPower s7 _).trans (ownersKept_setRails _)
  have announced := reportsOnly_announce s7.clampTarget.setRails 6 0x0D 0 (unitQuarter q) q 0
  refine ⟨(all.trans target).trans announced.ownersKept, fun h below => (announced.starts _).trans ?_⟩
  exact startsWith_setRails (s := s7.clampTarget) (starts h below)

/-! The commands. -/

theorem restoreDone_restores {s : State} {q : QuarterId} (busy : (s.fence q.val).busy = true) (restoring : (s.fence q.val).restoring = true)
    (gone : s.causePresent q.val = false) :
    ∃ t, exec (.restoreDone q true) s = .next t ∧
      t.fence q.val = { s.fence q.val with fenced := false, busy := false, restoring := false, cause := 0, pendCause := 0 } ∧
      (∀ u, u < 16 → t.sq (16 * q.val + u) = {} ∧ (t.owner (16 * q.val + u)).busy = false ∧
        (t.owner (16 * q.val + u)).eff = (if (s.owner (16 * q.val + u)).valid then (s.owner (16 * q.val + u)).owner + 1 else 0)) ∧
      (∀ h, h < 6 → (t.hart (6 * q.val + h)).startCause = some 4) ∧
      (∀ a, a / 2 ^ 36 = q.val → t.byte a = 0) ∧ (∀ u o, u < 16 → o < 2 ^ 24 → t.byte (cisternAddr (16 * q.val + u) o) = 0) ∧
      ∀ a, a / 2 ^ 36 ≠ q.val → (a < cisternAddr (16 * q.val) 0 ∨ cisternAddr (16 * q.val + 16) 0 ≤ a) → t.byte a = s.byte a := by
  obtain ⟨restored, starts⟩ := endRestore_restores busy restoring gone
  have run : exec (.restoreDone q true) s = .next (s.endRestore q.val true) := rfl
  refine ⟨_, run, ?_⟩
  generalize s.endRestore q.val true = t at restored starts
  have byte (a : Nat) : t.byte a = (quarterCleared s q.val).byte a := sameMemory.of_mem restored.mem a
  refine ⟨restored.fence, fun u below => ?_, starts, fun a well => ?_, fun u o below inside => ?_, fun a well cistern => ?_⟩
  · obtain ⟨empty, owner⟩ := restored.square u below
    exact ⟨empty, by rw [owner]; rfl, by rw [owner]; rfl⟩
  · exact (byte a).trans (quarterCleared_well s well)
  · exact (byte _).trans (quarterCleared_cistern s below inside)
  · exact (byte a).trans (quarterCleared_other s well cistern)

theorem restoreDone_fails {s : State} {q : QuarterId} {b : Bool} (busy : (s.fence q.val).busy = true)
    (restoring : (s.fence q.val).restoring = true) (fails : s.causePresent q.val = true ∨ b = false) :
    ∃ t, exec (.restoreDone q b) s = .next t ∧ sameMemory s t ∧
      t.fence q.val = { s.fence q.val with busy := false, restoring := false, rfail := true } := by
  have refused : (s.causePresent q.val || !b) = true := by rcases fails with h | h <;> simp [h]
  have run : s.endRestore q.val b =
      (s.modFence q.val (fun g => { g with busy := false, restoring := false, rfail := true })).raiseManagement := by
    unfold State.endRestore
    extract_lets f s1 s2 s3 s4 s5 s6 s7
    rw [if_pos ⟨busy, restoring⟩, if_pos refused]
  have raised := (raisesOnly_raiseManagement (s.modFence q.val (fun g => { g with busy := false, restoring := false, rfail := true }))).reportsOnly
  exact ⟨_, congrArg Host.Outcome.next run, sameMemory.of_mem raised.mem,
    (fence_of_fences raised.fences q.val).trans
      (State.modFence_fence_same s q.val (fun g => { g with busy := false, restoring := false, rfail := true }))⟩

end Sys2Proof.Proofs

/-! Extents (R273 to R275), and O43. -/

namespace Sys2Proof.Proofs
open Sys2Proof Sys2Proof.Machine

/-! A scrub. -/

/-- Extents, the part and the log are as they were. -/
structure extentsKept (s t : State) : Prop where
  extents : t.extents = s.extents
  isM : t.isM = s.isM
  elog : t.elog = s.elog
  mem : t.mem = s.mem

theorem extentsKept.refl (s : State) : extentsKept s s := ⟨rfl, rfl, rfl, rfl⟩

theorem extentsKept.trans {s t u : State} (h : extentsKept s t) (k : extentsKept t u) : extentsKept s u :=
  ⟨k.extents.trans h.extents, k.isM.trans h.isM, k.elog.trans h.elog, k.mem.trans h.mem⟩

theorem extentsKept.forAll {α : Type} {f : State → α → State} (keeps : ∀ t x, extentsKept t (f t x)) (xs : List α) (s : State) :
    extentsKept s (forAll xs f s) :=
  forAll_keeps (P := extentsKept s) (fun t x _ h => h.trans (keeps t x)) (.refl s)

theorem extentsKept_freeSeal (s : State) (i : Nat) : extentsKept s ((s.setSeal i {}).forgetPins i) := ⟨rfl, rfl, rfl, rfl⟩

theorem extentsKept_freeSealsIn (s : State) (n : Nat) : extentsKept s (s.freeSealsIn n) := by
  unfold State.freeSealsIn
  refine .forAll (fun t i => ?_) _ s
  dsimp only
  split
  · exact extentsKept_freeSeal t i
  · exact .refl t

theorem extentsKept_modSq (s : State) (u : Nat) (f : Square → Square) : extentsKept s (s.modSq u f) := ⟨rfl, rfl, rfl, rfl⟩

theorem extentsKept_discardNearRange (s : State) (lo hi : Nat) : extentsKept s (s.discardNearRange lo hi) :=
  .forAll (fun t u => extentsKept_modSq t u _) _ s

theorem extentsKept_discardCoreLines (s : State) (lo hi : Nat) : extentsKept s (s.discardCoreLines lo hi) := ⟨rfl, rfl, rfl, rfl⟩

theorem extent_of_extents {s t : State} (h : t.extents = s.extents) (k : Nat) : t.extent k = s.extent k := by
  unfold State.extent
  rw [h]

/-- An address lies in an extent. -/
def inExtent (n a : Nat) : Prop := extentBase n ≤ a ∧ a < extentBase n + 2 ^ 28

/-- An extent is scrubbed with new fields: it alone changes, its bytes read zero, and the log gains nothing (R275). -/
structure scrubbed (n : Nat) (e : Extent) (s t : State) : Prop where
  extent : t.extent n = e
  others : ∀ k, k ≠ n → t.extent k = s.extent k
  isM : t.isM = s.isM
  elog : t.elog = s.elog
  inside : ∀ a, inExtent n a → t.byte a = 0
  outside : ∀ a, ¬ inExtent n a → t.byte a = s.byte a

theorem scrubbed_startScrub (s : State) (n : Nat) (valid : Bool) (owner : Nat) :
    scrubbed n ⟨valid, true, owner⟩ s (s.startScrub n valid owner) := by
  unfold State.startScrub
  extract_lets lo s1
  have freed := extentsKept_freeSealsIn s1 n
  generalize s1.freeSealsIn n = f at *
  have discarded := (extentsKept_discardNearRange (f.zero lo (lo + 2 ^ 28)) lo (lo + 2 ^ 28)).trans (extentsKept_discardCoreLines _ lo (lo + 2 ^ 28))
  generalize State.discardCoreLines _ lo (lo + 2 ^ 28) = t at *
  have byte (a : Nat) : t.byte a = (f.zero lo (lo + 2 ^ 28)).byte a := sameMemory.of_mem discarded.mem a
  have before (a : Nat) : f.byte a = s.byte a := sameMemory.of_mem freed.mem a
  have extent (k : Nat) : t.extent k = s1.extent k := extent_of_extents (discarded.extents.trans freed.extents) k
  exact {
    extent := (extent n).trans (State.setExtent_extent_same s n _)
    others := fun k other => (extent k).trans (by rw [State.setExtent_extent, if_neg other])
    isM := discarded.isM.trans freed.isM
    elog := discarded.elog.trans freed.elog
    inside := fun a inside => (byte a).trans ((f.zero_byte _ _ a).trans (if_pos inside))
    outside := fun a outside => (byte a).trans (((f.zero_byte _ _ a).trans (if_neg outside)).trans (before a)) }

/-! A write of PTN_XTENT (R274). -/

/-- The write gives extent `8 n + i` other fields than it has. -/
def givesNew (n : Nat) (w : RegWrite) (s : State) (i : Nat) : Prop :=
  s.extentExists (8 * n + i) = true ∧ ((s.extent (8 * n + i)).valid, (s.extent (8 * n + i)).owner) ≠ entryFields w i

/-- What a full write does for one extent. -/
def xtentStep (n : Nat) (w : RegWrite) (t : State) (i : Nat) : State :=
  if halfCovers .full i && t.extentExists (8 * n + i) && ((t.extent (8 * n + i)).valid != w.val.toNat.testBit (8 * i + 7) ||
    (t.extent (8 * n + i)).owner != bits w.val.toNat (8 * i) 4) then
    t.startScrub (8 * n + i) (w.val.toNat.testBit (8 * i + 7)) (bits w.val.toNat (8 * i) 4)
  else t

theorem writeXtent_eq (s : State) (n : Nat) (w : RegWrite) : s.writeXtent n .full w.val.toNat = forAll (upto 8) (xtentStep n w) s := rfl

theorem xtentStep_cond (n : Nat) (w : RegWrite) (t : State) (i : Nat) :
    (halfCovers .full i && t.extentExists (8 * n + i) && ((t.extent (8 * n + i)).valid != w.val.toNat.testBit (8 * i + 7) ||
      (t.extent (8 * n + i)).owner != bits w.val.toNat (8 * i) 4)) = true ↔ givesNew n w t i := by
  simp [givesNew, entryFields, halfCovers, Prod.ext_iff]
  tauto

/-- An extent as a write leaves it that gives it new fields. -/
def newExtent (w : RegWrite) (i : Nat) : Extent := ⟨(entryFields w i).1, true, (entryFields w i).2⟩

theorem xtentStep_scrubs {n i : Nat} {w : RegWrite} {t : State} (new : givesNew n w t i) :
    scrubbed (8 * n + i) (newExtent w i) t (xtentStep n w t i) := by
  unfold xtentStep
  rw [if_pos ((xtentStep_cond n w t i).mpr new)]
  exact scrubbed_startScrub ..

theorem xtentStep_keeps {n i : Nat} {w : RegWrite} {t : State} (old : ¬ givesNew n w t i) : xtentStep n w t i = t :=
  if_neg (mt (xtentStep_cond n w t i).mp old)

/-- What the entry of one extent leaves of another, and of the part and the log. -/
theorem xtentStep_frame (n : Nat) (w : RegWrite) (t : State) (i : Nat) :
    (∀ k, k ≠ 8 * n + i → (xtentStep n w t i).extent k = t.extent k) ∧ (xtentStep n w t i).isM = t.isM ∧
      (xtentStep n w t i).elog = t.elog ∧ ∀ a, t.byte a = 0 → (xtentStep n w t i).byte a = 0 := by
  by_cases new : givesNew n w t i
  · have done := xtentStep_scrubs new
    refine ⟨done.others, done.isM, done.elog, fun a zero => ?_⟩
    by_cases inside : inExtent (8 * n + i) a
    · exact done.inside a inside
    · rw [done.outside a inside, zero]
  · rw [xtentStep_keeps new]
    exact ⟨fun _ _ => rfl, rfl, rfl, fun _ => id⟩

theorem givesNew_congr {n i : Nat} {w : RegWrite} {s t : State} (extent : t.extent (8 * n + i) = s.extent (8 * n + i)) (isM : t.isM = s.isM) :
    givesNew n w t i ↔ givesNew n w s i := by
  unfold givesNew State.extentExists
  rw [extent, isM]

section
variable {s : State} {n i : Nat} {w : RegWrite}

/-- An extent has new fields, is being scrubbed, and reads zero. -/
structure extentNew (n : Nat) (w : RegWrite) (i : Nat) (t : State) : Prop where
  extent : t.extent (8 * n + i) = newExtent w i
  zero : ∀ a, inExtent (8 * n + i) a → t.byte a = 0

/-- An extent is as it was in `s`, on the same part. -/
structure extentOld (m : Nat) (s t : State) : Prop where
  extent : t.extent m = s.extent m
  isM : t.isM = s.isM

theorem writeXtent_new (below : i < 8) (new : givesNew n w s i) : extentNew n w i (s.writeXtent n .full w.val.toNat) := by
  rw [writeXtent_eq]
  refine forAll_at (P := extentOld (8 * n + i) s) (nodup_upto 8) (mem_upto.mpr below) (fun t k other old => ?_) (fun t old => ?_)
    (fun t k other h => ?_) ⟨rfl, rfl⟩
  · obtain ⟨others, isM, -, -⟩ := xtentStep_frame n w t k
    exact ⟨(others _ (by omega)).trans old.extent, isM.trans old.isM⟩
  · have done := xtentStep_scrubs ((givesNew_congr old.extent old.isM).mpr new)
    exact ⟨done.extent, done.inside⟩
  · obtain ⟨others, -, -, zero⟩ := xtentStep_frame n w t k
    exact ⟨(others _ (by omega)).trans h.extent, fun a inside => zero a (h.zero a inside)⟩

theorem writeXtent_old {m : Nat} (old : ∀ i, i < 8 → m = 8 * n + i → ¬ givesNew n w s i) :
    (s.writeXtent n .full w.val.toNat).extent m = s.extent m := by
  have kept : extentOld m s (s.writeXtent n .full w.val.toNat) := by
    rw [writeXtent_eq]
    refine forAll_keeps (P := extentOld m s) (fun t i mem h => ?_) ⟨rfl, rfl⟩
    by_cases here : m = 8 * n + i
    · subst here
      rw [xtentStep_keeps (mt (givesNew_congr h.extent h.isM).mp (old i (mem_upto.mp mem) rfl))]
      exact h
    · obtain ⟨others, isM, -, -⟩ := xtentStep_frame n w t i
      exact ⟨(others m here).trans h.extent, isM.trans h.isM⟩
  exact kept.extent

/-- A byte reads as it did in `s`; an extent is as it was, or the write gives it new fields. -/
structure byteOld (n : Nat) (w : RegWrite) (a : Nat) (s t : State) : Prop where
  byte : t.byte a = s.byte a
  isM : t.isM = s.isM
  elog : t.elog = s.elog
  extent : ∀ i, i < 8 → t.extent (8 * n + i) = s.extent (8 * n + i) ∨ givesNew n w s i

theorem writeXtent_outside {a : Nat} (outside : ∀ i, i < 8 → givesNew n w s i → ¬ inExtent (8 * n + i) a) :
    byteOld n w a s (s.writeXtent n .full w.val.toNat) := by
  rw [writeXtent_eq]
  refine forAll_keeps (P := byteOld n w a s) (fun t i mem h => ?_) ⟨rfl, rfl, rfl, fun _ _ => .inl rfl⟩
  have below := mem_upto.mp mem
  by_cases new : givesNew n w t i
  · have done := xtentStep_scrubs new
    have given : givesNew n w s i := (h.extent i below).elim (fun same => (givesNew_congr same h.isM).mp new) id
    refine ⟨(done.outside a (outside i below given)).trans h.byte, done.isM.trans h.isM, done.elog.trans h.elog, fun k small => ?_⟩
    by_cases same : k = i
    · exact .inr (same ▸ given)
    · exact (h.extent k small).imp (fun old => (done.others _ (by omega)).trans old) id
  · rw [xtentStep_keeps new]
    exact h

theorem writeXtent_elog : (s.writeXtent n .full w.val.toNat).elog = s.elog := by
  rw [writeXtent_eq]
  exact forAll_keeps (P := fun t => t.elog = s.elog) (fun t i _ h => (xtentStep_frame n w t i).2.2.1.trans h) rfl

theorem regWrite_xtent (full : w.half = .full) : s.regWrite (.xtent n) (presented w) = (s.writeXtent n .full w.val.toNat, 0) := by
  have same : (presented w).half = .full := full
  have value := presented_full full
  rw [same] at value
  simp only [State.regWrite, same, value]

end

theorem ptnXtentWrite_scrubs {s : State} {n : Fin 1280} {w : RegWrite} (allowed : writeAllowed s (0x5A00000 + 8 * n.val) w (.xtent n.val)) :
    let changed := fun m => 8 * n.val ≤ m ∧ m < 8 * n.val + 8 ∧ s.extentExists m = true ∧
      (((s.extent m).valid, (s.extent m).owner) ≠ entryFields w (m - 8 * n.val))
    ∃ t, exec (.ptnXtentWrite n w) s = .next t ∧ answered s t w ∧
      (∀ m, changed m → t.extent m = ⟨(entryFields w (m - 8 * n.val)).1, true, (entryFields w (m - 8 * n.val)).2⟩ ∧
        ∀ a, extentBase m ≤ a → a < extentBase m + 2 ^ 28 → t.byte a = 0) ∧
      (∀ m, ¬ changed m → t.extent m = s.extent m) ∧
      ∀ a, (∀ m, changed m → a < extentBase m ∨ extentBase m + 2 ^ 28 ≤ a) → t.byte a = s.byte a := by
  intro changed
  have changed_iff (i : Nat) (below : i < 8) : changed (8 * n.val + i) ↔ givesNew n.val w s i := by
    have index : 8 * n.val + i - 8 * n.val = i := by omega
    unfold changed givesNew
    rw [index]
    exact ⟨fun h => h.2.2, fun h => ⟨by omega, by omega, h⟩⟩
  have place {m : Nat} (h : changed m) : ∃ i, i < 8 ∧ m = 8 * n.val + i :=
    ⟨m - 8 * n.val, by have := h.1; have := h.2.1; omega, by have := h.1; omega⟩
  have full := allowed.2.2.1
  have done := registerCommand_of_quiet allowed (by omega) rfl (regWrite_xtent full)
  have new {i : Nat} := @writeXtent_new s n.val i w
  have old {m : Nat} := @writeXtent_old s n.val w m
  have outside {a : Nat} := @writeXtent_outside s n.val w a
  have elog := @writeXtent_elog s n.val w
  have run : exec (.ptnXtentWrite n w) s = .next (s.registerCommand (0x5A00000 + 8 * n.val) w) := rfl
  refine ⟨_, run, ?_⟩
  generalize s.registerCommand (0x5A00000 + 8 * n.val) w = t at done
  generalize s.writeXtent n.val .full w.val.toNat = u at *
  unfold onlyCounts at done
  rw [done]
  refine ⟨⟨rfl, elog⟩, fun m h => ?_, fun m h => old fun i below same gives => h (same ▸ (changed_iff i below).mpr gives),
    fun a apart => ?_⟩
  · obtain ⟨i, below, rfl⟩ := place h
    obtain ⟨extent, zero⟩ := new below ((changed_iff i below).mp h)
    rw [show 8 * n.val + i - 8 * n.val = i by omega]
    exact ⟨extent, fun a low high => zero a ⟨low, high⟩⟩
  · refine (outside fun i below gives inside => ?_).byte
    obtain ⟨low, high⟩ := inside
    have := apart _ ((changed_iff i below).mpr gives)
    omega

theorem scrubComplete_clears {s : State} {m : Fin 10240} (scrubbing : (s.extent m.val).scrub = true) :
    ∃ t, exec (.scrubComplete m) s = .next t ∧ t = { s with extents := t.extents } ∧
      t.extent m.val = { s.extent m.val with scrub := false } ∧ ∀ k, k ≠ m.val → t.extent k = s.extent k := by
  have run : exec (.scrubComplete m) s = .next (s.setExtent m.val { s.extent m.val with scrub := false }) :=
    congrArg Host.Outcome.next (if_pos scrubbing)
  exact ⟨_, run, rfl, State.setExtent_extent_same .., fun k other => by rw [State.setExtent_extent, if_neg other]⟩

theorem bridge_and_phase {s : State} {q : QuarterId} (live : (s.fence q.val).fenced = false) (idle : (s.fence q.val).busy = false) :
    (s.stop.stopped = true → exec (.bridgeTimeout q) s = .next s) ∧
    (s.stop.stopped = false → ∃ t, exec (.bridgeTimeout q) s = .next t ∧ (retriesElsewhere s q.val → sameMemory s t) ∧
      (∀ u, u < 16 → t.sq (16 * q.val + u) = {}) ∧
      t.fence q.val = { s.fence q.val with fenced := true, busy := true, restoring := false, pendCause := 3 } ∧
      ∀ k, k ≠ q.val → t.fence k = s.fence k) ∧
    (∃ t, exec (.phaseFault q) s = .next t ∧ (retriesElsewhere s q.val → sameMemory s t) ∧ (∀ u, u < 16 → t.sq (16 * q.val + u) = {}) ∧
      t.fence q.val = { s.fence q.val with fenced := true, busy := true, restoring := false, pendCause := 2 } ∧
      (Table.get {} t.power.dies q.val).phflt = true ∧ ∀ k, k ≠ q.val → t.fence k = s.fence k) := by
  refine ⟨fun stopped => exec_bridgeTimeout_stopped stopped, fun going => ?_, ?_⟩
  · have out := quarterFenced_beginFence live idle 3
    exact ⟨_, exec_bridgeTimeout going, fun h => sameMemory.of_mem (out.mem h), out.empty, out.fence, out.others⟩
  · have out := quarterFenced_beginFence (s := phaseFaulted s q.val) live idle 2
    exact ⟨_, exec_phaseFault s q, fun h => sameMemory.of_mem (out.mem h), out.empty, out.fence,
      by rw [out.power]; exact phaseFaulted_reports s q.val, out.others⟩

/-- Settles O43: a scrub changes its own extent alone, and a fence and a restore what lies in their own quarter. -/
theorem extentsScrubAndQuartersFence : Obligations.ExtentsScrubAndQuartersFence := by
  unfold Obligations.ExtentsScrubAndQuartersFence
  refine ⟨?write, ?scrub, ?fence, ?causes, ?completes, ?restores⟩
  case write => exact fun s n w allowed => ptnXtentWrite_scrubs allowed
  case scrub => exact fun s m scrubbing => scrubComplete_clears scrubbing
  case fence => exact fun s w i allowed either => exec_fence_or_restore allowed either
  case causes => exact fun s q live idle => bridge_and_phase live idle
  case completes => exact fun s q out busy fencing => fenceComplete_ends out busy fencing
  case restores =>
    exact fun s q busy restoring =>
      ⟨fun gone => restoreDone_restores busy restoring gone, fun b fails => restoreDone_fails busy restoring fails⟩

end Sys2Proof.Proofs
